-- ==== Sys2Proof/Word.lean ====
section
/-! DEFINITION. The words of the machine and their plainest arithmetic. -/

namespace Sys2Proof

/-- A 32-bit word: an instruction word, a vector register element, a PC (R12, R29). -/
abbrev Word := BitVec 32

/-- A 64-bit word: a scalar register, a register pair, a term word. -/
abbrev DWord := BitVec 64

/-- A byte of memory. -/
abbrev Byte := BitVec 8

end Sys2Proof
end

