-- ==== Sys2Proof/Syntax.lean ====
section
/-! DEFINITION. The instruction set as data: one constructor for every row of spec/opcode_table.json.
The first 165 are the 32-bit instruction words (R195 to R215); their arguments are the fields of the
table's row, from the highest bits downwards, `c` and `u` being the C and U bits of R195.
The other 91 are the table's events ("What each step holds"), those that come only from outside last; their arguments
say which part the event befalls and what the outside world brings with it. -/

namespace Sys2Proof

/-- Who writes a register of memory window 0 (R396). -/
inductive Writer where
  | host
  | arbour
deriving DecidableEq, Repr

/-- What a register write carries: how many bytes it writes, and the value (R396). -/
structure WriteData where
  bytes : Nat
  value : BitVec 64
deriving DecidableEq, Repr

/-- Who issued an engine operation: a core, or the Belvedere (R413). -/
inductive EngineParty where
  | core (n : Nat)
  | belvedere
deriving DecidableEq, Repr

/-- A write that reaches its home (R87): a pending store or atomic of a core, or bytes written by a party outside
the cores (the host, Arbour, another package). -/
inductive HomeWrite where
  | pending (core id : Nat)
  | outside (pa : Nat) (bytes : List (BitVec 8))
deriving DecidableEq, Repr

/-- A DMA of an NVMe drive at a virtual address of the space in PSPACE 64 (R447). -/
inductive Dma where
  | read (va len : Nat)
  | write (va : Nat) (bytes : List (BitVec 8))
deriving DecidableEq, Repr

/-- What training a port found (R456): whether it aligned, the partner's node number, and whether the partner is
a switch. -/
structure Training where
  aligned : Bool
  partner : BitVec 10
  isSwitch : Bool
deriving DecidableEq, Repr

/-- One request to a base die (R434): the header's fields, the byte mask of a masked write and its data. -/
structure HbmReq where
  op : BitVec 4
  tag : BitVec 10
  pc : BitVec 6
  len : BitVec 2
  die : BitVec 2
  agent : BitVec 8
  offset : BitVec 36
  mask : List Bool
  data : List (BitVec 8)
deriving DecidableEq, Repr

/-- An error that a scrub pass meets (R462): its source code (R441), where it lies, and whether it is double-bit. -/
structure ScrubError where
  source : BitVec 4
  pa : BitVec 54
  core : Nat
  entry : Nat
  double : Bool
deriving DecidableEq, Repr

/-- An access of the debug interface to a quiescent core (R168); group state beside the vector registers and `vpc` is named
by its place in the group image (R419). `setWatch` is Arbour's setting of a comparator (R170): number, access and data
code, tenant, and the base, length, value and mask of R356. -/
inductive DebugAccess where
  | readGroup (slot off len : Nat)
  | writeGroup (slot off : Nat) (bytes : List (BitVec 8))
  | setWatch (n : Nat) (access data : BitVec 2) (tenant : BitVec 16) (base len value mask : BitVec 64)
  | readSpad (off len : Nat)
  | writeSpad (off : Nat) (bytes : List (BitVec 8))
  | readTile (tile row col : Nat)
  | readTag (tile band col : Nat)
  | writeTag (tile band col : Nat) (value : BitVec 16)
  | writeTile (tile row col : Nat) (value : BitVec 32)
  | readV (slot reg lane : Nat)
  | writeV (slot reg lane : Nat) (value : BitVec 32)
  | readVpc (slot lane : Nat)
  | writeVpc (slot lane : Nat) (value : BitVec 32)
deriving DecidableEq, Repr

/-- What bring-up meets (R397): a stack or tier package that fails to train, the host link's negotiated rate and
width (0, 0 when down), and what each Drukofold port finds. -/
structure BringUp where
  hbmFail : Option Nat
  tierFail : Option Nat
  rate : BitVec 32
  width : BitVec 32
  nvme : BitVec 32
  ports : List Training
deriving DecidableEq, Repr

/-- The causes an instruction fetch can raise (R213, R427). -/
inductive FetchCause where
  | notPresent
  | kernelFrame
  | permission
deriving DecidableEq, Repr

/-- The rows of spec/opcode_table.json. -/
inductive Instr where
  /-- `clause` (R205). -/
  | clause (w : BitVec 12) (a : BitVec 4) (b : BitVec 4) (v : Bool) (x : Bool)
  /-- `guard.t` (R209). -/
  | guard (p : BitVec 3) (s : Bool) (n : BitVec 2)
  /-- `nop` (R210). -/
  | nop (c : Bool)
  /-- `brk` (R211). -/
  | brk (k : BitVec 22)
  /-- `iadd` (R220). -/
  | iadd (c : Bool) (u : Bool) (d : BitVec 7) (a : BitVec 7) (b : BitVec 7) (x : Bool)
  /-- `isub` (R220). -/
  | isub (c : Bool) (u : Bool) (d : BitVec 7) (a : BitVec 7) (b : BitVec 7) (x : Bool)
  /-- `imul` (R220). -/
  | imul (c : Bool) (u : Bool) (d : BitVec 7) (a : BitVec 7) (b : BitVec 7) (x : Bool)
  /-- `imulh.sg` (R220). -/
  | imulh (c : Bool) (u : Bool) (g : Bool) (d : BitVec 6) (a : BitVec 7) (b : BitVec 7) (x : Bool)
  /-- `imad` (R220). -/
  | imad (c : Bool) (u : Bool) (d : BitVec 7) (a : BitVec 7) (b : BitVec 7) (x : Bool)
  /-- `iabs` (R220). -/
  | iabs (c : Bool) (u : Bool) (d : BitVec 7) (a : BitVec 7)
  /-- `imin.sg` (R220). -/
  | imin (c : Bool) (u : Bool) (g : Bool) (d : BitVec 6) (a : BitVec 7) (b : BitVec 7) (x : Bool)
  /-- `imax.sg` (R220). -/
  | imax (c : Bool) (u : Bool) (g : Bool) (d : BitVec 6) (a : BitVec 7) (b : BitVec 7) (x : Bool)
  /-- `ishl` (R220). -/
  | ishl (c : Bool) (u : Bool) (d : BitVec 7) (a : BitVec 7) (b : BitVec 7) (x : Bool)
  /-- `ishr.sg` (R220). -/
  | ishr (c : Bool) (u : Bool) (g : Bool) (d : BitVec 6) (a : BitVec 7) (b : BitVec 7) (x : Bool)
  /-- `irot` (R220). -/
  | irot (c : Bool) (u : Bool) (d : BitVec 7) (a : BitVec 7) (b : BitVec 7) (x : Bool)
  /-- `and` (R220). -/
  | and (c : Bool) (u : Bool) (d : BitVec 7) (a : BitVec 7) (b : BitVec 7) (x : Bool)
  /-- `or` (R220). -/
  | or (c : Bool) (u : Bool) (d : BitVec 7) (a : BitVec 7) (b : BitVec 7) (x : Bool)
  /-- `xor` (R220). -/
  | xor (c : Bool) (u : Bool) (d : BitVec 7) (a : BitVec 7) (b : BitVec 7) (x : Bool)
  /-- `andn` (R220). -/
  | andn (c : Bool) (u : Bool) (d : BitVec 7) (a : BitVec 7) (b : BitVec 7) (x : Bool)
  /-- `clz` (R220). -/
  | clz (c : Bool) (u : Bool) (d : BitVec 7) (a : BitVec 7)
  /-- `popc` (R220). -/
  | popc (c : Bool) (u : Bool) (d : BitVec 7) (a : BitVec 7)
  /-- `brev` (R220). -/
  | brev (c : Bool) (u : Bool) (d : BitVec 7) (a : BitVec 7)
  /-- `bfx.sg` (R220). -/
  | bfx (c : Bool) (u : Bool) (g : Bool) (d : BitVec 6) (a : BitVec 7) (b : BitVec 7) (x : Bool)
  /-- `bfi` (R220). -/
  | bfi (c : Bool) (u : Bool) (d : BitVec 7) (a : BitVec 7) (b : BitVec 7) (x : Bool)
  /-- `icmp.cond` (R223). -/
  | icmp (c : Bool) (u : Bool) (k : BitVec 4) (p : BitVec 3) (a : BitVec 7) (b : BitVec 7) (x : Bool)
  /-- `plog.lut` (R224). -/
  | plog (c : Bool) (u : Bool) (l : BitVec 4) (d : BitVec 3) (a : BitVec 3) (b : BitVec 3)
  /-- `mov.w32` (R221). -/
  | movW32 (c : Bool) (u : Bool) (d : BitVec 7) (b : BitVec 7) (x : Bool)
  /-- `mov.w64` (R221). -/
  | movW64 (c : Bool) (u : Bool) (d : BitVec 7) (b : BitVec 7) (x : Bool)
  /-- `mov.s` (R221). -/
  | movS (c : Bool) (u : Bool) (d : BitVec 7) (b : BitVec 7) (x : Bool)
  /-- `movi` (R222). -/
  | movi (c : Bool) (u : Bool) (d : BitVec 7) (i : BitVec 15)
  /-- `movhi` (R222). -/
  | movhi (c : Bool) (u : Bool) (d : BitVec 7) (i : BitVec 15)
  /-- `add64.k` (R226). -/
  | add64 (c : Bool) (u : Bool) (d : BitVec 6) (k : Bool) (a : BitVec 6) (b : BitVec 7) (x : Bool)
  /-- `sub64.k` (R226). -/
  | sub64 (c : Bool) (u : Bool) (d : BitVec 6) (k : Bool) (a : BitVec 6) (b : BitVec 7) (x : Bool)
  /-- `mul64.k` (R226). -/
  | mul64 (c : Bool) (u : Bool) (d : BitVec 6) (k : Bool) (a : BitVec 6) (b : BitVec 7) (x : Bool)
  /-- `shl64.k` (R226). -/
  | shl64 (c : Bool) (u : Bool) (d : BitVec 6) (k : Bool) (a : BitVec 6) (b : BitVec 7) (x : Bool)
  /-- `shr64.sg.k` (R226). -/
  | shr64 (c : Bool) (u : Bool) (g : Bool) (d : BitVec 6) (k : Bool) (a : BitVec 6) (b : BitVec 7) (x : Bool)
  /-- `cmp64.cond.k` (R226). -/
  | cmp64 (c : Bool) (u : Bool) (n : BitVec 4) (p : BitVec 3) (k : Bool) (a : BitVec 6) (b : BitVec 7) (x : Bool)
  /-- `bra.t` (R228). -/
  | bra (c : Bool) (u : Bool) (p : BitVec 3) (s : Bool) (o : BitVec 18)
  /-- `jmp` (R228). -/
  | jmp (c : Bool) (u : Bool) (i : BitVec 22)
  /-- `call` (R228). -/
  | call (c : Bool) (u : Bool) (i : BitVec 22)
  /-- `ret` (R228). -/
  | ret (c : Bool) (u : Bool) (a : BitVec 7)
  /-- `exit` (R230). -/
  | exit (c : Bool) (u : Bool)
  /-- `brx` (R228). -/
  | brx (c : Bool) (u : Bool) (a : BitVec 7) (b : BitVec 7) (x : Bool)
  /-- `vote.form` (R231). -/
  | vote (c : Bool) (u : Bool) (d : BitVec 7) (f : BitVec 3) (p : BitVec 3)
  /-- `rdsr` (R233). -/
  | rdsr (c : Bool) (u : Bool) (d : BitVec 7) (k : BitVec 7) (m : BitVec 8)
  /-- `wrsr` (R233). -/
  | wrsr (c : Bool) (u : Bool) (k : BitVec 7) (a : BitVec 7) (m : BitVec 8)
  /-- `task.spawn.q.fA` (R343). -/
  | taskSpawn (c : Bool) (u : Bool) (l : Bool) (f : Bool) (a : BitVec 7) (b : BitVec 7) (x : Bool)
  /-- `task.done` (R344). -/
  | taskDone (c : Bool)
  /-- `ctr.add` (R345). -/
  | ctrAdd (c : Bool) (u : Bool) (d : BitVec 7) (a : BitVec 7) (b : BitVec 7) (x : Bool)
  /-- `wq.pop.try` (R347). -/
  | wqPop (c : Bool) (u : Bool) (d : BitVec 7) (a : BitVec 7) (w : Bool)
  /-- `wq.push` (R348). -/
  | wqPush (c : Bool) (u : Bool) (d : BitVec 7) (a : BitVec 7) (b : BitVec 7) (x : Bool)
  /-- `bar.scope.bN` (R351). -/
  | bar (c : Bool) (u : Bool) (a : BitVec 7) (s : BitVec 3) (n : BitVec 4)
  /-- `bar.arrive.scope.bN` (R351). -/
  | barArrive (c : Bool) (u : Bool) (d : BitVec 7) (a : BitVec 7) (s : BitVec 3) (n : BitVec 4)
  /-- `bar.wait.scope.bN` (R351). -/
  | barWait (c : Bool) (u : Bool) (a : BitVec 7) (s : BitVec 3) (n : BitVec 4)
  /-- `role.give` (R45). -/
  | roleGive (c : Bool) (u : Bool) (n : BitVec 15)
  /-- `role.claim` (R46). -/
  | roleClaim (c : Bool) (u : Bool) (n : BitVec 15)
  /-- `park` (R353). -/
  | park (c : Bool) (u : Bool) (d : BitVec 7) (a : BitVec 7) (b : BitVec 7) (x : Bool)
  /-- `trap` (R354). -/
  | trap (k : BitVec 22)
  /-- `sysret.form` (R355). -/
  | sysret (c : Bool) (f : BitVec 2) (a : BitVec 7)
  /-- `watch.cN.acc.data` (R356). -/
  | watch (c : Bool) (u : Bool) (n : BitVec 2) (e : BitVec 2) (t : BitVec 2) (a : BitVec 7)
  /-- `clock.src.mode` (R358). -/
  | clock (c : Bool) (u : Bool) (d : BitVec 7) (s : Bool) (m : Bool)
  /-- `pmark` (R359). -/
  | pmark (c : Bool) (i : BitVec 22)
  /-- `hold` (R360). -/
  | hold (c : Bool) (u : Bool) (d : BitVec 7) (a : BitVec 7)
  /-- `cap` (R361). -/
  | cap (c : Bool) (u : Bool) (d : BitVec 7) (b : BitVec 7) (x : Bool)
  /-- `sleep` (R362). -/
  | sleep (c : Bool) (u : Bool) (n : BitVec 15)
  /-- `fadd` (R239). -/
  | fadd (c : Bool) (u : Bool) (d : BitVec 7) (a : BitVec 7) (b : BitVec 7) (x : Bool)
  /-- `fsub` (R239). -/
  | fsub (c : Bool) (u : Bool) (d : BitVec 7) (a : BitVec 7) (b : BitVec 7) (x : Bool)
  /-- `fmul` (R239). -/
  | fmul (c : Bool) (u : Bool) (d : BitVec 7) (a : BitVec 7) (b : BitVec 7) (x : Bool)
  /-- `ffma` (R239). -/
  | ffma (c : Bool) (u : Bool) (d : BitVec 7) (a : BitVec 7) (b : BitVec 7) (x : Bool)
  /-- `fmin` (R240). -/
  | fmin (c : Bool) (u : Bool) (d : BitVec 7) (a : BitVec 7) (b : BitVec 7) (x : Bool)
  /-- `fmax` (R240). -/
  | fmax (c : Bool) (u : Bool) (d : BitVec 7) (a : BitVec 7) (b : BitVec 7) (x : Bool)
  /-- `fcmp.cond` (R241). -/
  | fcmp (c : Bool) (u : Bool) (k : BitVec 4) (p : BitVec 3) (a : BitVec 7) (b : BitVec 7) (x : Bool)
  /-- `frcp` (R243). -/
  | frcp (c : Bool) (u : Bool) (d : BitVec 7) (a : BitVec 7)
  /-- `frsq` (R243). -/
  | frsq (c : Bool) (u : Bool) (d : BitVec 7) (a : BitVec 7)
  /-- `fsqrt` (R239). -/
  | fsqrt (c : Bool) (u : Bool) (d : BitVec 7) (a : BitVec 7)
  /-- `fdiv` (R239). -/
  | fdiv (c : Bool) (u : Bool) (d : BitVec 7) (a : BitVec 7) (b : BitVec 7) (x : Bool)
  /-- `fexp2` (R243). -/
  | fexp2 (c : Bool) (u : Bool) (d : BitVec 7) (a : BitVec 7)
  /-- `flog2` (R243). -/
  | flog2 (c : Bool) (u : Bool) (d : BitVec 7) (a : BitVec 7)
  /-- `fsin` (R243). -/
  | fsin (c : Bool) (u : Bool) (d : BitVec 7) (a : BitVec 7)
  /-- `fcos` (R243). -/
  | fcos (c : Bool) (u : Bool) (d : BitVec 7) (a : BitVec 7)
  /-- `frnd` (R244). -/
  | frnd (c : Bool) (u : Bool) (d : BitVec 7) (a : BitVec 7) (m : BitVec 3)
  /-- `fclass` (R242). -/
  | fclass (c : Bool) (u : Bool) (d : BitVec 7) (a : BitVec 7)
  /-- `fscale` (R245). -/
  | fscale (c : Bool) (u : Bool) (d : BitVec 7) (a : BitVec 7) (b : BitVec 7) (x : Bool)
  /-- `dadd.add` (R247). -/
  | dadd (c : Bool) (u : Bool) (f : Bool) (d : BitVec 6) (a : BitVec 7) (b : BitVec 7) (x : Bool)
  /-- `dmul` (R247). -/
  | dmul (c : Bool) (u : Bool) (d : BitVec 6) (a : BitVec 7) (b : BitVec 7) (x : Bool)
  /-- `dfma` (R247). -/
  | dfma (c : Bool) (u : Bool) (d : BitVec 6) (a : BitVec 7) (b : BitVec 7) (x : Bool)
  /-- `dminmax.f` (R247). -/
  | dminmax (c : Bool) (u : Bool) (f : Bool) (d : BitVec 6) (a : BitVec 7) (b : BitVec 7) (x : Bool)
  /-- `dcmp.cond` (R247). -/
  | dcmp (c : Bool) (u : Bool) (k : BitVec 4) (p : BitVec 3) (a : BitVec 7) (b : BitVec 7) (x : Bool)
  /-- `hadd2` (R248). -/
  | hadd2 (c : Bool) (u : Bool) (d : BitVec 7) (a : BitVec 7) (b : BitVec 7) (x : Bool)
  /-- `hmul2` (R248). -/
  | hmul2 (c : Bool) (u : Bool) (d : BitVec 7) (a : BitVec 7) (b : BitVec 7) (x : Bool)
  /-- `hfma2` (R248). -/
  | hfma2 (c : Bool) (u : Bool) (d : BitVec 7) (a : BitVec 7) (b : BitVec 7) (x : Bool)
  /-- `bfma2` (R248). -/
  | bfma2 (c : Bool) (u : Bool) (d : BitVec 7) (a : BitVec 7) (b : BitVec 7) (x : Bool)
  /-- `cvt.dt.st.mode` (R251). -/
  | cvt (c : Bool) (u : Bool) (t : BitVec 4) (s : BitVec 4) (m : BitVec 2) (d : BitVec 6) (a : BitVec 6)
  /-- `cvtpk.fmt.mode` (R255). -/
  | cvtpk (c : Bool) (u : Bool) (f : BitVec 5) (m : BitVec 2) (a : BitVec 7) (b : BitVec 7) (x : Bool)
  /-- `cvtupk.fmt` (R256). -/
  | cvtupk (c : Bool) (u : Bool) (f : BitVec 5) (a : BitVec 7) (b : BitVec 7) (x : Bool)
  /-- `shfl` (R257). -/
  | shfl (c : Bool) (u : Bool) (d : BitVec 7) (a : BitVec 7) (b : BitVec 7) (x : Bool)
  /-- `bcast` (R258). -/
  | bcast (c : Bool) (u : Bool) (d : BitVec 7) (a : BitVec 7) (p : BitVec 3)
  /-- `lred.op` (R260). -/
  | lred (c : Bool) (u : Bool) (d : BitVec 7) (a : BitVec 7) (o : BitVec 4)
  /-- `lscan.op` (R260). -/
  | lscan (c : Bool) (u : Bool) (d : BitVec 7) (a : BitVec 7) (o : BitVec 4) (e : Bool)
  /-- `cellkey` (R261). -/
  | cellkey (c : Bool) (u : Bool) (d : BitVec 7) (a : BitVec 7) (b : BitVec 7) (x : Bool)
  /-- `fdot2.t` (R249). -/
  | fdot2 (c : Bool) (u : Bool) (t : Bool) (d : BitVec 6) (a : BitVec 7) (b : BitVec 7) (x : Bool)
  /-- `ldg.sz` (R266). -/
  | ldg (c : Bool) (u : Bool) (d : BitVec 7) (a : BitVec 7) (s : BitVec 3) (o : BitVec 5)
  /-- `stg.sz` (R266). -/
  | stg (c : Bool) (u : Bool) (d : BitVec 7) (a : BitVec 7) (s : BitVec 3) (o : BitVec 5)
  /-- `lds.sz.xS` (R266). -/
  | lds (c : Bool) (u : Bool) (d : BitVec 7) (a : BitVec 7) (s : BitVec 3) (w : BitVec 3) (o : BitVec 2)
  /-- `sts.sz.xS` (R266). -/
  | sts (c : Bool) (u : Bool) (d : BitVec 7) (a : BitVec 7) (s : BitVec 3) (w : BitVec 3) (o : BitVec 2)
  /-- `ldp.sz` (R266). -/
  | ldp (c : Bool) (u : Bool) (d : BitVec 7) (a : BitVec 7) (s : BitVec 3) (o : BitVec 5)
  /-- `stp.sz` (R266). -/
  | stp (c : Bool) (u : Bool) (d : BitVec 7) (a : BitVec 7) (s : BitVec 3) (o : BitVec 5)
  /-- `ldacq.scope.sz` (R270). -/
  | ldacq (c : Bool) (u : Bool) (d : BitVec 7) (a : BitVec 7) (s : BitVec 3) (z : BitVec 3)
  /-- `strel.scope.sz` (R270). -/
  | strel (c : Bool) (u : Bool) (d : BitVec 7) (a : BitVec 7) (s : BitVec 3) (z : BitVec 3)
  /-- `atadd.scope.ord.w.var` (R272). -/
  | atadd (c : Bool) (u : Bool) (d : BitVec 7) (a : BitVec 7) (s : BitVec 3) (o : BitVec 2) (w : Bool) (v : BitVec 2)
  /-- `atminmax.scope.ord.w.var` (R272). -/
  | atminmax (c : Bool) (u : Bool) (d : BitVec 7) (a : BitVec 7) (s : BitVec 3) (o : BitVec 2) (w : Bool) (v : BitVec 2)
  /-- `atlogic.scope.ord.w.var` (R272). -/
  | atlogic (c : Bool) (u : Bool) (d : BitVec 7) (a : BitVec 7) (s : BitVec 3) (o : BitVec 2) (w : Bool) (v : BitVec 2)
  /-- `atxchg.scope.ord.w` (R272). -/
  | atxchg (c : Bool) (u : Bool) (d : BitVec 7) (a : BitVec 7) (s : BitVec 3) (o : BitVec 2) (w : Bool)
  /-- `atcas.scope.ord.w` (R272). -/
  | atcas (c : Bool) (u : Bool) (d : BitVec 7) (a : BitVec 7) (s : BitVec 3) (o : BitVec 2) (w : Bool)
  /-- `bank.add.type` (R276). -/
  | bankAdd (c : Bool) (u : Bool) (d : BitVec 7) (a : BitVec 7) (t : BitVec 3)
  /-- `bank.fx.type` (R276). -/
  | bankFx (c : Bool) (u : Bool) (d : BitVec 7) (a : BitVec 7) (t : BitVec 3)
  /-- `bank.fxread.type` (R276). -/
  | bankFxread (c : Bool) (u : Bool) (d : BitVec 7) (a : BitVec 7) (t : BitVec 3)
  /-- `bank.app.type` (R279). -/
  | bankApp (c : Bool) (u : Bool) (d : BitVec 7) (a : BitVec 7) (t : BitVec 3)
  /-- `bank.axpy.type.fA` (R281). -/
  | bankAxpy (c : Bool) (u : Bool) (d : BitVec 7) (a : BitVec 7) (t : BitVec 2) (f : Bool)
  /-- `bank.red.type.fA` (R281). -/
  | bankRed (c : Bool) (u : Bool) (d : BitVec 7) (a : BitVec 7) (t : BitVec 2) (f : Bool)
  /-- `fence.scope.kind` (R284). -/
  | fence (c : Bool) (u : Bool) (s : BitVec 3) (k : BitVec 2)
  /-- `fence.rng.scope.kind` (R284). -/
  | fenceRng (c : Bool) (u : Bool) (s : BitVec 3) (k : BitVec 2) (a : BitVec 7) (b : BitVec 7)
  /-- `cpy.l.size.fA.cn` (R286). -/
  | cpyL (c : Bool) (u : Bool) (d : BitVec 6) (z : BitVec 2) (a : BitVec 6) (b : BitVec 6) (f : Bool) (n : Bool)
  /-- `cpy.t.xS.dir.fA` (R287). -/
  | cpyT (c : Bool) (u : Bool) (d : BitVec 7) (a : BitVec 7) (w : BitVec 3) (i : Bool) (f : Bool)
  /-- `trywait` (R289). -/
  | trywait (c : Bool) (u : Bool) (p : BitVec 3) (f : BitVec 4) (n : BitVec 12)
  /-- `pref.target.sz` (R290). -/
  | pref (c : Bool) (u : Bool) (t : BitVec 2) (a : BitVec 7) (s : BitVec 3) (o : BitVec 5)
  /-- `ldk` (R291). -/
  | ldk (c : Bool) (u : Bool) (a : BitVec 7)
  /-- `stk.ctx` (R288). -/
  | stkCtx (c : Bool) (u : Bool) (d : BitVec 7) (a : BitVec 7) (b : BitVec 7)
  /-- `flushl1` (R292). -/
  | flushl1 (c : Bool) (u : Bool)
  /-- `mma.reuse.z.mode` (R300). -/
  | mma (c : Bool) (t : BitVec 4) (a : BitVec 7) (h : BitVec 6) (r : Bool) (z : Bool) (m : BitVec 3)
  /-- `acc.ld.sp.cS.nN.fA` (R306). -/
  | accLd (c : Bool) (t : BitVec 4) (s : Bool) (a : BitVec 7) (g : BitVec 2) (n : BitVec 2) (f : Bool)
  /-- `acc.st.sp.cS.nN.fA` (R306). -/
  | accSt (c : Bool) (t : BitVec 4) (s : Bool) (a : BitVec 7) (g : BitVec 2) (n : BitVec 2) (f : Bool)
  /-- `acc.strows.pr.fA` (R307). -/
  | accStrows (c : Bool) (t : BitVec 4) (p : Bool) (a : BitVec 7) (f : Bool)
  /-- `acc.zero.pr` (R308). -/
  | accZero (c : Bool) (t : BitVec 4) (p : Bool)
  /-- `res.alloc` (R311). -/
  | resAlloc (c : Bool) (u : Bool) (d : BitVec 7) (a : BitVec 7)
  /-- `res.load.fA` (R312). -/
  | resLoad (c : Bool) (u : Bool) (d : BitVec 7) (a : BitVec 7) (f : Bool)
  /-- `res.pin.set` (R315). -/
  | resPin (c : Bool) (u : Bool) (a : BitVec 7) (s : Bool)
  /-- `res.free` (R82). -/
  | resFree (c : Bool) (u : Bool) (a : BitVec 7)
  /-- `res.query` (R83). -/
  | resQuery (c : Bool) (u : Bool) (d : BitVec 7) (a : BitVec 7)
  /-- `res.heat` (R316). -/
  | resHeat (c : Bool) (u : Bool) (d : BitVec 7) (a : BitVec 7) (b : BitVec 7)
  /-- `res.age` (R93). -/
  | resAge (c : Bool) (u : Bool) (a : BitVec 7)
  /-- `res.migrate.fA` (R317). -/
  | resMigrate (c : Bool) (u : Bool) (d : BitVec 7) (a : BitVec 7) (b : BitVec 7) (f : Bool)
  /-- `mfmt` (R319). -/
  | mfmt (c : Bool) (u : Bool) (d : BitVec 7) (a : BitVec 5) (b : BitVec 5) (s : BitVec 2) (i : Bool)
  /-- `fire.set.gN` (R318). -/
  | fireSet (c : Bool) (u : Bool) (g : BitVec 2) (a : BitVec 7)
  /-- `budget.rd` (R320). -/
  | budgetRd (c : Bool) (u : Bool) (d : BitVec 7) (s : BitVec 8)
  /-- `tag` (R327). -/
  | tag (c : Bool) (u : Bool) (d : BitVec 6) (a : BitVec 6)
  /-- `mkt.kind` (R328). -/
  | mkt (c : Bool) (u : Bool) (d : BitVec 6) (t : BitVec 6) (b : BitVec 7) (x : Bool)
  /-- `mkvar` (R329). -/
  | mkvar (c : Bool) (d : BitVec 6)
  /-- `mkstr.form` (R330). -/
  | mkstr (c : Bool) (d : BitVec 6) (m : BitVec 2) (a : BitVec 6) (b : BitVec 7) (x : Bool)
  /-- `arg.sel` (R331). -/
  | arg (c : Bool) (u : Bool) (d : BitVec 6) (m : BitVec 2) (a : BitVec 6) (b : BitVec 7) (x : Bool)
  /-- `deref` (R332). -/
  | deref (c : Bool) (u : Bool) (d : BitVec 6) (a : BitVec 6)
  /-- `unify.p` (R333). -/
  | unifyP (c : Bool) (p : BitVec 3) (a : BitVec 6) (b : BitVec 7) (x : Bool)
  /-- `unify.f` (R333). -/
  | unifyF (c : Bool) (a : BitVec 6) (b : BitVec 7) (x : Bool)
  /-- `bind` (R334). -/
  | bind (c : Bool) (a : BitVec 6) (b : BitVec 7) (x : Bool)
  /-- `choice` (R335). -/
  | choice (c : Bool) (n : BitVec 6) (b : BitVec 7) (x : Bool)
  /-- `retry` (R119). -/
  | retry (c : Bool) (b : BitVec 7) (x : Bool)
  /-- `trust` (R119). -/
  | trust (c : Bool)
  /-- `fail` (R336). -/
  | fail (c : Bool)
  /-- `cut` (R119). -/
  | cut (c : Bool) (b : BitVec 7) (x : Bool)
  /-- `adopt` (R121). -/
  | adopt (c : Bool) (p : BitVec 3) (a : BitVec 6)
  /-- `publish.open` (R338). -/
  | publishOpen (c : Bool) (b : BitVec 7) (x : Bool)
  /-- `publish.close` (R338). -/
  | publishClose (c : Bool) (b : BitVec 7) (x : Bool)
  /-- `btld` (R339). -/
  | btld (c : Bool) (u : Bool) (d : BitVec 6) (p : BitVec 3) (b : BitVec 7) (x : Bool)
  /-- `faddi` (R212). -/
  | faddi (c : Bool) (u : Bool) (d : BitVec 7) (i : BitVec 20)
  /-- `fmuli` (R212). -/
  | fmuli (c : Bool) (u : Bool) (d : BitVec 7) (i : BitVec 20)
  /-- GROUP_AGED (R41). -/
  | groupAged (core slot : Nat)
  /-- LOAD_DATA_RETURN (R266). -/
  | loadDataReturn (core id : Nat)
  /-- STORE_ACK (R206). -/
  | storeAck (core id : Nat)
  /-- HOME_WRITE (R87). -/
  | homeWrite (w : HomeWrite)
  /-- HOLD_RELEASE (R360). -/
  | holdRelease (core id : Nat)
  /-- SLOT_RECLAIM (R32). -/
  | slotReclaim (core slot : Nat)
  /-- TASK_DONE_DECREMENT (R131). -/
  | taskDoneDecrement (core team : Nat)
  /-- READY_PUSH_ACCEPT (R139). -/
  | readyPushAccept (quad : Nat)
  /-- TASK_START (R140). -/
  | taskStart (quad : Nat)
  /-- PARK_RECHECK (R34). -/
  | parkRecheck (core pa : Nat)
  /-- PARK_TIMEOUT (R35). -/
  | parkTimeout (core slot lane : Nat)
  /-- WQ_REFILL_DONE (R144). -/
  | wqRefillDone (core slot lane : Nat)
  /-- BARRIER_DELIVERY (R350). -/
  | barrierDelivery (core id : Nat)
  /-- SLEEP_END (R362). -/
  | sleepEnd (core slot : Nat)
  /-- TRYWAIT_TIMEOUT (R289). -/
  | trywaitTimeout (core slot : Nat)
  /-- RUN_AHEAD_END (R157). -/
  | runAheadEnd (core slot : Nat)
  /-- FAULT_RECORD_WRITE (R417). -/
  | faultRecordWrite
  /-- MATRIX_PASS_DONE (R300). -/
  | matrixPassDone (core id : Nat)
  /-- GROTTO_REQUEST (R97). -/
  | grottoRequest (core id : Nat)
  /-- GROTTO_RESULT (R97). -/
  | grottoResult (core id : Nat)
  /-- MIGRATION_COMPLETE (R102). -/
  | migrationComplete (core id : Nat)
  /-- RES_LOAD_PROCEED (R312). -/
  | resLoadProceed (core id : Nat)
  /-- RES_LOAD_COMPLETE (R86). -/
  | resLoadComplete (core id : Nat)
  /-- COPY_COMPLETE (R286). -/
  | copyComplete (p : EngineParty) (id : Nat)
  /-- BANK_STREAM_COMPLETE (R281). -/
  | bankStreamComplete (core id : Nat)
  /-- CONTEXT_IMAGE_COMPLETE (R288). -/
  | contextImageComplete (core id : Nat)
  /-- SAVE_TEAM (R402). -/
  | saveTeam (core : Nat) (mask : BitVec 32)
  /-- RESTORE_TEAM (R402). -/
  | restoreTeam (core : Nat)
  /-- TEAM_RETURN (R165). -/
  | teamReturn (core : Nat)
  /-- RETURN_GROUP (R402). -/
  | returnGroup (core : Nat) (mask : BitVec 32)
  /-- TERMINATE (R402). -/
  | terminate (core : Nat) (mask : BitVec 32)
  /-- LAUNCH_BUNDLE (R413). -/
  | launchBundle (thread : Nat)
  /-- WAIT_PACKET (R409). -/
  | waitPacket (thread : Nat)
  /-- WAIT_PACKET_TEST (R409). -/
  | waitPacketTest (thread : Nat)
  /-- WAIT_PACKET_TIMEOUT (R409). -/
  | waitPacketTimeout (thread : Nat)
  /-- UNKNOWN_COMMAND (R406). -/
  | unknownCommand (thread : Nat)
  /-- SUB_LAUNCH_COMPLETE (R414). -/
  | subLaunchComplete (thread cmd sub : Nat)
  /-- MCOFF_WRITE (R465). -/
  | mcoffWrite (i : Nat) (value : BitVec 64)
  /-- INVALIDATE (R429). -/
  | invalidate (value : BitVec 64)
  /-- INVALIDATION_DONE (R429). -/
  | invalidationDone
  /-- STALE_MARK (R432). -/
  | staleMark (value : BitVec 64)
  /-- STALE_MARK_DONE (R432). -/
  | staleMarkDone
  /-- KLOCK_SET (R431). -/
  | klockSet (value : BitVec 64)
  /-- PLIMIT_WRITE (R465). -/
  | plimitWrite (value : BitVec 64)
  /-- SFAULT_CLEAR (R451). -/
  | sfaultClear (value : BitVec 64)
  /-- TELEMETRY_COUNTER_CLEAR (R468). -/
  | telemetryCounterClear (core reg : Nat) (value : BitVec 64)
  /-- ATTESTATION_REQUEST (R460). -/
  | attestationRequest (value : BitVec 64)
  /-- ATTESTATION_DONE (R460). -/
  | attestationDone
  /-- FLR_DRAIN_END (R446). -/
  | flrDrainEnd
  /-- HOST_COMPLETION (R445). -/
  | hostCompletion (core id : Nat) (err : Bool)
  /-- REMOTE_TIMEOUT (R451). -/
  | remoteTimeout (core id : Nat)
  /-- PORT_DOWN (R450). -/
  | portDown (port : Nat)
  /-- FABRIC_READ (R450). -/
  | fabricRead (port : Nat)
  /-- FABRIC_WRITE (R450). -/
  | fabricWrite (port : Nat)
  /-- FABRIC_MASKED_WRITE (R450). -/
  | fabricMaskedWrite (port : Nat)
  /-- FABRIC_ATOMIC (R450). -/
  | fabricAtomic (port : Nat)
  /-- FABRIC_REPLY (R450). -/
  | fabricReply (port : Nat)
  /-- BARRIER_ARRIVAL_MESSAGE (R454). -/
  | barrierArrivalMessage (port : Nat)
  /-- BARRIER_COMPLETION_MESSAGE (R454). -/
  | barrierCompletionMessage (port : Nat)
  /-- POD_BARRIER_TIMEOUT (R455). -/
  | podBarrierTimeout (num : Nat)
  /-- STALL_SAMPLE (R469). -/
  | stallSample (die : Nat)
  /-- DEBUG_QUIESCENT (R168). -/
  | debugQuiescent (core : Nat)
  /-- NOT_AN_INSTRUCTION (R213). -/
  | notAnInstruction (w : BitVec 32)
  /-- LITERAL_LANDING (R198). -/
  | literalLanding
  /-- INSTRUCTION_FETCH_FAULT (R213). -/
  | instructionFetchFault (c : FetchCause)
  /-- PREFETCH_FILL (R468). -/
  | prefetchFill (core line : Nat)
  /-- REGISTER_WRITE (R396). -/
  | registerWrite (by_ : Writer) (off : Nat) (value : WriteData)
  /-- DOORBELL (R406). -/
  | doorbell (by_ : Writer) (thread : Nat) (value : BitVec 64)
  /-- BELVEDERE_MISMATCH (R464). -/
  | belvedereMismatch
  /-- ISSUE_CONTROL_MISMATCH (R464). -/
  | issueControlMismatch (core sched : Nat)
  /-- FUNCTION_LEVEL_RESET (R446). -/
  | functionLevelReset
  /-- HOST_LINK_DOWN (R445). -/
  | hostLinkDown
  /-- STORAGE_DMA (R447). -/
  | storageDma (d : Dma)
  /-- FLIT_RECEIVE (R450). -/
  | flitReceive (port : Nat) (flit : List (BitVec 8))
  /-- PORT_RETRAIN (R456). -/
  | portRetrain (port : Nat) (t : Training)
  /-- HBM_REQUEST (R435). -/
  | hbmRequest (stack : Nat) (r : HbmReq)
  /-- ACTIVATION_ALERT (R439). -/
  | activationAlert (stack pc bank : Nat) (late : Bool)
  /-- SELF_REFRESH_ENTRY (R440). -/
  | selfRefreshEntry (stack chan : Nat) (request : Bool)
  /-- SCRUB_PASS (R462). -/
  | scrubPass (errs : List ScrubError)
  /-- POWER_WINDOW (R471). -/
  | powerWindow (watts : Nat)
  /-- DIE_OVER_105 (R473). -/
  | dieOver105 (die : Nat)
  /-- DIE_BELOW_100 (R473). -/
  | dieBelow100 (die : Nat)
  /-- THERMAL_TRIP (R473). -/
  | thermalTrip (die : Nat)
  /-- DEBUG_HALT (R168). -/
  | debugHalt (core : Nat)
  /-- DEBUG_ACCESS (R168). -/
  | debugAccess (core : Nat) (a : DebugAccess)
  /-- DEBUG_RELEASE (R168). -/
  | debugRelease (core : Nat)
  /-- POWER_GOOD (R397). -/
  | powerGood (t : BringUp)
  /-- PACKAGE_RESET (R397). -/
  | packageReset
  /-- HOST_LINK_UP (R445). -/
  | hostLinkUp (rate width : BitVec 32)
  /-- HOST_ATOMICOP (R444). -/
  | hostAtomicop (off : Nat)
  /-- REFRESH_DUE (R439). -/
  | refreshDue (stack pc bank : Nat) (postpone : Bool)
deriving DecidableEq, Repr

end Sys2Proof
end

