-- ==== Sys2Proof/Config.lean ====
section
/-! DEFINITION. What one Tyfen Ilutis package fixes, and the free values: opaque constants without a body, which no
proof can see (each is named in the assumption log). -/

namespace Sys2Proof.Config

/-- Cores of a package (R7). -/
def cores : Nat := 384

/-- Group slots of a core (R6). -/
def slots : Nat := 32

/-- Lanes of a group (R19). -/
def lanes : Nat := 32

/-- Quads of a package (R1, R7, R134). -/
def quads : Nat := 96

/-- Bytes of a core's scratchpad (R6). -/
def spadBytes : Nat := 786432

/-- Register blocks of a core (R44). -/
def blocks : Nat := 512

/-- Row-store entries of a core (R78). -/
def rowStore : Nat := 32768

/-- Weight slots of a core (R6). -/
def weightSlots : Nat := 64

/-- Whether the module carries the capacity tier (R2, R8): TYI-M24-1536-2304. -/
def tierPresent : Bool := true

/-- FREE VALUE. Which enabled event of the device comes next, or the next clk: the order of completions is not fixed
(R67, R70, R264); and whether the host has performed a request whose outcome is unknown (R453). Applied to State.choice
(assumption 4). -/
opaque pick : Nat → Nat

/-- FREE VALUE. Whether the instruction cache still lacks the packet that a group waits for (R169): how long a fetch takes
is not fixed. Applied to State.choice, core and slot (assumption 31). -/
opaque fetchWaits : Nat → Nat → Nat → Bool

/-- FREE VALUE. The f32 pattern that an approximate function gives where R243 leaves a choice: function code and
operand to a pattern, used when it lies within the bound. The device returns the same bits for the same input on every
core (assumption 7). -/
opaque approx : Nat → BitVec 32 → BitVec 32

/-- FREE VALUE. Bytes that the spec gives no value: what a spilling `unify` writes into its spill area (R114), a constant bank
whose source cannot be read at start (R54), a Belvedere thread's PC (R408), replies of a base die that carry no data of
memory (R434), the place of the measurement log (R459) and the frames that the boot firmware locks (R431). Applied to
State.choice (assumptions 13, 28, 31, 38, 85, 86). -/
opaque freeByte : Nat → BitVec 8

/-- FREE VALUE. Whether another package's locked ranges hold a frame, by physical address (R431): that package's KRANGE is
not this machine's to hold (assumption 85). -/
opaque remoteLocked : Nat → Bool

/-- FREE VALUE. Bytes of keys, certificates and signatures that the spec names but does not compute (R460; assumption 14). -/
opaque crypto : Nat → List (BitVec 8) → Nat → List (BitVec 8)

/-- FREE VALUE. Whether an SLH-DSA signature verifies (R458): key, message and signature (assumption 14). -/
opaque verifies : List (BitVec 8) → List (BitVec 8) → List (BitVec 8) → Bool

end Sys2Proof.Config
end

