-- ==== Sys2Proof/Machine/State.lean ====
section
/-! DEFINITION. The machine's state as plain data, and the state after package reset. Every field names the rule that
gives it to the machine; a field marked MODEL is the model's own (NOTES.md, assumptions 4, 8 and 9). -/

namespace Sys2Proof.Machine

/-! ## Names -/

/-- The fault causes (R151). -/
inductive Cause where
  | illegalOpcode
  | reservedField
  | illegalOperand
  | literalLanding
  | clausePosition
  | chainConflict
  | formatDivergence
  | formatMismatch
  | misaligned
  | kernelFrame
  | notPresent
  | permission
  | watchpoint
  | residencyAbsent
  | residencyStale
  | termTag
  | bindingRange
  | stackLimit
  | softwareTrap
  | debugBreak
  | uncorrectable
  | remoteError
deriving DecidableEq, Repr

/-- The stall reasons a waiting word can give (R169). -/
inductive Stall where
  | translation
  | clauseWait
  | registerPending
  | accumulatorPending
  | pipeBusy
  | budget
  | barrier
  | trywait
  /-- What the word writes at once becomes visible this many clk later (R72, R360). -/
  | hold (n : Nat)
  /-- Pipe-busy behind the word at a PC: an acquire fence, an access to an SC page, what `clock.drain` waits for (R71, R284,
  R358). -/
  | behind (pc : Word)
deriving DecidableEq, Repr

/-- Memory: (address, byte) pairs, addresses strictly rising, no byte equal to what an unlisted address reads as. -/
abbrev Memory := List Host.Cell

/-- What an address that memory does not list reads as: zero (DESIGN CHOICE, assumption 1). -/
def Memory.unlisted : Byte := 0

/-- Where a byte of an access lies: in the physical space (R420) or in the core's scratchpad (R53). -/
inductive Loc where
  | phys (pa : Nat)
  | spad (off : Nat)
deriving DecidableEq, Repr

/-! ## Groups and lanes -/

/-- A parked lane's wait (R34, R35, R147, R353). -/
structure ParkRec where
  /-- The wait form of `wq.pop` rather than `park`. -/
  pop : Bool
  va : DWord
  pa : Nat
  /-- Width in bytes of the watched word. -/
  width : Nat
  expected : DWord
  /-- In wall-clock clk. -/
  deadline : Nat
  /-- The destination register. -/
  dest : Nat
  /-- The work queue's descriptor. -/
  desc : DWord
  /-- The lanes that take the result: the lane, or every executing lane of a uniform word. -/
  mask : Word
  /-- The PC of the word. -/
  pc : Word
  /-- An event that held while the group was away (R167). -/
  event : Option Nat
  /-- The number under which a pop counts on its flag (R206). -/
  word : Nat
deriving DecidableEq, Repr

/-- A `wq.pop` that waits for a refill (R144): descriptor, destination, whether it is the wait form, and the lanes that
take the item. -/
structure PopWait where
  desc : DWord
  dest : Nat
  form : Bool
  mask : Word
  pc : Word
  /-- The number under which it counts on its flag (R206). -/
  word : Nat
deriving DecidableEq, Repr

/-- A lane's work-queue window (R144). -/
structure WqWindow where
  desc : Option DWord
  items : List DWord
  /-- The number of the slot that the first item came from. -/
  first : DWord
  refill : Bool
  /-- A pop waits for the refill. -/
  waiting : Option PopWait
deriving DecidableEq, Repr

/-- What one lane owns beside its vector registers (R29, R112, R113). -/
structure LaneState where
  vpc : Word
  hp : DWord
  tp : DWord
  cp : DWord
  vc : Word
  bt : DWord
  sd : DWord
  cbase : DWord
  clen : BitVec 16
  hbase : DWord
  hlen : BitVec 16
  floor : DWord
  park : Option ParkRec
  win : WqWindow
deriving DecidableEq, Repr

/-- The registers that a bundle reads as they stood before it (R200). -/
structure RegFile where
  /-- `v r` lane `l` (R44). -/
  v : List (List Word)
  /-- s0 to s63. -/
  s : List DWord
  /-- p0 to p6, one bit a lane; p7 reads 1 (R218). -/
  p : List Word
  /-- k0 to k47 (R54). -/
  k : List Word
  /-- `%fpm` (R236). -/
  fpm : Word
deriving DecidableEq, Repr

/-- A barrier wait (R167, R351). -/
structure BarWait where
  scope : BitVec 3
  num : BitVec 4
  /-- The completion count at arrival; `none` until the arrival is delivered. -/
  token : Option Word
  /-- PC and lane mask of the word that waits (R455). -/
  pc : Word
  mask : Word
deriving DecidableEq, Repr

/-- A fault report (R153) with the pages of a batch (R157). -/
structure Report where
  cause : Cause
  pc : Word
  mask : Word
  unfin : Word
  va : DWord
  code : BitVec 22
  imprecise : Bool
  exited : Bool
  pages : List (Nat × Bool)
  /-- The numbers of the matching comparators (R171). -/
  comps : List Nat
  /-- The word address after the faulting word and its literal (R160). -/
  after : Word
  /-- `%tick` at the fault (R418). -/
  tick : Nat
deriving DecidableEq, Repr

/-- A register name, as the scoreboard and run-ahead track it (R39, R156, R169, R199). -/
inductive Reg where
  | v (n : Nat)
  | s (n : Nat)
  | p (n : Nat)
  /-- A special register by its number (R233). -/
  | sr (n : Nat)
  | bank
  | acc (t : Nat)
  /-- A lane's hidden term state (R113). -/
  | term
  /-- MODEL. The rounding mode of `%fpm`, apart from its flags (R156, R237). -/
  | rm
  /-- MODEL. The walk of a `unify`, which every later word of the group waits for (R333). -/
  | walk
deriving DecidableEq, Repr

/-- MODEL. The issue register: the word being issued and what its bundle has read and met so far (R30, R31, R200). -/
structure Issue where
  core : Nat
  slot : Nat
  /-- PC of the word, its literal, and the word address after its bundle. -/
  pc : Word
  lit : Word
  /-- The word address after the word and its literal. -/
  after : Word
  nextPc : Word
  /-- Executing lanes and active lanes. -/
  exec : Word
  act : Word
  /-- The registers before the bundle (R200). -/
  src : RegFile
  /-- The lanes, `%fx`, the firing mask, the flags and the core's bucket before the bundle (R200). -/
  lanes : List LaneState
  fx : Word
  fire : List Word
  flags : List Nat
  bucket : Nat
  /-- What the group has been charged, and its last charge, before the bundle (R200, R303). -/
  charged : Nat × Nat
  /-- The number of the bundle's first operation. -/
  first : Nat
  /-- What is being done waits for an answer from beyond the package (R420). -/
  asked : Bool
  /-- The word is one of a run-ahead: nothing of it happens outside the group (R156). -/
  ahead : Bool
  /-- Flags to OR into `%fpm` after the bundle (R237). -/
  fpFlags : Word
  /-- Lanes that a branch of this bundle has placed at its target (R31, R228). -/
  moved : Word
  /-- Lanes of the word that did not complete (R154). -/
  unfin : Word
  /-- The word must wait: nothing of it has happened (R39, R169). -/
  stall : Option Stall
  /-- The word has raised illegal-operand for all its lanes (R155, R476). -/
  operand : Bool
  /-- Lanes that the word's watchpoints pass over (R160, R355). -/
  noWatch : Word
  /-- The clk on which the hold windows of a word's writes at once have passed, once they have begun (R72, R360). -/
  release : Option Nat
deriving DecidableEq, Repr

/-- A bundle that stands at a group's issue address: the packet, the positions of its words, its active lanes. -/
structure Bundle where
  pc : Word
  act : Word
  ws : List Nat
  at_ : List Nat
deriving DecidableEq, Repr

/-- A bundle whose first words have issued while a later word waits for what they have dispatched: the positions still to
issue, and the issue register as the last word left it (R200, assumption 69). -/
structure Part where
  bundle : Bundle
  rest : List Nat
  issue : Issue
deriving DecidableEq, Repr

/-- An acquire fence whose earlier loads have not all returned (R284): its PC, its lanes, its range if it has one, and the
numbers of those loads. -/
structure FenceHold where
  pc : Word
  mask : Word
  range : Option (Nat × Nat)
  loads : List Nat
deriving DecidableEq, Repr

/-- Where a group stands (R156, R158, R162, R165). -/
inductive Phase where
  | running
  | runAhead
  /-- It is to be switched out once its loads from beyond the package have returned (R150). -/
  | draining
  | switchedOut
deriving DecidableEq, Repr

/-- One resident group (R19). -/
structure Group where
  rf : RegFile
  lanes : List LaneState
  /-- f0 to f11 (R206). -/
  flags : List Nat
  /-- The set flags A and B (R205). -/
  seta : Option Nat
  setb : Option Nat
  fx : Word
  /-- The firing mask, word `w` holding rows 32w to 32w + 31 (R91). -/
  fire : List Word
  /-- The operand latch: the A block of each latched lane (R301). -/
  latch : List (Option (List Word))
  charged : Nat
  lastCharge : Nat
  tix : Nat
  role : BitVec 2
  team : Nat
  /-- The group's part of its task is done (R131). -/
  partDone : Bool
  barWait : Option BarWait
  sleepUntil : Option Nat
  /-- `trywait`: flag, predicate, lanes, end clk (R289). -/
  tryUntil : Option (Nat × Nat × Word × Nat)
  /-- A `role.claim` that waits for this many blocks (R46). -/
  claim : Option Nat
  phase : Phase
  /-- Physical address of the group's image while it is away (R158, R165). -/
  area : Nat
  report : Option Report
  unfin : Word
  cause : BitVec 8
  resume : BitVec 2
  /-- Lanes whose next issue the watchpoints do not compare (R160, R355). -/
  noWatch : Word
  /-- Imprecise errors that wait for the next issue boundary or for the group's return (R162, R163). -/
  errors : List Report
  /-- Pages later words of the faulting bundle missed (R155). -/
  missed : List Nat
  age : Nat
  aged : Bool
  /-- What the scoreboard would report of the group: stall reason, waiting PC, blamed PC (R169). -/
  why : Nat × Word × Word
  /-- The PC of the word that the group waits in, or by which it exited (R32, R46, R169). -/
  heldPc : Word
  /-- The packet that the instruction cache holds for the group, with its words where they come from another home, and the
  code of the error that its read met there (R169, R213, R420). -/
  fetched : Option (Word × Option (List Nat × Nat))
  /-- Results of fixed latency that may not be read yet: register, producer PC, first clk (R214, R215). -/
  late : List (Reg × Word × Nat)
  /-- The first clk on which the next bundle may issue (R215). -/
  nextAt : Nat
  /-- Words whose pipe they may still hold: PC, clk of issue, first clk on which the pipe is free (R214, R358). -/
  holding : List (Word × Nat × Nat)
  /-- Operations of the core below this number may happen before what the group does next (R66). -/
  seen : Nat
  /-- Lanes whose next write is the first after a pod-scope release or full fence (R445). -/
  podFence : Word
  /-- Acquire fences that hold the accesses behind them (R284). -/
  fences : List FenceHold
  /-- The bundle that the group has begun to issue (R200). -/
  part : Option Part
deriving DecidableEq, Repr

/-- Which sub-launch a task belongs to (R413, R414): thread, command, slot. -/
abbrev SubRef := Nat × Nat × Nat

/-- What a release carries beside the ring entry: the releasing party's tenant, launch sequence number, control-side
PC and quad (R127, R136), and the task set it belongs to. -/
structure Origin where
  tenant : BitVec 16
  lseq : Word
  cpc : DWord
  sub : Option SubRef
deriving DecidableEq, Repr

/-- Who updates a counter or releases a task: the core that asks on its behalf beyond the package and the name it asks
under, the space it translates under, what its releases carry (R127), its quad (R136), and the operation of a core that
waits with a push (R139). -/
structure Party where
  core : Nat
  who : List Nat
  space : Nat
  origin : Origin
  quad : Nat
  waiter : Option (Nat × Nat)
deriving DecidableEq, Repr

/-- A team of groups (R19, R148). -/
structure Team where
  id : Nat
  slots : List Nat
  /-- Slots not yet reclaimed. -/
  live : List Nat
  origin : Origin
  trec : DWord
  arg : DWord
  coord : List (BitVec 16)
  succ : DWord
  /-- The KiB of the core's scratchpad that the allocation holds, in order (R128). -/
  spadMap : List Nat
  /-- Bytes of the allocation. -/
  spadSize : Nat
  /-- Register blocks in the team's pool (R45). -/
  pool : Nat
  /-- Waiting claims, oldest first: slot, blocks (R46). -/
  claims : List (Nat × Nat)
  /-- In-flight operations that the done event waits for (R344). -/
  cover : List Nat
  doneSent : Bool
  err : Bool
deriving DecidableEq, Repr

/-! ## Tiles and residencies -/

/-- An accumulator tile (R293, R294, R166). Its join count is the number of grotto requests in flight for it (R97). -/
structure Tile where
  rows : List (List Word)
  tags : List (List (Option (BitVec 14)))
  owner : Option Nat
deriving DecidableEq, Repr

/-- The states of a residency (R79). -/
inductive ResState where
  | free
  | empty
  | loading
  | ready
  | evicted
deriving DecidableEq, Repr

/-- An entry of the residency table (R74 to R93). -/
structure ResEntry where
  st : ResState
  gen : BitVec 10
  bfmt : Nat
  sp : Nat
  age : Nat
  split : Bool
  frows : Nat
  kblk : Nat
  nblk : Nat
  stale : Bool
  pin : Bool
  tenant : BitVec 16
  slots : Nat
  rows : Nat
  /-- Column `c` holds hot row `rowMap c` (R90). -/
  rowMap : List Nat
  heat : List Nat
  passes : Nat
  lerr : BitVec 3
  src : DWord
  len : Nat
  /-- Physical ranges watched: base, length (R87). -/
  watched : List (Nat × Nat)
  /-- The weight rows in the weight store, as packed source bytes by row (R89). -/
  weights : List (Nat × List Byte)
  /-- A `res.free` has issued and waits for its instant (R82). -/
  freeing : Bool
  /-- Loads that have issued and wait to begin: operation, the physical ranges that they watch, whether a write has met
  those (R87, R88, R312). -/
  ahead : List (Nat × List (Nat × Nat) × Bool)
deriving DecidableEq, Repr

/-! ## Operations in flight -/

/-- What a returning load fills (R266, R291, R113, R306). -/
inductive LoadDest where
  | reg (d size : Nat) (signed : Bool)
  | bank
  | descriptor
  /-- The hidden term state alone, of a lane that returns (R419). -/
  | hidden
  /-- Columns from `start` on of tile `t`, `n` bytes of each row. -/
  | tile (t start n : Nat)
deriving DecidableEq, Repr

/-- One lane's part of an access. -/
structure LaneAccess where
  lane : Nat
  va : DWord
  loc : Loc
  /-- `va` is a global virtual address; otherwise an address of R51 or an offset of R53. -/
  global : Bool
deriving DecidableEq, Repr

/-- A read-modify-write of one lane at its home (R272, R276, R279). -/
inductive Rmw where
  | add (w : Nat) (v : DWord)
  | addF32 (v : Word)
  | minmax (w var : Nat) (v : DWord)
  | logic (w var : Nat) (v : DWord)
  | xchg (w : Nat) (v : DWord)
  | cas (w : Nat) (c v : DWord)
  | fx (f64 : Bool) (v : DWord)
  | fxread (clr : Bool)
  | append (w : Nat) (v : DWord)
deriving DecidableEq, Repr

/-- The pieces of a copy: source, destination, length (R286, R287). -/
abbrev CopyPiece := Loc × Loc × Nat

/-- What an operation in flight does (R59, R161, R206). -/
inductive FlightKind where
  | load (dest : LoadDest) (lanes : List LaneAccess)
  | store (lanes : List (LaneAccess × List Byte))
  /-- A read-modify-write: for each lane its access and operation; destination register and its width in registers
  (if any); the values read, by lane, once performed. -/
  | rmw (lanes : List (LaneAccess × Rmw)) (dest : Option (Nat × Nat)) (old : List (Nat × Nat))
  /-- A copy: its pieces, the lanes that they serve one by one (`cpy.l`) or none, status register, counter. -/
  | copy (pieces : List CopyPiece) (lanes : List Nat) (status : Option Nat) (ctr : DWord) (sub : Option SubRef)
  | axpy (type : Nat) (alpha : Word) (x : List (Nat × Nat)) (y n : Nat) (status : Nat) (ctr : DWord)
  | red (type : Nat) (x n dst : Nat) (status : Nat) (ctr : DWord)
  /-- A context image: target, the bytes composed at issue, status register. -/
  | image (pieces : List (Nat × Nat)) (bytes : List Byte) (status : Nat)
  /-- A residency load: entry, generation, source, length, physical pieces, the rows with their stacks,
  status register (`none` for a launch bundle's), counter, what it waits for (0 nothing, 1 an instant, 2 slots, an
  earlier load or a migration), abandoned. -/
  | resLoad (entry : Nat) (gen : BitVec 10) (src : DWord) (len : Nat) (pieces : List (Nat × Nat))
      (status : Option Nat) (ctr : DWord) (waiting : Nat) (abandoned : Bool) (sub : Option SubRef)
  | migrate (entry : Nat) (swaps : List (Nat × Nat)) (status : Nat) (started : Bool)
  /-- A quarter's pass: residency entry, tile, k-block, A blocks of the lanes, zero first, row-split, and the columns
  that take part with their weight rows. -/
  | pass (entry tile kblk : Nat) (blocks : List (Nat × List Word)) (zero split : Bool) (cols : List (Nat × Nat))
  /-- Cold rows at one stack: residency entry, tile a(n+1), k-block, stack, A blocks of the lanes, the cold rows with
  their columns, where the source lies (R89), and the weights once the stack has read them. -/
  | grotto (entry tile kblk stack : Nat) (blocks : List (Nat × List Word)) (cold : List (Nat × Nat))
      (src : List (Nat × Nat)) (rows : Option (List (Nat × List Byte)))
  | arrive (scope : BitVec 3) (num : BitVec 4) (expected : Nat) (dest : Option Nat)
  /-- Pushes that wait on full rings (R139): how many, whether the group waits with them, the register that they keep
  pending and the values it takes, by lane. -/
  | push (left : Nat) (block : Bool) (dest : Option Nat) (vals : List (Nat × Nat))
  /-- A `wq.pop` that counts on its flag until none of its lanes waits any longer (R206, R346). -/
  | pops
  /-- A `flushl1` whose lines are being dropped (R292). -/
  | flush
deriving DecidableEq, Repr

/-- An operation in flight, with its issue-tag entry (R161). -/
structure Flight where
  id : Nat
  /-- The number of the first operation of its word: the word's operations count once on its flag. -/
  word : Nat
  slot : Nat
  team : Nat
  pc : Word
  mask : Word
  /-- The flag it counts on (R206). -/
  flag : Option Nat
  origin : Origin
  trec : DWord
  /-- Held until this clk by a hold window (R72). -/
  held : Option Nat
  performed : Bool
  /-- The parts that have failed, by number or, of an engine operation, by address: 1 uncorrectable or 2 remote-error
  (R161, R266, R282). -/
  errs : List (Nat × Nat)
  /-- What its requests beyond the package have brought back: address, bytes (R420). -/
  got : List (Nat × List Byte)
  /-- How many of its parts have been sent beyond the package or need not be (R267, R420). -/
  sent : Nat
  /-- The `seen` of its group at its issue (R66, R69). -/
  seen : Nat
  /-- The clk of its issue. -/
  born : Nat
  /-- The space that its addresses were translated under (R429). -/
  space : Nat
  /-- Its write carries Relaxed Ordering clear (R445). -/
  strict : Bool
  /-- It takes effect behind the earlier operations of its word (R325). -/
  ordered : Bool
  /-- An engine operation's progress: 0 not begun, 1 reading, 2 writing (R59, R420). -/
  stage : Nat
  /-- The codes of an engine operation's pieces once they have been read (R282). -/
  codes : List Nat
  /-- An acquire (R61). -/
  acq : Bool
  /-- It touches an SC page (R71). -/
  sc : Bool
  kind : FlightKind
deriving DecidableEq, Repr

/-! ## Cores -/

/-- A barrier (R350). -/
structure Barrier where
  completions : Word
  arrivals : Nat
  expected : Nat
deriving DecidableEq, Repr

/-- A watchpoint comparator (R170, R356, R357). -/
structure Comparator where
  access : BitVec 2
  data : BitVec 2
  base : DWord
  len : DWord
  value : DWord
  vmask : DWord
  tenant : BitVec 16
  /-- Set by slot at clk (R357). -/
  setter : Nat
  since : Nat
deriving DecidableEq, Repr

/-- A hold window (R360). -/
structure HoldWin where
  team : Nat
  base : Nat
  len : Nat
  pav : Bool
  n : Nat
deriving DecidableEq, Repr

/-- The core control block (R401) and its telemetry counters (R468). -/
structure CoreRegs where
  cctl : DWord
  brefill : DWord
  space : DWord
  ccmd : DWord
  carg : DWord
  cstat : DWord
  fsave : DWord
  quota : List DWord
  counters : List DWord
deriving DecidableEq, Repr

/-- A pre-empted team's wake conditions and identity while it is away (R165 to R167). -/
structure SavedTeam where
  team : Team
  area : Nat
  tiles : List Nat
  groups : List (Nat × Group)
  /-- Its return has been requested (R402 command 2). -/
  wanted : Bool
  /-- Loads from other packages that are replayed on the return (R149). -/
  replays : List Flight
deriving DecidableEq, Repr

/-- A group that runs ahead (R156): the group as it runs ahead (its slot keeps the checkpoint), the words issued, the
poisoned registers by lane, the advisory pages found, and whether R157 has ended it. -/
structure RunAhead where
  slot : Nat
  spec : Group
  count : Nat
  poison : List (Reg × Word)
  pages : List Nat
  ended : Bool
deriving DecidableEq, Repr

/-- One core (R6). -/
structure Core where
  regs : CoreRegs
  groups : List (Option Group)
  teams : List Team
  nextTeam : Nat
  freeBlocks : Nat
  spad : Memory
  /-- The tenant each KiB last belonged to (R128). -/
  spadOwner : List (Option (BitVec 16))
  tiles : List Tile
  res : List ResEntry
  bucket : Nat
  bars : List Barrier
  watch : List Comparator
  holds : List HoldWin
  flight : List Flight
  /-- Words whose stores became visible and whose watchers are due a recheck (R34). -/
  rechecks : List Nat
  /-- Lines that `pref` requested and no access has used: line, target, whether filled (R290, R468). -/
  pref : List (Nat × Nat × Bool)
  saved : List SavedTeam
  /-- Loads of groups that are switched out which are replayed when the group returns: their pages did not translate (R149). -/
  replays : List Flight
  runs : List RunAhead
  halted : Bool
  quiescent : Bool
  /-- Issue-duty phase accumulators (R472). -/
  duty : List Nat
  /-- Rotations of the M, X and T pipes (R42). -/
  rot : List Nat
  /-- The clk from which each pipe is free: I, F and B of the four schedulers, then M, X and T (R27, R214). -/
  busy : List Nat
  /-- The slot select that a pass may join: descriptor, mode, and the clk on which it ends (R302). -/
  select : Option (DWord × BitVec 3 × Nat)
  sampleSlot : Nat
deriving DecidableEq, Repr

/-! ## Quads, Belvedere, memory control, fabric, links, power -/

/-- A ready-queue entry (R138) with what its release carries. -/
structure RqEntry where
  word : DWord
  /-- The bits of the record address that the word does not hold: 63:56 and 5:0 (R126). -/
  low : DWord
  origin : Origin
deriving DecidableEq, Repr

/-- A push that waits on a full ring (R139), and the operation withheld with it. -/
structure WaitingPush where
  entry : RqEntry
  core : Nat
  flight : Option Nat
deriving DecidableEq, Repr

/-- A quad's ready queue and dispatcher (R138 to R141, R404). -/
structure Quad where
  chip : List RqEntry
  /-- What the ring's entries carry beside their words, oldest first. -/
  ringOrigins : List (DWord × Origin)
  waiting : List WaitingPush
  /-- The chosen entry while it waits for room (R140). -/
  chosen : Option RqEntry
  last : Nat
  base : DWord
  ctl : DWord
  tail : DWord
  head : DWord
deriving DecidableEq, Repr

/-- A sub-launch in flight (R411, R414). -/
structure Sub where
  type : Nat
  /-- Work outstanding: tasks of the set, or 1 for a load or copy. -/
  left : Nat
  code : Nat
  cref : Nat
  closed : Bool
deriving DecidableEq, Repr

/-- A command in flight (R408 to R415). -/
structure Command where
  index : Nat
  wait : Bool
  lseq : Word
  crec : DWord
  ctr : DWord
  irq : Bool
  /-- Refused whole (R412). -/
  refused : Bool
  start : Nat
  cpc : DWord
  subs : List Sub
  /-- A wait packet's condition, width, address, comparand, mask and deadline. -/
  cond : Nat
  width : Nat
  addr : DWord
  value : DWord
  vmask : DWord
  deadline : Option Nat
  /-- Counter-record address of each slot. -/
  ctrs : List DWord
  /-- Records of task sets that are still to be pushed, in order: slot, record address, quad (R413). -/
  todo : List (Nat × DWord × Nat)
deriving DecidableEq, Repr

/-- A Belvedere thread (R406, R408). -/
structure BThread where
  qbase : DWord
  qctl : DWord
  qtail : DWord
  qhead : DWord
  qetime : DWord
  qpc : DWord
  qstat : DWord
  started : Nat
  inflight : List Command
  /-- Indexes retired out of order (R408). -/
  retired : List Nat
deriving DecidableEq, Repr

/-- The Belvedere (R406 to R416). -/
structure Belvedere where
  threads : List BThread
  flight : List Flight
  dead : Bool
deriving DecidableEq, Repr

/-- The fault queue (R417) and the records that wait to be written. -/
structure FaultQueue where
  base : DWord
  ctl : DWord
  tail : DWord
  head : DWord
  waits : DWord
  /-- Each with the core and slot of the group that stays switched out until it fits. -/
  pending : List (Option (Nat × Nat) × List Byte)
deriving DecidableEq, Repr

/-- The memory-control registers (R430). -/
structure MemCtl where
  stbase : DWord
  stlen : DWord
  invva : DWord
  invcmd : DWord
  stalepa : DWord
  stalecmd : DWord
  mstat : DWord
  klock : DWord
  krange : List (DWord × DWord)
  pspace : List DWord
  faqbase : DWord
  faqctl : DWord
  faqtail : DWord
  faqhead : DWord
  faqdrop : DWord
  malform : DWord
  alertx : List DWord
  sridle : DWord
  /-- In-flight operations that a busy invalidation waits for (R429): core, id. -/
  invWait : List (Nat × Nat)
deriving DecidableEq, Repr

/-- A message of the fabric (R450). -/
structure Message where
  op : Nat
  src : Nat
  dst : Nat
  tag : Nat
  len : Nat
  sub : Nat
  status : Nat
  aop : Nat
  pa : Nat
  data : List Byte
deriving DecidableEq, Repr

/-- A Drukofold port (R448 to R456). -/
structure Port where
  stat : DWord
  nextSeq : Nat
  expect : Nat
  /-- Unacknowledged flits: sequence number, payload (R450). -/
  replay : List (Nat × List Byte)
  /-- Bytes that wait for room in the replay buffer. -/
  backlog : List Byte
  stuck : Nat
  nakSent : Bool
  /-- Bytes of the message stream not yet a whole message, and the messages received. -/
  stream : List Byte
  inbox : List Message
  /-- Flits put on the wire, oldest first. -/
  wire : List (List Byte)
deriving DecidableEq, Repr

/-- A kept barrier message (R455): barrier, message, the port that carries it if any, and until when a port is sought. -/
structure Kept where
  num : Nat
  msg : Message
  port : Option Nat
  deadline : Nat
deriving DecidableEq, Repr

/-- A request that leaves the package, for another node or for the host (R420, R445, R451 to R453): its message (R450),
the core and the operation that wait for it with the part of the operation that it serves, and the port that carries it
(`none` while it is held back, R452). -/
structure Request where
  tag : Nat
  core : Nat
  flight : Nat
  part : Nat
  host : Bool
  op : Nat
  sub : Nat
  aop : Nat
  pa : Nat
  len : Nat
  data : List Byte
  sent : Nat
  port : Option Nat
  /-- The word or the event that asks, where no operation in flight does. -/
  asker : Option (List Nat)
  /-- The status and the data of the answer, until the asker takes them. -/
  answer : Option (Nat × List Byte)
  /-- What the core's earlier stores that had not left it by then lay over the answer of a read (R60, R72). -/
  laid : List (Nat × List Byte)
  /-- The space that an asker's address was translated under (R429). -/
  space : Nat
  /-- The Relaxed Ordering attribute of a write to the host (R445). -/
  relaxed : Bool
deriving DecidableEq, Repr

/-- The fabric registers (R451), ports and pod-barrier messages (R454, R455). -/
structure Fabric where
  fnode : BitVec 10
  dtimeout : DWord
  podroot : List DWord
  sfault : DWord
  ports : List Port
  route : List DWord
  /-- Requests that are not answered yet. -/
  requests : List Request
  nextTag : Nat
  /-- The next arrival's number, which its tag carries below the top bit (assumption 70). -/
  nextArrival : Nat
  kept : List Kept
  /-- Arrivals the root has answered, newest first: src, tag, and the status and count of its answer (R455). -/
  counted : List (Nat × Nat × Nat × Word)
  /-- DMAs of the storage port that wait for answers from beyond the package (R447). -/
  dmas : List Dma
  /-- Packages that delivered an arrival to the current phase, for each pod barrier (R454). -/
  phase : List (List Nat)
deriving DecidableEq, Repr

/-- One stack's controller (R439, R440). -/
structure Stack where
  /-- Owed refreshes of bank b of pseudo-channel p: p, b, count. -/
  owed : List (Nat × Nat × Nat)
  /-- Channels in self-refresh. -/
  asleep : List Nat
  /-- Mitigations and refreshes carried out. -/
  done : Nat
deriving DecidableEq, Repr

/-- Boot flash and fuses (R2, R442, R457). -/
structure Boot where
  slotA : List Byte
  slotB : List Byte
  node : BitVec 10
  /-- Four key-hash slots and their revoke bits. -/
  keyHashes : List (BitVec 256)
  revoked : List Bool
  secret : BitVec 256
  /-- The security version counter: as many fuses as are set (R457). -/
  svn : DWord
  /-- The entries of the bad-page list: page, kind and tick (R442). -/
  badPages : List (DWord × DWord)
deriving DecidableEq, Repr

/-- The host link and the functions of the endpoint (R396 to R400, R444 to R446, R460). -/
structure HostIf where
  up : Bool
  bootStatus : DWord
  capHead : DWord
  /-- The device information region: capability records and certificates. -/
  info : Memory
  nonce : List DWord
  reportAddr : DWord
  attest : DWord
  /-- The report that is being written (R460). -/
  report : List Byte
  /-- Two words a vector, bit 32 of the second its mask; every vector is masked at reset (PRESUMED: PCIe, assumption 54). -/
  msix : List DWord
  pba : DWord
  /-- An FLR drains until this clk: `none` when no FLR is in progress. -/
  flr : Option Nat
  log : List (List Byte)
  /-- Where the measurement log stands (R400, R459). -/
  logAt : Nat
deriving DecidableEq, Repr

/-- Reliability, power and telemetry registers (R465, R469, R470). -/
structure Rel where
  plimit : DWord
  pstat : DWord
  pthrot : DWord
  scrub : DWord
  mcstat : DWord
  mcoff : List DWord
  samples : List (List DWord)
  etime : List (DWord × DWord)
  /-- Hot dies (R473). -/
  hot : List Bool
  /-- The package is held until reset (R473, R397). -/
  held : Bool
deriving DecidableEq, Repr

/-- What the machine hands to the outside (R168, R359, R361, R444, R447). -/
inductive Output where
  | msix (vector : Nat)
  | unsupported (off : Nat)
  | debugReport (core slot : Nat) (r : Report)
  | debugData (bytes : List Byte)
  | trace (core slot : Nat) (pc : Word) (id : Nat) (lseq : Word) (cpc : DWord) (clk : Nat)
  | dma (bytes : Option (List Byte))
  | hbmReply (stack : Nat) (tag : BitVec 10) (status : Nat) (bytes : List Byte)
deriving DecidableEq, Repr

/-- The machine: one package on its module, and what reaches it from outside. -/
structure State where
  /-- `%clk` (R233). -/
  clk : Nat
  mem : Memory
  /-- Addresses of 32-byte ECC words with uncorrectable data (R161, R436). -/
  bad : List Nat
  /-- Addresses of 16-byte granules with an error that ECC corrects when they are read (R434, R441, R462). -/
  weak : List Nat
  cores : List Core
  quads : List Quad
  quadBars : List (List Barrier)
  dieBars : List (List Barrier)
  pkgBars : List Barrier
  podBars : List Barrier
  barTenants : List DWord
  belv : Belvedere
  fq : FaultQueue
  mc : MemCtl
  fabric : Fabric
  hbm : List Stack
  boot : Boot
  host : HostIf
  rel : Rel
  out : List Output
  /-- MODEL. Inputs from outside the device, first come first. -/
  agenda : List Instr
  /-- MODEL. Bundles selected on this clk: core, slot (R28, R40, R42). -/
  issueQ : List (Nat × Nat)
  /-- MODEL. The issue register. -/
  issue : Issue
  /-- MODEL. How many free choices have been made (assumption 4). -/
  choice : Nat
  /-- MODEL. The next operation's number. -/
  nextId : Nat
  /-- Decrements of rejected tasks that wait for a push (R126, R139): party, counter, error. -/
  owed : List (Party × DWord × Bool)
deriving DecidableEq, Repr

/-- How a run of the model can stop. No rule of the spec stops the package; the spec's own faults are taken (R150 to
R163) and are next states. -/
inductive Fault where
  /-- Raised by no instruction and no event of this model: every row of the table has an effect. Kept so that the type
  is inhabited; safe. -/
  | stuck
deriving DecidableEq, Repr

/-- Why an instruction has no meaning here. -/
inductive Refusal where
  /-- Raised only by an arm of `exec` whose instruction is not modelled yet; safe. -/
  | notModelled (mnemonic : String)
deriving DecidableEq, Repr

/-! ## Reset -/

/-- A lane at launch (R112). R113 gives the hidden term state no value at launch: it is zero (DESIGN CHOICE,
assumption 49). -/
def LaneState.init (entry : Word) : LaneState where
  vpc := entry
  hp := 0
  tp := 0
  cp := 0
  vc := 0
  bt := 0
  sd := 0
  cbase := 0
  clen := 0
  hbase := 0
  hlen := 0
  floor := 0
  park := none
  win := { desc := none, items := [], first := 0, refill := false, waiting := none }

/-- Registers at launch: `n` vector registers of zeros, the constant bank `k` (R44, R54, R236, R262). -/
def RegFile.init (n : Nat) (k : List Word) : RegFile where
  v := List.replicate n (List.replicate 32 0)
  s := List.replicate 64 0
  p := List.replicate 7 0
  k := k
  fpm := 0

/-- An origin with every field zero. -/
def Origin.zero : Origin := { tenant := 0, lseq := 0, cpc := 0, sub := none }

/-- A tile after reset (R293; DESIGN CHOICE, assumption 2). -/
def Tile.reset : Tile where
  rows := List.replicate 32 (List.replicate 256 0)
  tags := List.replicate 4 (List.replicate 256 none)
  owner := none

/-- A free residency entry (R311: every generation is 1 after reset). -/
def ResEntry.reset : ResEntry where
  st := .free
  gen := 1
  bfmt := 0
  sp := 0
  age := 0
  split := false
  frows := 0
  kblk := 0
  nblk := 0
  stale := false
  pin := false
  tenant := 0
  slots := 0
  rows := 0
  rowMap := []
  heat := []
  passes := 0
  lerr := 0
  src := 0
  len := 0
  watched := []
  weights := []
  freeing := false
  ahead := []

/-- A barrier after reset (R350). -/
def Barrier.reset : Barrier := { completions := 0, arrivals := 0, expected := 0 }

/-- A comparator after reset: off (R356). -/
def Comparator.reset : Comparator where
  access := 0
  data := 0
  base := 0
  len := 0
  value := 0
  vmask := 0
  tenant := 0
  setter := 0
  since := 0

/-- A core after reset (R401, R303, R44). The rotating order of the M and T pipes starts at scheduler 0: R42 gives no
start (DESIGN CHOICE, assumption 41). -/
def Core.reset : Core where
  regs := { cctl := 0, brefill := 512, space := 0, ccmd := 0, carg := 0, cstat := 0, fsave := 0,
            quota := List.replicate 8 0, counters := List.replicate 6 0 }
  groups := List.replicate 32 none
  teams := []
  nextTeam := 0
  freeBlocks := 512
  spad := []
  spadOwner := List.replicate 768 none
  tiles := List.replicate 16 Tile.reset
  res := List.replicate 64 ResEntry.reset
  bucket := 65536
  bars := List.replicate 16 Barrier.reset
  watch := List.replicate 4 Comparator.reset
  holds := []
  flight := []
  rechecks := []
  pref := []
  saved := []
  replays := []
  runs := []
  halted := false
  quiescent := false
  duty := List.replicate 4 0
  rot := List.replicate 3 0
  busy := List.replicate 15 0
  select := none
  sampleSlot := 0

/-- A quad after reset (R404; rotation DESIGN CHOICE, assumption 2). -/
def Quad.reset : Quad where
  chip := []
  ringOrigins := []
  waiting := []
  chosen := none
  last := 3
  base := 0
  ctl := 0
  tail := 0
  head := 0

/-- A Belvedere thread after reset (R406). -/
def BThread.reset : BThread where
  qbase := 0
  qctl := 0
  qtail := 0
  qhead := 0
  qetime := 0
  qpc := 0
  qstat := 0
  started := 0
  inflight := []
  retired := []

/-- A port after reset: down (R451). -/
def Port.reset : Port where
  stat := 0
  nextSeq := 0
  expect := 0
  replay := []
  backlog := []
  stuck := 0
  nakSent := false
  stream := []
  inbox := []
  wire := []

/-- The issue register before the first word (MODEL, assumption 9). -/
def Issue.reset : Issue where
  core := 0
  slot := 0
  pc := 0
  lit := 0
  after := 0
  nextPc := 0
  exec := 0
  act := 0
  src := RegFile.init 0 []
  lanes := []
  fx := 0
  fire := []
  flags := []
  bucket := 0
  charged := (0, 0)
  first := 0
  asked := false
  ahead := false
  fpFlags := 0
  moved := 0
  unfin := 0
  stall := none
  operand := false
  noWatch := 0
  release := none

/-- Boot flash and fuses of a module without provisioned images (DESIGN CHOICE, assumption 2). -/
def Boot.reset : Boot where
  slotA := []
  slotB := []
  node := 0
  keyHashes := List.replicate 4 0
  revoked := List.replicate 4 false
  secret := 0
  svn := 0
  badPages := []

/-- The machine right after package reset, before bring-up has run (R397: every register at the Reset entry of its
field map; every other value as the assumption log names it). -/
def State.reset : State where
  clk := 0
  mem := []
  bad := []
  weak := []
  cores := List.replicate 384 Core.reset
  quads := List.replicate 96 Quad.reset
  quadBars := List.replicate 96 (List.replicate 8 Barrier.reset)
  dieBars := List.replicate 3 (List.replicate 8 Barrier.reset)
  pkgBars := List.replicate 4 Barrier.reset
  podBars := List.replicate 4 Barrier.reset
  barTenants := List.replicate 8 0
  belv := { threads := List.replicate 32 BThread.reset, flight := [], dead := false }
  fq := { base := 0, ctl := 0, tail := 0, head := 0, waits := 0, pending := [] }
  mc := { stbase := 0, stlen := 0, invva := 0, invcmd := 0, stalepa := 0, stalecmd := 0, mstat := 0, klock := 0,
          krange := List.replicate 8 (0, 0), pspace := List.replicate 65 0, faqbase := 0, faqctl := 0, faqtail := 0,
          faqhead := 0, faqdrop := 0, malform := 0, alertx := List.replicate 24 0, sridle := 4096, invWait := [] }
  fabric := { fnode := 0, dtimeout := 1500000, podroot := List.replicate 4 0, sfault := 0,
              ports := List.replicate 64 Port.reset, route := List.replicate 1024 0, requests := [], nextTag := 0, nextArrival := 0,
              kept := [], counted := [], dmas := [], phase := List.replicate 4 [] }
  hbm := List.replicate 24 { owed := [], asleep := [], done := 0 }
  boot := Boot.reset
  host := { up := false, bootStatus := 0, capHead := 0, info := [], nonce := List.replicate 4 0, reportAddr := 0,
            attest := 0, report := [], msix := (List.range 64).flatMap fun _ => [0, 0x100000000], pba := 0, flr := none, log := [], logAt := 0 }
  rel := { plimit := 3850, pstat := 256, pthrot := 0, scrub := 8, mcstat := 0, mcoff := List.replicate 6 0,
           samples := List.replicate 3 [0, 0x100000, 0, 0, 0], etime := List.replicate 17 (0, 0),
           hot := List.replicate 3 false, held := false }
  out := []
  agenda := []
  issueQ := []
  issue := Issue.reset
  choice := 0
  nextId := 0
  owed := []

end Sys2Proof.Machine
end

