-- ==== Sys2Proof/Machine/Memory.lean ====
section
/-! DEFINITION. Bytes, lane masks and memory: the canonical list of cells, and physical addresses. -/

namespace Sys2Proof.Machine

/-! ## Bytes and masks -/

/-- The `n` little-endian bytes of `w` (R12). -/
def leBytes : Nat → Nat → List Byte
  | 0, _ => []
  | n + 1, w => BitVec.ofNat 8 w :: leBytes n (w / 256)

/-- The number that little-endian bytes stand for (R12). -/
def leNat : List Byte → Nat
  | [] => 0
  | b :: bs => b.toNat + 256 * leNat bs

/-- Bits `hi` down to `lo` of a number. -/
def bits (w hi lo : Nat) : Nat := w / 2 ^ lo % 2 ^ (hi + 1 - lo)

/-- Bit `i` of a number. -/
def bit (w i : Nat) : Bool := w.testBit i

/-- The mask of the lanes that `f` names. -/
def maskOf (f : Nat → Bool) : Word :=
  (List.range 32).foldl (fun m l => if f l then m ||| 1#32 <<< l else m) 0

/-- The lanes of a mask, lowest first. -/
def lanesOf (m : Word) : List Nat := (List.range 32).filter m.getLsbD

/-- The lowest-numbered lane of a mask, 0 for the empty mask. -/
def lowest (m : Word) : Nat := (lanesOf m).headD 0

/-! ## Memory -/

/-- The byte at an address. -/
def Memory.read : Memory → Nat → Byte
  | [], _ => Memory.unlisted
  | c :: t, a => if c.1 = a then c.2 else Memory.read t a

/-- The entries that the bytes from address `a` onwards need. -/
def Memory.cells : Nat → List Byte → Memory
  | _, [] => []
  | a, b :: bs => if b = Memory.unlisted then Memory.cells (a + 1) bs else (a, b) :: Memory.cells (a + 1) bs

/-- Bytes written from address `a` onwards. -/
def Memory.write (m : Memory) (a : Nat) (bs : List Byte) : Memory :=
  m.filter (·.1 < a) ++ (Memory.cells a bs ++ m.filter (a + bs.length ≤ ·.1))

/-- The `n` bytes from address `a` onwards. -/
def Memory.bytes (m : Memory) (a n : Nat) : List Byte := (List.range n).map fun i => m.read (a + i)

/-- The canonical form: addresses strictly rising, no entry that an unlisted address reads as. -/
abbrev Memory.wf (m : Memory) : Prop := m.Pairwise (·.1 < ·.1) ∧ ∀ c ∈ m, c.2 ≠ Memory.unlisted

/-! ## Physical memory -/

/-- The physical address of a local address of this package (R420). -/
def State.localPa (s : State) (a : Nat) : Nat := s.fabric.fnode.toNat * 2 ^ 44 + a

/-- The bytes at a physical address. -/
def State.readPa (s : State) (pa n : Nat) : List Byte := s.mem.bytes pa n

/-- A little-endian word at a physical address. -/
def State.wordPa (s : State) (pa n : Nat) : Nat := leNat (s.readPa pa n)

/-- Whether an access touches an ECC word with uncorrectable data (R436). -/
def State.badAt (s : State) (pa n : Nat) : Bool := s.bad.any fun w => w < pa + n && pa < w + 32

/-- Whether two ranges share a byte. -/
def overlap (a n b m : Nat) : Bool := max a b < min (a + n) (b + m)

end Sys2Proof.Machine
end

