-- ==== Sys2Proof/Machine/Num.lean ====
section
/-! DEFINITION. Number formats and exact arithmetic (R172 to R194): every value is exact, and rounds once. -/

namespace Sys2Proof.Machine

/-! ## Exact values (R172) -/

/-- An exact value: NaN, a signed infinity, or (−1)^neg × m × 2^e, a zero keeping its sign. A quotient or a root that
is no dyadic number is held to more than 64 bits below its highest, its lowest bit set to mark the rest: every
rounding and comparison with a representable value comes out as of the exact value. -/
inductive Val where
  | nan
  | inf (neg : Bool)
  | num (neg : Bool) (m : Nat) (e : Int)
deriving DecidableEq, Repr

/-- The sign of a value; a NaN has none. -/
def Val.neg : Val → Bool
  | .nan => false
  | .inf n => n
  | .num n _ _ => n

/-- Whether a value is NaN. -/
def Val.isNan (x : Val) : Bool := x == .nan

/-- Whether a value is an infinity. -/
def Val.isInf : Val → Bool
  | .inf _ => true
  | _ => false

/-- Whether a value is zero. -/
def Val.isZero : Val → Bool
  | .num _ 0 _ => true
  | _ => false

/-- An integer as a value. -/
def Val.ofInt (i : Int) : Val := .num (i < 0) i.natAbs 0

/-- The negated value. -/
def Val.negate : Val → Val
  | .nan => .nan
  | .inf n => .inf (!n)
  | .num n m e => .num (!n) m e

/-- 2^n as a value. -/
def Val.pow2 (n : Int) : Val := .num false 1 n

/-- m × 2^e with e brought down to `lo`, as an integer. -/
def scaled (neg : Bool) (m : Nat) (e lo : Int) : Int :=
  let v : Int := m * 2 ^ (e - lo).toNat
  if neg then -v else v

/-- The exact product (R172). -/
def Val.mul : Val → Val → Val
  | .nan, _ => .nan
  | _, .nan => .nan
  | .inf a, .inf b => .inf (a != b)
  | .inf a, .num b m _ => if m = 0 then .nan else .inf (a != b)
  | .num a m _, .inf b => if m = 0 then .nan else .inf (a != b)
  | .num a m e, .num b n f => .num (a != b) (m * n) (e + f)

/-- The exact sum (R172): infinities of both signs give NaN; a zero sum is −0 only when every addend is −0. The sum of no addend,
of a group whose positions are all pruned (R188), is −0, so that an accumulator of −0 stays (DESIGN CHOICE, assumption 82). -/
def Val.sum (xs : List Val) : Val :=
  if xs.any Val.isNan then .nan
  else if xs.any (· == .inf true) && xs.any (· == .inf false) then .nan
  else match xs.find? Val.isInf with
    | some x => x
    | none =>
      let lo : Int := xs.foldl (fun (lo : Int) x => match x with | .num _ _ e => min lo e | _ => lo) 0
      let t : Int := xs.foldl (fun (t : Int) x => match x with | .num n m e => t + scaled n m e lo | _ => t) 0
      if t = 0 then .num (xs.all fun x => x.neg && x.isZero) 0 0 else .num (t < 0) t.natAbs lo

/-- The exact sum of two values. -/
def Val.add (a b : Val) : Val := Val.sum [a, b]

/-- The quotient (R239): 0 / 0 and inf / inf give NaN, a finite value divided by zero an infinity. -/
def Val.div : Val → Val → Val
  | .nan, _ => .nan
  | _, .nan => .nan
  | .inf _, .inf _ => .nan
  | .inf a, .num b _ _ => .inf (a != b)
  | .num a _ _, .inf b => .num (a != b) 0 0
  | .num a m e, .num b n f =>
    if n = 0 then (if m = 0 then .nan else .inf (a != b))
    else
      let k := 80 + n.log2
      let t := m * 2 ^ k
      .num (a != b) (2 * (t / n) + if t % n = 0 then 0 else 1) (e - f - k - 1)

/-- The integer square root, one bit of the root after another from bit `i` − 1 on. -/
def isqrt (n : Nat) : Nat → Nat → Nat
  | 0, r => r
  | i + 1, r => isqrt n i (if (r + 2 ^ i) * (r + 2 ^ i) ≤ n then r + 2 ^ i else r)

/-- The square root (R239): of a value below zero NaN, of −0 −0. -/
def Val.sqrt : Val → Val
  | .nan => .nan
  | .inf n => if n then .nan else .inf false
  | .num n m e =>
    if m = 0 then .num n 0 0
    else if n then .nan
    else
      let (m, e) := if e % 2 = 0 then (m, e) else (2 * m, e - 1)
      let t := m * 4 ^ 80
      let r := isqrt t (t.log2 / 2 + 1) 0
      .num false (2 * r + if r * r = t then 0 else 1) (e / 2 - 81)

/-- Whether a < b, for values that are no NaN. -/
def Val.lt : Val → Val → Bool
  | .nan, _ => false
  | _, .nan => false
  | .inf a, .inf b => a && !b
  | .inf a, .num _ _ _ => a
  | .num _ _ _, .inf b => !b
  | .num a m e, .num b n f => scaled a m e (min e f) < scaled b n f (min e f)

/-- Whether a = b as numbers. -/
def Val.eq (a b : Val) : Bool := !a.isNan && !b.isNan && !a.lt b && !b.lt a

/-- The magnitude. -/
def Val.abs : Val → Val
  | .nan => .nan
  | .inf _ => .inf false
  | .num _ m e => .num false m e

/-! ## Formats (R176, R177) -/

/-- How a format writes NaN: not at all, with every exponent bit set, or as S.1111.111 alone. -/
inductive NanKind where
  | none
  | ieee
  | allOnes
deriving DecidableEq, Repr

/-- A floating-point format. -/
structure Fmt where
  ew : Nat
  mw : Nat
  bias : Int
  hasInf : Bool
  nan : NanKind
  /-- Unused low bits of the container: 13 for f19. -/
  pad : Nat
deriving DecidableEq, Repr

def f64 : Fmt := { ew := 11, mw := 52, bias := 1023, hasInf := true, nan := .ieee, pad := 0 }
def f32 : Fmt := { ew := 8, mw := 23, bias := 127, hasInf := true, nan := .ieee, pad := 0 }
def f19 : Fmt := { ew := 8, mw := 10, bias := 127, hasInf := true, nan := .ieee, pad := 13 }
def bf16 : Fmt := { ew := 8, mw := 7, bias := 127, hasInf := true, nan := .ieee, pad := 0 }
def f16 : Fmt := { ew := 5, mw := 10, bias := 15, hasInf := true, nan := .ieee, pad := 0 }
def e5m2 : Fmt := { ew := 5, mw := 2, bias := 15, hasInf := true, nan := .ieee, pad := 0 }
def e4m3 : Fmt := { ew := 4, mw := 3, bias := 7, hasInf := false, nan := .allOnes, pad := 0 }
def e3m2 : Fmt := { ew := 3, mw := 2, bias := 3, hasInf := false, nan := .none, pad := 0 }
def e2m3 : Fmt := { ew := 2, mw := 3, bias := 1, hasInf := false, nan := .none, pad := 0 }
def e2m1 : Fmt := { ew := 2, mw := 1, bias := 1, hasInf := false, nan := .none, pad := 0 }

/-- The element format of a format code; the integer codes have none (R176, R179). -/
def fmtOf (code : Nat) : Option Fmt :=
  match code with
  | 0 => some f32
  | 1 => some f19
  | 2 => some bf16
  | 3 => some f16
  | 4 => some e5m2
  | 5 => some e4m3
  | 6 => some e3m2
  | 7 => some e2m3
  | 8 => some e2m1
  | 13 => some e4m3
  | 14 => some e5m2
  | 15 => some e3m2
  | 16 => some e2m3
  | 17 => some e2m1
  | 18 => some e2m1
  | 19 => some e2m1
  | _ => none

/-- The width of an element in bits (R187). -/
def elemBits (code : Nat) : Nat :=
  match code with
  | 0 | 1 => 32
  | 2 | 3 => 16
  | 6 | 7 | 15 | 16 => 6
  | 8 | 11 | 12 | 17 | 18 | 19 => 4
  | _ => 8

/-- Whether a code is an integer format (R177). -/
def isIntFmt (code : Nat) : Bool := 9 ≤ code && code ≤ 12

/-- Whether a code is a block format (R179). -/
def isBlock (code : Nat) : Bool := 13 ≤ code && code ≤ 19

/-- Elements of a block (R179). -/
def blockSize (code : Nat) : Nat := if code = 18 then 16 else 32

/-- Whether blocks carry a special byte (R180). -/
def hasSpecial (code : Nat) : Bool := code == 18 || code == 19

/-- The value of a pattern (R176). -/
def Fmt.dec (f : Fmt) (b : Nat) : Val :=
  let b := b / 2 ^ f.pad
  let neg := bit b (f.ew + f.mw)
  let E := b / 2 ^ f.mw % 2 ^ f.ew
  let M := b % 2 ^ f.mw
  let ones := E == 2 ^ f.ew - 1
  if ones && f.nan == .ieee && M != 0 then .nan
  else if ones && f.hasInf && M == 0 then .inf neg
  else if ones && f.nan == .allOnes && M == 2 ^ f.mw - 1 then .nan
  else if E = 0 then .num neg M (1 - f.bias - f.mw)
  else .num neg (2 ^ f.mw + M) ((E : Int) - f.bias - f.mw)

/-- The largest finite code, sign aside. -/
def Fmt.maxCode (f : Fmt) : Nat :=
  match f.nan with
  | .none => 2 ^ (f.ew + f.mw) - 1
  | .allOnes => 2 ^ (f.ew + f.mw) - 2
  | .ieee => (2 ^ f.ew - 1) * 2 ^ f.mw - 1

/-- The code of +inf, sign aside. -/
def Fmt.infCode (f : Fmt) : Nat := (2 ^ f.ew - 1) * 2 ^ f.mw

/-- The canonical NaN, or code 0 for a format without one (R174, R175). -/
def Fmt.nanCode (f : Fmt) : Nat :=
  match f.nan with
  | .none => 0
  | .allOnes => 2 ^ (f.ew + f.mw) - 1
  | .ieee => f.infCode + 2 ^ (f.mw - 1)

/-- A sign and a code as the pattern of the container. -/
def Fmt.pattern (f : Fmt) (neg : Bool) (code : Nat) : Nat :=
  (code + if neg then 2 ^ (f.ew + f.mw) else 0) * 2 ^ f.pad

/-! ## The flags of %fpm (R236, R237) -/

def fNv : Nat := 16
def fDz : Nat := 32
def fOf : Nat := 64
def fUf : Nat := 128
def fNx : Nat := 256

/-- The union of two flag sets. -/
def fOr (a b : Nat) : Nat := a ||| b

/-! ## Rounding (R173, R174) -/

/-- Whether a mode rounds up in magnitude: quotient `q`, remainder `r` of `d` (0 rne, 1 rtz, 2 rdn, 3 rup). -/
def roundsUp (rm : Nat) (neg : Bool) (q r d : Nat) : Bool :=
  match rm with
  | 0 => d < 2 * r || (2 * r == d && q % 2 == 1)
  | 1 => false
  | 2 => neg && r != 0
  | _ => !neg && r != 0

/-- `round(x, f, m)` with the flags that R237 takes from it: the pattern in the container, and of, uf, nx, and nv for a
NaN in a format without NaN. -/
def Fmt.round (f : Fmt) (rm : Nat) (x : Val) : Nat × Nat :=
  match x with
  | .nan => (f.pattern false f.nanCode, if f.nan == .none then fNv else 0)
  | .inf neg =>
    if f.hasInf then (f.pattern neg f.infCode, 0) else (f.pattern neg f.maxCode, fOf + fNx)
  | .num neg m e =>
    if m = 0 then (f.pattern neg 0, 0)
    else
      let top : Int := m.log2 + e
      let emin : Int := 1 - f.bias
      let q := max top emin - f.mw
      let sh := (q - e).toNat
      let M := m * 2 ^ (e - q).toNat / 2 ^ sh
      let r := m % 2 ^ sh
      let code := (q - (emin - f.mw)).toNat * 2 ^ f.mw + M + if roundsUp rm neg M r (2 ^ sh) then 1 else 0
      if f.maxCode < code then
        let inf := f.hasInf && match rm with
          | 0 => true
          | 1 => false
          | 2 => neg
          | _ => !neg
        (f.pattern neg (if inf then f.infCode else f.maxCode), fOf + fNx)
      else (f.pattern neg code, if r = 0 then 0 else fNx + if top < emin then fUf else 0)

/-- `rne32` (R173). -/
def rne32 (x : Val) : Word := BitVec.ofNat 32 (f32.round 0 x).1

/-- `rne64` (R173). -/
def rne64 (x : Val) : DWord := BitVec.ofNat 64 (f64.round 0 x).1

/-- A word read as f32. -/
def decF (w : Word) : Val := f32.dec w.toNat

/-- A value rounded to an integer in a mode, and whether that was inexact; infinities and NaN have none. -/
def Val.toInt (rm : Nat) : Val → Option (Int × Bool)
  | .num neg m e =>
    let sh := (-e).toNat
    let q := m * 2 ^ e.toNat / 2 ^ sh
    let r := m % 2 ^ sh
    let v : Int := (q + if roundsUp rm neg q r (2 ^ sh) then 1 else 0 : Nat)
    some (if neg then -v else v, r != 0)
  | _ => none

/-- The range of an integer type: codes 9 to 12 (R177), 13 i32, 14 n32 (R250). -/
def intRange (code : Nat) : Int × Int :=
  match code with
  | 9 => (-128, 127)
  | 10 => (0, 255)
  | 11 => (-8, 7)
  | 12 => (0, 15)
  | 13 => (-2147483648, 2147483647)
  | _ => (0, 4294967295)

/-- `clamp(x, f)` (R173). -/
def clampInt (code : Nat) (x : Int) : Int := max (intRange code).1 (min (intRange code).2 x)

/-- An integer pattern of `w` bits, signed or not. -/
def intOf (w : Nat) (signed : Bool) (b : Nat) : Int :=
  let b := b % 2 ^ w
  if signed && bit b (w - 1) then (b : Int) - 2 ^ w else b

/-- The pattern of an integer in `w` bits. -/
def intBits (w : Nat) (x : Int) : Nat := (x % 2 ^ w).toNat

/-- `dec` of an element pattern in a format code, float or integer (R173). -/
def decElem (code b : Nat) : Val :=
  match fmtOf code with
  | some f => f.dec (b % 2 ^ elemBits code)
  | none => Val.ofInt (intOf (elemBits code) (code == 9 || code == 11) b)

/-! ## Block scales (R178 to R181) -/

/-- The value of a scale byte (R178). -/
def decScale (code s : Nat) : Val :=
  if code = 18 then e4m3.dec s
  else if s = 0xFF then .nan else .pow2 ((s : Int) - 127)

/-- `val` of an element pattern with its block's scale and special byte (R180, R181). -/
def blockVal (code e scale special : Nat) : Val :=
  if !isBlock code then decElem code e
  else
    let s := decScale code scale
    if s.isNan then .nan
    else if hasSpecial code && e == 8 && special != 0 then (e4m3.dec special).mul s
    else (decElem code e).mul s

/-- Element `j` of width `w` of a packed stream of words (R182). -/
def packed (ws : List Word) (w j : Nat) : Nat :=
  let lo := w * j
  let a := (ws.getD (lo / 32) 0).toNat
  let b := (ws.getD (lo / 32 + 1) 0).toNat
  (a + b * 2 ^ 32) / 2 ^ (lo % 32) % 2 ^ w

/-- Byte `j` of a stream of words (R183). -/
def wordByte (ws : List Word) (j : Nat) : Nat := (ws.getD (j / 4) 0).toNat / 2 ^ (8 * (j % 4)) % 256

/-- The words that hold `n` elements of width `w` (R182). -/
def packedWords (n w : Nat) : Nat := (n * w + 31) / 32

/-- The side bytes of `n` elements in a format (R183). -/
def sideBytes (code n : Nat) : Nat :=
  if isBlock code then ((n + blockSize code - 1) / blockSize code) * (if hasSpecial code then 2 else 1) else 0

/-- The words of a packed vector with its side words (R182, R183). -/
def vectorWords (code n : Nat) : Nat := packedWords n (elemBits code) + (sideBytes code n + 3) / 4

/-- `val(f, k)` of element `k` of a packed vector of `n` elements (R181). -/
def vectorVal (code n : Nat) (ws : List Word) (k : Nat) : Val :=
  let side := ws.drop (packedWords n (elemBits code))
  let blocks := (n + blockSize code - 1) / blockSize code
  let b := k / blockSize code
  blockVal code (packed ws (elemBits code) k) (wordByte side b) (wordByte side (blocks + b))

/-! ## Sums of a matrix pass (R188, R189) -/

/-- One group of a float pass: the products of a group are summed exactly and rounded, and the sum is added. -/
def addGroup (acc : Word) (ps : List (Val × Val)) : Word :=
  rne32 ((decF acc).add (decF (rne32 (Val.sum (ps.map fun p => p.1.mul p.2)))))

/-- One product of an integer pass. -/
def addInt (isat : Bool) (acc : Word) (a b : Int) : Word :=
  let x := acc.toInt + a * b
  BitVec.ofInt 32 (if isat then max (-2147483648) (min 2147483647 x) else x)

/-! ## Wide fixed-point cells (R191 to R194) -/

/-- `fxconv`: the cell-grid value with ovf and nan (R192). -/
def fxconv (x : Val) : BitVec 128 × Bool × Bool :=
  match x with
  | .nan => (0, false, true)
  | .inf neg => (BitVec.ofInt 128 (if neg then -2 ^ 127 else 2 ^ 127 - 1), true, false)
  | .num neg m e =>
    if !(Val.num false m e).lt (.pow2 63) then
      (BitVec.ofInt 128 (if neg then -2 ^ 127 else 2 ^ 127 - 1), true, false)
    else match (Val.num neg m (e + 64)).toInt 0 with
      | some (q, _) => (BitVec.ofInt 128 q, false, false)
      | none => (0, false, false)

/-- The bytes of a cell with a converted value added in (R193). The reserved fields keep their bits. -/
def fxAdd (cell : List Byte) (q : BitVec 128 × Bool × Bool) : List Byte :=
  let v := BitVec.ofNat 128 (leNat (cell.take 16)) + q.1
  let f := leNat ((cell.drop 16).take 8)
  leBytes 16 v.toNat ++ leBytes 8 (f ||| ((if q.2.1 then 1 else 0) + if q.2.2 then 2 else 0)) ++ cell.drop 24

/-- A cell's rounded value with ovf in bit 0 and nan in bit 1 (R194). -/
def fxRead (cell : List Byte) : DWord × Nat :=
  let v := (BitVec.ofNat 128 (leNat (cell.take 16))).toInt
  let f := leNat ((cell.drop 16).take 8) % 4
  (if f / 2 = 1 then 0x7FF8000000000000 else rne64 (.num (v < 0) v.natAbs (-64)), f)

/-- A cell with lo, hi, ovf and nan zero (R276). -/
def fxClear (cell : List Byte) : List Byte :=
  leBytes 16 0 ++ leBytes 8 (leNat ((cell.drop 16).take 8) / 4 * 4) ++ cell.drop 24

/-! ## Approximate functions (R243): fixed-point evaluation at 2^−160, and the bound -/

/-- Fraction bits of the evaluation. -/
def fxBits : Nat := 160

/-- ln 2 × 2^160, rounded down. -/
def ln2Fx : Int := 1013035739299659071135698605846798551586536899366

/-- π × 2^160, rounded down. -/
def piFx : Int := 4591442807048218921384805199743311128454155024418

/-- A finite value at 2^−160, rounded down. -/
def Val.fx : Val → Int
  | .num neg m e =>
    let v : Int := m * 2 ^ (e + fxBits).toNat / 2 ^ (-(e + fxBits)).toNat
    if neg then -v else v
  | _ => 0

/-- Σ x^k / k! from term `k` on, `t` being term k. -/
def expSeries (x : Int) : Nat → Nat → Int → Int
  | 0, _, _ => 0
  | n + 1, k, t => t + expSeries x n (k + 1) (t * x / 2 ^ fxBits / (k + 1))

/-- 2^a for a finite `a`, as an exact-to-2^−150 value. -/
def evalExp2 (a : Val) : Val :=
  let x := a.fx
  let n := x / 2 ^ fxBits
  let f := x % 2 ^ fxBits
  .num false (expSeries (f * ln2Fx / 2 ^ fxBits) 48 0 (2 ^ fxBits)).toNat (n - fxBits)

/-- Σ z^(2k+1) / (2k+1). -/
def atanhSeries (z2 : Int) : Nat → Nat → Int → Int
  | 0, _, _ => 0
  | n + 1, k, t => t / (2 * k + 1) + atanhSeries z2 n (k + 1) (t * z2 / 2 ^ fxBits)

/-- log2 of a positive finite value. -/
def evalLog2 (m : Nat) (e : Int) : Val :=
  let top := m.log2
  let one : Int := 2 ^ fxBits
  let x : Int := m * 2 ^ fxBits / 2 ^ top
  let z := (x - one) * one / (x + one)
  let v := 2 * atanhSeries (z * z / one) 56 0 z * one / ln2Fx + (top + e) * one
  .num (v < 0) v.natAbs (-fxBits)

/-- Σ of the alternating series x^k / k!, k stepping by 2. -/
def trigSeries (x2 : Int) : Nat → Nat → Int → Int
  | 0, _, _ => 0
  | n + 1, k, t => t - trigSeries x2 n (k + 2) (t * x2 / 2 ^ fxBits / ((k + 1) * (k + 2)))

/-- sin or cos of a value of magnitude at most 2^15. -/
def evalTrig (cos : Bool) (a : Val) : Val :=
  let two := 2 * piFx
  let r := a.fx % two
  let x := if piFx < r then r - two else r
  let x2 := x * x / 2 ^ fxBits
  let v := if cos then trigSeries x2 40 0 (2 ^ fxBits) else trigSeries x2 40 1 x
  .num (v < 0) v.natAbs (-fxBits)

/-- One ulp at a value in f32, subnormal spacing included. -/
def ulpAt : Val → Val
  | .num _ m e => .pow2 (max ((m.log2 : Int) + e) (-126) - 23)
  | _ => .pow2 (-149)

/-- Whether an f32 pattern lies within `bound` of an exact value. -/
def within (p : Word) (v bound : Val) : Bool :=
  match decF p with
  | .num n m e => !bound.lt ((Val.add (.num n m e) v.negate).abs)
  | _ => false

/-- The device's choice within the bound: the free value where it is conformant, otherwise the nearest f32. -/
def chosen (fn : Nat) (a : Word) (v bound : Val) : Word :=
  let p := Config.approx fn a
  if within p v bound then p else rne32 v

/-- Whether a finite value is an integer. -/
def Val.isInt (x : Val) : Bool := match x.toInt 1 with | some (_, r) => !r | none => false

/-- `frcp` with its flags. -/
def approxRcp (a : Word) : Word × Nat :=
  match decF a with
  | .nan => (0x7FC00000, 0)
  | .inf n => (BitVec.ofNat 32 (f32.pattern n 0), 0)
  | .num n m e =>
    if m = 0 then (BitVec.ofNat 32 (f32.pattern n f32.infCode), fDz)
    else if m = 2 ^ m.log2 then (rne32 (.num n 1 (-(e + m.log2))), 0)
    else
      let v := Val.div (.num false 1 0) (.num n m e)
      let lo := BitVec.ofNat 32 (f32.round 2 v).1
      let hi := BitVec.ofNat 32 (f32.round 3 v).1
      (if Config.approx 0 a = hi then hi else lo, 0)

/-- `frsq` with its flags. -/
def approxRsq (a : Word) : Word × Nat :=
  match decF a with
  | .nan => (0x7FC00000, 0)
  | .inf n => if n then (0x7FC00000, fNv) else (0, 0)
  | .num n m e =>
    if m = 0 then (BitVec.ofNat 32 (f32.pattern n f32.infCode), fDz)
    else if n then (0x7FC00000, fNv)
    else
      let v := (Val.div (.num false 1 0) (.num false m e)).sqrt
      (chosen 1 a v (ulpAt v), 0)

/-- `fexp2`. A value beyond the f32 range is +inf; one far below it is of the order of the smallest subnormal. -/
def approxExp2 (a : Word) : Word × Nat :=
  match decF a with
  | .nan => (0x7FC00000, 0)
  | .inf n => (if n then 0 else 0x7F800000, 0)
  | .num n m e =>
    let x := Val.num n m e
    if !x.lt (Val.ofInt 128) then (0x7F800000, 0)
    else if x.isInt then
      (match x.toInt 1 with
        | some (i, _) => if i < -149 then 0 else rne32 (.pow2 i)
        | none => 0, 0)
    else
      let v := if x.lt (Val.ofInt (-200)) then .pow2 (-200) else evalExp2 x
      (chosen 2 a v (Val.mul (Val.ofInt 2) (ulpAt v)), 0)

/-- `flog2` with its flags. -/
def approxLog2 (a : Word) : Word × Nat :=
  match decF a with
  | .nan => (0x7FC00000, 0)
  | .inf n => if n then (0x7FC00000, fNv) else (0x7F800000, 0)
  | .num n m e =>
    if m = 0 then (0xFF800000, fDz)
    else if n then (0x7FC00000, fNv)
    else if m = 2 ^ m.log2 then (rne32 (Val.ofInt (e + m.log2)), 0)
    else
      let v := evalLog2 m e
      let x := Val.num false m e
      let inside := !x.lt (.pow2 (-1)) && !(Val.ofInt 2).lt x
      (chosen 3 a v (if inside then .pow2 (-22) else Val.mul (Val.ofInt 2) (ulpAt v)), 0)

/-- `fsin` and `fcos` with their flags. -/
def approxTrig (cos : Bool) (a : Word) : Word × Nat :=
  match decF a with
  | .nan => (0x7FC00000, 0)
  | .inf _ => (0x7FC00000, fNv)
  | .num n m e =>
    let x := Val.num n m e
    if m = 0 then (if cos then 0x3F800000 else a, 0)
    else if (Val.pow2 15).lt x.abs then
      let p := Config.approx (if cos then 5 else 4) a
      (if within p (.num false 0 0) (.pow2 0) then p else 0, 0)
    else (chosen (if cos then 5 else 4) a (evalTrig cos x) (.pow2 (-21)), 0)

end Sys2Proof.Machine
end

