-- ==== Sys2Proof/Machine/Translate.lean ====
section
/-! DEFINITION. Virtual addresses: the table walk, spaces, locked ranges and the local map (R420 to R431, R50, R51,
R53). -/

namespace Sys2Proof.Machine

/-- What an access is for (R263, R213). -/
inductive Want where
  | read
  | write
  | fetch
deriving DecidableEq, Repr

/-- What a translation yields (R427). -/
inductive Xlate where
  | ok (pa : Nat) (sc : Bool) (page : Nat)
  | fail (c : Cause)
deriving DecidableEq, Repr

/-- The regions of the local map (R421). -/
inductive Region where
  | hbm (stack : Nat)
  | tier (die : Nat)
  | pavilion (die : Nat)
  | window
  | host
  | hole
deriving DecidableEq, Repr

/-- The region of a local address (R421). -/
def region (a : Nat) : Region :=
  if a ≤ 0x17FFFFFFFFF then .hbm (a / 0x1000000000)
  else if 0x40000000000 ≤ a ∧ a ≤ 0x63FFFFFFFFF then .tier ((a - 0x40000000000) / 0xC000000000)
  else if 0x80000000000 ≤ a ∧ a ≤ 0x80017FFFFFF then .pavilion ((a - 0x80000000000) / 0x8000000)
  else if 0xA0000000000 ≤ a ∧ a ≤ 0xA0003FFFFFF then .window
  else if 0xC0000000000 ≤ a ∧ a ≤ 0xFFFFFFFFFFF then .host
  else .hole

/-- Whether R421 backs a local address (R421, R422). -/
def backed (a : Nat) : Bool :=
  match region a with
  | .hbm s => a - s * 0x1000000000 < 64000000000
  | .tier d => Config.tierPresent && a - 0x40000000000 - d * 0xC000000000 < 768000000000
  | .pavilion _ => true
  | .window => true
  | .host => true
  | .hole => false

/-- The local part and the node of a physical address (R420). -/
def paLocal (pa : Nat) : Nat := pa % 2 ^ 44

/-- The node of a physical address (R420). -/
def paNode (pa : Nat) : Nat := pa / 2 ^ 44 % 2 ^ 10

/-- The pseudo-channel of a stack's offset, one of 64 (R423). -/
def pseudoChannel (o : Nat) : Nat := bits o 13 8 ^^^ bits o 19 14

/-- The 16-byte granule of a stack's offset (R423). -/
def granule (o : Nat) : Nat := o / 16

/-- The 32-byte ECC word of a stack's offset (R423). -/
def eccWord (o : Nat) : Nat := o / 32

/-- The LPDDR-6 package in which offset `o` of die `d`'s tier share lies, and its address in that package (R423). -/
def tierPlace (d o : Nat) : Nat × Nat := (6 * d + o / 4096 % 6, o / 4096 / 6 * 4096 + o % 4096)

/-- The tier code that a leaf of the region must carry (R425, R426). -/
def tierCode (a : Nat) : Option Nat :=
  match region a with
  | .hbm _ => some 0
  | .tier _ => some 1
  | .pavilion _ => some 2
  | .host => some 3
  | _ => none

/-- The virtual address bits that index a level (R424). -/
def levelIndex (level va : Nat) : Nat :=
  match level with
  | 4 => bits va 55 48
  | 3 => bits va 47 39
  | 2 => bits va 38 30
  | 1 => bits va 29 21
  | _ => bits va 20 12

/-- Bytes of a page by size code (R425). -/
def pageBytes (size : Nat) : Nat :=
  match size with
  | 0 => 4096
  | 1 => 65536
  | 2 => 2097152
  | _ => 1073741824

/-- Whether a size code may stand at a level (R424). -/
def sizeAt (level size : Nat) : Bool :=
  match level with
  | 0 => size == 0 || size == 1
  | 1 => size == 2
  | 2 => size == 3
  | _ => false

/-- A leaf's word as the walk finds it (R425), with its level. -/
structure Leaf where
  word : Nat
  level : Nat
deriving DecidableEq, Repr

/-- Whether a present leaf is well formed (R426). A frame in window 0 passes whatever its tier, so that it raises
kernel-frame whatever its leaf entry holds (R422). -/
def Leaf.ok (e : Leaf) : Bool :=
  let frame := bits e.word 43 12 * 4096
  bits e.word 53 44 == 0 && bits e.word 7 6 == 0 && sizeAt e.level (bits e.word 9 8) &&
    frame % pageBytes (bits e.word 9 8) == 0 && (region frame == .window || tierCode frame == some (bits e.word 11 10))

/-- Whether a table pointer is well formed: every bit but P and 43:12 zero, and its table in the package's own HBM or
tier (R425, R426). -/
def tableOk (w : Nat) : Bool :=
  bits w 63 44 == 0 && bits w 11 1 == 0 && match region (bits w 43 12 * 4096) with
    | .hbm _ => true
    | .tier _ => true
    | _ => false

/-- The walk from a table: the leaf, or nothing with whether the entry was malformed (R424, R426). -/
def State.walk (s : State) : Nat → Nat → Nat → Option Leaf × Bool
  | level, table, va =>
    let w := s.wordPa (s.localPa (table + 8 * levelIndex level va)) 8
    if !bit w 0 then (none, false)
    else if bit w 1 then
      if (Leaf.mk w level).ok then (some { word := w, level := level }, false) else (none, true)
    else if !tableOk w then (none, true)
    else match level with
      | 0 => (none, true)
      | n + 1 => s.walk n (bits w 43 12 * 4096) va

/-- Whether a local address lies in a locked range (R431). The limit names the last frame of the range (DEDUCED from
"limit below base locks nothing", assumption 17). -/
def State.locked (s : State) (a : Nat) : Bool :=
  s.mc.krange.any fun r => bits r.1.toNat 43 12 ≤ a / 4096 && a / 4096 ≤ bits r.2.toNat 43 12

/-- Whether a physical address lies in a locked range of its home package (R431): for another package, as that package has
it. -/
def State.lockedAt (s : State) (pa : Nat) : Bool :=
  if paNode pa = s.fabric.fnode.toNat then s.locked (paLocal pa) else Config.remoteLocked (pa / 4096 * 4096)

/-- The physical address that a leaf gives a virtual address (R427). -/
def Leaf.pa (e : Leaf) (va : Nat) : Nat :=
  let n := pageBytes (bits e.word 9 8)
  bits e.word 63 54 * 2 ^ 44 + bits e.word 43 12 * 4096 + va % n

/-- A translation in a space for a tenant (R50, R427, R428), with whether it met a malformed entry (R426). -/
def State.translate (s : State) (space : Nat) (tenant : BitVec 16) (want : Want) (va : Nat) : Xlate × Bool :=
  if va / 2 ^ 56 ≠ 0 then (.fail .notPresent, false) else
  let base := s.localPa (bits s.mc.stbase.toNat 43 12 * 4096 + 16 * space)
  let e0 := s.wordPa base 8
  let e1 := s.wordPa (base + 8) 8
  if space = 0 ∨ s.mc.stlen.toNat % 2 ^ 17 ≤ space ∨ !bit e0 0 ∨ bits e1 31 16 ≠ tenant.toNat then
    (.fail .notPresent, false)
  else match s.walk 4 (bits e0 43 12 * 4096) va with
    | (none, m) => (.fail .notPresent, m)
    | (some e, _) =>
      let pa := e.pa va
      if bit e.word 5 || region (paLocal pa) == .window || s.lockedAt pa then (.fail .kernelFrame, false)
      else if (match want with | .read => false | .write => !bit e.word 2 | .fetch => !bit e.word 3) then
        (.fail .permission, false)
      else (.ok pa (bit e.word 4) (pageBytes (bits e.word 9 8)), false)

/-- A malformed entry met adds 1 to MALFORM (R426, R430). -/
def State.noteMalformed (s : State) (n : Nat) : State :=
  { s with mc := { s.mc with malform := s.mc.malform + BitVec.ofNat 64 n } }

/-- The first address of the page that a virtual address lies in, as a batch records it: 4 KiB pages, since a missing
page has no size (R157). -/
def pageOf (va : DWord) : Nat := va.toNat / 4096 * 4096

/-- The physical address of a Pavilion address, or nothing where R51 refuses it. -/
def State.pavilion (s : State) (a : Word) : Option Nat :=
  if a.toNat / 2 ^ 29 ≠ 0 ∨ bits a.toNat 28 27 = 3 then none
  else some (s.localPa (0x80000000000 + a.toNat % 2 ^ 29))

/-- A scratchpad offset with the swizzle of R53 applied. -/
def swizzle (sw e : Nat) : Nat :=
  let x := bits e 9 7 &&& sw
  e - bits e 6 4 * 16 + (bits e 6 4 ^^^ x) * 16

end Sys2Proof.Machine
end

