-- ==== Sys2Proof/Machine/Ops.lean ====
section
/-! DEFINITION. The named operations over memory, registers and operations in flight, and the taking of an exception
and the return from one. -/

namespace Sys2Proof.Machine

/-! ## Parts of the machine -/

/-- Core `%pkg` = `k`. -/
def State.core (s : State) (k : Nat) : Core := s.cores.getD k Core.reset

/-- Core `k` changed. -/
def State.modCore (s : State) (k : Nat) (f : Core → Core) : State := { s with cores := s.cores.modify k f }

/-- The group in a slot. -/
def Core.group (c : Core) (j : Nat) : Option Group := c.groups.getD j none

/-- The group in a slot changed. -/
def Core.modGroup (c : Core) (j : Nat) (f : Group → Group) : Core :=
  { c with groups := c.groups.modify j (Option.map f) }

/-- A group of core `k` changed. -/
def State.modGroup (s : State) (k j : Nat) (f : Group → Group) : State := s.modCore k (·.modGroup j f)

/-- A lane of a group changed. -/
def Group.modLane (g : Group) (l : Nat) (f : LaneState → LaneState) : Group := { g with lanes := g.lanes.modify l f }

/-- Lane `l` of a group. -/
def Group.lane (g : Group) (l : Nat) : LaneState := g.lanes.getD l (LaneState.init 0)

/-- A lane placed at a word address. -/
def LaneState.goto (t : LaneState) (a : Word) : LaneState := { t with vpc := a }

/-- The lanes of `m` changed. -/
def Group.mapLanes (g : Group) (m : Word) (f : Nat → LaneState → LaneState) : Group :=
  { g with lanes := g.lanes.mapIdx fun l t => if m.getLsbD l then f l t else t }

/-- The lanes of `m` placed at word addresses (R31). -/
def Group.place (g : Group) (m : Word) (f : Nat → Word) : Group := g.mapLanes m fun l t => t.goto (f l)

/-- A group at launch: `n` vector registers, entry word, constant bank, index, role and team (R20, R44, R54, R112). -/
def Group.launch (n : Nat) (entry : Word) (k : List Word) (tix : Nat) (role : BitVec 2) (team : Nat) : Group where
  rf := RegFile.init n k
  lanes := List.replicate 32 (LaneState.init entry)
  flags := List.replicate 12 0
  seta := none
  setb := none
  fx := 0xFFFFFFFF
  fire := List.replicate 128 0
  latch := List.replicate 32 none
  charged := 0
  lastCharge := 0
  tix := tix
  role := role
  team := team
  partDone := false
  barWait := none
  sleepUntil := none
  tryUntil := none
  claim := none
  phase := .running
  area := 0
  report := none
  unfin := 0
  cause := 0
  resume := 0
  noWatch := 0
  errors := []
  missed := []
  age := 0
  aged := false
  why := (10, entry, entry)
  heldPc := entry
  fetched := none
  late := []
  nextAt := 0
  holding := []
  seen := 0
  podFence := 0
  fences := []
  part := none

/-- A group that no slot holds. -/
def Group.blank : Group := Group.launch 0 0xFFFFFFFF [] 0 0 0

/-- The group whose word is being issued. -/
def State.grp (s : State) : Group := ((s.core s.issue.core).group s.issue.slot).getD Group.blank

/-- The group whose word is being issued, changed. -/
def State.onGrp (s : State) (f : Group → Group) : State := s.modGroup s.issue.core s.issue.slot f

/-- The core whose word is being issued. -/
def State.cur (s : State) : Core := s.core s.issue.core

/-- The core whose word is being issued, changed. -/
def State.onCore (s : State) (f : Core → Core) : State := s.modCore s.issue.core f

/-- The team with a number on a core. -/
def Core.team (c : Core) (id : Nat) : Option Team := c.teams.find? (·.id == id)

/-- A team of a core changed. -/
def Core.modTeam (c : Core) (id : Nat) (f : Team → Team) : Core :=
  { c with teams := c.teams.map fun t => if t.id = id then f t else t }

/-- A team without groups: what a group of no team belongs to. -/
def Team.blank : Team where
  id := 0
  slots := []
  live := []
  origin := Origin.zero
  trec := 0
  arg := 0
  coord := []
  succ := 0
  spadMap := []
  spadSize := 0
  pool := 0
  claims := []
  cover := []
  doneSent := false
  err := false

/-- Where byte `e` of a team's scratchpad allocation lies in the core's scratchpad. -/
def Team.spad (t : Team) (e : Nat) : Nat := t.spadMap.getD (e / 1024) 0 * 1024 + e % 1024

/-- The team of the group being issued. -/
def State.curTeam (s : State) : Team := (s.cur.team s.grp.team).getD Team.blank

/-- `%tick`: 100 MHz beside the 1.5 GHz `%clk` (R233). -/
def State.tick (s : State) : Nat := s.clk / 15

/-- Whether a residency watches a byte of the range, for its load or for one that waits to begin (R87). -/
def ResEntry.watches (e : ResEntry) (pa n : Nat) : Bool :=
  e.st != .free && (e.watched ++ e.ahead.flatMap (·.2.1)).any fun r => overlap pa n r.1 r.2

/-- A residency after a write of the range: one that watches a byte of it becomes stale (R87), and so will it be once a load
that waits to begin has begun, where the write met its source (R88). -/
def ResEntry.touch (e : ResEntry) (pa n : Nat) : ResEntry :=
  if e.watches pa n then
    { e with
      stale := true
      ahead := e.ahead.map fun a => (a.1, a.2.1, a.2.2 || a.2.1.any fun r => overlap pa n r.1 r.2) }
  else e

/-- Vector register `d` written in the lanes of `m` (R29, R44); beyond the allotment nothing is written. -/
def RegFile.setV (rf : RegFile) (d : Nat) (m : Word) (f : Nat → Word) : RegFile :=
  { rf with v := rf.v.modify d fun row => row.mapIdx fun l w => if m.getLsbD l then f l else w }

/-- Registers d, d + 1, … of lane `l` written from the words of a value. -/
def RegFile.setWords (rf : RegFile) (d n : Nat) (m : Word) (f : Nat → Nat) : RegFile :=
  (List.range n).foldl (fun rf k => rf.setV (d + k) m fun l => BitVec.ofNat 32 (f l / 2 ^ (32 * k))) rf

/-- The word of vector register `r` in lane `l`. -/
def RegFile.rv (rf : RegFile) (r l : Nat) : Word := (rf.v.getD r []).getD l 0

/-- The pair vR:vR+1 in lane `l`, low word in vR. -/
def RegFile.rv64 (rf : RegFile) (r l : Nat) : DWord := rf.rv (r + 1) l ++ rf.rv r l

/-- Scalar register. -/
def RegFile.rs (rf : RegFile) (n : Nat) : DWord := rf.s.getD n 0

/-- Predicate `p` in lane `l`; p7 reads 1 (R218). -/
def RegFile.rp (rf : RegFile) (p l : Nat) : Bool := p == 7 || (rf.p.getD p 0).getLsbD l

/-- Predicate `p` written in the lanes of `m`; a write to p7 is dropped (R218). -/
def RegFile.setP (rf : RegFile) (p : Nat) (m : Word) (f : Nat → Bool) : RegFile :=
  { rf with p := rf.p.modify p fun w => (w &&& ~~~m) ||| (maskOf f &&& m) }

/-- A scalar register written. -/
def RegFile.setS (rf : RegFile) (n : Nat) (w : DWord) : RegFile := { rf with s := rf.s.set n w }

/-! ## The group image (R419) -/

/-- Bytes in an image before the vector registers. -/
def imageHead : Nat := 0xD80

/-- The bytes of a lane record and what it holds of the lane's wait (R419). -/
def LaneState.record (t : LaneState) : List Byte :=
  let wait := match t.park with
    | none => (0, 0, 0)
    | some p => (if p.pop then 2 else 1, p.va.toNat % 2 ^ 56, p.expected.toNat)
  leBytes 4 t.vpc.toNat ++ leBytes 4 t.vc.toNat ++ leBytes 8 t.hp.toNat ++ leBytes 8 t.tp.toNat ++
    leBytes 8 t.cp.toNat ++ leBytes 8 t.bt.toNat ++ leBytes 8 t.sd.toNat ++
    leBytes 8 (wait.1 * 2 ^ 56 + wait.2.1) ++ leBytes 8 wait.2.2

/-- The image of a group in slot `gid` of a team with launch sequence number `lseq`. -/
def Group.image (g : Group) (gid : Nat) (lseq : Word) (ctx : Bool) : List Byte :=
  let n := g.rf.v.length
  let parked := maskOf fun l => (g.lane l).park.isSome
  let exited := maskOf fun l => (g.lane l).vpc == 0xFFFFFFFF
  let set := fun o : Option Nat => match o with | none => 0 | some f => f + 16
  let wait := match g.barWait with
    | none => 0
    | some w => if ctx then 0 else
        w.scope.toNat + 16 * w.num.toNat + 256 + (w.token.getD 0).toNat * 2 ^ 32
  leBytes 8 (1 + n * 2 ^ 8 + gid * 2 ^ 16 + g.tix * 2 ^ 21 + g.role.toNat * 2 ^ 25 + lseq.toNat * 2 ^ 32) ++
  leBytes 8 (g.unfin.toNat + parked.toNat * 2 ^ 32) ++
  leBytes 8 (exited.toNat + g.rf.fpm.toNat * 2 ^ 32) ++
  (List.range 12).map (fun i => BitVec.ofNat 8 (g.flags.getD i 0)) ++
  leBytes 4 (set g.seta + set g.setb * 2 ^ 8) ++
  leBytes 4 g.fx.toNat ++
  leBytes 4 (g.cause.toNat + g.resume.toNat * 2 ^ 8) ++
  leBytes 8 wait ++ leBytes 8 0 ++
  (List.range 7).flatMap (fun p => leBytes 4 (g.rf.p.getD p 0).toNat) ++ leBytes 36 0 ++
  (List.range 32).flatMap (fun l => leBytes 8 (((g.lane l).park.map (·.deadline)).getD 0)) ++
  (List.range 64).flatMap (fun r => leBytes 8 (g.rf.rs r).toNat) ++
  (List.range 128).flatMap (fun w => leBytes 4 (g.fire.getD w 0).toNat) ++
  (List.range 32).flatMap (fun l => (g.lane l).record) ++
  (List.range n).flatMap (fun r => (List.range 32).flatMap fun l => leBytes 4 (g.rf.rv r l).toNat) ++
  (List.range 48).flatMap (fun i => leBytes 4 (g.rf.k.getD i 0).toNat)

/-- A window of a group that is away: its items are dropped, its binding stays, and a group that returns refills it from
head (R144). -/
def WqWindow.away (w : WqWindow) : WqWindow := { w with items := [], refill := w.desc.isSome }

/-- A lane as an image's record gives it; what a record does not hold comes from the lane as it left (R419). -/
def LaneState.restore (old : LaneState) (parked exited : Bool) (deadline : Nat) (r : List Byte) : LaneState :=
  let q := fun o n => leNat ((r.drop o).take n)
  let wait := q 0x30 8
  let base := old.park.getD { pop := false, va := 0, pa := 0, width := 4, expected := 0, deadline := 0, dest := 0,
                              desc := 0, mask := 0, pc := 0, event := none, word := 0 }
  { old with
    vpc := if exited then 0xFFFFFFFF else BitVec.ofNat 32 (q 0 4)
    vc := BitVec.ofNat 32 (q 4 4)
    hp := BitVec.ofNat 64 (q 8 8)
    tp := BitVec.ofNat 64 (q 16 8)
    cp := BitVec.ofNat 64 (q 24 8)
    bt := BitVec.ofNat 64 (q 32 8)
    sd := BitVec.ofNat 64 (q 40 8)
    park := if parked && (bits wait 63 56 == 1 || bits wait 63 56 == 2) then
        some { base with pop := bits wait 63 56 == 2, va := BitVec.ofNat 64 (bits wait 55 0),
                         expected := BitVec.ofNat 64 (q 56 8), deadline := deadline }
      else none
    win := old.win.away }

/-- A group as an image gives it (R158, R402, R419); what an image does not hold comes from the group as it left. -/
def Group.restore (old : Group) (b : List Byte) : Group :=
  let q := fun o n => leNat ((b.drop o).take n)
  let head := q 0 8
  let n := bits head 15 8
  let parked := BitVec.ofNat 32 (q 0x00C 4)
  let exited := BitVec.ofNat 32 (q 0x010 4)
  let set := fun w : Nat => if bit w 4 then some (w % 16) else none
  let wait := q 0x030 8
  { old with
    rf := { v := (List.range n).map fun r => (List.range 32).map fun l =>
                BitVec.ofNat 32 (q (imageHead + 128 * r + 4 * l) 4)
            s := (List.range 64).map fun i => BitVec.ofNat 64 (q (0x180 + 8 * i) 8)
            p := (List.range 7).map fun i => BitVec.ofNat 32 (q (0x040 + 4 * i) 4)
            k := (List.range 48).map fun i => BitVec.ofNat 32 (q (imageHead + 128 * n + 4 * i) 4)
            fpm := BitVec.ofNat 32 (q 0x014 4) }
    lanes := (List.range 32).map fun l =>
      (old.lane l).restore (parked.getLsbD l) (exited.getLsbD l) (q (0x080 + 8 * l) 8)
        ((b.drop (0x580 + 64 * l)).take 64)
    flags := (List.range 12).map fun i => q (0x018 + i) 1 % 64
    seta := set (q 0x024 1)
    setb := set (q 0x025 1)
    fx := BitVec.ofNat 32 (q 0x028 4)
    fire := (List.range 128).map fun w => BitVec.ofNat 32 (q (0x380 + 4 * w) 4)
    latch := List.replicate 32 none
    tix := bits head 24 21
    role := BitVec.ofNat 2 (bits head 26 25)
    unfin := BitVec.ofNat 32 (q 0x008 4)
    cause := BitVec.ofNat 8 (q 0x02C 1)
    resume := BitVec.ofNat 2 (q 0x02D 1)
    barWait := if bit wait 8 then
        some { scope := BitVec.ofNat 3 wait, num := BitVec.ofNat 4 (wait / 16),
               token := if (old.barWait.bind (·.token)).isSome || old.barWait.isNone then
                 some (BitVec.ofNat 32 (wait / 2 ^ 32)) else none,
               pc := (old.barWait.map (·.pc)).getD 0, mask := (old.barWait.map (·.mask)).getD 0 }
      else none }

/-! ## Operations in flight -/

/-- An operation of no group that has not begun. -/
def Flight.blank (id : Nat) (kind : FlightKind) : Flight where
  id := id
  word := id
  slot := 32
  team := 0
  pc := 0xFFFFFFFF
  mask := 0
  flag := none
  origin := Origin.zero
  trec := 0
  held := none
  performed := false
  errs := []
  got := []
  sent := 0
  seen := 0
  born := 0
  space := 0
  strict := false
  ordered := false
  stage := 0
  codes := []
  acq := false
  sc := false
  kind := kind

/-- The location `n` bytes on. -/
def Loc.add (a : Loc) (n : Nat) : Loc :=
  match a with
  | .phys pa => .phys (pa + n)
  | .spad o => .spad (o + n)

/-- Operation `id` of a core. -/
def Core.op (c : Core) (id : Nat) : Option Flight := c.flight.find? (·.id == id)

/-- An operation of a core changed. -/
def Core.modOp (c : Core) (id : Nat) (f : Flight → Flight) : Core :=
  { c with flight := c.flight.map fun o => if o.id = id then f o else o }

/-- An operation of a core gone. -/
def Core.dropOp (c : Core) (id : Nat) : Core := { c with flight := c.flight.filter (·.id != id) }

/-- The group that a flight belongs to, if it still holds its slot, with the physical address of its image while it is
switched out. -/
def Core.owner (c : Core) (slot team : Nat) : Option Group := (c.group slot).filter (·.team == team)

/-- The bytes of a change made to a group's image while the group is away (R208). -/
def Core.patch (c : Core) (slot team off : Nat) (bs : List Byte) : List (Nat × List Byte) :=
  match (c.owner slot team).filter (·.phase == .switchedOut) with
  | some g => [(g.area + off, bs)]
  | none => (c.saved.flatMap fun t => if t.team.id = team then
      (t.groups.filter (·.1 == slot)).map fun g => (g.2.area + off, bs) else [])

/-- A group changed where it is: in its slot or, while its team is away, with its team. -/
def Core.modOwner (c : Core) (slot team : Nat) (f : Group → Group) : Core :=
  { c with
    groups := c.groups.modify slot (Option.map fun g => if g.team = team then f g else g)
    saved := c.saved.map fun t => if t.team.id = team then
      { t with groups := t.groups.map fun g => if g.1 = slot then (g.1, f g.2) else g } else t }

/-- The waits of the core's parked lanes, those of saved teams among them (R34, R167). -/
def Core.watchers (c : Core) : List ParkRec :=
  ((c.groups.filterMap id) ++ c.saved.flatMap fun t => t.groups.map (·.2)).flatMap fun g => g.lanes.filterMap (·.park)

/-- The watched words of parked lanes that a store to the range changes are due a recheck (R34). -/
def Core.notice (c : Core) (pa n : Nat) : Core :=
  { c with rechecks := c.rechecks ++ ((c.watchers.filter fun p =>
      overlap pa n p.pa p.width && !c.rechecks.contains p.pa).map (·.pa)).eraseDups }

/-- What a write of the bytes at `pa` means to one core: residencies that watch a byte become stale, and the watched
words of parked lanes are due a recheck (R34, R87). -/
def Core.touch (c : Core) (pa n : Nat) : Core :=
  { c.notice pa n with res := c.res.map (·.touch pa n) }

/-- Whether the core watches or waits for a byte of the range. -/
def Core.cares (c : Core) (pa n : Nat) : Bool :=
  c.res.any (·.watches pa n) || c.watchers.any fun p => overlap pa n p.pa p.width

/-! ## Bytes that reach memory -/

/-- What a write of the range means to the cores of the package (R34, R87). -/
def State.touchCores (s : State) (pa n : Nat) : State :=
  { s with cores := s.cores.map fun c => if c.cares pa n then c.touch pa n else c }

/-- Bytes reach memory: an ECC word that they cover whole is good again, watching residencies become stale, and watchers are
due a recheck (R34, R87, R436). -/
def State.rawWrite (s : State) (pa : Nat) (bs : List Byte) : State :=
  { s with
    mem := s.mem.write pa bs
    bad := s.bad.filter fun w => !(pa ≤ w && w + 32 ≤ pa + bs.length)
    weak := s.weak.filter fun w => !(pa ≤ w && w + 16 ≤ pa + bs.length)
    cores := s.cores.map fun c => if c.cares pa bs.length then c.touch pa bs.length else c }

/-- Whether a write of `n` bytes masks an ECC word with uncorrectable data: the base die then writes nothing (R436). -/
def State.masksBad (s : State) (pa n : Nat) : Bool :=
  s.bad.any fun w => overlap pa n w 32 && !(pa ≤ w && w + 32 ≤ pa + n)

/-! ## The fault-address queue (R430, R441) -/

/-- The local address of record `n`. -/
def MemCtl.faqAt (m : MemCtl) (n : Nat) : Nat := bits m.faqbase.toNat 43 4 * 16 + 16 * (n % 2 ^ (m.faqctl.toNat % 32))

/-- Whether the queue is enabled with a legal length. -/
def MemCtl.faqOn (m : MemCtl) : Bool := m.faqctl.getLsbD 8 && 6 ≤ m.faqctl.toNat % 32 && m.faqctl.toNat % 32 ≤ 20

/-- An error writes its record: a repeat is folded into the newest record while that is unread; a full or disabled
queue drops it (R441), and so does one whose memory is uncorrectable. -/
def State.faultAddress (s : State) (kind source pa : Nat) : State :=
  let m := s.mc
  let w := kind % 16 * 2 ^ 60 + source % 16 * 2 ^ 56 + pa % 2 ^ 54
  let unread := (m.faqtail - m.faqhead).toNat
  let last := s.localPa (m.faqAt (m.faqtail - 1).toNat)
  let next := s.localPa (m.faqAt m.faqtail.toNat)
  if m.faqOn ∧ unread ≠ 0 ∧ s.wordPa last 8 = w ∧ !s.masksBad (last + 8) 8 then
    let q := s.wordPa (last + 8) 8
    let n := min 65535 (bits q 47 32 + 1)
    s.rawWrite (last + 8) (leBytes 8 (n * 2 ^ 32 + s.tick % 2 ^ 32))
  else if !m.faqOn ∨ 2 ^ (m.faqctl.toNat % 32) ≤ unread ∨ s.masksBad next 16 then
    { s with mc := { m with faqdrop := m.faqdrop + 1 } }
  else
    let t := s.rawWrite next (leBytes 8 w ++ leBytes 8 (s.tick % 2 ^ 32))
    { t with mc := { t.mc with faqtail := m.faqtail + 1 } }

/-- The source code of a physical address (R441). -/
def sourceOf (pa : Nat) : Nat :=
  match region (paLocal pa) with
  | .tier _ => 1
  | .pavilion _ => 3
  | _ => 0

/-- The records of the uncorrectable ECC words that accesses have met, each at the first of its granules that the access
touches: kind 2 for data read, kind 6 for a masked write (R441). -/
def State.recordErrors (s : State) (kind : Nat) (xs : List (Loc × Nat)) : State :=
  xs.foldl (fun s x => match x.1 with
    | .phys pa => (s.bad.filter fun w => overlap pa x.2 w 32).foldl (fun s w =>
        s.faultAddress kind (sourceOf pa) (max w (pa / 16 * 16))) s
    | .spad _ => s) s

/-- The correctable errors that reads have met: each is corrected, with a record of kind 1 (R441, R462). -/
def State.recordWeak (s : State) (xs : List (Loc × Nat)) : State :=
  xs.foldl (fun s x => match x.1 with
    | .phys pa => (s.weak.filter fun w => overlap pa x.2 w 16).foldl (fun s w =>
        { s with weak := s.weak.filter (· != w) }.faultAddress 1 (sourceOf pa) w) s
    | .spad _ => s) s

/-- A write of the device's own: where it masks an uncorrectable ECC word nothing is written, and the error is recorded
(R436, R441). -/
def State.ownWrite (s : State) (pa : Nat) (bs : List Byte) : State :=
  if s.masksBad pa bs.length then s.recordErrors 6 [(.phys pa, bs.length)] else s.rawWrite pa bs

/-- Bytes of images changed in memory (R87, R208). -/
def State.patchMem (s : State) (ps : List (Nat × List Byte)) : State := ps.foldl (fun s p => s.ownWrite p.1 p.2) s

/-- A group's flag loses 1 (R206). -/
def Group.lower (g : Group) (i : Nat) : Group := { g with flags := g.flags.modify i (· - 1) }

/-- The group of an operation, where it is: in its slot or away with its team. -/
def Core.groupOf (c : Core) (slot team : Nat) : Group :=
  ((c.owner slot team).orElse fun _ =>
    ((c.saved.flatMap (·.groups)).find? fun g => g.1 == slot && g.2.team == team).map (·.2)).getD Group.blank

/-- A `trywait` ends: its predicate is written where the group is, and the image of a group that is away holds it (R289,
R208, R419). -/
def State.endTry (s : State) (k slot team p : Nat) (m : Word) (val : Bool) : State :=
  let c := s.core k
  let rf := (c.groupOf slot team).rf.setP p m fun _ => val
  (s.modCore k (·.modOwner slot team fun g => { g with tryUntil := none, rf := g.rf.setP p m fun _ => val })).patchMem
    (if p = 7 then [] else c.patch slot team (0x040 + 4 * p) (leBytes 4 (rf.p.getD p 0).toNat))

/-- A `trywait` on flag `i` succeeds when the flag reads zero (R289). -/
def State.tryPasses (s : State) (k slot team i : Nat) : State :=
  let g := (s.core k).groupOf slot team
  match g.tryUntil with
  | some (f, p, m, _) => if f = i ∧ g.flags.getD i 0 = 0 then s.endTry k slot team p m true else s
  | none => s

/-- The flag of an operation loses 1; while the group is away its saved count does (R206, R208). -/
def State.lowerFlag (s : State) (k : Nat) (f : Flight) : State :=
  match f.flag with
  | none => s
  | some i =>
    let c := s.core k
    let cnt := (c.groupOf f.slot f.team).flags.getD i 0
    ((s.modCore k (·.modOwner f.slot f.team (·.lower i))).patchMem
      (c.patch f.slot f.team (0x018 + i) [BitVec.ofNat 8 (cnt - 1)])).tryPasses k f.slot f.team i

/-- A register row written in the lanes of `m` of the group that an operation belongs to; while the group is away its
image holds the row (R150, R208, R419). -/
def State.fill (s : State) (k slot team d : Nat) (m : Word) (f : Nat → Word) : State :=
  let c := s.core k
  (s.modCore k (·.modOwner slot team fun g => { g with rf := g.rf.setV d m f })).patchMem
    ((lanesOf m).flatMap fun l => c.patch slot team (imageHead + 128 * d + 4 * l) (leBytes 4 (f l).toNat))

/-- An operation is gone; when it is the last of its word, the word's flag loses 1 (R206, R304). -/
def State.finishOp (s : State) (k : Nat) (f : Flight) : State :=
  let s := s.modCore k (·.dropOp f.id)
  if (s.core k).flight.any fun e => e.word == f.word then s else s.lowerFlag k f

/-- An engine operation ends: its status register is written in the issuing lanes, its flag loses 1, and it is gone
(R206, R282). -/
def State.endOp (s : State) (k : Nat) (f : Flight) (status : Option Nat) (w : Word) : State :=
  let s := match status with
    | none => s
    | some d => s.fill k f.slot f.team d f.mask fun _ => w
  s.finishOp k f

/-! ## Writes that reach their home -/

/-- The migrations that a stale mark abandons, with the status 1 that they complete with (R103). -/
def State.abandon (s : State) (k : Nat) : State :=
  (s.core k).flight.foldl (fun s f => match f.kind with
    | .migrate e _ d _ => if (((s.core k).res.getD e ResEntry.reset).stale) then s.endOp k f (some d) 0x80000001 else s
    | _ => s) s

/-- The cores that watch or wait for a byte of a range. -/
def State.caring (s : State) (pa n : Nat) : List Nat := (List.range s.cores.length).filter fun k => (s.core k).cares pa n

/-- Bytes reach their home, and the pending migrations of residencies that watch them are abandoned (R34, R87, R103). -/
def State.performWrite (s : State) (pa : Nat) (bs : List Byte) : State :=
  (s.caring pa bs.length).foldl State.abandon (s.rawWrite pa bs)

/-- A write of the device's own reaches its home: where it masks an uncorrectable ECC word nothing is written, and the error is
recorded (R436, R441). -/
def State.deviceWrite (s : State) (pa : Nat) (bs : List Byte) : State :=
  if s.masksBad pa bs.length then s.recordErrors 6 [(.phys pa, bs.length)] else s.performWrite pa bs

/-- A write of this package reaches its home in another one (R34, R87, R103). -/
def State.touched (s : State) (pa n : Nat) : State := (s.caring pa n).foldl State.abandon (s.touchCores pa n)

/-- A write that may touch uncorrectable data: a masked write into such an ECC word writes nothing there and fails
(R436). The answer says whether it failed. -/
def State.storePa (s : State) (pa : Nat) (bs : List Byte) : State × Bool :=
  if s.masksBad pa bs.length then (s, true) else (s.performWrite pa bs, false)

/-- A location read at its home: memory, or the core's scratchpad. -/
def State.readLoc (s : State) (k : Nat) (a : Loc) (n : Nat) : List Byte :=
  match a with
  | .phys pa => s.readPa pa n
  | .spad o => (s.core k).spad.bytes o n

/-- A location written at its home; the answer says whether the write failed. -/
def State.storeLoc (s : State) (k : Nat) (a : Loc) (bs : List Byte) : State × Bool :=
  match a with
  | .phys pa => s.storePa pa bs
  | .spad o => (s.modCore k fun c => { c with spad := c.spad.write o bs }, false)

/-- Whether a location holds uncorrectable data. -/
def State.locBad (s : State) (a : Loc) (n : Nat) : Bool :=
  match a with
  | .phys pa => s.badAt pa n
  | .spad _ => false

/-- Whether two locations share a byte. -/
def Loc.meets (a : Loc) (n : Nat) (b : Loc) (m : Nat) : Bool :=
  match a, b with
  | .phys x, .phys y => overlap x n y m
  | .spad x, .spad y => overlap x n y m
  | _, _ => false

/-- The bytes of a location laid over with one pending store's. -/
def overlay (a : Loc) (bs : List Byte) (b : Loc) (new : List Byte) : List Byte :=
  let go := fun x y => bs.mapIdx fun i v => if y ≤ x + i && x + i < y + new.length then new.getD (x + i - y) 0 else v
  match a, b with
  | .phys x, .phys y => go x y
  | .spad x, .spad y => go x y
  | _, _ => bs

/-- The stores of the core before number `id` that meet a range and have not left for its home: what they lay over the
answer of a read that leaves now (R60, R72). -/
def Core.unsentStores (c : Core) (id pa n : Nat) : List (Nat × List Byte) :=
  c.flight.flatMap fun f => if f.performed || id ≤ f.id then [] else match f.kind with
    | .store ls => ls.zipIdx.filterMap fun x => match x.1.1.loc with
      | .phys p => if f.sent ≤ x.2 && overlap pa n p x.1.2.length then some (p, x.1.2) else none
      | .spad _ => none
    | _ => []

/-- The bytes at `pa` laid over with stores. -/
def laidOver (pa : Nat) (bs : List Byte) (laid : List (Nat × List Byte)) : List Byte :=
  laid.foldl (fun bs x => overlay (.phys pa) bs (.phys x.1) x.2) bs

/-- The bytes of a location laid over with the earlier stores of core `k` that are not performed yet, for a reader that
stands at number `id` in its issue order (R60, R72). -/
def State.overlaid (s : State) (k id : Nat) (a : Loc) (bs : List Byte) : List Byte :=
  (s.core k).flight.foldl (fun bs f => if f.performed || id ≤ f.id then bs else match f.kind with
    | .store ls => ls.foldl (fun bs x => overlay a bs x.1.loc x.2) bs
    | _ => bs) bs

/-- What a load of the core reads that stands at number `id` in its issue order: memory, laid over with the core's own
earlier stores that are not performed yet (R60, R72). -/
def State.coreRead (s : State) (k id : Nat) (a : Loc) (n : Nat) : List Byte := s.overlaid k id a (s.readLoc k a n)

/-- What the requests of an operation have brought back for a range, if they have (R420). -/
def Flight.answer (f : Flight) (a : Loc) (n : Nat) : Option (List Byte) :=
  match a with
  | .spad _ => none
  | .phys pa => (f.got.find? fun g => g.1 ≤ pa && pa + n ≤ g.1 + g.2.length).map fun g => (g.2.drop (pa - g.1)).take n

/-- What an operation reads at a location: the answer of its request, or the memory of this package as its core sees it. -/
def State.opRead (s : State) (k : Nat) (f : Flight) (a : Loc) (n : Nat) : List Byte :=
  (f.answer a n).getD (s.overlaid k f.id a (s.readLoc k a n))

/-- The bytes that an operation reads and may write at its location. -/
def Rmw.span : Rmw → Nat
  | .add w _ | .minmax w _ _ | .logic w _ _ | .xchg w _ | .cas w _ _ => w
  | .append _ _ => 8
  | .addF32 _ => 4
  | .fx _ _ | .fxread _ => 32

/-- The bytes that an operation may touch: an append's slot lies anywhere behind its count in the die's window (R278). -/
def Rmw.reach (r : Rmw) (a : Loc) : Nat :=
  match r, a with
  | .append _ _, .phys pa => 0x8000000 - paLocal pa % 0x8000000
  | _, _ => r.span

/-- The bytes that a load reads for each of its accesses. -/
def LoadDest.bytes : LoadDest → Nat
  | .reg _ n _ => n
  | .bank => 4
  | .descriptor => 64
  | .hidden => 64
  | .tile _ _ n => n

/-- The locations that an operation in flight touches in lane accesses, with sizes in bytes. -/
def FlightKind.locs : FlightKind → List (Loc × Nat)
  | .load dest ls => ls.map fun x => (x.loc, dest.bytes)
  | .store ls => ls.map fun x => (x.1.loc, x.2.length)
  | .rmw ls _ _ => ls.map fun x => (x.1.loc, x.2.span)
  | _ => []

/-- Whether two accesses in flight share a byte. -/
def FlightKind.meets (a b : FlightKind) : Bool := a.locs.any fun x => b.locs.any fun y => x.1.meets x.2 y.1 y.2

/-- Whether an operation is a load that has not returned. -/
def FlightKind.loads (k : FlightKind) : Bool :=
  match k with
  | .load _ _ => true
  | _ => false

/-- Whether an operation writes what it writes without reading. -/
def FlightKind.stores (k : FlightKind) : Bool :=
  match k with
  | .store _ => true
  | _ => false

/-- Whether an operation is a lane access still to be performed (a load until its data are back). -/
def Flight.open_ (f : Flight) : Bool :=
  match f.kind with
  | .load _ _ => true
  | .store _ => !f.performed
  | .rmw _ _ _ => !f.performed
  | _ => false

/-- Whether an operation is a load or an atomic that has not returned. -/
def Flight.reading (f : Flight) : Bool :=
  match f.kind with
  | .load _ _ => true
  | .rmw _ _ _ => true
  | _ => false

/-- The locations that the lanes of an operation touch, by lane. -/
def FlightKind.laneLocs : FlightKind → List (Nat × Loc × Nat)
  | .load dest ls => ls.map fun x => (x.lane, x.loc, dest.bytes)
  | .store ls => ls.map fun x => (x.1.lane, x.1.loc, x.2.length)
  | .rmw ls _ _ => ls.map fun x => (x.1.lane, x.1.loc, x.2.reach x.1.loc)
  | _ => []

/-- The line of a global address: 128 bytes, the largest request of R57 (DESIGN CHOICE, assumption 19). -/
def lineOf (pa : Nat) : Nat := pa / 128

/-- The requests that accesses make: one for each line of memory that they touch (R57). -/
def linesOf (ls : List (Loc × Nat)) : Nat := ((ls.flatMap fun x => match x.1 with
  | .phys pa => (List.range ((pa % 128 + x.2 + 127) / 128)).map (lineOf pa + ·)
  | .spad _ => []).eraseDups).length

/-- Whether an operation appends. -/
def FlightKind.appends (k : FlightKind) : Bool :=
  match k with
  | .rmw ls _ _ => ls.any fun x => x.2.span != x.2.reach x.1.loc
  | _ => false

/-- Whether two operations of one group, one of them an append, may touch a byte in one lane (R60, R279). -/
def Flight.meetsSlot (e f : Flight) : Bool :=
  (e.kind.appends || f.kind.appends) && e.slot == f.slot && e.team == f.team &&
    e.kind.laneLocs.any fun x => f.kind.laneLocs.any fun y => x.1 == y.1 && x.2.1.meets x.2.2 y.2.1 y.2.2

/-- Whether an earlier access of the core to the same bytes still keeps operation `f` from its own (R60): a load takes the
data of earlier stores with it and waits for none of them, but for one that both are accesses of an SC page (R71). -/
def Core.blocked (c : Core) (f : Flight) : Bool :=
  c.flight.any fun e => e.id < f.id && !e.performed && !(f.kind.loads && e.kind.stores && !(e.sc && f.sc)) &&
    (e.kind.meets f.kind || e.meetsSlot f)

/-! ## Loads returning their data (R266, R291, R113, R306) -/

/-- The number that a loaded register value stands for, by size code (R203). -/
def extend (size : Nat) (signed : Bool) (bs : List Byte) : Nat :=
  let n := leNat bs
  if signed && bit n (8 * size - 1) then n + 2 ^ 32 - 2 ^ (8 * size) else n

/-- The registers of a register destination filled from lanes' values. -/
def State.fillWords (s : State) (k slot team d n : Nat) (m : Word) (f : Nat → Nat) : State :=
  (List.range n).foldl (fun s i => s.fill k slot team (d + i) m fun l => BitVec.ofNat 32 (f l / 2 ^ (32 * i))) s

/-- The hidden term state that a search descriptor loads (R113). -/
def LaneState.loadDescriptor (t : LaneState) (bs : List Byte) : LaneState :=
  let q := fun o n => leNat ((bs.drop o).take n)
  { t with
    clen := BitVec.ofNat 16 (q 0x1C 2)
    hlen := BitVec.ofNat 16 (q 0x1E 2)
    cbase := BitVec.ofNat 64 (q 0x28 8)
    hbase := BitVec.ofNat 64 (q 0x30 8)
    floor := BitVec.ofNat 64 (q 0x38 8) }

/-- What a `wrsr` of `%sd` with the descriptor's address `va` sets once the descriptor has been read (R113). -/
def LaneState.setSearch (t : LaneState) (va : DWord) (bs : List Byte) : LaneState :=
  let t := t.loadDescriptor bs
  { t with sd := va, cp := 0, tp := t.cbase + BitVec.ofNat 64 (t.clen.toNat * 4096), hp := t.hbase }

/-- The lanes that a part of an operation stands for: its lane, or every lane of the word where one access serves them
all (R38, R59, R291). -/
def Flight.lanesOf (f : Flight) (lane : Nat) : Word :=
  match f.kind with
  | .load .bank _ => f.mask
  | _ => if f.kind.locs.length = 1 then f.mask else maskOf (· == lane)

/-- The error code of an access at its home: 0 none, 1 uncorrectable data, 2 not backed (R161, R422). -/
def State.homeCode (s : State) (a : Loc) (n : Nat) : Nat :=
  match a with
  | .spad _ => 0
  | .phys pa => if !backed (paLocal pa) then 2 else if s.badAt pa n then 1 else 0

/-- What the parts of a load meet: the lane and the code of each (R161, R266). -/
def State.loadCodes (s : State) (f : Flight) : List (Nat × Nat) :=
  match f.kind with
  | .load dest ls => ls.zipIdx.map fun x => (x.1.lane, match f.errs.find? (·.1 == x.2), f.answer x.1.loc dest.bytes with
    | some e, _ => e.2
    | none, some _ => 0
    | none, none => s.homeCode x.1.loc dest.bytes)
  | _ => []

/-- The lanes of an operation whose parts met a code. -/
def Flight.withCode (f : Flight) (cs : List (Nat × Nat)) (code : Nat) : Word :=
  cs.foldl (fun m c => if c.2 = code then m ||| f.lanesOf c.1 else m) 0

/-- A row of a tile with the words from column `start` on replaced by the loaded bytes (R306). -/
def Tile.load (a : Tile) (lane start : Nat) (bs : List Byte) : Tile :=
  { a with rows := a.rows.modify lane fun row => row.mapIdx fun i w =>
      if start ≤ i && i < start + bs.length / 4 then BitVec.ofNat 32 (leNat ((bs.drop (4 * (i - start))).take 4)) else w }

/-- The constant bank that 192 bytes load (R54, R291). -/
def bankOf (bs : List Byte) : List Word :=
  (List.range 48).map fun i => BitVec.ofNat 32 (leNat ((bs.drop (4 * i)).take 4))

/-- A returned lane's hidden term state read anew from its descriptor, where the lane is (R419). -/
def State.setHidden (s : State) (k slot team : Nat) (x : LaneAccess) (bs : List Byte) : State :=
  s.modCore k (·.modOwner slot team (·.modLane x.lane (·.loadDescriptor bs)))

/-- A lane's search state set from its descriptor, where the lane is; the image of a group that is away holds its
registers (R113, R208, R419). -/
def State.setDescriptor (s : State) (k slot team : Nat) (x : LaneAccess) (bs : List Byte) : State :=
  let c := s.core k
  let t := ((c.groupOf slot team).lane x.lane).setSearch x.va bs
  ((s.modCore k (·.modOwner slot team (·.modLane x.lane (·.setSearch x.va bs)))).patchMem
    (c.patch slot team (0x588 + 64 * x.lane) (leBytes 8 t.hp.toNat ++ leBytes 8 t.tp.toNat ++ leBytes 8 t.cp.toNat))).patchMem
    (c.patch slot team (0x5A8 + 64 * x.lane) (leBytes 8 t.sd.toNat))

/-- The destination of a load written from the bytes that its accesses return: a register, the constant bank, the
hidden term state, or a row of a tile. A lane whose access failed keeps its destination (R161). -/
def State.deliver (s : State) (k : Nat) (f : Flight) (dest : LoadDest) (ls : List LaneAccess) : State :=
  let cs := s.loadCodes f
  let bad := f.withCode cs 1 ||| f.withCode cs 2
  let data := fun (x : LaneAccess) n => s.opRead k f x.loc n
  match dest with
  | .reg d n sg =>
    let val := fun l => match ls.find? (fun x => ls.length == 1 || x.lane == l) with
      | some x => extend n sg (data x n)
      | none => 0
    s.fillWords k f.slot f.team d ((n + 3) / 4) (f.mask &&& ~~~bad) val
  | .bank =>
    if bad != 0 then s
    else
      let bs := ls.flatMap fun x => data x 4
      let c := s.core k
      let n := (c.groupOf f.slot f.team).rf.v.length
      (s.modCore k (·.modOwner f.slot f.team fun g => { g with rf := { g.rf with k := bankOf bs } })).patchMem
        (c.patch f.slot f.team (imageHead + 128 * n) bs)
  | .descriptor =>
    ls.foldl (fun s x => if bad.getLsbD x.lane then s
      else (lanesOf (f.lanesOf x.lane)).foldl (fun s l => s.setDescriptor k f.slot f.team { x with lane := l } (data x 64)) s) s
  | .hidden => ls.foldl (fun s x => if bad.getLsbD x.lane then s else s.setHidden k f.slot f.team x (data x 64)) s
  | .tile t start n =>
    ls.foldl (fun s x =>
      if bad.getLsbD x.lane then s
      else s.modCore k fun c => { c with tiles := c.tiles.modify t (·.load x.lane start (data x n)) }) s

/-! ## Taking an exception -/

/-- The code of a cause (R151). -/
def Cause.code : Cause → Nat
  | .illegalOpcode => 0x01
  | .reservedField => 0x02
  | .illegalOperand => 0x03
  | .literalLanding => 0x04
  | .clausePosition => 0x05
  | .chainConflict => 0x06
  | .formatDivergence => 0x07
  | .formatMismatch => 0x08
  | .misaligned => 0x09
  | .kernelFrame => 0x0A
  | .notPresent => 0x0B
  | .permission => 0x0C
  | .watchpoint => 0x0D
  | .residencyAbsent => 0x0E
  | .residencyStale => 0x0F
  | .termTag => 0x10
  | .bindingRange => 0x11
  | .stackLimit => 0x12
  | .softwareTrap => 0x13
  | .debugBreak => 0x14
  | .uncorrectable => 0x20
  | .remoteError => 0x21

/-- The way the device resumes a group after a cause: 0 replay, 1 replay without watch check, 2 after (R151, R419). -/
def Cause.resume : Cause → BitVec 2
  | .watchpoint => 1
  | .softwareTrap | .debugBreak | .uncorrectable | .remoteError => 2
  | _ => 0

/-- The bytes of a fault record (R418). -/
def faultRecord (s : State) (k slot : Nat) (t : Origin) (trec : DWord) (r : Report) : List Byte :=
  let va := if 0x09 ≤ r.cause.code && r.cause.code ≤ 0x0D then r.va.toNat else 0
  let dbg := (s.core k).regs.cctl.getLsbD 0
  leBytes 8 (r.cause.code + (if 0x20 ≤ r.cause.code then 2 ^ 8 else 0) + (if r.exited then 2 ^ 9 else 0) +
      (if dbg then 2 ^ 10 else 0) + (if r.pages = [] then 0 else 2 ^ 11) + slot * 2 ^ 16 + (k % 128) * 2 ^ 21 +
      (k / 128) * 2 ^ 28 + s.fabric.fnode.toNat * 2 ^ 32 + t.tenant.toNat * 2 ^ 48) ++
  leBytes 8 (r.pc.toNat + r.mask.toNat * 2 ^ 32) ++ leBytes 8 (r.unfin.toNat + t.lseq.toNat * 2 ^ 32) ++
  leBytes 8 va ++ leBytes 8 trec.toNat ++ leBytes 8 t.cpc.toNat ++ leBytes 8 r.code.toNat ++ leBytes 8 r.tick

/-- The page records that follow a batch's record, seven pages to a record (R157, R418). -/
def pageRecords : Nat → List (Nat × Bool) → List (List Byte)
  | 0, _ => []
  | _, [] => []
  | n + 1, ps =>
    let h := ps.take 7
    (leBytes 8 (0xFF + h.length * 2 ^ 8) ++
      (h.flatMap fun p => leBytes 8 (p.1 + if p.2 then 1 else 0)) ++ leBytes (56 - 8 * h.length) 0) ::
      pageRecords n (ps.drop 7)

/-- How many more records the fault queue has room for (R417). -/
def FaultQueue.free (q : FaultQueue) : Nat :=
  if q.ctl.getLsbD 8 ∧ 6 ≤ q.ctl.toNat % 32 ∧ q.ctl.toNat % 32 ≤ 20 then 2 ^ (q.ctl.toNat % 32) - (q.tail - q.head).toNat
  else 0

/-- Records wait to be written to the fault queue; each that finds the queue full is counted (R417). -/
def State.queueRecords (s : State) (owner : Option (Nat × Nat)) (rs : List (List Byte)) : State :=
  let fit := s.fq.free - s.fq.pending.length
  { s with fq := { s.fq with
      pending := s.fq.pending ++ rs.map fun r => (owner, r)
      waits := s.fq.waits + BitVec.ofNat 64 (rs.length - fit) } }

/-- A report is made: to the debug interface alone for a `brk` with debug enabled, otherwise through the fault queue,
with a copy to the debug interface while debug is enabled (R153, R168, R211, R417). -/
def State.queueReport (s : State) (k slot : Nat) (t : Origin) (trec : DWord) (r : Report) : State :=
  let dbg := (s.core k).regs.cctl.getLsbD 0
  let s := if dbg then { s with out := s.out ++ [.debugReport k slot r] } else s
  if dbg && r.cause == .debugBreak then s
  else s.queueRecords (if r.exited then none else some (k, slot)) (faultRecord s k slot t trec r :: pageRecords 12 r.pages)

/-- TAKING AN EXCEPTION at the word being issued (R150 to R155): the group's report names the cause, the word's PC,
the lanes with the cause and the faulting address; the lanes of `unfin` are unfinished: they keep their `vpc` at the
word and take no part in the rest of the bundle. A later word of the bundle that faults in other lanes adds its lanes
to the unfinished mask and, when the reported cause is not-present, its missing pages to the batch; the first report
stands. At most 64 true pages are kept (R157). -/
def State.takeFault (s : State) (cause : Cause) (mask unfin : Word) (va : DWord) (code : BitVec 22)
    (pages : List Nat) (comps : List Nat) : State :=
  let pc := s.issue.pc
  let r : Report := { cause := cause, pc := pc, mask := mask, unfin := 0, va := va, code := code, imprecise := false,
                      exited := false, pages := if cause = .notPresent then (pages.take 64).map (·, true) else [],
                      comps := comps, after := s.issue.after, tick := s.tick }
  let s := s.onGrp fun g =>
    let g := g.place unfin fun _ => pc
    match g.report with
    | some r => { g with
        unfin := g.unfin ||| unfin
        missed := if r.cause = .notPresent then (g.missed ++ pages).eraseDups else g.missed }
    | none => { g with
        unfin := g.unfin ||| unfin
        report := some r
        cause := BitVec.ofNat 8 cause.code
        resume := cause.resume }
  { s with issue := { s.issue with unfin := s.issue.unfin ||| unfin } }

/-- A cause of word extent: every executing lane has it and none completes (R151, R154). A word without an executing
lane raises nothing. -/
def State.raise (s : State) (cause : Cause) : State :=
  if s.issue.exec = 0 then s
  else
    let t := s.takeFault cause s.issue.exec s.issue.exec 0 0 [] []
    if cause = .illegalOperand then { t with issue := { t.issue with operand := true } } else t

/-- The word must wait: nothing of it happens on this clk (R39, R169). -/
def State.wait (s : State) (r : Stall) : State := { s with issue := { s.issue with stall := some r } }

/-- A lane's own fault: lane, cause, address (R152). -/
abbrev LaneFault := Nat × Cause × DWord

/-- The lowest cause among lane faults (R152). -/
def lowestCause : List LaneFault → Option Cause
  | [] => none
  | f :: fs => match lowestCause fs with
    | none => some f.2.1
    | some c => if f.2.1.code ≤ c.code then some f.2.1 else some c

/-- The fault of the lowest lane (R153). -/
def lowestFault : List LaneFault → Option LaneFault
  | [] => none
  | f :: fs => match lowestFault fs with
    | none => some f
    | some g => if f.1 ≤ g.1 then some f else some g

/-- The pages that lanes found not present (R157). -/
def missingPages (fs : List LaneFault) : List Nat :=
  ((fs.filter (·.2.1 == .notPresent)).map fun f => pageOf f.2.2).eraseDups

/-- The word's lanes fault on their own accounts (R152, R154): the lowest cause is reported with the lanes that have
it, and every lane that faulted is unfinished; a uniform word reports every executing lane (R38); with `whole`, no
lane of the word completes (R154). -/
def State.raiseLanes (s : State) (u whole : Bool) (fs : List LaneFault) (comps : List Nat) : State :=
  match lowestCause fs with
  | none => s
  | some c =>
    let mine := fs.filter (·.2.1 == c)
    let mask := if u then s.issue.exec else maskOf fun l => mine.any (·.1 == l)
    let all := if u || whole then s.issue.exec else maskOf fun l => fs.any (·.1 == l)
    s.takeFault c mask all ((lowestFault mine).elim 0 (·.2.2)) 0 (missingPages fs) comps

/-- How many accesses of lanes an operation makes. -/
def FlightKind.width : FlightKind → Nat
  | .load _ ls => ls.length
  | .store ls => ls.length
  | .rmw ls _ _ => ls.length
  | _ => 0

/-- Whether a part of an operation is still to be sent beyond the package. -/
def Flight.unsent (f : Flight) : Bool := f.sent < f.kind.width

/-- Whether an operation waits for an answer from beyond the package, or is still to ask for one (R420, R451 to R453). -/
def State.awaits (s : State) (k id : Nat) : Bool :=
  (s.fabric.requests.any fun r => r.core == k && r.flight == id) || ((s.core k).op id).any (·.unsent)

/-! ## Words that are read and changed beyond the package (R420, R450) -/

/-- This package's node. -/
def State.node (s : State) : Nat := s.fabric.fnode.toNat

/-- Where an access leaves the package: to the host (`true`) or to another node (`false`). -/
def State.beyond (s : State) (a : Loc) : Option Bool :=
  match a with
  | .spad _ => none
  | .phys pa => if paNode pa ≠ s.node then some false else if region (paLocal pa) == .host then some true else none

/-- A request of core `k` that a word or an event makes under a name, for an operation of the fabric. -/
def State.askFor (s : State) (k : Nat) (who : List Nat) (op sub aop pa len : Nat) (data : List Byte) : Request where
  tag := s.fabric.nextTag
  core := k
  flight := s.nextId
  part := 0
  host := s.beyond (.phys pa) == some true
  op := op
  sub := sub
  aop := aop
  pa := pa
  len := len
  data := data
  sent := s.clk
  port := none
  asker := some who
  answer := none
  laid := []
  space := (s.core k).regs.space.toNat % 2 ^ 16
  relaxed := true

/-- Whether two requests ask for the same. -/
def Request.same (a b : Request) : Bool :=
  a.asker == b.asker && a.op == b.op && a.sub == b.sub && a.aop == b.aop && a.pa == b.pa && a.len == b.len && a.data == b.data

/-- A request for which nobody waits. -/
def nobody : List Nat := [9]

/-- Tags that an arrival's request does not use (assumption 70). -/
def tagSpace : Nat := 32768

/-- The next tag from `t` on that no request holds (R450). -/
def Fabric.freeTag (f : Fabric) : Nat → Nat → Nat
  | 0, t => t
  | n + 1, t => if f.requests.any (·.tag == t) || f.kept.any (·.msg.tag == t) then f.freeTag n ((t + 1) % tagSpace) else t

/-- The next tag that is free. -/
def Fabric.newTag (f : Fabric) : Nat := f.freeTag (f.requests.length + f.kept.length) f.nextTag

/-- A request enters the table under a tag that is free. -/
def State.addRequest (s : State) (q : Request) : State :=
  let t := s.fabric.newTag
  { s with
    fabric := { s.fabric with requests := s.fabric.requests ++ [{ q with tag := t }], nextTag := (t + 1) % tagSpace } }

/-- What is asked enters the table. -/
def State.addAsk (s : State) (q : Request) : State := { s.addRequest q with nextId := s.nextId + 1 }

/-- What is being done waits, for an answer or for an earlier access: nothing of it happens (R39, R150, R169). -/
def State.askWaits (s : State) (r : Stall) : State := { s with issue := { s.issue with asked := true, stall := some r } }

/-- A word or an event asks beyond the package: the answer is taken, or the asker waits for it. It asks again from its
beginning once the answer is there, and finds the answers that it has had (DESIGN CHOICE, assumption 40). While it waits
for one answer it asks for no other. A run-ahead asks for nothing: its probe ends there (R156). -/
def State.askWith (s : State) (q : Request) : State × Option (Nat × List Byte) :=
  if s.issue.ahead then (s.wait .translation, none)
  else if s.issue.asked then (s, none)
  else match s.fabric.requests.find? (·.same q) with
    | none => ((s.addAsk q).askWaits .translation, none)
    | some r => match r.answer with
      | none => (s.askWaits .translation, none)
      | some a => ({ s with fabric := { s.fabric with requests := s.fabric.requests.erase r } },
                   some (a.1, laidOver q.pa a.2 r.laid))

/-- The same for an operation of the fabric, with what the core's own stores lay over a read. -/
def State.askOver (s : State) (k : Nat) (who : List Nat) (op sub aop pa len : Nat) (data : List Byte)
    (laid : List (Nat × List Byte)) : State × Option (Nat × List Byte) :=
  s.askWith { s.askFor k who op sub aop pa len data with laid := laid }

/-- The same without stores. -/
def State.ask (s : State) (k : Nat) (who : List Nat) (op sub aop pa len : Nat) (data : List Byte) :
    State × Option (Nat × List Byte) :=
  s.askOver k who op sub aop pa len data []

/-- What was done is undone, but for what it has asked beyond the package. -/
def State.keepAsks (s t : State) : State :=
  { s with
    fabric := { s.fabric with
      requests := s.fabric.requests ++ t.fabric.requests.filter fun r => r.asker.any (· != nobody) &&
        !s.fabric.requests.any (·.tag == r.tag)
      nextTag := t.fabric.nextTag }
    nextId := t.nextId
    issue := { s.issue with asked := false } }

/-- The asks under a name are over. -/
def State.dropAsks (s : State) (who : List Nat) : State :=
  { s with fabric := { s.fabric with requests := s.fabric.requests.filter (·.asker != some who) } }

/-- Whether something is asked beyond the package under a name. -/
def State.askedBy (s : State) (who : List Nat) : Bool := s.fabric.requests.any (·.asker == some who)

/-- What was done under a name stands, or, while it waits for an answer, is undone (R420). -/
def State.settle (s : State) (who : List Nat) (t : State) : State :=
  if t.issue.asked then s.keepAsks t else t.dropAsks who

/-- Bytes at a physical address read at once by core `k`, as it sees its stores before number `id`: the code of the read
and the bytes, or nothing while the answer of their home is awaited; what errors the read meets in this package is recorded
(R441). -/
def State.readAt (s : State) (k id : Nat) (who : List Nat) (pa n : Nat) : State × Option (Nat × List Byte) :=
  if (s.beyond (.phys pa)).isSome then
    s.askOver k who 1 0 0 pa n [] ((s.core k).unsentStores id pa n)
  else
    let c := s.homeCode (.phys pa) n
    ((s.recordErrors 2 [(.phys pa, n)]).recordWeak [(.phys pa, n)], some (c, s.coreRead k id (.phys pa) n))

/-- Whether an access at once would pass an access of the core before number `id` to a byte of the range that is not
performed yet: it then waits (R60). -/
def Core.passes (c : Core) (id pa n : Nat) : Bool :=
  c.flight.any fun f => f.id < id && !f.performed && f.kind.locs.any fun x => x.1.meets x.2 (.phys pa) n

/-- A word of `n` bytes exchanged at once if it holds `old`, behind the core's accesses before number `id`: the code and what
it held, or nothing while those or the answer of its home are awaited (R57, R60, R271). -/
def State.swapAt (s : State) (k id : Nat) (who : List Nat) (pa n old new : Nat) : State × Option (Nat × Nat) :=
  if (s.core k).passes id pa n then (s.askWaits .pipeBusy, none)
  else if (s.beyond (.phys pa)).isSome then
    let r := s.ask k who 4 (if n = 8 then 4 else 0) 4 pa (2 * n) (leBytes n old ++ leBytes n new)
    (r.1, r.2.map fun a => (a.1, leNat a.2))
  else
    let c := s.homeCode (.phys pa) n
    let v := s.wordPa pa n
    (if c = 0 ∧ v = old % 2 ^ (8 * n) then s.performWrite pa (leBytes n new) else s.recordErrors 2 [(.phys pa, n)], some (c, v))

/-- Bytes written at once at their home, behind the core's accesses before number `id`: the code, or nothing while those or
the answer of the home are awaited; a write to the host carries Relaxed Ordering as `relaxed` says (R445). -/
def State.writeAt (s : State) (k id : Nat) (who : List Nat) (relaxed : Bool) (pa : Nat) (bs : List Byte) :
    State × Option Nat :=
  if (s.core k).passes id pa bs.length then (s.askWaits .pipeBusy, none)
  else if (s.beyond (.phys pa)).isSome then
    let r := s.askWith { s.askFor k who 2 0 0 pa bs.length bs with relaxed := relaxed }
    (r.1, r.2.map (·.1))
  else
    match s.homeCode (.phys pa) bs.length with
    | 2 => (s, some 2)
    | _ =>
      let t := s.storePa pa bs
      if t.2 then (t.1.recordErrors 6 [(.phys pa, bs.length)], some 1) else (t.1, some 0)

/-! ## Operations and their requests -/

/-- A report in the manner of R162: a cause at the PC and with the lanes of an earlier word. -/
def lateReport (cause : Cause) (pc mask : Word) (exited : Bool) (tick : Nat) : Report where
  cause := cause
  pc := pc
  mask := mask
  unfin := 0
  va := 0
  code := 0
  imprecise := true
  exited := exited
  pages := []
  comps := []
  after := 0
  tick := tick

/-- The reports of an operation whose parts have failed: the lanes with uncorrectable data, and those whose access
failed (R161, R266). -/
def Flight.reports (f : Flight) (tick : Nat) (cs : List (Nat × Nat)) : List Report :=
  [(1, Cause.uncorrectable), (2, .remoteError)].filterMap fun c =>
    let m := f.withCode cs c.1
    if m = 0 then none else some (lateReport c.2 f.pc m false tick)

/-- A team changed, resident or saved. -/
def Core.modAnyTeam (c : Core) (id : Nat) (f : Team → Team) : Core :=
  { c.modTeam id f with saved := c.saved.map fun x => if x.team.id = id then { x with team := f x.team } else x }

/-- The open accesses of a core below a number, those of a group among them whatever their number: what happens before the
end of the group's part of its task (R66, R70, R131). -/
def Core.before (c : Core) (slot team upto : Nat) : List Nat :=
  (c.flight.filter fun e => e.open_ && (e.id < upto || (e.slot == slot && e.team == team))).map (·.id)

/-- Operation `f`, an acquire or a load that an acquire fence waits for, has its value: every access of the core numbered below
`upto` may happen before what its group does next, before the operations that the group has issued meanwhile, and before the
end of its part of its task (R62, R64, R66, R284). -/
def Core.acquireAt (c : Core) (f : Flight) (upto : Nat) : Core :=
  let c := { c with flight := c.flight.map fun (e : Flight) =>
    if f.id < e.id && e.slot == f.slot && e.team == f.team then { e with seen := upto } else e }
  let drop := fun (h : FenceHold) => { h with loads := h.loads.filter (· != f.id) }
  let c := c.modOwner f.slot f.team fun g => { g with
    seen := upto, fences := (g.fences.map drop).filter (·.loads != []) }
  if (c.groupOf f.slot f.team).partDone then
    c.modAnyTeam f.team fun t => { t with cover := (t.cover ++ c.before f.slot f.team upto).eraseDups }
  else c

/-- What the value of an operation means for the order of its group (R62, R66, R284). -/
def State.acquire (s : State) (k : Nat) (f : Flight) : State :=
  if f.acq || ((s.core k).groupOf f.slot f.team).fences.any (·.loads.contains f.id) then
    s.modCore k (·.acquireAt f s.nextId)
  else s

/-- A load returns its data: the state, and the reports of the lanes that failed, with the records of what it read (R161,
R266, R441). -/
def State.loadBack (s : State) (k : Nat) (f : Flight) (dest : LoadDest) (ls : List LaneAccess) : State × List Report :=
  (((((s.deliver k f dest ls).finishOp k f).recordErrors 2 f.kind.locs).recordWeak f.kind.locs).acquire k f,
    f.reports s.tick (s.loadCodes f))

/-- Loads of a group that wait for an answer from beyond the package. -/
def State.waitsBeyond (s : State) (k slot team : Nat) : Bool :=
  (s.core k).flight.any fun f => f.slot == slot && f.team == team && f.kind.loads && s.awaits k f.id

/-- The loads of a group that are still in flight return their data before its context is saved (R150); an error of
theirs waits until the group is returned (R162, R163). A load that waits for an answer from beyond the package stays. -/
def State.drainLoads (s : State) (k slot team : Nat) : State :=
  (s.core k).flight.foldl (fun s f => match f.kind with
    | .load dest ls =>
      if f.slot = slot && f.team = team && !s.awaits k f.id then
        let t := s.loadBack k f dest ls
        t.1.modGroup k slot fun g => { g with errors := g.errors ++ t.2 }
      else s
    | _ => s) s

/-- The report of a group with the pages that later words of its bundle missed (R155, R157). -/
def Group.fullReport (g : Group) (r : Report) : Report :=
  let new := g.missed.filter fun p => !r.pages.any (·.1 == p)
  { r with unfin := g.unfin, pages := (r.pages.filter (·.2) ++ new.map (·, true)).take 64 ++ r.pages.filter (!·.2) }

/-- The group is switched out with its report (R158): its loads have returned (R150), its latches are empty and the items
of its windows dropped (R301, R144), its image stands in its slot's area under FSAVE, and the report is made. While a load
of it waits for an answer from beyond the package, the group drains first. -/
def State.switchOut (s : State) (k slot : Nat) : State :=
  match (s.core k).group slot with
  | none => s
  | some g0 =>
    let s := (s.drainLoads k slot g0.team).dropAsks [0, k, slot]
    if s.waitsBeyond k slot g0.team then s.modGroup k slot fun g => { g with phase := .draining }
    else
      let area := s.localPa ((s.core k).regs.fsave.toNat % 2 ^ 44 / 4096 * 4096 + 20480 * slot)
      let team := ((s.core k).team g0.team).getD Team.blank
      let s := s.modGroup k slot fun g => { g with
        phase := .switchedOut
        area := area
        fetched := none
        latch := List.replicate 32 none
        lanes := g.lanes.map fun t => { t with win := t.win.away } }
      match (s.core k).group slot with
      | none => s
      | some g =>
        let s := s.deviceWrite area (g.image slot team.origin.lseq false)
        match g.report with
        | none => s
        | some r => s.queueReport k slot team.origin team.trec (g.fullReport r)

/-- The group stops with an imprecise error (R162): it is switched out, every lane keeps its `vpc`, its wait is kept, and
it resumes after. -/
def State.stopImprecise (s : State) (k slot : Nat) (r : Report) : State :=
  (s.modGroup k slot fun g => { g with
    report := some r, cause := BitVec.ofNat 8 r.cause.code, resume := 2 }).switchOut k slot

/-- The way a returned group goes on (R160): after a trap, a break or another cause that resumes after, the lanes with
the cause that still stand at the faulting word go on behind it; a watchpoint's lanes issue the word unwatched. -/
def Group.resumeWith (g : Group) : Group :=
  match g.report with
  | none => g
  | some r =>
    if g.resume = 2 then
      if r.imprecise then g else g.place (r.mask &&& maskOf fun l => (g.lane l).vpc == r.pc) fun _ => r.after
    else if g.resume = 1 then { g with noWatch := g.unfin &&& maskOf fun l => (g.lane l).vpc == r.pc }
    else g

/-- Where a virtual address lies, for a party that translates under a space and a tenant; a malformed entry is counted
(R426). -/
def State.look (s : State) (space : Nat) (tenant : BitVec 16) (want : Want) (va : DWord) : State × Option Nat :=
  match s.translate space tenant want va.toNat with
  | (.ok pa _ _, m) => (s.noteMalformed (if m then 1 else 0), some pa)
  | (.fail _, m) => (s.noteMalformed (if m then 1 else 0), none)

/-- What a return looks up anew for the lanes of a group: where the word lies on which a lane waits, and by loads of its own
the hidden term state from the descriptors (R158, R419). -/
def State.reload (s : State) (k slot : Nat) (g : Group) : State × Group :=
  let t := ((s.core k).team g.team).getD Team.blank
  let space := (s.core k).regs.space.toNat % 2 ^ 16
  let look := fun (s : State) (a : DWord) => s.look space t.origin.tenant .read a
  let parks := (List.range 32).foldl (fun (r : State × Group) l => match (r.2.lane l).park with
    | none => r
    | some p =>
      let x := look r.1 p.va
      (x.1, r.2.modLane l fun t => { t with park := some { p with pa := x.2.getD p.pa } })) (s, g)
  let descs := (List.range 32).foldl (fun (r : State × List LaneAccess) l =>
    let va := (parks.2.lane l).sd
    if va = 0 then r
    else match look r.1 va with
      | (s, some pa) => (s, r.2 ++ [{ lane := l, va := va, loc := .phys pa, global := true }])
      | (s, none) => (s, r.2)) (parks.1, [])
  if descs.2 = [] then (descs.1, parks.2)
  else
    let f : Flight := { Flight.blank descs.1.nextId (.load .hidden descs.2) with
      slot := slot, team := g.team, mask := maskOf fun l => descs.2.any (·.lane == l), origin := t.origin, trec := t.trec
      seen := g.seen, born := s.clk, space := space }
    ({ descs.1 with nextId := descs.1.nextId + 1 }.modCore k fun c => { c with flight := c.flight ++ [f] }, parks.2)

/-- The team's launch sequence number as a returned group's image gives it (R158, R419). -/
def Core.setLseq (c : Core) (team : Nat) (lseq : Word) : Core :=
  c.modTeam team fun t => { t with origin := { t.origin with lseq := lseq } }

/-- THE RETURN from an exception (R402 command 3, R158, R160, R162, R163): the switched-out group takes every field of
the image at `pa` as it stands; what waits of the imprecise errors stops it again before its first issue. -/
def State.returnFrom (s : State) (k slot pa : Nat) : State :=
  match (s.core k).group slot with
  | none => s
  | some g =>
    if g.phase ≠ .switchedOut then s else
    let head := s.wordPa pa 8
    let b := s.readPa pa (imageHead + 128 * bits head 15 8 + 192)
    let r := s.reload k slot (g.restore b).resumeWith
    let g := { r.2 with
      phase := .running, report := none, unfin := 0, cause := 0, resume := 0, missed := [] }
    let s := (r.1.modGroup k slot fun _ => g).modCore k (·.setLseq g.team (BitVec.ofNat 32 (head / 2 ^ 32)))
    match g.errors with
    | [] => s
    | e :: es => (s.modGroup k slot fun g => { g with errors := es }).stopImprecise k slot e

end Sys2Proof.Machine
end

