-- ==== Sys2Proof/Machine/Operands.lean ====
section
/-! DEFINITION. Every operand form (R201 to R203, R262), the checks of operands and addresses (R213, R263), completion
flags (R206), watchpoints (R170, R357), hold windows (R360), and the shapes that the instructions' meanings share. -/

namespace Sys2Proof.Machine

/-- What the meaning of an instruction answers. -/
abbrev Result := Host.Outcome State Fault Refusal

/-! ## Checks of operands (R213) -/

/-- A vector register within the allotment (R44). -/
def State.vOk (s : State) (n : Nat) : Bool := n < s.issue.src.v.length

/-- An even pair within the allotment (R203). -/
def State.v2Ok (s : State) (n : Nat) : Bool := n % 2 == 0 && n + 1 < s.issue.src.v.length

/-- A quad within the allotment (R203). -/
def State.v4Ok (s : State) (n : Nat) : Bool := n % 4 == 0 && n + 3 < s.issue.src.v.length

/-- The registers that an access of size code `sz` names (R203). -/
def State.szOk (s : State) (d sz : Nat) : Bool :=
  match sz with
  | 5 => s.v2Ok d
  | 6 => s.v4Ok d
  | 7 => false
  | _ => s.vOk d

/-- The 32-bit use of b (R202). -/
def State.bOk (s : State) (b : Nat) (x : Bool) : Bool := if x then b < 51 || 64 ≤ b else s.vOk b

/-- The 64-bit use of b (R202). -/
def State.b2Ok (s : State) (b : Nat) (x : Bool) : Bool :=
  if x then (b < 48 && b % 2 == 0) || (48 ≤ b && b < 51) || 64 ≤ b else s.v2Ok b

/-! ## Reading operands: as they stood before the bundle (R200) -/

/-- The lane whose sources a lane uses: its own, or the lowest executing lane in a uniform word (R37). -/
def State.from (s : State) (u : Bool) (l : Nat) : Nat := if u then lowest s.issue.exec else l

/-- A vector register. -/
def State.A (s : State) (a l : Nat) : Word := s.issue.src.rv a l

/-- A vector pair. -/
def State.A2 (s : State) (a l : Nat) : DWord := s.issue.src.rv64 a l

/-- The 32-bit use of b in lane `l` (R202). -/
def State.B (s : State) (b : Nat) (x : Bool) (l : Nat) : Word :=
  if !x then s.issue.src.rv b l
  else if b < 48 then s.issue.src.k.getD b 0
  else if b = 48 then s.issue.lit
  else if b = 49 then BitVec.ofNat 32 l
  else if b < 64 then 0
  else (s.issue.src.rs (b - 64)).setWidth 32

/-- The 64-bit integer use of b in lane `l`: a literal is sign-extended (R197, R202). -/
def State.B2 (s : State) (b : Nat) (x : Bool) (l : Nat) : DWord :=
  if !x then s.issue.src.rv64 b l
  else if b < 48 then s.issue.src.k.getD (b + 1) 0 ++ s.issue.src.k.getD b 0
  else if b = 48 then s.issue.lit.signExtend 64
  else if b = 49 then BitVec.ofNat 64 l
  else if b < 64 then 0
  else s.issue.src.rs (b - 64)

/-- The executing lanes in which predicate `p` reads 1. -/
def State.ballot (s : State) (p : Nat) : Word := s.issue.exec &&& maskOf fun l => s.issue.src.rp p l

/-! ## Writing destinations -/

/-- A vector register of every executing lane. -/
def State.putV (s : State) (u : Bool) (d : Nat) (f : Nat → Word) : State :=
  s.onGrp fun g => { g with rf := g.rf.setV d s.issue.exec fun l => f (s.from u l) }

/-- A vector pair of every executing lane. -/
def State.putV2 (s : State) (u : Bool) (d : Nat) (f : Nat → DWord) : State :=
  (s.putV u d fun l => (f l).setWidth 32).putV u (d + 1) fun l => (f l >>> 32).setWidth 32

/-- A predicate of every executing lane. -/
def State.putP (s : State) (u : Bool) (p : Nat) (f : Nat → Bool) : State :=
  s.onGrp fun g => { g with rf := g.rf.setP p s.issue.exec fun l => f (s.from u l) }

/-- A scalar register, written once; a word without an executing lane writes nothing (R37). -/
def State.putS (s : State) (d : Nat) (w : DWord) : State :=
  if s.issue.exec = 0 then s else s.onGrp fun g => { g with rf := g.rf.setS d w }

/-! ## Shapes of meanings -/

/-- A meaning behind its word-level operand check: illegal-operand, or the effect. -/
def State.checked (s : State) (ok : Bool) (t : State) : Result := .next (if ok then t else s.raise .illegalOperand)

/-- vD ← f(A, B). -/
def State.alu (s : State) (u : Bool) (d a b : Nat) (x : Bool) (f : Word → Word → Word) : Result :=
  s.checked (s.vOk d && s.vOk a && s.bOk b x) (s.putV u d fun l => f (s.A a l) (s.B b x l))

/-- vD ← f(A). -/
def State.alu1 (s : State) (u : Bool) (d a : Nat) (f : Word → Word) : Result :=
  s.checked (s.vOk d && s.vOk a) (s.putV u d fun l => f (s.A a l))

/-- vD ← f(old vD, A, B). -/
def State.alu3 (s : State) (u : Bool) (d a b : Nat) (x : Bool) (f : Word → Word → Word → Word) : Result :=
  s.checked (s.vOk d && s.vOk a && s.bOk b x) (s.putV u d fun l => f (s.A d l) (s.A a l) (s.B b x l))

/-- p ← f(A, B). -/
def State.cmp (s : State) (u : Bool) (p a b : Nat) (x ok : Bool) (f : Word → Word → Bool) : Result :=
  s.checked (ok && s.vOk a && s.bOk b x) (s.putP u p fun l => f (s.A a l) (s.B b x l))

/-! ## Completion flags (R206) -/

/-- The flag that a counting word chooses. -/
def Group.flagOf (g : Group) (fs : Bool) : Option Nat :=
  if fs then g.setb.orElse fun _ => g.seta else g.seta.orElse fun _ => g.setb

/-- The flag that the word being issued counts on: `none` for a word that does not count. -/
def State.flag (s : State) (fs : Option Bool) : Option Nat := fs.bind s.grp.flagOf

/-- A counting word whose flag stands at 63 does not issue. -/
def State.flagFull (s : State) (fs : Option Bool) : Bool :=
  match s.flag fs with
  | some i => 63 ≤ s.grp.flags.getD i 0
  | none => false

/-! ## Accesses of lanes (R262, R263) -/

/-- The bytes of an access of size code `sz` (R203). -/
def szBytes (sz : Nat) : Nat :=
  match sz with
  | 0 | 1 => 1
  | 2 | 3 => 2
  | 4 => 4
  | 5 => 8
  | _ => 16

/-- Whether a size code sign-extends (R203). -/
def szSigned (sz : Nat) : Bool := sz == 1 || sz == 3

/-- The tenant of the group being issued (R127). -/
def State.tenant (s : State) : BitVec 16 := s.curTeam.origin.tenant

/-- The space that the core being issued translates under (R428). -/
def State.space (s : State) : Nat := s.cur.regs.space.toNat % 2 ^ 16

/-- The global virtual address that a vector register forms (R262). -/
def State.globalVa (s : State) (a : Nat) (off : Int) (l : Nat) : DWord :=
  s.issue.src.rs 0 + (s.A a l).setWidth 64 + BitVec.ofInt 64 off

/-- What the checks of R263 make of one lane's access: where it lies, whether on an SC page, or why it fails; and
whether the walk met a malformed entry. -/
structure Try where
  access : LaneAccess
  sc : Bool
  fault : Option LaneFault
  malformed : Bool
deriving DecidableEq, Repr

/-- A failed check. -/
def Try.fail (l : Nat) (va : DWord) (c : Cause) (m : Bool) : Try where
  access := { lane := l, va := va, loc := .spad 0, global := false }
  sc := false
  fault := some (l, c, va)
  malformed := m

/-- A passed check. -/
def Try.pass (l : Nat) (va : DWord) (loc : Loc) (sc global : Bool) : Try where
  access := { lane := l, va := va, loc := loc, global := global }
  sc := sc
  fault := none
  malformed := false

/-- A global access of `n` bytes (R263, points 3 and 4). -/
def State.tryGlobal (s : State) (want : Want) (n l : Nat) (va : DWord) : Try :=
  if va.toNat % n ≠ 0 then .fail l va .misaligned false
  else match s.translate s.space s.tenant want va.toNat with
    | (.fail c, m) => .fail l va c m
    | (.ok pa sc _, _) => .pass l va (.phys pa) sc true

/-- A Pavilion access of `n` bytes at `a` (R51, R263, points 2 and 3). -/
def State.tryPavilion (s : State) (n l : Nat) (a : Word) : Try :=
  match s.pavilion a with
  | none => .fail l (a.setWidth 64) .illegalOperand false
  | some pa => if a.toNat % n ≠ 0 then .fail l (a.setWidth 64) .misaligned false
      else .pass l (a.setWidth 64) (.phys pa) false false

/-- A scratchpad access of `n` bytes at byte offset `e` of the team's allocation (R53, R263). -/
def State.trySpad (s : State) (n l sw : Nat) (e : Word) : Try :=
  if s.curTeam.spadSize < e.toNat + n then .fail l (e.setWidth 64) .permission false
  else if e.toNat % n ≠ 0 then .fail l (e.setWidth 64) .misaligned false
  else .pass l (e.setWidth 64) (.spad (s.curTeam.spad (swizzle sw e.toNat))) false false

/-- The parts of a virtual range that lie within one 4 KiB page each: address, length. -/
def pageParts : Nat → Nat → Nat → List (Nat × Nat)
  | 0, _, _ => []
  | f + 1, va, len =>
    if len = 0 then []
    else
      let n := min len (4096 - va % 4096)
      (va, n) :: pageParts f (va + n) (len - n)

/-- The page parts of a range (R154: each is translated on its own). -/
def partsOf (va len : Nat) : List (Nat × Nat) := pageParts (len / 4096 + 2) va len

/-- A global range translated part by part for the lowest executing lane: the physical parts with their lengths, and
the checks that failed. -/
def State.tryRange (s : State) (want : Want) (va len : Nat) : List (Nat × Nat) × List Try :=
  let ts := (partsOf va len).map fun p => (s.tryGlobal want 1 (lowest s.issue.exec) (BitVec.ofNat 64 p.1), p.2)
  (ts.filterMap fun t => match t.1.access.loc with
    | .phys pa => if t.1.fault.isNone then some (pa, t.2) else none
    | .spad _ => none, (ts.map (·.1)).filter fun t => t.fault.isSome)

/-- The lanes that make an access: every executing lane, or the lowest alone in a uniform word (R37). -/
def State.doers (s : State) (u : Bool) : List Nat :=
  if s.issue.exec = 0 then [] else if u then [lowest s.issue.exec] else lanesOf s.issue.exec

/-! ## Watchpoints (R170, R171, R357) -/

/-- Whether the data condition `val` holds of the bytes of an access of at most 8 bytes, in the image of the aligned doubleword
that holds them. -/
def Comparator.valMatch (w : Comparator) (va n : Nat) (bs : List Byte) : Bool :=
  (List.range n).all fun i =>
    let at_ := fun (x : DWord) => BitVec.ofNat 8 (x.toNat / 2 ^ (8 * ((va + i) % 8)))
    (bs.getD i 0 ^^^ at_ w.value) &&& at_ w.vmask == 0

/-- Whether a comparator compares loads, or stores, of the group being issued. -/
def Comparator.compares (w : Comparator) (s : State) (store : Bool) : Bool :=
  w.access.getLsbD (if store then 1 else 0) && w.tenant == s.tenant && (w.setter == s.issue.slot || w.since + 8 ≤ s.clk)

/-- Whether comparator `w` matches an access of at most 8 bytes: `new` is what is loaded or written, `old` what memory
holds. -/
def Comparator.hits (w : Comparator) (s : State) (store : Bool) (va n : Nat) (new old : List Byte) : Bool :=
  let cond := match w.data.toNat with
    | 1 => w.valMatch va n new
    | 2 => store && (List.range n).any fun i =>
        w.base.toNat ≤ va + i && va + i < w.base.toNat + w.len.toNat && new.getD i 0 != old.getD i 0
    | _ => true
  w.compares s store && overlap va n w.base.toNat w.len.toNat && cond

/-- The address of a comparator's range that maps to a physical address, if it has one (R52). -/
def State.aliasOf (s : State) (w : Comparator) (pa : Nat) : Option Nat :=
  let first := w.base.toNat / 4096
  let last := (w.base.toNat + w.len.toNat + 4095) / 4096
  (List.range (last - first)).findSome? fun i =>
    match (s.translate s.space s.tenant .read ((first + i) * 4096)).1 with
    | .ok q _ _ => if q / 4096 = pa / 4096 then some ((first + i) * 4096 + pa % 4096) else none
    | .fail _ => none

/-- Whether a comparator's range has an address that maps into a physical range (R52). -/
def State.aliasMeets (s : State) (w : Comparator) (pa n : Nat) : Bool :=
  let first := w.base.toNat / 4096
  let last := (w.base.toNat + w.len.toNat + 4095) / 4096
  (List.range (last - first)).any fun i => match (s.translate s.space s.tenant .read ((first + i) * 4096)).1 with
    | .ok q _ _ => overlap (q / 4096 * 4096) 4096 pa n
    | .fail _ => false

/-- Where a comparator sees byte `i` of a lane's access: at its virtual address; of a Pavilion access, at the address of its
range that maps to the same byte (R52, R357; DESIGN CHOICE, assumption 71); the scratchpad nowhere. -/
def State.seenAt (s : State) (w : Comparator) (store : Bool) (x : LaneAccess) (i : Nat) : Option Nat :=
  if x.global then some (x.va.toNat + i)
  else if !w.compares s store then none
  else match x.loc with
    | .phys pa => s.aliasOf w (pa + i)
    | .spad _ => none

/-- The parts of at most 8 bytes in which an access of `n` bytes is compared (R357): start, length. -/
def watchParts (n : Nat) : List (Nat × Nat) := (List.range ((n + 7) / 8)).map fun i => (8 * i, min 8 (n - 8 * i))

/-- Whether a comparator matches an access of a lane. -/
def State.watches (s : State) (w : Comparator) (store : Bool) (x : LaneAccess) (n : Nat) (new old : List Byte) : Bool :=
  (watchParts n).any fun p => (s.seenAt w store x p.1).any fun va =>
    w.hits s store va p.2 (new.drop p.1) (old.drop p.1)

/-- The comparators that an access of a lane matches; a lane that is replayed without watch check matches none. -/
def State.watchers (s : State) (store : Bool) (x : LaneAccess) (n : Nat) (new old : List Byte) : List Nat :=
  if s.issue.noWatch.getLsbD x.lane then []
  else (List.range 4).filter fun i => s.watches (s.cur.watch.getD i Comparator.reset) store x n new old

/-! ## Hold windows (R360, R72) -/

/-- The largest delay of a window of the core that covers a byte of the range. -/
def Core.delay (c : Core) (pav : Bool) (a n : Nat) : Nat :=
  c.holds.foldl (fun m h => if h.pav == pav && overlap a n h.base h.len then max m h.n else m) 0

/-- The same for the core being issued. -/
def State.delay (s : State) (pav : Bool) (a n : Nat) : Nat := s.cur.delay pav a n

/-- Until when a write of the ranges is held: (Pavilion address or global virtual, start, length). -/
def State.heldUntil (s : State) (rs : List (Bool × Nat × Nat)) : Option Nat :=
  match rs.foldl (fun m r => max m (s.delay r.1 r.2.1 r.2.2)) 0 with
  | 0 => none
  | n => some (s.clk + n)

/-- Whether what a word writes at once may become visible: it lies in no hold window of its core, or their delay has passed
since the word first came to write; otherwise the delay (R72, R360). A run-ahead writes nothing. -/
def State.holdFor (s : State) (rs : List (Bool × Nat × Nat)) : Option Stall :=
  match rs.foldl (fun m r => max m (s.delay r.1 r.2.1 r.2.2)) 0 with
  | 0 => none
  | n => if s.issue.ahead || s.issue.release.isSome then none else some (.hold n)

/-- The range of a lane's write of `n` bytes as hold windows see it: the scratchpad lies in none. -/
def LaneAccess.span (x : LaneAccess) (n : Nat) : List (Bool × Nat × Nat) :=
  match x.loc with
  | .phys _ => [(!x.global, x.va.toNat, n)]
  | .spad _ => []

/-- The cause that an error code stands for (R161). -/
def errCause (e : Nat) : Cause := if e = 1 then .uncorrectable else .remoteError

/-! ## Dispatch and the waits before it -/

/-- The operations in flight of the group being issued. -/
def State.mine (s : State) : List Flight :=
  s.cur.flight.filter fun f => f.slot == s.issue.slot && f.team == s.grp.team

/-- The registers and tiles that an operation in flight still owes its group (R39, R98). -/
def Flight.pending (f : Flight) : List Reg :=
  let v := fun d n => (List.range n).map fun i => Reg.v (d + i)
  match f.kind with
  | .load (.reg d n _) _ => v d ((n + 3) / 4)
  | .load .bank _ => [.bank]
  | .load .descriptor _ => [.term]
  | .load .hidden _ => [.term]
  | .load (.tile t _ _) _ => [.acc t]
  | .rmw _ d _ => d.elim [] fun d => v d.1 d.2
  | .copy _ _ d _ _ => d.elim [] (v · 1)
  | .axpy _ _ _ _ _ d _ => v d 1
  | .red _ _ _ _ d _ => v d 1
  | .image _ _ d => v d 1
  | .resLoad _ _ _ _ _ d _ _ _ _ => d.elim [] (v · 1)
  | .migrate _ _ d _ => v d 1
  | .arrive _ _ _ d => d.elim [] fun d => [.s d]
  | .push _ _ d _ => d.elim [] (v · 1)
  | .store _ => []
  | .pass _ t _ _ _ split _ => if split then [.acc t, .acc (t + 1)] else [.acc t]
  | .grotto _ t _ _ _ _ _ _ => [.acc t]
  | .pops => []
  | .flush => []

/-- The destination pairs of pops that still wait, with the PC of their words (R347). -/
def LaneState.popPending (t : LaneState) : List (Reg × Word) :=
  let pair := fun d pc => [(Reg.v d, pc), (Reg.v (d + 1), pc)]
  (t.win.waiting.elim [] fun p => pair p.dest p.pc) ++
    t.park.elim [] fun p => if p.pop then pair p.dest p.pc else []

/-- The registers that are pending in the group, each with the PC of the word that writes it (R39, R347). -/
def State.pendingRegs (s : State) : List (Reg × Word) :=
  (s.mine.flatMap fun f => f.pending.map fun r => (r, f.pc)) ++ s.grp.lanes.flatMap LaneState.popPending

/-- Whether an acquire fence holds the accesses of the executing lanes to the given global ranges, or every access where it has
no range of its own: it waits for loads that have not returned (R284). -/
def FenceHold.holds (h : FenceHold) (s : State) (rs : List (Nat × Nat)) : Bool :=
  (h.mask &&& s.issue.exec) != 0 && (s.mine.any fun f => h.loads.contains f.id) && match h.range with
    | none => true
    | some r => rs.any fun x => overlap x.1 x.2 r.1 r.2

/-- The fence that holds the accesses of the word being issued, if one does. -/
def State.fenceHold (s : State) (rs : List (Nat × Nat)) : Option FenceHold := s.grp.fences.find? (·.holds s rs)

/-- Why a memory word must wait: an acquire not yet returned (R270), an SC access not yet performed (R71), an acquire fence
(R284). A run-ahead waits for none of them (R156). -/
def State.memHeld (s : State) : Option Stall :=
  if s.issue.ahead then none
  else if s.mine.any fun f => f.acq && f.reading && (f.mask &&& s.issue.exec) != 0 then some .registerPending
  else match s.mine.find? fun f => f.sc && f.open_ with
    | some f => some (.behind f.pc)
    | none => (s.fenceHold []).map fun h => .behind h.pc

/-- Whether every earlier lane access that happens before what the executing lanes do now has been performed at a scope:
what a release waits for (R66, R270, R284). Up to core scope a store is performed once it has issued; beyond it the
accesses of other groups of the core that came before a synchronisation of this one count as well. -/
def State.settled (s : State) (scope : Nat) : Bool :=
  s.issue.ahead || s.issue.exec == 0 || if scope ≤ 2 then !s.mine.any fun f => (f.mask &&& s.issue.exec) != 0 && f.reading
  else !(s.mine.any fun f => (f.mask &&& s.issue.exec) != 0 && f.open_) &&
    !s.cur.flight.any fun f => f.id < s.grp.seen && f.open_

/-- An acquire of the group being issued: what the core has in flight may happen before what the group does next (R64,
R66). -/
def State.acquired (s : State) : State := s.onGrp fun g => { g with seen := s.nextId }

/-- The earlier loads and atomics of the executing lanes that have not returned (R284). -/
def State.unreturned (s : State) : List Flight := s.mine.filter fun f => (f.mask &&& s.issue.exec) != 0 && f.reading

/-- A store is visible to its own core at once (R72): its parked lanes look again (R34). -/
def Core.noticeAll (c : Core) (k : FlightKind) : Core :=
  match k with
  | .store ls => ls.foldl (fun c x => match x.1.loc with
      | .phys pa => c.notice pa x.2.length
      | .spad _ => c) c
  | _ => c

/-- The lane accesses of an operation. -/
def FlightKind.accesses : FlightKind → List LaneAccess
  | .load _ ls => ls
  | .store ls => ls.map (·.1)
  | .rmw ls _ _ => ls.map (·.1)
  | _ => []

/-- A counter of R468 advances. -/
def Core.count (c : Core) (i n : Nat) : Core :=
  { c with regs := { c.regs with counters := c.regs.counters.modify i (· + BitVec.ofNat 64 n) } }

/-- A demand access of a prefetched line uses it, or finds it late (R468). -/
def Core.demandLine (c : Core) (line : Nat) : Core :=
  match c.pref.find? (·.1 == line) with
  | none => c
  | some p => { c with pref := c.pref.erase p }.count (if p.2.2 then 1 else 2) 1

/-- The prefetched lines that an operation's global accesses meet (R468). -/
def Core.demand (c : Core) (k : FlightKind) : Core :=
  (((k.accesses.filter (·.global)).filterMap fun x => match x.loc with
    | .phys pa => some (lineOf pa)
    | .spad _ => none).eraseDups).foldl Core.demandLine c

/-- Whether a write of the executing lanes is the first one after a release or full fence of pod scope (R445). -/
def FlightKind.writes (k : FlightKind) : Bool :=
  match k with
  | .store _ => true
  | .rmw _ _ _ => true
  | _ => false

/-- An operation of the word being issued enters the core, as part of the word whose first operation is `word`. -/
def State.enter (s : State) (word : Nat) (flag : Option Nat) (mask : Word) (held : Option Nat) (acq sc : Bool)
    (kind : FlightKind) : State :=
  let t := s.curTeam
  let strict := kind.writes && (s.grp.podFence &&& mask) != 0
  let f : Flight := { Flight.blank s.nextId kind with
    word := word, slot := s.issue.slot, team := s.grp.team, pc := s.issue.pc, mask := mask, flag := flag
    origin := t.origin, trec := t.trec, held := held, acq := acq, sc := sc, seen := s.grp.seen, born := s.clk
    space := s.space, strict := strict }
  let s := { s with nextId := s.nextId + 1 }
  s.onCore fun c => ({ c with flight := c.flight ++ [f] }.noticeAll kind).demand kind

/-- The word being issued counts once on its flag (R206). -/
def State.countFlag (s : State) (flag : Option Nat) : State :=
  match flag with
  | some i => s.onGrp fun g => { g with flags := g.flags.modify i (· + 1) }
  | none => s

/-- An operation is dispatched: it takes a number and counts on its flag (R206, R161). -/
def State.dispatch (s : State) (fs : Option Bool) (mask : Word) (held : Option Nat) (acq sc : Bool) (kind : FlightKind) :
    State :=
  (s.enter s.nextId (s.flag fs) mask held acq sc kind).countFlag (s.flag fs)

/-- An operation of a word before it is dispatched: its lanes, until when it is held, what it does. -/
abbrev Part1 := Word × Option Nat × FlightKind

/-- The operations of one word enter the core, as part of the word whose first operation is `word`; the pod fence of the lanes
that write is met (R445). -/
def State.enterAll (s : State) (word : Nat) (flag : Option Nat) (acq sc : Bool) (ps : List Part1) : State :=
  let done := ps.foldl (fun m p => if p.2.2.writes then m ||| p.1 else m) 0
  (ps.foldl (fun t p => t.enter word flag p.1 p.2.1 acq sc p.2.2) s).onGrp fun g =>
    { g with podFence := g.podFence &&& ~~~done }

/-- The operations of one word, dispatched together: they count once (R206). -/
def State.dispatchAll (s : State) (fs : Option Bool) (acq sc : Bool) (ps : List Part1) : State :=
  (s.enterAll s.nextId (s.flag fs) acq sc ps).countFlag (s.flag fs)

/-! ## The requests that a core has outstanding (R6) -/

/-- The requests of a core that are outstanding: those of its lane accesses, of what it asks at once, and of its engine
operations that have been sent. -/
def State.outstanding (s : State) (k : Nat) : Nat :=
  let lane := fun (id : Nat) => ((s.core k).op id).any fun f => f.kind.locs != []
  ((s.core k).flight.map fun f => if f.performed then 0 else linesOf f.kind.locs).sum +
    (s.fabric.requests.filter fun r => r.core == k && r.port.isSome && r.answer.isNone && !lane r.flight).length

/-- Whether a core has no room for requests of these accesses: it holds 2,048 (R6). A word of more requests than that goes when
none is outstanding (DESIGN CHOICE, assumption 19). A run-ahead sends none. -/
def State.crowdedBy (s : State) (ls : List (Loc × Nat)) : Bool :=
  let n := s.outstanding s.issue.core
  !s.issue.ahead && n != 0 && 2048 < n + linesOf ls

/-- The same for a word's accesses of `n` bytes. -/
def State.crowded (s : State) (n : Nat) (tries : List Try) : Bool :=
  s.crowdedBy ((tries.filter (·.fault.isNone)).map fun t => (t.access.loc, n))

/-- The global ranges of a word's accesses of `n` bytes. -/
def globalRanges (n : Nat) (tries : List Try) : List (Nat × Nat) :=
  (tries.filter fun t => t.fault.isNone && t.access.global).map fun t => (t.access.va.toNat, n)

/-- A word's lanes make their accesses (R263, R154): lanes that fail or match a watchpoint fault, the others go on. A
uniform word or one of word extent goes on only when no lane fails (R38). -/
def State.access (s : State) (u : Bool) (tries : List Try) (watch : LaneAccess → List Nat)
    (go : List LaneAccess → Bool → State → State) : State :=
  let passed := tries.filter (·.fault.isNone)
  let hit := passed.filter fun t => watch t.access != []
  let faults := tries.filterMap (·.fault) ++ hit.map fun t => (t.access.lane, .watchpoint, t.access.va)
  let clean := passed.filter fun t => watch t.access == []
  let s := s.noteMalformed (tries.filter (·.malformed)).length
  let t := s.raiseLanes u false faults (hit.flatMap fun t => watch t.access).eraseDups
  if clean = [] ∨ (u ∧ faults ≠ []) then t
  else go (clean.map (·.access)) (clean.any (·.sc)) t

/-- The mask that a dispatched access stands for: its lanes, or every executing lane of a uniform word (R59). -/
def State.accessMask (s : State) (u : Bool) (ls : List LaneAccess) : Word :=
  if u then s.issue.exec else maskOf fun l => ls.any (·.lane == l)

/-- Whether a load meets an atomic of its own core that is not performed yet: it then waits (R60). -/
def State.meetsAtomic (s : State) (ls : List Try) (n : Nat) : Bool :=
  !s.issue.ahead && s.cur.flight.any fun f => !f.performed && match f.kind with
    | .rmw _ _ _ => f.kind.locs.any fun x => ls.any fun t => t.fault.isNone && x.1.meets x.2 t.access.loc n
    | _ => false

/-- Whether a read that takes its value at issue would pass a load or an atomic of its own lanes on the same bytes: it then
waits (R60). -/
def State.overtakes (s : State) (a : Loc) (n : Nat) : Bool :=
  !s.issue.ahead && s.mine.any fun f => (f.mask &&& s.issue.exec) != 0 && f.open_ && !f.kind.stores &&
    f.kind.locs.any fun x => x.1.meets x.2 a n

/-- The number of a stall reason (R169). -/
def Stall.number : Stall → Nat
  | .translation => 2
  | .clauseWait => 3
  | .registerPending => 4
  | .accumulatorPending => 5
  | .pipeBusy => 6
  | .budget => 7
  | .barrier => 8
  | .trywait => 9
  | .hold _ => 6
  | .behind _ => 6

/-- Of two reasons to wait the lower (R169). -/
def leastWait (a b : Option Stall) : Option Stall :=
  match a, b with
  | some x, some y => some (if y.number < x.number then y else x)
  | some x, none => some x
  | none, b => b

/-- What every counting memory word waits for before its accesses: room on its flag (R206), an acquire (R270), an SC
access (R71). -/
def State.memWait (s : State) (fs : Option Bool) : Option Stall :=
  if s.issue.exec = 0 then none else if s.flagFull fs then some .clauseWait else s.memHeld

/-- A meaning behind a wait: nothing happens while the wait holds. -/
def State.after (s : State) (w : Option Stall) (t : State) : State :=
  match w with
  | some r => s.wait r
  | none => t

/-- What a word's accesses wait for that are checked: an acquire fence with a range (R284), and room among the core's requests
(R6). -/
def State.roomWait (s : State) (n : Nat) (tries : List Try) : Option Stall :=
  if s.issue.exec = 0 ∨ s.issue.ahead then none
  else match s.fenceHold (globalRanges n tries) with
    | some h => some (.behind h.pc)
    | none => if s.crowded n tries then some .pipeBusy else none

/-- What a memory word waits for beside the waits of its family. -/
def State.accessWait (s : State) (fs : Option Bool) (n : Nat) (tries : List Try) : Option Stall :=
  (s.memWait fs).orElse fun _ => s.roomWait n tries

/-- The upper half of a 16-byte access. -/
def LaneAccess.upper (x : LaneAccess) : LaneAccess := { x with va := x.va + 8, loc := x.loc.add 8 }

/-- A load as the operations that it is dispatched as: a register quad takes two accesses of 8 bytes (R56); to SC pages each
lane's access is an operation of its own, in ascending lane order (R71, R267). -/
def State.loadParts (s : State) (u sc : Bool) (dest : LoadDest) (ls : List LaneAccess) : List Part1 :=
  let halves : List (LoadDest × List LaneAccess) := match dest with
    | .reg d 16 sg => [(.reg d 8 sg, ls), (.reg (d + 2) 8 sg, ls.map (·.upper))]
    | _ => [(dest, ls)]
  let own := fun (x : LaneAccess) => halves.flatMap fun h => (h.2.filter (·.lane == x.lane)).map fun y =>
    (s.accessMask u [y], none, FlightKind.load h.1 [y])
  let single := match dest with
    | .bank => true
    | _ => false
  if sc && !single then ls.flatMap own else halves.map fun h => (s.accessMask u ls, none, .load h.1 h.2)

/-- What the lanes of a word write: lane access, bytes, and until when it is held. -/
abbrev Due := LaneAccess × List Byte × Option Nat

/-- The stores that are held alike, one operation for each delay (R360). -/
def State.byDelay (s : State) (u : Bool) (ws : List Due) : List Part1 :=
  ((ws.map (·.2.2)).eraseDups).map fun t =>
    let xs := (ws.filter (·.2.2 == t)).map fun w => (w.1, w.2.1)
    (s.accessMask u (xs.map (·.1)), t, .store xs)

/-- Stores as the operations that they are dispatched as: 16 bytes take two accesses of 8 (R56); to SC pages each access is an
operation of its own, in ascending lane order (R71, R267). -/
def State.storeParts (s : State) (u sc : Bool) (ls : List (LaneAccess × List Byte)) : List Part1 :=
  let due := fun (x : LaneAccess × List Byte) => s.heldUntil (x.1.span x.2.length)
  let lower := ls.map fun x => (x.1, if x.2.length = 16 then x.2.take 8 else x.2, due x)
  let upper := (ls.filter (·.2.length == 16)).map fun x => (x.1.upper, x.2.drop 8, due x)
  if sc then (((ls.map (·.1.lane)).eraseDups.flatMap fun l => (lower ++ upper).filter fun (w : Due) => w.1.lane == l)).map
    fun w => (s.accessMask u [w.1], w.2.2, .store [(w.1, w.2.1)])
  else s.byDelay u lower ++ s.byDelay u upper

/-- The name under which the word being issued asks beyond the package. -/
def State.wordName (s : State) : List Nat := [0, s.issue.core, s.issue.slot]

/-- Whether a comparator tests what memory holds at a lane's access of `n` bytes (R170). -/
def State.valueWatched (s : State) (store : Bool) (x : LaneAccess) (n : Nat) : Bool :=
  !s.issue.noWatch.getLsbD x.lane && s.cur.watch.any fun w =>
    w.data != 0 && s.watches { w with data := 0 } store x n [] []

/-- The lanes' accesses whose memory a comparator tests read it at issue (R150, R170): the state, and the bytes by
address. -/
def State.sampled (s : State) (store : Bool) (n : LaneAccess → Nat) (ls : List LaneAccess) :
    State × List (Nat × List Byte) :=
  ls.foldl (fun r x => match x.loc with
    | .spad _ => r
    | .phys pa =>
      if !s.valueWatched store x (n x) then r
      else match r.1.readAt s.issue.core s.nextId s.wordName pa (n x) with
        | (t, some (0, b)) => (t, (pa, b) :: r.2)
        | (t, _) => (t, r.2)) (s, [])

/-- What memory holds at an access: what was read there at issue, or else this package's memory as the core sees it. -/
def State.sample (s : State) (vals : List (Nat × List Byte)) (x : LaneAccess) (n : Nat) : List Byte :=
  match x.loc with
  | .phys pa => ((vals.find? (·.1 == pa)).map (·.2)).getD (s.coreRead s.issue.core s.nextId x.loc n)
  | .spad _ => []

/-- The lanes read `n` bytes at once: the state, and the code and the bytes of each lane's access (R161). -/
def State.readLanes (s : State) (n : Nat) (ls : List LaneAccess) : State × (LaneAccess → Nat) × (LaneAccess → List Byte) :=
  let r := ls.foldl (fun (r : State × List (Nat × Nat × List Byte)) x => match x.loc with
    | .spad _ => r
    | .phys pa => match r.1.readAt s.issue.core s.nextId s.wordName pa n with
      | (t, some a) => (t, (x.lane, a) :: r.2)
      | (t, none) => (t, r.2)) (s, [])
  let find := fun (x : LaneAccess) => r.2.find? (·.1 == x.lane)
  (r.1, (fun x => (find x).elim 0 (·.2.1)), fun x => (find x).elim [] (·.2.2))

/-- The accesses of the checks that pass. -/
def passed (tries : List Try) : List LaneAccess := (tries.filter (·.fault.isNone)).map (·.access)

/-- The operations of the word have what was read at its issue. -/
def Core.gotAt (c : Core) (first : Nat) (got : List (Nat × List Byte)) : Core :=
  if got = [] then c
  else { c with flight := c.flight.map fun f => if first ≤ f.id then { f with got := got } else f }

/-- A load of `n` bytes into a destination. -/
def State.load (s : State) (u : Bool) (n : Nat) (acq : Bool) (fs : Option Bool) (dest : LoadDest) (tries : List Try) :
    State :=
  s.after ((s.accessWait fs n tries).orElse fun _ => if s.meetsAtomic tries n then some .pipeBusy else none)
    (let r := s.sampled false (fun _ => n) (passed tries)
     r.1.access u tries (fun x => s.watchers false x n (s.sample r.2 x n) [])
       fun ls sc t => (t.dispatchAll fs acq sc (t.loadParts u sc dest ls)).onCore (·.gotAt t.nextId r.2))

/-- A store of `n` bytes, `data` giving each lane's. -/
def State.storeOn (s : State) (u fs : Bool) (n : Nat) (data : Nat → List Byte) (tries : List Try) : State :=
  s.after (s.accessWait (some fs) n tries)
    (let r := s.sampled true (fun _ => n) (passed tries)
     r.1.access u tries (fun x => s.watchers true x n (data x.lane) (s.sample r.2 x n))
       fun ls sc t => t.dispatchAll (some fs) false sc (t.storeParts u sc (ls.map fun x => (x, data x.lane))))

/-- The next write of the executing lanes is a release at pod scope, or the first behind one (R445). -/
def State.podRelease (s : State) (scope : Nat) : State :=
  if scope = 6 then s.onGrp fun g => { g with podFence := g.podFence ||| s.issue.exec } else s

/-- A store that counts on flag A. -/
def State.store (s : State) (u : Bool) (n : Nat) (data : Nat → List Byte) (tries : List Try) : State :=
  s.storeOn u false n data tries

/-- The low `n` bytes of vD, of its pair or of its quad, in lane `l` (R266). -/
def State.dataBytes (s : State) (d n l : Nat) : List Byte :=
  (leBytes 4 (s.A d l).toNat ++ (if 4 < n then leBytes 4 (s.A (d + 1) l).toNat else []) ++
    (if 8 < n then leBytes 4 (s.A (d + 2) l).toNat ++ leBytes 4 (s.A (d + 3) l).toNat else [])).take n

end Sys2Proof.Machine
end

