-- ==== Sys2Proof/Machine/Access.lean ====
section
/-! DEFINITION. Loads, stores, acquire and release, prefetch, the constant bank and the L1 (R262 to R270, R290 to
R292). -/

namespace Sys2Proof.Machine

/-! ## Addresses of the executing lanes (R262) -/

/-- The global accesses of a word. -/
def State.globalTries (s : State) (u : Bool) (want : Want) (n a : Nat) (off : Int) : List Try :=
  (s.doers u).map fun l => s.tryGlobal want n l (s.globalVa a off l)

/-- The Pavilion accesses of a word. -/
def State.pavTries (s : State) (u : Bool) (n a : Nat) (off : Int) : List Try :=
  (s.doers u).map fun l => s.tryPavilion n l (s.A a l + BitVec.ofInt 32 off)

/-- The scratchpad accesses of a word. -/
def State.spadTries (s : State) (u : Bool) (n a sw off : Nat) : List Try :=
  (s.doers u).map fun l => s.trySpad n l sw (s.A a l + BitVec.ofNat 32 off)

/-- The element offset of MEMG in bytes (R262). -/
def memgOff (sz : Nat) (o : BitVec 5) : Int := o.toInt * szBytes sz

/-! ## Loads and stores (R265, R266) -/

/-- `ldg` (R266). -/
def execLdg (_c u : Bool) (d a : BitVec 7) (sz : BitVec 3) (o : BitVec 5) (s : State) : Result :=
  let n := szBytes sz.toNat
  s.checked (s.szOk d.toNat sz.toNat && s.vOk a.toNat)
    (s.load u n false (some false) (.reg d.toNat n (szSigned sz.toNat))
      (s.globalTries u .read n a.toNat (memgOff sz.toNat o)))

/-- `stg` (R266). -/
def execStg (_c u : Bool) (d a : BitVec 7) (sz : BitVec 3) (o : BitVec 5) (s : State) : Result :=
  let n := szBytes sz.toNat
  s.checked (s.szOk d.toNat sz.toNat && s.vOk a.toNat)
    (s.store u n (s.dataBytes d.toNat n) (s.globalTries u .write n a.toNat (memgOff sz.toNat o)))

/-- `lds` (R266). -/
def execLds (_c u : Bool) (d a : BitVec 7) (sz w : BitVec 3) (o : BitVec 2) (s : State) : Result :=
  let n := szBytes sz.toNat
  s.checked (s.szOk d.toNat sz.toNat && s.vOk a.toNat)
    (s.load u n false (some false) (.reg d.toNat n (szSigned sz.toNat)) (s.spadTries u n a.toNat w.toNat (o.toNat * n)))

/-- `sts` (R266). -/
def execSts (_c u : Bool) (d a : BitVec 7) (sz w : BitVec 3) (o : BitVec 2) (s : State) : Result :=
  let n := szBytes sz.toNat
  s.checked (s.szOk d.toNat sz.toNat && s.vOk a.toNat)
    (s.store u n (s.dataBytes d.toNat n) (s.spadTries u n a.toNat w.toNat (o.toNat * n)))

/-- `ldp` (R266). -/
def execLdp (_c u : Bool) (d a : BitVec 7) (sz : BitVec 3) (o : BitVec 5) (s : State) : Result :=
  let n := szBytes sz.toNat
  s.checked (s.szOk d.toNat sz.toNat && s.vOk a.toNat)
    (s.load u n false (some false) (.reg d.toNat n (szSigned sz.toNat)) (s.pavTries u n a.toNat (memgOff sz.toNat o)))

/-- `stp` (R266). -/
def execStp (_c u : Bool) (d a : BitVec 7) (sz : BitVec 3) (o : BitVec 5) (s : State) : Result :=
  let n := szBytes sz.toNat
  s.checked (s.szOk d.toNat sz.toNat && s.vOk a.toNat)
    (s.store u n (s.dataBytes d.toNat n) (s.pavTries u n a.toNat (memgOff sz.toNat o)))

/-! ## Acquire and release (R269, R270) -/

/-- `ldacq` (R270). -/
def execLdacq (_c u : Bool) (d a : BitVec 7) (_scope z : BitVec 3) (s : State) : Result :=
  let n := szBytes z.toNat
  s.checked (z.toNat < 6 && s.szOk d.toNat z.toNat && s.vOk a.toNat)
    (s.load u n true (some false) (.reg d.toNat n (szSigned z.toNat)) (s.globalTries u .read n a.toNat 0))

/-- `strel` (R270): it waits for the earlier accesses of its lanes. -/
def execStrel (_c u : Bool) (d a : BitVec 7) (scope z : BitVec 3) (s : State) : Result :=
  let n := szBytes z.toNat
  s.checked (z.toNat < 6 && s.szOk d.toNat z.toNat && s.vOk a.toNat)
    (if s.settled scope.toNat then
      (s.podRelease scope.toNat).store u n (s.dataBytes d.toNat n) (s.globalTries u .write n a.toNat 0)
     else s.wait ((s.memWait (some false)).getD .pipeBusy))

/-! ## Prefetch, constant bank, L1 (R290 to R292) -/

/-- The lines that a cache of a core holds: the L1 of 256 KiB (R6). -/
def l1Lines : Nat := 2048

/-- The lines of the L1 that `pref` requested and no access has used, beyond those that it has room for: the oldest are evicted
(R468; DESIGN CHOICE, assumption 19). -/
def Core.evict (c : Core) : Core :=
  let l1 := c.pref.filter (·.2.1 == 0)
  let gone := l1.take (l1.length - l1Lines)
  { c with pref := gone.foldl List.erase c.pref }.count 3 gone.length

/-- `pref` (R290): each executing lane requests the line of its address; one that is not present, not permitted or
misaligned is dropped. The counters PFISS and PFDROP advance (R468); a malformed entry is counted (R426). -/
def execPref (_c u : Bool) (t : BitVec 2) (a : BitVec 7) (sz : BitVec 3) (o : BitVec 5) (s : State) : Result :=
  let n := szBytes sz.toNat
  let tries := s.globalTries u .read n a.toNat (memgOff sz.toNat o)
  let lines := (tries.filterMap fun (t : Try) => match t.fault, t.access.loc with
    | none, .phys pa => some (lineOf pa)
    | _, _ => none).eraseDups
  let dropped := (tries.filter (·.fault.isSome)).length
  let ask := fun (c : Core) => { c with pref := c.pref ++ lines.map fun l => (l, t.toNat, false) }.count 0 lines.length
  s.checked (t.toNat < 3 && sz.toNat < 7 && s.vOk a.toNat)
    ((s.noteMalformed (tries.filter (·.malformed)).length).onCore fun c => ((ask c).count 4 dropped).evict)

/-- `ldk` (R291): one load of 4 bytes for each word, each translated on its own; a fault is the whole word's. An address that is
not a multiple of 64 is misaligned. -/
def execLdk (_c _u : Bool) (a : BitVec 7) (s : State) : Result :=
  let va := s.issue.src.rs a.toNat
  let l := lowest s.issue.exec
  let tries := if s.issue.exec = 0 then [] else if va.toNat % 64 ≠ 0 then [Try.fail l va .misaligned false]
    else (List.range 48).map fun i => s.tryGlobal .read 4 l (va + BitVec.ofNat 64 (4 * i))
  s.checked (a.toNat < 64)
    (if s.issue.exec = 0 then s
     else if va = 0 then s.onGrp fun g => { g with rf := { g.rf with k := List.replicate 48 0 } }
     else s.load true 4 false (some false) .bank tries)

/-- `flushl1` (R292): the L1 holds no modified data, so that dropping its lines changes no memory; prefetched lines that
lie in it untouched are evicted (R468). The word counts on its flag until the last line is dropped. -/
def execFlushl1 (_c _u : Bool) (s : State) : Result :=
  .next (if s.issue.exec = 0 then s
    else if s.flagFull (some false) then s.wait .clauseWait
    else s.dispatch (some false) s.issue.exec none false false .flush)

end Sys2Proof.Machine
end

