-- ==== Sys2Proof/Machine/Atomic.lean ====
section
/-! DEFINITION. Global atomics and Pavilion bank operations (R271 to R282): their issue, and what each does at its
home. -/

namespace Sys2Proof.Machine

/-! ## Read-modify-writes at their home -/

/-- The new bytes of a word of `w` bytes, or none where nothing is written, from its old bytes (R272, R276). -/
def Rmw.write (r : Rmw) (old : List Byte) : Option (List Byte) :=
  let x := leNat old
  match r with
  | .add w v => some (leBytes w (x + v.toNat))
  | .addF32 v => some (leBytes 4 (rne32 ((decF (BitVec.ofNat 32 x)).add (decF v))).toNat)
  | .minmax w var v =>
    let a := intOf (8 * w) (var < 2) x
    let b := intOf (8 * w) (var < 2) v.toNat
    some (leBytes w (intBits (8 * w) (if var % 2 = 0 then min a b else max a b)))
  | .logic w var v =>
    some (leBytes w (match var with | 0 => x &&& v.toNat | 1 => x ||| v.toNat | _ => x ^^^ v.toNat))
  | .xchg w v => some (leBytes w v.toNat)
  | .cas w c v => if x = c.toNat % 2 ^ (8 * w) then some (leBytes w v.toNat) else none
  | .fx wide v => some (fxAdd old (fxconv (if wide then f64.dec v.toNat else f32.dec (v.toNat % 2 ^ 32))))
  | .fxread clr => if clr then some (fxClear old) else none
  | .append _ _ => if x % 2 ^ 32 < 0xFFFFFFFF then some (leBytes 4 (x % 2 ^ 32 + 1)) else none

/-- The value that the register takes, as a number (R272, R276, R279). -/
def Rmw.value (r : Rmw) (old : List Byte) : Nat :=
  match r with
  | .fxread _ => (fxRead old).1.toNat + (fxRead old).2 * 2 ^ 64
  | .append _ _ => leNat (old.take 4)
  | _ => leNat old

/-- The slot that an append writes, given the old count: its Pavilion location, when below cap and inside the die's
window (R278, R279). -/
def State.slotOf (s : State) (pa w old : Nat) : Option Nat :=
  let cap := s.wordPa (pa + 4) 4
  let slot := pa + 8 + w * old
  if old < cap ∧ (paLocal slot - 0x80000000000) / 0x8000000 = (paLocal pa - 0x80000000000) / 0x8000000 ∧
      paLocal slot - 0x80000000000 + w ≤ ((paLocal pa - 0x80000000000) / 0x8000000 + 1) * 0x8000000 then some slot else none

/-- One lane's read-modify-write, indivisible at its home: the state after it, the register value, and the error code of
a failed access (R273, R276, R279, R422, R436). An append whose slot lies in an ECC word with uncorrectable data does nothing
(DESIGN CHOICE, assumption 18). -/
def State.performRmw (s : State) (k : Nat) (x : LaneAccess) (r : Rmw) : State × Nat × Nat :=
  match x.loc with
  | .spad o =>
    let old := (s.core k).spad.bytes o r.span
    match r.write old with
    | some new => (s.modCore k fun c => { c with spad := c.spad.write o new }, r.value old, 0)
    | none => (s, r.value old, 0)
  | .phys pa =>
    if !backed (paLocal pa) then (s, 0, 2)
    else if s.badAt pa r.span then (s, 0, 1)
    else
      let old := s.readPa pa r.span
      let t := match r.write old with
        | some new => (s.storePa pa new).1
        | none => s
      match r with
      | .append w v => match s.slotOf pa w (r.value old) with
        | some slot =>
          if s.masksBad slot w then (s.recordErrors 6 [(.phys slot, w)], 0, 1)
          else ((t.storePa slot (leBytes w v.toNat)).1, r.value old, 0)
        | none => (t, r.value old, 0)
      | _ => (t, r.value old, 0)

/-- The lanes of a word, one after another in ascending lane order, as the parts of an operation from part `i` on (R57,
R277): the values that they read, by lane, and the parts that failed. A part that has failed, or that is performed at a
home beyond the package, is passed over. -/
def State.performRmws (s : State) (k : Nat) (errs : List (Nat × Nat)) :
    Nat → List (LaneAccess × Rmw) → State × List (Nat × Nat) × List (Nat × Nat)
  | _, [] => (s, [], [])
  | i, x :: xs =>
    if errs.any (·.1 == i) || (s.beyond x.1.loc).isSome then s.performRmws k errs (i + 1) xs
    else
      let r := s.performRmw k x.1 x.2
      let t := r.1.performRmws k errs (i + 1) xs
      if r.2.2 = 0 then (t.1, (x.1.lane, r.2.1) :: t.2.1, t.2.2) else (t.1, t.2.1, (i, r.2.2) :: t.2.2)

/-- Until when the appends of a word are delayed: the count and the slot that a lane would write now are one store for the hold
windows of its core, and the lanes of a word on one bucket are performed together (R277, R279, R360). -/
def State.appendHeld (s : State) (k : Nat) (f : Flight) : Option Nat :=
  let delay := fun pa n => (s.core k).delay true (pa % 2 ^ 29) n
  match f.kind with
  | .rmw ls _ _ =>
    let due := fun (x : (LaneAccess × Rmw) × Nat) => match x.1.2, x.1.1.loc with
      | .append w _, .phys pa =>
        let before := ((ls.take x.2).filter fun y => y.1.loc == .phys pa).length
        max (delay pa 4) ((s.slotOf pa w (s.wordPa pa 4 + before)).elim 0 fun a => delay a w)
      | _, _ => 0
    let n := ls.zipIdx.foldl (fun m x => max m (due x)) 0
    if s.clk < f.born + n then some (f.born + n) else none
  | _ => none

/-! ## Issue -/

/-- What a lane's operation writes, given what memory holds at its address: access, new bytes, old bytes. -/
def State.rmwWrites (s : State) (x : LaneAccess) (r : Rmw) (old : List Byte) :
    List (LaneAccess × List Byte × List Byte) :=
  let at_ := match r.write old with
    | some new => [(x, new, old)]
    | none => []
  match r, x.loc with
  | .append w v, .phys pa => match s.slotOf pa w (r.value old) with
    | some slot => at_ ++ [({ x with loc := .phys slot }, leBytes w v.toNat, s.readPa slot w)]
    | none => at_
  | _, _ => at_

/-- The comparators that match what a lane's operation writes (R170, R357). -/
def State.rmwHits (s : State) (x : LaneAccess) (r : Rmw) (old : List Byte) : List Nat :=
  ((s.rmwWrites x r old).flatMap fun w => s.watchers true w.1 w.2.1.length w.2.1 w.2.2).eraseDups

/-- Whether a comparator may match what a lane's operation writes: the value written is then known only as the operation is
performed (R170). -/
def State.rmwWatched (s : State) (x : LaneAccess) (r : Rmw) : Bool :=
  !s.issue.noWatch.getLsbD x.lane && s.cur.watch.any fun w => w.compares s true &&
    if x.global then overlap x.va.toNat r.span w.base.toNat w.len.toNat
    else match x.loc with
      | .phys pa => s.aliasMeets w pa (r.reach x.loc)
      | .spad _ => false

/-- A lane's operation performed at issue, behind its comparators: the state, and the comparators that match, or else the
value and the code; nothing while it waits. The first argument bounds the tries at a home beyond the package, each of which
takes answers that have come (assumption 40). -/
def State.rmwNow : Nat → State → LaneAccess → Rmw → State × Option (List Nat × Nat × Nat)
  | 0, s, _, _ => (s.askWaits .pipeBusy, none)
  | n + 1, s, x, r => match x.loc with
    | .spad _ => (s, some ([], 0, 0))
    | .phys pa =>
      if s.cur.passes s.nextId pa (r.reach x.loc) then (s.askWaits .pipeBusy, none)
      else match s.readAt s.issue.core s.nextId s.wordName pa r.span with
        | (t, some (0, old)) =>
          let hits := t.rmwHits x r old
          if hits ≠ [] then (t, some (hits, 0, 0))
          else if (s.beyond x.loc).isNone then
            let d := t.performRmw s.issue.core x r
            (d.1, some ([], d.2.1, d.2.2))
          else match r.write old with
            | none => (t, some ([], r.value old, 0))
            | some new => match t.swapAt s.issue.core s.nextId s.wordName pa r.span (leNat old) (leNat new) with
              | (u, some (0, was)) => if was = leNat old then (u, some ([], r.value old, 0)) else State.rmwNow n u x r
              | (u, some (c, _)) => (u, some ([], 0, c))
              | (u, none) => (u, none)
        | (t, some (c, _)) => (t, some ([], 0, c))
        | (t, none) => (t, none)

/-- The operations of a word as they are dispatched: one for each delay (R360), and to SC pages one for each lane, in ascending
order (R71, R267). -/
def State.rmwParts (s : State) (u sc : Bool) (dest : Option (Nat × Nat)) (ls : List (LaneAccess × Rmw)) : List Part1 :=
  let due := fun (x : LaneAccess × Rmw) => s.heldUntil (match x.2 with
    | .append _ _ => x.1.span 4
    | r => x.1.span r.span)
  let part := fun t (xs : List (LaneAccess × Rmw)) => (s.accessMask u (xs.map (·.1)), t, FlightKind.rmw xs dest [])
  if sc then ls.map fun x => part (due x) [x]
  else ((ls.map due).eraseDups).map fun t => part t (ls.filter fun x => due x == t)

/-- A word whose operations comparators may match: its lanes perform them at issue, in ascending order, and no hold window
delays them (DESIGN CHOICE, assumption 18). -/
def State.rmwWatchedWord (s : State) (u acq : Bool) (op : Nat → Rmw) (dest : Option (Nat × Nat)) (tries : List Try) :
    State :=
  let r := (passed tries).foldl (fun (r : State × List (LaneAccess × List Nat × Nat × Nat)) x =>
    match r.1.rmwNow (s.fabric.requests.length + 1) x (op x.lane) with
    | (t, some v) => (t, r.2 ++ [(x, v)])
    | (t, none) => (t, r.2)) (s, [])
  let of := fun (x : LaneAccess) => (r.2.find? (·.1 == x)).elim ([], 0, 0) (·.2)
  r.1.access u tries (fun x => (of x).1) fun ls sc t =>
    let errs := ls.zipIdx.filterMap fun x => if (of x.1).2.2 = 0 then none else some (x.2, (of x.1).2.2)
    let old := ls.map fun x => (x.lane, (of x).2.1)
    (t.dispatchAll (some false) acq sc [(s.accessMask u ls, none, .rmw (ls.map fun x => (x, op x.lane)) dest old)]).onCore
      (·.modOp t.nextId fun f => { f with performed := true, errs := errs, sent := ls.length })
      |>.recordErrors 2 (ls.map fun x => (x.loc, (op x.lane).span))

/-- A read-modify-write word: `op` gives each lane's operation, `dest` the first register written and how many. -/
def State.rmw (s : State) (u acq : Bool) (rel : Option Nat) (op : Nat → Rmw) (dest : Option (Nat × Nat))
    (tries : List Try) : State :=
  let release := match rel with
    | some scope => if s.settled scope then none else some .pipeBusy
    | none => none
  let s' := s.podRelease (rel.getD 0)
  s.after ((s.accessWait (some false) 32 tries).orElse fun _ => release)
    (if (passed tries).any fun x => s.rmwWatched x (op x.lane) then s'.rmwWatchedWord u acq op dest tries
     else s'.access u tries (fun _ => []) fun ls sc t =>
       t.dispatchAll (some false) acq sc (t.rmwParts u sc dest (ls.map fun x => (x, op x.lane))))

/-- A register or a pair of the operand, by width (R272). -/
def State.operand (s : State) (d : Nat) (w : Bool) (l : Nat) : DWord :=
  if w then s.A2 d l else (s.A d l).setWidth 64

/-- Bytes of an atomic's operand. -/
def atBytes (w : Bool) : Nat := if w then 8 else 4

/-- The global accesses of an atomic; those that R274 does not carry to host memory raise permission there. -/
def State.atomicTries (s : State) (u hostToo w : Bool) (a : Nat) : List Try :=
  (s.globalTries u .write (atBytes w) a 0).map fun t => match t.fault, t.access.loc with
    | none, .phys pa => if region (paLocal pa) == .host && !hostToo then
        .fail t.access.lane t.access.va .permission false else t
    | _, _ => t

/-- A global atomic behind its operand checks (R271 to R274). -/
def State.atomic (s : State) (u : Bool) (d a scope ord : Nat) (w ok hostToo : Bool) (op : Nat → Rmw) : Result :=
  s.checked (ok && (if w then s.v2Ok d else s.vOk d) && s.vOk a)
    (s.rmw u (ord % 2 == 1) (if 2 ≤ ord then some scope else none) op (some (d, if w then 2 else 1))
      (s.atomicTries u hostToo w a))

/-- `atadd` (R272). -/
def execAtadd (_c u : Bool) (d a : BitVec 7) (sc : BitVec 3) (o : BitVec 2) (w : Bool) (v : BitVec 2) (s : State) :
    Result :=
  s.atomic u d.toNat a.toNat sc.toNat o.toNat w (v == 0 || (v == 1 && !w)) (v == 0) fun l =>
    if v = 0 then .add (atBytes w) (s.operand d.toNat w l) else .addF32 (s.A d.toNat l)

/-- `atminmax` (R272). -/
def execAtminmax (_c u : Bool) (d a : BitVec 7) (sc : BitVec 3) (o : BitVec 2) (w : Bool) (v : BitVec 2) (s : State) :
    Result :=
  s.atomic u d.toNat a.toNat sc.toNat o.toNat w true false fun l =>
    .minmax (atBytes w) v.toNat (s.operand d.toNat w l)

/-- `atlogic` (R272). -/
def execAtlogic (_c u : Bool) (d a : BitVec 7) (sc : BitVec 3) (o : BitVec 2) (w : Bool) (v : BitVec 2) (s : State) :
    Result :=
  s.atomic u d.toNat a.toNat sc.toNat o.toNat w (v != 3) false fun l =>
    .logic (atBytes w) v.toNat (s.operand d.toNat w l)

/-- `atxchg` (R272). -/
def execAtxchg (_c u : Bool) (d a : BitVec 7) (sc : BitVec 3) (o : BitVec 2) (w : Bool) (s : State) : Result :=
  s.atomic u d.toNat a.toNat sc.toNat o.toNat w true true fun l => .xchg (atBytes w) (s.operand d.toNat w l)

/-- `atcas` (R271, R272): compare value in vD (its pair), new value behind it. -/
def execAtcas (_c u : Bool) (d a : BitVec 7) (sc : BitVec 3) (o : BitVec 2) (w : Bool) (s : State) : Result :=
  s.atomic u d.toNat a.toNat sc.toNat o.toNat w (if w then s.v4Ok d.toNat else s.vOk (d.toNat + 1)) true fun l =>
    if w then .cas 8 (s.A2 d.toNat l) (s.A2 (d.toNat + 2) l)
    else .cas 4 ((s.A d.toNat l).setWidth 64) ((s.A (d.toNat + 1) l).setWidth 64)

/-! ## Bank operations on single locations (R275 to R279) -/

/-- `bank.add` (R276). -/
def execBankAdd (_c u : Bool) (d a : BitVec 7) (t : BitVec 3) (s : State) : Result :=
  let w := t == 1
  s.checked (t.toNat < 3 && (if w then s.v2Ok d.toNat else s.vOk d.toNat) && s.vOk a.toNat)
    (s.rmw u false none (fun l => if t = 2 then .addF32 (s.A d.toNat l) else .add (atBytes w) (s.operand d.toNat w l))
      none (s.pavTries u (atBytes w) a.toNat 0))

/-- `bank.fx` (R276, R193). -/
def execBankFx (_c u : Bool) (d a : BitVec 7) (t : BitVec 3) (s : State) : Result :=
  let w := t == 1
  s.checked (t.toNat < 2 && (if w then s.v2Ok d.toNat else s.vOk d.toNat) && s.vOk a.toNat)
    (s.rmw u false none (fun l => .fx w (s.operand d.toNat w l)) none (s.pavTries u 32 a.toNat 0))

/-- `bank.fxread` (R276, R194). -/
def execBankFxread (_c u : Bool) (d a : BitVec 7) (t : BitVec 3) (s : State) : Result :=
  s.checked (t.toNat < 2 && s.v4Ok d.toNat && s.vOk a.toNat)
    (s.rmw u false none (fun _ => .fxread (t == 1)) (some (d.toNat, 4)) (s.pavTries u 32 a.toNat 0))

/-- `bank.app` (R278, R279). -/
def execBankApp (_c u : Bool) (d a : BitVec 7) (t : BitVec 3) (s : State) : Result :=
  let w := t == 1
  s.checked (t.toNat < 2 && (if w then s.v2Ok d.toNat else s.vOk d.toNat) && s.vOk a.toNat)
    (s.rmw u false none (fun l => .append (atBytes w) (s.operand d.toNat w l)) (some (d.toNat, 1))
      (s.pavTries u 8 a.toNat 0))

/-! ## Streaming operations (R280, R281) -/

/-- Whether a Pavilion range stays within one die's window (R280). -/
def inWindow (a : Word) (len : Nat) : Bool :=
  a.toNat / 2 ^ 29 == 0 && bits a.toNat 28 27 != 3 && a.toNat % 0x8000000 + len ≤ 0x8000000

/-- The engine word's own wait and dispatch: a status register of every executing lane. -/
def State.engine (s : State) (fs : Bool) (faults : List Try) (held : Option Nat) (kind : FlightKind) : State :=
  s.after (s.memWait (some fs))
    (if s.issue.exec = 0 then s
     else
      let fl := (faults.filterMap (·.fault)).map fun f => (lowest s.issue.exec, f.2)
      let t := s.noteMalformed (faults.filter (·.malformed)).length
      if fl = [] then t.dispatch (some fs) s.issue.exec held false false kind else t.raiseLanes true true fl [])

/-- A word-level misalignment, at an address (R280, R287). -/
def misalignedAt (s : State) (va : DWord) : Try := .fail (lowest s.issue.exec) va .misaligned false

/-- The bytes of a counter that an engine operation updates, as hold windows see them (R135, R360); 0 names no counter. -/
def ctrSpan (ctr : DWord) : Bool × Nat × Nat := (false, ctr.toNat, if ctr = 0 then 0 else 8)

/-- `bank.axpy` (R280, R281). -/
def execBankAxpy (_c _u : Bool) (d a : BitVec 7) (t : BitVec 2) (f : Bool) (s : State) : Result :=
  let r := fun i => s.issue.src.rs (a.toNat + i)
  let n := bits (r 1).toNat 63 32
  let dst : Word := (r 1).setWidth 32
  let ctr := r 3
  let ok := a.toNat < 64 && a.toNat % 4 == 0 && s.vOk d.toNat && t.toNat < 2 && n ≤ 2 ^ 24 && inWindow dst (4 * n) &&
    bits (r 2).toNat 63 32 == 0
  let x := s.tryRange .read (r 0).toNat (4 * n)
  let mis := (if (r 0).toNat % 4 ≠ 0 then [misalignedAt s (r 0)] else []) ++
    (if dst.toNat % 4 ≠ 0 then [misalignedAt s (dst.setWidth 64)] else []) ++
    if ctr.toNat % 16 ≠ 0 then [misalignedAt s ctr] else []
  s.checked ok (s.engine f (mis ++ x.2) (s.heldUntil [(true, dst.toNat, 4 * n), ctrSpan ctr])
    (.axpy t.toNat ((r 2).setWidth 32) x.1 (s.localPa (0x80000000000 + dst.toNat)) n d.toNat ctr))

/-- `bank.red` (R280, R281). -/
def execBankRed (_c _u : Bool) (d a : BitVec 7) (t : BitVec 2) (f : Bool) (s : State) : Result :=
  let r := fun i => s.issue.src.rs (a.toNat + i)
  let n := bits (r 1).toNat 63 32
  let src : Word := (r 0).setWidth 32
  let dst : Word := (r 1).setWidth 32
  let ctr := r 3
  let size := if t = 0 then 32 else 4
  let ok := a.toNat < 64 && a.toNat % 4 == 0 && s.vOk d.toNat && t.toNat < 3 && n ≤ 2 ^ 24 &&
    bits (r 0).toNat 63 32 == 0 && inWindow src (4 * n) && inWindow dst size && r 2 == 0
  let mis := (if src.toNat % 4 ≠ 0 then [misalignedAt s (src.setWidth 64)] else []) ++
    (if dst.toNat % size ≠ 0 then [misalignedAt s (dst.setWidth 64)] else []) ++
    if ctr.toNat % 16 ≠ 0 then [misalignedAt s ctr] else []
  s.checked ok (s.engine f mis (s.heldUntil [(true, dst.toNat, size), ctrSpan ctr])
    (.red t.toNat (s.localPa (0x80000000000 + src.toNat)) n (s.localPa (0x80000000000 + dst.toNat)) d.toNat ctr))

end Sys2Proof.Machine
end

