-- ==== Sys2Proof/Machine/Fabric.lean ====
section
/-! DEFINITION. Drukofold's carriage: flits, retry and messages (R448 to R450), routes (R452), and the requests by which
accesses of lanes and of engine operations leave the package, with their answers (R10, R420, R445, R451 to R453). -/

namespace Sys2Proof.Machine

/-! ## Flits (R449) -/

/-- One bit of CRC-32C, low bit first. -/
def crcBit (c : Word) : Word := if c.getLsbD 0 then (c >>> 1) ^^^ 0x82F63B78 else c >>> 1

/-- One byte of CRC-32C. -/
def crcByte (c : Word) (b : Byte) : Word := (List.range 8).foldl (fun c _ => crcBit c) (c ^^^ b.setWidth 32)

/-- CRC-32C. -/
def crc32c (bs : List Byte) : Word := ~~~ (bs.foldl crcByte 0xFFFFFFFF)

/-- A flit's 64 bytes. -/
def flitBytes (kind seq ack : Nat) (payload : List Byte) : List Byte :=
  let body := leBytes 2 (kind * 4096 + seq % 4096) ++ leBytes 2 (ack % 4096) ++ (payload ++ leBytes 56 0).take 56
  body ++ leBytes 4 (crc32c body).toNat

/-! ## Messages (R450) -/

/-- Zeros up to a multiple of `n`. -/
def padTo (n : Nat) (bs : List Byte) : List Byte := bs ++ leBytes ((n - bs.length % n) % n) 0

/-- The bytes that follow a header: a read has none, a masked write has its byte mask in front of its data (DEDUCED from
R434, assumption 29). -/
def bodyBytes (op len : Nat) : Nat :=
  match op with
  | 1 => 0
  | 3 => (len + 7) / 8 + len
  | _ => len

/-- A message's bytes. -/
def Message.bytes (m : Message) : List Byte :=
  padTo 16 (leBytes 16 (m.op * 2 ^ 120 + m.src * 2 ^ 110 + m.dst * 2 ^ 100 + m.tag * 2 ^ 84 + m.len * 2 ^ 72 +
    m.sub * 2 ^ 68 + m.status * 2 ^ 66 + m.aop * 2 ^ 54 + m.pa) ++ m.data)

/-- The message that a header begins. -/
def Message.ofHeader (h : Nat) (data : List Byte) : Message where
  op := bits h 127 120
  src := bits h 119 110
  dst := bits h 109 100
  tag := bits h 99 84
  len := bits h 83 72
  sub := bits h 71 68
  status := bits h 67 66
  aop := bits h 57 54
  pa := bits h 53 0
  data := data

/-- The whole messages at the front of a stream, and what remains; a message of another op is dropped. -/
def splitStream : Nat → List Byte → List Message × List Byte
  | 0, bs => ([], bs)
  | n + 1, bs =>
    let h := leNat (bs.take 16)
    let body := bodyBytes (bits h 127 120) (bits h 83 72)
    let all := 16 + (body + 15) / 16 * 16
    if bs.length < 16 ∨ bs.length < all then ([], bs)
    else
      let m := Message.ofHeader h ((bs.drop 16).take body)
      let r := splitStream n (bs.drop all)
      (if 1 ≤ m.op && m.op ≤ 7 then m :: r.1 else r.1, r.2)

/-! ## Retry (R450) -/

/-- The state of a port: 0 down, 1 training, 2 up (R451). -/
def Port.up (p : Port) : Bool := p.stat.toNat % 4 == 2

/-- The ack that a flit carries: the last seq received in order. -/
def Port.ack (p : Port) : Nat := (p.expect + 4095) % 4096

/-- A message flit, or a NAK for an empty payload, goes out under the next seq and is kept for replay. -/
def Port.emit (p : Port) (payload : List Byte) : Port :=
  { p with
    nextSeq := (p.nextSeq + 1) % 4096
    replay := p.replay ++ [(p.nextSeq, payload)]
    wire := p.wire ++ [flitBytes (if payload = [] then 2 else 1) p.nextSeq p.ack payload] }

/-- Bytes that wait go out in flits while the replay buffer has room. -/
def Port.pump : Nat → Port → Port
  | 0, p => p
  | n + 1, p =>
    if p.backlog = [] ∨ 512 ≤ p.replay.length then p
    else Port.pump n ({ p with backlog := p.backlog.drop 56 }.emit (p.backlog.take 56))

/-- Every flit goes out that can. -/
def Port.flush (p : Port) : Port := p.pump (p.backlog.length / 56 + 1)

/-- A message joins the stream. What it leaves of its last flits is filled with zeros, which read as headers of op 0 and
are dropped: whole pairs of flits keep headers at multiples of 16 bytes (DESIGN CHOICE, assumption 29). -/
def Port.send (p : Port) (m : Message) : Port := { p with backlog := p.backlog ++ padTo 112 m.bytes }.flush

/-- A discarded flit: the first one is answered with a NAK. -/
def Port.discard (p : Port) : Port :=
  if p.nakSent ∨ 512 ≤ p.replay.length then p else { p with nakSent := true }.emit []

/-- The partner has received every flit up to `ack`. -/
def Port.acknowledge (p : Port) (ack : Nat) : Port :=
  match p.replay with
  | [] => p
  | f :: _ =>
    let n := (ack + 4096 - f.1) % 4096
    if n < p.replay.length then { p with replay := p.replay.drop (n + 1), stuck := 0 }.flush else p

/-- A replay of every flit that is not acknowledged; the count in PORTSTAT saturates (R451). -/
def Port.replayAll (p : Port) : Port :=
  let n := bits p.stat.toNat 63 48
  { p with
    stuck := p.stuck + 1
    stat := if n < 65535 then p.stat + 0x1000000000000 else p.stat
    wire := p.wire ++ p.replay.map fun f => flitBytes (if f.2 = [] then 2 else 1) f.1 p.ack f.2 }

/-- Whole messages leave the stream. -/
def Port.assemble (p : Port) : Port :=
  let r := splitStream (p.stream.length / 16 + 1) p.stream
  { p with stream := r.2, inbox := p.inbox ++ r.1 }

/-- The next flit in order is accepted. -/
def Port.accept (p : Port) : Port := { p with expect := (p.expect + 1) % 4096, nakSent := false }

/-- An idle flit: it carries the ack for what has been received and takes no number (R449). -/
def Port.idle (p : Port) : Port := { p with wire := p.wire ++ [flitBytes 0 p.nextSeq p.ack []] }

/-- A flit arrives at a port that is up. What is accepted is acknowledged by an idle flit, whatever else there is to send
(DESIGN CHOICE, assumption 29). -/
def Port.receive (p : Port) (flit : List Byte) : Port :=
  let w := leNat (flit.take 2)
  let kind := bits w 15 12
  if flit.length ≠ 64 ∨ leNat (flit.drop 60) ≠ (crc32c (flit.take 60)).toNat ∨ 2 < kind then p.discard
  else if kind ≠ 0 ∧ w % 4096 ≠ p.expect then p.discard
  else
    let q := p.acknowledge (leNat ((flit.drop 2).take 2) % 4096)
    match kind with
    | 0 => q
    | 1 => { q.accept with stream := q.stream ++ (flit.drop 4).take 56 }.assemble.idle
    | _ => q.accept.replayAll.idle

/-- A port goes down: its replay buffer is dropped, with what waited behind it and what it had received in part (R450). -/
def Port.down (p : Port) : Port :=
  { p with stat := p.stat / 4 * 4, nextSeq := 0, expect := 0, replay := [], backlog := [], stuck := 0, nakSent := false,
           stream := [], wire := [] }

/-! ## Ports of the package -/

/-- A port. -/
def State.port (s : State) (p : Nat) : Port := s.fabric.ports.getD p Port.reset

/-- A port changed. -/
def State.modPort (s : State) (p : Nat) (f : Port → Port) : State :=
  { s with fabric := { s.fabric with ports := s.fabric.ports.modify p f } }

/-- A message goes out on a port; a port that is down carries none. -/
def State.post (s : State) (p : Nat) (m : Message) : State := s.modPort p fun q => if q.up then q.send m else q

/-- The ports that are up and set in ROUTE `n` (R452). -/
def State.usable (s : State) (n : Nat) : List Nat :=
  if n = s.node then [] else (List.range 64).filter fun p => (s.port p).up && (s.fabric.route.getD n 0).getLsbD p

/-- The port of a request to node `n` (R452). -/
def State.portFor (s : State) (n pa : Nat) : Option Nat :=
  let us := s.usable n
  us[bits pa 13 8 % us.length]?

/-- DTIMEOUT in clk (R451). -/
def State.dtimeout (s : State) : Nat :=
  let t := s.fabric.dtimeout.toNat % 2 ^ 32
  if t = 0 then 1500000 else t

/-! ## Accesses beyond the package (R420, R445, R452) -/

/-- The op, sub and data of an atomic message (R450, R271). -/
def Rmw.message (r : Rmw) : Nat × Nat × List Byte :=
  let w := fun n : Nat => if n = 8 then 4 else 0
  match r with
  | .add n v => (0, w n, leBytes n v.toNat)
  | .addF32 v => (0, 1, leBytes 4 v.toNat)
  | .minmax n var v => (1, w n + var, leBytes n v.toNat)
  | .logic n var v => (2, w n + var, leBytes n v.toNat)
  | .xchg n v => (3, w n, leBytes n v.toNat)
  | .cas n c v => (4, w n, leBytes n c.toNat ++ leBytes n v.toNat)
  | .fx _ _ => (5, 0, [])
  | .fxread _ => (5, 0, [])
  | .append _ _ => (5, 0, [])

/-- The read-modify-write that an atomic message asks for. -/
def Rmw.ofMessage (aop sub : Nat) (data : List Byte) : Option Rmw :=
  let n := if bit sub 2 then 8 else 4
  let v := BitVec.ofNat 64 (leNat (data.take n))
  match aop with
  | 0 => if sub % 4 = 0 then some (.add n v) else if sub % 4 = 1 ∧ n = 4 then some (.addF32 (v.setWidth 32)) else none
  | 1 => some (.minmax n (sub % 4) v)
  | 2 => if sub % 4 = 3 then none else some (.logic n (sub % 4) v)
  | 3 => some (.xchg n v)
  | 4 => some (.cas n v (BitVec.ofNat 64 (leNat ((data.drop n).take n))))
  | _ => none

/-! ## What an operation asks for (R57, R420, R450) -/

/-- What a request asks of its home: op, sub, aop, length and data of the message. -/
structure Want1 where
  op : Nat
  sub : Nat
  aop : Nat
  len : Nat
  data : List Byte
deriving DecidableEq, Repr

/-- A read of `n` bytes. -/
def Want1.read (n : Nat) : Want1 := { op := 1, sub := 0, aop := 0, len := n, data := [] }

/-- A write of bytes. -/
def Want1.write (bs : List Byte) : Want1 := { op := 2, sub := 0, aop := 0, len := bs.length, data := bs }

/-- A read-modify-write. -/
def Want1.rmw (r : Rmw) : Want1 :=
  { op := 4, sub := r.message.2.1, aop := r.message.1, len := r.message.2.2.length, data := r.message.2.2 }

/-- A range of at most 2^`n` × 128 bytes cut at multiples of 128 bytes, the largest request (R6, R57); the first argument
bounds the cuts. -/
def cutRange : Nat → Nat → Nat → List (Nat × Nat)
  | 0, _, _ => []
  | f + 1, pa, n =>
    if n = 0 then []
    else
      let m := min n (128 - pa % 128)
      (pa, m) :: cutRange f (pa + m) (n - m)

/-- The requests that a range takes: address, length. -/
def chunksOf (pa n : Nat) : List (Nat × Nat) := cutRange (n / 128 + 2) pa n

/-- The accesses of an operation's lanes, in ascending lane order: where, and what its requests ask for there. -/
def FlightKind.parts (k : FlightKind) : List (Loc × List (Nat × Want1)) :=
  let at_ := fun (a : Loc) (f : Nat → List (Nat × Want1)) => match a with
    | .phys pa => (a, f pa)
    | .spad _ => (a, [])
  match k with
  | .load dest ls => ls.map fun x => at_ x.loc fun pa => (chunksOf pa dest.bytes).map fun c => (c.1, .read c.2)
  | .store ls => ls.map fun x => at_ x.1.loc fun pa => (chunksOf pa x.2.length).map fun c =>
      (c.1, .write ((x.2.drop (c.1 - pa)).take c.2))
  | .rmw ls _ _ => ls.map fun x => at_ x.1.loc fun pa => [(pa, .rmw x.2)]
  | _ => []

/-! ## Operations of cores and of the Belvedere -/

/-- The number under which the Belvedere's operations send requests. -/
def belvedere : Nat := 384

/-- An operation in flight of a core, or of the Belvedere. -/
def State.opOf (s : State) (k id : Nat) : Option Flight :=
  if k = belvedere then s.belv.flight.find? (·.id == id) else (s.core k).op id

/-- The same changed. -/
def State.modOpOf (s : State) (k id : Nat) (f : Flight → Flight) : State :=
  if k = belvedere then
    { s with belv := { s.belv with flight := s.belv.flight.map fun o => if o.id = id then f o else o } }
  else s.modCore k (·.modOp id f)

/-! ## Requests and their answers (R445, R451 to R453) -/

/-- A request changed. -/
def State.modRequest (s : State) (tag : Nat) (f : Request → Request) : State :=
  { s with fabric := { s.fabric with requests := s.fabric.requests.map fun r => if r.tag = tag then f r else r } }

/-- A request gone. -/
def State.dropRequest (s : State) (tag : Nat) : State :=
  { s with fabric := { s.fabric with requests := s.fabric.requests.filter (·.tag != tag) } }

/-- What an answer brings to an operation: the data of a read, under what the core's own stores laid over it; the old value
of a read-modify-write. -/
def Flight.take (f : Flight) (r : Request) (data : List Byte) : Flight :=
  match r.op, f.kind with
  | 1, _ => { f with got := f.got ++ [(r.pa, laidOver r.pa data r.laid)] }
  | 4, .rmw ls d old => match ls[r.part]? with
    | some x => { f with kind := .rmw ls d (old ++ [(x.1.lane, leNat data)]) }
    | none => f
  | _, _ => f

/-- A request is answered, with a code (0 performed, 1 uncorrectable, 2 remote-error) and data; one that may have written has
met the residencies that watch its bytes (R87, R453). -/
def State.answered (s : State) (r : Request) (code : Nat) (data : List Byte) : State :=
  let s := if r.op = 1 ∨ r.port.isNone then s else s.touched r.pa (max r.len 1)
  match r.asker with
  | some who => if who = nobody then s.dropRequest r.tag
      else s.modRequest r.tag fun r => { r with answer := some (code, data) }
  | none => (s.dropRequest r.tag).modOpOf r.core r.flight fun f =>
      if code = 0 then f.take r data else { f with errs := f.errs ++ [(r.part, code)] }

/-- Whether a request to the line of `pa` on another port is not answered yet (R452). -/
def State.lineHeld (s : State) (pa p : Nat) : Bool :=
  s.fabric.requests.any fun r => !r.host && r.answer.isNone && r.pa / 256 == pa / 256 && r.port.isSome && r.port != some p

/-- The message of a request (R450). -/
def State.messageOf (s : State) (r : Request) : Message where
  op := r.op
  src := s.node
  dst := paNode r.pa
  tag := r.tag
  len := r.len
  sub := r.sub
  status := 0
  aop := r.aop
  pa := r.pa
  data := r.data

/-- The number that stands for the host link among the ports of requests. -/
def hostPort : Nat := 64

/-- Whether a request that no operation of a lane has room for already finds room: 2,048 of a core (R6) and 768 to the host
(R444) may be outstanding. -/
def State.roomFor (s : State) (r : Request) : Bool :=
  let lane := ((s.core r.core).op r.flight).any fun f => f.kind.locs != []
  (r.core == belvedere || lane || s.outstanding r.core < 2048) &&
    (!r.host || (s.fabric.requests.filter fun q => q.host && q.port.isSome && q.answer.isNone).length < 768)

/-- A request that has not gone out yet does, if there is room and its line allows it; with no usable port it reports
remote-error at once, not having been performed (R452). While the host link is down an access to the host range reports
remote-error (R445). -/
def State.tryRequest (s : State) (r : Request) : State :=
  if r.host then
    if !s.host.up then s.answered r 2 []
    else if s.roomFor r then s.modRequest r.tag fun r => { r with port := some hostPort, sent := s.clk } else s
  else match s.portFor (paNode r.pa) r.pa with
    | none => s.answered r 2 []
    | some p =>
      if s.lineHeld r.pa p ∨ !s.roomFor r then s
      else (s.post p (s.messageOf r)).modRequest r.tag fun r => { r with port := some p, sent := s.clk }

/-- Requests that were held back look again (R452); a barrier arrival is kept and sent by itself (R455). -/
def State.retryRequests (s : State) : State :=
  s.fabric.requests.foldl (fun s r => if r.port.isSome ∨ r.answer.isSome ∨ r.op = 6 then s else s.tryRequest r) s

/-- A request of an operation enters the table and goes out: `laid` is what the core's own stores lay over a read, and
`strict` says that a write carries Relaxed Ordering clear (R445). -/
def State.request (s : State) (k id part pa : Nat) (host : Bool) (laid : List (Nat × List Byte)) (strict : Bool)
    (w : Want1) : State :=
  let r : Request := {
    tag := s.fabric.newTag, core := k, flight := id, part := part, host := host, op := w.op, sub := w.sub,
    aop := w.aop, pa := pa, len := w.len, data := w.data, sent := s.clk, port := none, asker := none, answer := none,
    laid := laid, space := 0, relaxed := !strict }
  (s.addRequest r).tryRequest r

/-! ## The accesses of lanes leave the package (R72, R267, R420) -/

/-- A part whose value has been read already asks for nothing. -/
def Flight.known (f : Flight) (pa n : Nat) : Bool := f.got.any fun g => g.1 ≤ pa && pa + n ≤ g.1 + g.2.length

/-- The parts of an operation leave the package; a read takes with it the core's own stores that have not left (R60, R72). -/
def State.sendParts (s : State) (k : Nat) (f : Flight) : State :=
  let s := f.kind.parts.zipIdx.foldl (fun s p => match s.beyond p.1.1 with
    | some host => p.1.2.foldl (fun s c =>
        if c.2.op = 1 ∧ f.known c.1 c.2.len then s
        else s.request k f.id p.2 c.1 host (if c.2.op = 1 then (s.core k).unsentStores f.id c.1 c.2.len else []) f.strict c.2) s
    | none => s) s
  s.modCore k (·.modOp f.id fun g => { g with sent := f.kind.width })

/-- Whether an operation has its turn in its word: on SC pages the lanes of a word are performed one after another (R71, R267), and
the writes of a term word in their order (R325). -/
def Core.scTurn (c : Core) (f : Flight) : Bool :=
  let inOrder := fun (e : Flight) => e.sc || e.ordered
  !inOrder f || !c.flight.any fun e => e.id < f.id && e.word == f.word && inOrder e && !e.performed

/-- Whether an operation's accesses may leave the package: it is not held, no earlier access of the core to the same bytes that
it does not take with it is still to leave, and the lanes of its word before it have had their turn (R60, R72, R267). -/
def State.maySend (s : State) (k : Nat) (f : Flight) : Bool :=
  let c := s.core k
  f.unsent && f.held.isNone && c.scTurn f && !(c.flight.any fun e => e.id < f.id && e.unsent && e.kind.meets f.kind &&
    !(f.kind.loads && e.kind.stores && !(e.sc && f.sc)))

/-- The accesses of a core that may leave the package do so, in the order of their issue. -/
def State.sendRequests (s : State) (k : Nat) : State :=
  (s.core k).flight.foldl (fun s f => match (s.core k).op f.id with
    | some f => if s.maySend k f then s.sendParts k f else s
    | none => s) s

/-- HOLD_RELEASE (R360, R72): the delay of a held write is over. -/
def execHoldRelease (k id : Nat) (s : State) : Result :=
  .next (match (s.core k).op id with
    | none => s
    | some f => match f.held with
      | none => s
      | some t => if s.clk < t then s
          else (s.modCore k (·.modOp id fun f => { f with held := none })).sendRequests k)

/-! ## The host's part (R274, R445) -/

/-- The runs of bytes that a mask selects, from byte `i` on: where each begins, and its bytes. -/
def maskRuns (mask : Nat) : Nat → List Byte → List (Nat × List Byte)
  | _, [] => []
  | i, b :: bs =>
    let rs := maskRuns mask (i + 1) bs
    if !bit mask i then rs
    else match rs with
      | [] => [(i, [b])]
      | r :: rest => if r.1 = i + 1 then (i, b :: r.2) :: rest else (i, [b]) :: r :: rest

/-- The bytes that a mask selects are written, unless they leave a part of an uncorrectable ECC word: then nothing is (R436). The
answer says whether the write failed. -/
def State.storeMasked (s : State) (pa : Nat) (mask : Nat) (data : List Byte) : State × Bool :=
  let within := fun w => (List.range 32).filter fun i => pa ≤ w + i && w + i < pa + data.length && bit mask (w + i - pa)
  if s.bad.any fun w => within w != [] && (within w).length != 32 then (s, true)
  else ((maskRuns mask 0 data).foldl (fun s r => s.performWrite (pa + r.1) r.2) s, false)

/-- The byte mask in front of a masked write's data, and the data. -/
def maskedData (len : Nat) (data : List Byte) : Nat × List Byte :=
  let n := (len + 7) / 8
  (leNat (data.take n), data.drop n)

/-- A request performed in the host's memory: the state, the code and the data of the answer. An atomic goes as an
AtomicOp: FetchAdd, Swap or CAS (R274). -/
def State.hostEffect (s : State) (r : Request) : State × Nat × List Byte :=
  match r.op with
  | 1 => (s, 0, s.readPa r.pa r.len)
  | 2 => ((s.storePa r.pa r.data).1, 0, [])
  | 3 =>
    let d := maskedData r.len r.data
    ((s.storeMasked r.pa d.1 d.2).1, 0, [])
  | _ => match Rmw.ofMessage r.aop r.sub r.data with
    | none => (s, 2, [])
    | some w =>
      let t := s.performRmw 0 { lane := 0, va := 0, loc := .phys r.pa, global := true } w
      (t.1, t.2.2, leBytes w.span t.2.1)

/-- A request fails with its outcome unknown (R453): a free choice says whether the host performed it; what another package
does is not this machine's to hold. -/
def State.loseRequest (s : State) (r : Request) : State :=
  let done := r.host && Config.pick s.choice % 2 == 0
  let t := { s with choice := s.choice + 1 }
  (if done then (t.hostEffect r).1 else t).answered r 2 []

/-- Whether an operation waits for its pod barrier's root, which R455 governs and DTIMEOUT does not. -/
def FlightKind.arrives (k : FlightKind) : Bool :=
  match k with
  | .arrive _ _ _ _ => true
  | _ => false

/-- What follows answers: requests that were held back go out, and the next parts of the core's accesses. -/
def State.afterAnswer (s : State) (k : Nat) : State := (s.sendRequests k).retryRequests

/-- REMOTE_TIMEOUT (R451): requests of an operation that have gone unanswered for DTIMEOUT. -/
def execRemoteTimeout (k id : Nat) (s : State) : Result :=
  .next (if ((s.core k).op id).elim false (·.kind.arrives) then s
    else (s.fabric.requests.foldl (fun s r =>
      if r.core = k ∧ r.flight = id ∧ r.answer.isNone ∧ r.port.isSome ∧ r.sent + s.dtimeout ≤ s.clk then
        s.loseRequest r else s) s).afterAnswer k)

/-- HOST_COMPLETION (R445): the host has completed an operation's requests; an error status is reported as
remote-error. -/
def execHostCompletion (k id : Nat) (err : Bool) (s : State) : Result :=
  .next ((s.fabric.requests.foldl (fun s r =>
    if r.core = k ∧ r.flight = id ∧ r.host ∧ r.port.isSome ∧ r.answer.isNone then
      if err then s.loseRequest r
      else
        let t := s.hostEffect r
        t.1.answered r t.2.1 t.2.2
    else s) s).afterAnswer k)

/-- The host link goes down: every request to the host reports remote-error (R445); one that had not gone out has not been
performed. -/
def State.loseHost (s : State) : State :=
  s.fabric.requests.foldl (fun s r =>
    if r.host ∧ r.answer.isNone then (if r.port.isSome then s.loseRequest r else s.answered r 2 []) else s) s

/-! ## The accesses of engine operations (R69, R282, R420) -/

/-- What an engine operation reads at a location: the answers of its requests, or the memory of the package. -/
def State.engineRead (s : State) (k : Nat) (f : Flight) (a : Loc) (n : Nat) : List Byte :=
  match a with
  | .spad _ => s.readLoc k a n
  | .phys pa => if (s.beyond a).isNone then s.readPa pa n
      else (chunksOf pa n).flatMap fun c => (f.answer (.phys c.1) c.2).getD (leBytes c.2 0)

/-- The code of an engine operation's access: its requests' errors, or what the package's own memory gives (R161, R282). -/
def State.engineCode (s : State) (f : Flight) (a : Loc) (n : Nat) : Nat :=
  match a with
  | .spad _ => 0
  | .phys pa => if (s.beyond a).isNone then s.homeCode a n
      else f.errs.foldl (fun m e => if pa < e.1 + 128 && e.1 < pa + n then max m e.2 else m) 0

/-- An engine operation asks for the ranges of its sources that lie beyond the package. -/
def State.askReads (s : State) (k : Nat) (f : Flight) (rs : List (Nat × Nat)) : State :=
  ((rs.flatMap fun r => chunksOf r.1 r.2).eraseDups).foldl (fun s c => match s.beyond (.phys c.1) with
    | some host => s.request k f.id c.1 c.1 host [] false (.read c.2)
    | none => s) s

/-- Bytes that an engine operation writes: at their home in the package, or by a request beyond it; the code of the
write, as far as it is known. -/
def State.engineWrite (s : State) (k : Nat) (f : Flight) (a : Loc) (bs : List Byte) : State × Nat :=
  match a with
  | .spad _ => ((s.storeLoc k a bs).1, 0)
  | .phys pa => match s.beyond a with
    | some host => ((chunksOf pa bs.length).foldl (fun s c =>
        s.request k f.id c.1 c.1 host [] false (.write ((bs.drop (c.1 - pa)).take c.2))) s, 0)
    | none =>
      if !backed (paLocal pa) then (s, 2)
      else
        let t := s.storePa pa bs
        if t.2 then (t.1.recordErrors 6 [(a, bs.length)], 1) else (t.1, 0)

/-- An engine operation's progress noted. -/
def State.setStage (s : State) (k id n : Nat) (codes : List Nat) : State :=
  s.modOpOf k id fun f => { f with stage := n, codes := codes }

/-- Whether an operation of a core or of the Belvedere waits for an answer. -/
def State.unanswered (s : State) (k id : Nat) : Bool := s.fabric.requests.any fun r => r.core == k && r.flight == id

/-- An engine operation runs as far as the answers allow: it asks for its sources; with them it writes, and asks for the
writes beyond the package; with those performed it ends. What lies in the package is read at one step and written at the
same step, piece by piece: R59 gives the accesses of one operation no order among themselves (DESIGN CHOICE,
assumption 42). -/
def State.engineRun (s : State) (k id : Nat) (ready : Flight → Bool) (reads : Flight → List (Nat × Nat))
    (write : State → Flight → State × List Nat) (finish : State → Flight → State) : State :=
  let s := match s.opOf k id with
    | none => s
    | some f => if f.stage = 0 ∧ ready f then (s.askReads k f (reads f)).setStage k id 1 [] else s
  let s := match s.opOf k id with
    | none => s
    | some f => if f.stage = 1 ∧ !s.unanswered k id then
        let r := write s f
        r.1.setStage k id 2 r.2 else s
  match s.opOf k id with
  | none => s
  | some f => if f.stage = 2 ∧ !s.unanswered k id then finish s f else s

end Sys2Proof.Machine
end

