-- ==== Sys2Proof/Machine/FenceCopy.lean ====
section
/-! DEFINITION. Fences, copies, context images and `trywait` (R283 to R289). -/

namespace Sys2Proof.Machine

/-! ## Fences (R284) -/

/-- What a fence of a kind leaves for its lanes (R61, R284): a release or full fence of pod scope orders the next write (R445);
an acquire fence holds what comes behind it while loads that it orders have not returned, and otherwise acquires, as does a
full fence. -/
def State.fenced (s : State) (scope kind : Nat) (range : Option (Nat × Nat)) (loads : List Flight) : State :=
  if s.issue.exec = 0 then s
  else
    let s := if kind = 0 then s else s.podRelease scope
    if kind = 1 then s
    else if kind = 2 ∨ loads = [] then s.acquired
    else s.onGrp fun g => { g with
      fences := g.fences ++ [{ pc := s.issue.pc, mask := s.issue.exec, range := range, loads := loads.map (·.id) }] }

/-- What the full fences of a core are ordered by (R65): beyond core scope a full fence waits for every access of its core that
another group may have read from already. -/
def State.fullSettled (s : State) : Bool := s.issue.ahead || !s.cur.flight.any (·.open_)

/-- `fence` (R283, R284). -/
def execFence (_c _u : Bool) (sc : BitVec 3) (k : BitVec 2) (s : State) : Result :=
  let done := k = 0 ∨ s.issue.exec = 0 ∨ (s.settled sc.toNat ∧ (k = 1 ∨ sc.toNat ≤ 2 ∨ s.fullSettled))
  s.checked (k.toNat < 3) (if done then s.fenced sc.toNat k.toNat none s.unreturned else s.wait .pipeBusy)

/-- Whether an operation in flight touches a global byte of a range (R284). -/
def Flight.inRange (f : Flight) (base len : Nat) : Bool :=
  let hit := fun (x : LaneAccess) n => x.global && overlap x.va.toNat n base len
  match f.kind with
  | .load dest ls => ls.any (hit · dest.bytes)
  | .store ls => ls.any fun x => hit x.1 x.2.length
  | .rmw ls _ _ => ls.any fun x => hit x.1 x.2.span
  | _ => false

/-- `fence.rng` (R283, R284): the range is s(a) up to s(a) + s(b), computed exactly. -/
def execFenceRng (_c _u : Bool) (sc : BitVec 3) (k : BitVec 2) (a b : BitVec 7) (s : State) : Result :=
  let base := (s.issue.src.rs a.toNat).toNat
  let len := (s.issue.src.rs b.toNat).toNat
  let far := 2 < sc.toNat
  let own := s.mine.any fun f => (f.mask &&& s.issue.exec) != 0 && f.inRange base len && if far then f.open_ else f.reading
  let others := far && s.cur.flight.any fun f => (f.id < s.grp.seen || k == 2) && f.open_ && f.inRange base len
  s.checked (k.toNat < 3 && a.toNat < 64 && b.toNat < 64)
    (if k = 0 ∨ s.issue.exec = 0 ∨ s.issue.ahead ∨ !(own || others) then
      s.fenced sc.toNat k.toNat (some (base, len)) (s.unreturned.filter (·.inRange base len))
     else s.wait .pipeBusy)

/-! ## Copies (R285 to R287) -/

/-- The physical location of a passed check. -/
def Try.loc (t : Try) : Loc := t.access.loc

/-- `cpy.l` (R285, R286): every executing lane is checked, its source for reading and its destination for writing; if
any fails, none is dispatched. A uniform word copies once, between the addresses of its lowest executing lane (R37). A counter
address that is not a multiple of 16 is misaligned for the word (DESIGN CHOICE, assumption 72). -/
def execCpyL (_c u : Bool) (d : BitVec 6) (z : BitVec 2) (a b : BitVec 6) (f n : Bool) (s : State) : Result :=
  let size := 4 * 2 ^ z.toNat
  let ls := s.doers u
  let src := ls.map fun l => s.tryGlobal .read size l (s.globalVa a.toNat 0 l)
  let dst := ls.map fun l => s.tryGlobal .write size l (s.globalVa b.toNat 0 l)
  let ctr := if n then s.A2 d.toNat (lowest s.issue.exec) else 0
  let mis := if ctr.toNat % 16 ≠ 0 then [misalignedAt s ctr] else []
  let faults := ((src ++ dst ++ mis).filterMap (·.fault))
  let pieces := (src.zip dst).map fun p => (p.1.loc, p.2.loc, size)
  s.checked (z.toNat < 3 && (if n then s.v2Ok d.toNat else s.vOk d.toNat) && s.vOk a.toNat && s.vOk b.toNat)
    (s.after (s.memWait (some f))
      (let t := s.noteMalformed ((src ++ dst).filter (·.malformed)).length
       if s.issue.exec = 0 then s
       else if faults ≠ [] then t.raiseLanes u true faults []
       else t.dispatch (some f) s.issue.exec
         (s.heldUntil (ctrSpan ctr :: dst.map fun x => (false, x.access.va.toNat, size))) false false
         (.copy pieces ls (some d.toNat) ctr none)))

/-- The 16-byte chunks of a tile copy: global address, scratchpad offset before the swizzle (R287). -/
def tileChunks (g pitch so rows rbytes : Nat) : List (Nat × Nat) :=
  (List.range rows).flatMap fun i => (List.range (rbytes / 16)).map fun j =>
    (g + i * pitch + 16 * j, so + i * rbytes + 16 * j)

/-- `cpy.t` (R287): all its causes have word extent. A counter address that is not a multiple of 16 is misaligned (DESIGN CHOICE,
assumption 72). -/
def execCpyT (_c _u : Bool) (d a : BitVec 7) (w : BitVec 3) (out f : Bool) (s : State) : Result :=
  let r := fun i => (s.issue.src.rs (a.toNat + i)).toNat
  let pitch := bits (r 1) 63 32
  let so := bits (r 1) 31 0
  let rows := bits (r 2) 31 16
  let rbytes := bits (r 2) 15 0
  let ok := a.toNat < 64 && a.toNat % 4 == 0 && s.vOk d.toNat && bits (r 2) 63 32 == 0 && 1 ≤ rows && rows ≤ 4096 &&
    16 ≤ rbytes && rbytes ≤ 4096 && rbytes % 16 == 0
  let mis := [r 0, pitch, so, r 3].filterMap fun x =>
    if x % 16 ≠ 0 then some (misalignedAt s (BitVec.ofNat 64 (r 0))) else none
  let span := if s.curTeam.spadSize < so + rows * rbytes then
    [Try.fail (lowest s.issue.exec) (BitVec.ofNat 64 so) .permission false] else []
  let chunks := tileChunks (r 0) pitch so rows rbytes
  let tries := chunks.map fun c =>
    (s.tryGlobal (if out then .write else .read) 16 (lowest s.issue.exec) (BitVec.ofNat 64 c.1), c.2)
  let pieces := tries.map fun t =>
    let sp := Loc.spad (s.curTeam.spad (swizzle w.toNat t.2))
    if out then (sp, t.1.loc, 16) else (t.1.loc, sp, 16)
  let bad := if mis = [] then span ++ (tries.map (·.1)).filter fun t => t.fault.isSome else mis
  s.checked ok (s.engine f bad
    (s.heldUntil (ctrSpan (BitVec.ofNat 64 (r 3)) :: if out then chunks.map fun c => (false, c.1, 16) else []))
    (.copy pieces [] (some d.toNat) (BitVec.ofNat 64 (r 3)) none))

/-! ## Context images (R288) -/

/-- Whether any register of the group is pending: a load, an atomic or an engine operation still owes it one. -/
def Flight.owes (f : Flight) : Bool :=
  match f.kind with
  | .load _ _ => true
  | .rmw _ d _ => d.isSome
  | .copy _ _ d _ _ => d.isSome
  | .axpy _ _ _ _ _ _ _ => true
  | .red _ _ _ _ _ _ => true
  | .image _ _ _ => true
  | .resLoad _ _ _ _ _ d _ _ _ _ => d.isSome
  | .migrate _ _ _ _ => true
  | .arrive _ _ _ d => d.isSome
  | .store _ => false
  | .pass _ _ _ _ _ _ _ => false
  | .grotto _ _ _ _ _ _ _ _ => false
  | .push _ _ d _ => d.isSome
  | .pops => true
  | .flush => false

/-- The group as its bundle found it, with every active lane past the bundle (R200, R288). -/
def State.imaged (s : State) : Group :=
  let i := s.issue
  let lanes := i.lanes.mapIdx fun l t => t.goto (s.grp.lane l).vpc
  { s.grp with rf := i.src, lanes := lanes, fx := i.fx, fire := i.fire, flags := i.flags }.place
    (i.act &&& ~~~i.unfin &&& ~~~i.moved) fun _ => i.nextPc

/-- Whether a register of the group is pending: an operation in flight owes it, or its latency has not passed (R215). -/
def State.owesAny (s : State) : Bool := s.mine.any Flight.owes || s.grp.late.any (s.clk < ·.2.2)

/-- `stk.ctx` (R288): the image of the group as the bundle reads it, in which every active lane's `vpc` is past the word. -/
def execStkCtx (_c _u : Bool) (d a b : BitVec 7) (s : State) : Result :=
  let va := s.issue.src.rs a.toNat
  let g := s.imaged
  let bytes := g.image s.issue.slot s.curTeam.origin.lseq true
  let r := s.tryRange .write va.toNat bytes.length
  let mis := if va.toNat % 64 ≠ 0 then [misalignedAt s va] else []
  s.checked (a.toNat < 64 && b.toNat < 2 && s.vOk d.toNat)
    (if s.issue.exec ≠ 0 ∧ !s.issue.ahead ∧ s.owesAny then s.wait .registerPending
     else s.engine (b == 1) (if mis = [] then r.2 else mis) (s.heldUntil [(false, va.toNat, bytes.length)])
       (.image r.1 bytes d.toNat))

/-! ## trywait (R289) -/

/-- `trywait` (R289): the predicate at once when the flag reads zero before the bundle (R200) or the count is 0; otherwise the group waits until the
flag reads zero or the clk have passed. -/
def execTrywait (_c _u : Bool) (p : BitVec 3) (f : BitVec 4) (n : BitVec 12) (s : State) : Result :=
  let zero := s.issue.flags.getD f.toNat 0 == 0
  s.checked (f.toNat < 12)
    (if s.issue.exec = 0 then s
     else if zero ∨ n = 0 then s.putP false p.toNat fun _ => zero
     else s.onGrp fun g => { g with
       tryUntil := some (f.toNat, p.toNat, s.issue.exec, s.clk + n.toNat)
       heldPc := s.issue.pc })

end Sys2Proof.Machine
end

