-- ==== Sys2Proof/Machine/Flags.lean ====
section
/-! DEFINITION. Flag computations: the sticky flags of `%fpm` (R236, R237), the float conditions (R241) and classes
(R242). The integer conditions stand with their instructions. -/

namespace Sys2Proof.Machine

/-- Flags that the bundle ORs into `%fpm` after its writes (R237). -/
def State.setFlags (s : State) (f : Nat) : State :=
  { s with issue := { s.issue with fpFlags := s.issue.fpFlags ||| BitVec.ofNat 32 f } }

/-- The flags that any of the lanes sets (R237). -/
def flagsOf (ls : List Nat) (f : Nat → Nat) : Nat := ls.foldl (fun w l => w ||| f l) 0

/-- The rounding mode that a word named "rm" uses (R237). -/
def State.rm (s : State) : Nat := s.issue.src.fpm.toNat % 4

/-- nv: a NaN result from operands that are no NaN (R237). -/
def nvOf (x : Val) (ops : List Val) : Nat := if x.isNan && !ops.any Val.isNan then fNv else 0

/-- dz: a finite non-zero value divided by zero (R237). -/
def dzOf (a b : Val) : Nat := if !a.isNan && !a.isInf && !a.isZero && b.isZero then fDz else 0

/-- A result rounded to a format, with its flags. -/
def Fmt.result (f : Fmt) (rm : Nat) (x : Val) (ops : List Val) : Nat × Nat :=
  let r := f.round rm x
  (r.1, r.2 ||| nvOf x ops)

/-- A float condition (R241): 0 eq, 1 ne, 2 lt, 3 le, 4 gt, 5 ge, 6 un, 7 ord. -/
def fcond (k : Nat) (a b : Val) : Bool :=
  let un := a.isNan || b.isNan
  match k with
  | 0 => !un && a.eq b
  | 1 => un || !a.eq b
  | 2 => !un && a.lt b
  | 3 => !un && !b.lt a
  | 4 => !un && b.lt a
  | 5 => !un && !a.lt b
  | 6 => un
  | _ => !un

/-- The class mask of an f32 pattern (R242). -/
def classOf (a : Word) : Word :=
  let neg := a.msb
  match decF a with
  | .nan => if a.getLsbD 22 then 512 else 256
  | .inf _ => if neg then 1 else 128
  | .num _ m _ =>
    if m = 0 then (if neg then 8 else 16)
    else if a.toNat / 2 ^ 23 % 256 = 0 then (if neg then 4 else 32)
    else if neg then 2 else 64

/-- The smaller (or larger) of two patterns (R240): −0 below +0, a lone NaN gives the other operand, two the canonical
NaN. -/
def Fmt.minMax (f : Fmt) (max : Bool) (a b : Nat) : Nat :=
  let x := f.dec a
  let y := f.dec b
  if x.isNan then (if y.isNan then f.pattern false f.nanCode else b)
  else if y.isNan then a
  else
    let less := x.lt y || (x.isZero && y.isZero && x.neg && !y.neg)
    if max then (if less then b else a)
    else if y.lt x || (x.isZero && y.isZero && y.neg && !x.neg) then b else a

/-- vD written with a result and its flags in every executing lane. -/
def State.putF (s : State) (u : Bool) (d : Nat) (f : Nat → Word × Nat) : State :=
  (s.putV u d fun l => (f l).1).setFlags (flagsOf (s.doers u) fun l => (f l).2)

/-- A pair vD:vD+1 written with a result and its flags in every executing lane. -/
def State.putF2 (s : State) (u : Bool) (d : Nat) (f : Nat → DWord × Nat) : State :=
  (s.putV2 u d fun l => (f l).1).setFlags (flagsOf (s.doers u) fun l => (f l).2)

end Sys2Proof.Machine
end

