-- ==== Sys2Proof/Machine/Control.lean ====
section
/-! DEFINITION. Branches, calls, exit, votes and special registers (R227 to R235, R109, R113, R129, R21). -/

namespace Sys2Proof.Machine

/-! ## Branches (R228): the executing lanes that are taken stand at their targets when the bundle completes -/

/-- The lanes of `m` take their targets; a word by which lanes exit is the group's exit PC (R32, R169). -/
def State.branch (s : State) (u : Bool) (m : Word) (t : Nat → Word) : State :=
  let exits := (lanesOf m).any fun l => t (s.from u l) == 0xFFFFFFFF
  let s := s.onGrp fun g => { g.place m fun l => t (s.from u l) with heldPc := if exits then s.issue.pc else g.heldPc }
  { s with issue := { s.issue with moved := s.issue.moved ||| m } }

/-- `bra` (R228). -/
def execBra (_c u : Bool) (p : BitVec 3) (sense : Bool) (o : BitVec 18) (s : State) : Result :=
  let taken := s.issue.exec &&& maskOf fun l => s.issue.src.rp p.toNat (s.from u l) == !sense
  .next (s.branch u taken fun _ => s.issue.pc + o.signExtend 32)

/-- `jmp` (R228). -/
def execJmp (_c u : Bool) (imm : BitVec 22) (s : State) : Result :=
  .next (s.branch u s.issue.exec fun _ => s.issue.pc + imm.signExtend 32)

/-- `call` (R228): v0 takes the word address after the bundle and its literals. -/
def execCall (_c u : Bool) (imm : BitVec 22) (s : State) : Result :=
  s.checked (s.vOk 0)
    ((s.putV u 0 fun _ => s.issue.nextPc).branch u s.issue.exec fun _ => s.issue.pc + imm.signExtend 32)

/-- `ret` (R228). -/
def execRet (_c u : Bool) (a : BitVec 7) (s : State) : Result :=
  s.checked (s.vOk a.toNat) (s.branch u s.issue.exec fun l => s.A a.toNat l)

/-- `exit` (R228, R230, R32): the executing lanes have exited. -/
def execExit (_c u : Bool) (s : State) : Result :=
  .next (s.branch u s.issue.exec fun _ => 0xFFFFFFFF)

/-- `brx` (R228). -/
def execBrx (_c u : Bool) (a b : BitVec 7) (x : Bool) (s : State) : Result :=
  s.checked (s.vOk a.toNat && s.bOk b.toNat x) (s.branch u s.issue.exec fun l => s.A a.toNat l + s.B b.toNat x l)

/-! ## Votes (R231) -/

/-- `vote` (R231). -/
def execVote (_c _u : Bool) (d : BitVec 7) (f p : BitVec 3) (s : State) : Result :=
  let m := s.ballot p.toNat
  match f.toNat with
  | 0 => s.checked (d.toNat < 8) (s.putP false d.toNat fun _ => m == s.issue.exec)
  | 1 => s.checked (d.toNat < 8) (s.putP false d.toNat fun _ => m != 0)
  | 2 => s.checked (s.vOk d.toNat) (s.putV false d.toNat fun _ => m)
  | 3 => s.checked (s.vOk d.toNat) (s.putV false d.toNat fun _ => BitVec.ofNat 32 (lanesOf m).length)
  | _ => .next (s.raise .illegalOperand)

/-! ## Special registers (R232, R233) -/

/-- Whether m names a register of R233. -/
def srKnown (m : Nat) : Bool := m < 0x1C

/-- Whether the register is 64 bits wide. -/
def srWide (m : Nat) : Bool := [0x0D, 0x0E, 0x10, 0x11, 0x12, 0x13, 0x14, 0x16, 0x18].contains m

/-- Whether the register may be written. -/
def srWritable (m : Nat) : Bool := 0x12 ≤ m && m ≤ 0x19

/-- Whether the register is term state of R113. -/
def srTerm (m : Nat) : Bool := [0x12, 0x13, 0x14, 0x15, 0x16, 0x18].contains m

/-- A lane as the bundle found it (R200). -/
def Issue.lane (i : Issue) (l : Nat) : LaneState := i.lanes.getD l (LaneState.init 0)

/-- The value of a special register in a lane, before the bundle (R21, R129, R200, R233). -/
def State.special (s : State) (m l : Nat) : DWord :=
  let g := s.grp
  let t := s.curTeam
  let k := s.issue.core
  let lane := s.issue.lane l
  match m with
  | 0x00 => BitVec.ofNat 64 l
  | 0x01 => BitVec.ofNat 64 s.issue.slot
  | 0x02 => BitVec.ofNat 64 g.tix
  | 0x03 => BitVec.ofNat 64 (g.role.toNat + t.slots.length * 256)
  | 0x04 => BitVec.ofNat 64 (k % 128)
  | 0x05 => BitVec.ofNat 64 (k % 128 / 4)
  | 0x06 => BitVec.ofNat 64 (k / 128)
  | 0x07 => BitVec.ofNat 64 k
  | 0x08 => s.fabric.fnode.setWidth 64
  | 0x09 => (t.coord.getD 0 0).setWidth 64
  | 0x0A => (t.coord.getD 1 0).setWidth 64
  | 0x0B => (t.coord.getD 2 0).setWidth 64
  | 0x0C => (t.coord.getD 3 0).setWidth 64
  | 0x0D => t.arg
  | 0x0E => t.trec
  | 0x0F => t.origin.lseq.setWidth 64
  | 0x10 => BitVec.ofNat 64 s.clk
  | 0x11 => BitVec.ofNat 64 s.tick
  | 0x12 => lane.hp
  | 0x13 => lane.tp
  | 0x14 => lane.cp
  | 0x15 => lane.vc.setWidth 64
  | 0x16 => lane.bt
  | 0x17 => s.issue.fx.setWidth 64
  | 0x18 => lane.sd
  | 0x19 => s.issue.src.fpm.setWidth 64
  | 0x1A => BitVec.ofNat 64 s.issue.bucket
  | 0x1B => BitVec.ofNat 64 ((s.issue.fire.map fun w => (lanesOf w).length).sum)
  | _ => 0

/-- Whether a search descriptor of an executing lane is still being read for an earlier bundle (R113, R200). -/
def State.searchPending (s : State) : Bool :=
  s.mine.any fun f => f.id < s.issue.first && (f.mask &&& s.issue.exec) != 0 && match f.kind with
    | .load .descriptor _ => true
    | .load .hidden _ => true
    | _ => false

/-- `rdsr` (R232 to R234). -/
def execRdsr (_c u : Bool) (d k : BitVec 7) (m : BitVec 8) (s : State) : Result :=
  let wide := srWide m.toNat
  let ok := srKnown m.toNat && match k.toNat with
    | 0 => if wide then s.v2Ok d.toNat else s.vOk d.toNat
    | 1 => d.toNat < 64
    | _ => false
  if ok && srTerm m.toNat && s.searchPending then .next (s.wait .registerPending)
  else s.checked ok (
    if k = 1 then s.putS d.toNat (s.special m.toNat (lowest s.issue.exec))
    else if wide then s.putV2 u d.toNat fun l => s.special m.toNat l
    else s.putV u d.toNat fun l => (s.special m.toNat l).setWidth 32)

/-- What a lane's write of a per-lane special register fails with (R109, R113, R233). -/
def srFault (m : Nat) (t : LaneState) (w : DWord) : Option Cause :=
  match m with
  | 0x12 | 0x13 | 0x14 => if w.toNat % 8 ≠ 0 then some .misaligned else none
  | 0x16 =>
    let len := bits w.toNat 63 58
    let old := bits t.bt.toNat 63 58
    if 29 ≤ len ∨ bits w.toNat 57 56 ≠ 0 ∨ (old ≠ 0 ∧ len ≠ old) then some .illegalOperand
    else if w.toNat % 8 ≠ 0 then some .misaligned else none
  | 0x18 => if w.toNat % 64 ≠ 0 then some .misaligned else none
  | _ => none

/-- A per-lane special register written. -/
def LaneState.setSpecial (t : LaneState) (m : Nat) (w : DWord) : LaneState :=
  match m with
  | 0x12 => { t with hp := w }
  | 0x13 => { t with tp := w }
  | 0x14 => { t with cp := w }
  | 0x15 => { t with vc := w.setWidth 32 }
  | 0x16 => { t with bt := w }
  | 0x18 => { t with sd := w }
  | _ => t

/-- The value that a `wrsr` writes in a lane: a pair, a register, or a scalar (R232). -/
def State.srSource (s : State) (u : Bool) (k a m l : Nat) : DWord :=
  if k = 1 then s.issue.src.rs a
  else if srWide m then s.A2 a (s.from u l) else (s.A a (s.from u l)).setWidth 64

/-- `wrsr` of `%sd` (R113, R235): lanes that write 0 read nothing; every other lane reads its descriptor with an ordinary
load, and its `%sd` is set with what the descriptor sets. A uniform word makes one load for all its lanes (R37). -/
def State.setSearchDescriptors (s : State) (u : Bool) (val : Nat → DWord) : State :=
  let zero := s.issue.exec &&& maskOf fun l => val l == 0
  let tries := ((s.doers u).filter fun l => val l != 0).map fun l => s.tryGlobal .read 64 l (val l)
  (if tries = [] then s else s.load u 64 false none .descriptor tries).onGrp
    (·.mapLanes zero fun _ t => { t with sd := 0 })

/-- The effect of a legal `wrsr`. -/
def State.writeSpecial (s : State) (u : Bool) (k a m : Nat) : State :=
  let val := s.srSource u k a m
  let first := val (lowest s.issue.exec)
  if s.issue.exec = 0 then s
  else match m with
    | 0x17 => s.onGrp fun g => { g with fx := first.setWidth 32 }
    | 0x19 =>
      if bits first.toNat 31 9 ≠ 0 ∨ bits first.toNat 3 2 ≠ 0 then s.raise .illegalOperand
      else s.onGrp fun g => { g with rf := { g.rf with fpm := first.setWidth 32 } }
    | 0x18 => s.setSearchDescriptors u val
    | _ =>
      let faults := (lanesOf s.issue.exec).filterMap fun l => (srFault m (s.issue.lane l) (val l)).map fun c => (l, c, val l)
      let bad := maskOf fun l => faults.any (·.1 == l)
      (s.raiseLanes u false faults []).onGrp
        (·.mapLanes (s.issue.exec &&& ~~~(if u ∧ faults ≠ [] then s.issue.exec else bad)) fun l t => t.setSpecial m (val l))

/-- `wrsr` (R232 to R235). -/
def execWrsr (_c u : Bool) (k a : BitVec 7) (m : BitVec 8) (s : State) : Result :=
  let ok := srKnown m.toNat && srWritable m.toNat && match k.toNat with
    | 0 => if srWide m.toNat then s.v2Ok a.toNat else s.vOk a.toNat
    | 1 => a.toNat < 64
    | _ => false
  if ok && srTerm m.toNat && s.searchPending then .next (s.wait .registerPending)
  else s.checked ok (s.writeSpecial u k.toNat a.toNat m.toNat)

end Sys2Proof.Machine
end

