-- ==== Sys2Proof/WellFormed.lean ====
section
/-! DEFINITION. Which instructions are well formed: the conditional reserved-field rules of the encoding rows (the
unconditional ones have no place in Instr, since a reserved field is no argument), and for an event that the part it
names exists. Decoding refuses every word whose instruction is not well formed. -/

namespace Sys2Proof

/-- A write at a home names an existing core (R7) or a 54-bit physical address (R420). -/
def HomeWrite.wellFormed : HomeWrite → Bool
  | .pending core _ => decide (core < 384)
  | .outside pa bytes => decide (pa + bytes.length ≤ 2 ^ 54)

/-- The issuer of an engine operation exists (R7). -/
def EngineParty.wellFormed : EngineParty → Bool
  | .core n => decide (n < 384)
  | .belvedere => true

/-- A DMA lies within the 64-bit bus address (R447). -/
def Dma.wellFormed : Dma → Bool
  | .read va len => decide (va + len ≤ 2 ^ 64)
  | .write va bytes => decide (va + bytes.length ≤ 2 ^ 64)

/-- A debug access names an existing place (R168, R19, R44, R293). -/
def DebugAccess.wellFormed : DebugAccess → Bool
  | .readSpad off len => decide (off + len ≤ 786432)
  | .writeSpad off bytes => decide (off + bytes.length ≤ 786432)
  | .readTile t r c => decide (t < 16 ∧ r < 32 ∧ c < 256)
  | .readTag t q c => decide (t < 16 ∧ q < 4 ∧ c < 256)
  | .writeTag t q c _ => decide (t < 16 ∧ q < 4 ∧ c < 256)
  | .writeTile t r c _ => decide (t < 16 ∧ r < 32 ∧ c < 256)
  | .readV sl r l => decide (sl < 32 ∧ r < 128 ∧ l < 32)
  | .writeV sl r l _ => decide (sl < 32 ∧ r < 128 ∧ l < 32)
  | .readGroup sl _ _ => decide (sl < 32)
  | .writeGroup sl _ _ => decide (sl < 32)
  | .setWatch n _ d _ _ _ _ _ => decide (n < 4 ∧ d ≠ 3)
  | .readVpc sl l => decide (sl < 32 ∧ l < 32)
  | .writeVpc sl l _ => decide (sl < 32 ∧ l < 32)

/-- The instruction is well formed (R14, R23, R204, R252, R323, R342). -/
def Instr.wellFormed : Instr → Bool
  | .clause _ a b v x => (v || a == 0) && (x || b == 0)
  | .guard .. => true
  | .nop .. => true
  | .brk .. => true
  | .iadd .. => true
  | .isub .. => true
  | .imul .. => true
  | .imulh .. => true
  | .imad .. => true
  | .iabs .. => true
  | .imin .. => true
  | .imax .. => true
  | .ishl .. => true
  | .ishr .. => true
  | .irot .. => true
  | .and .. => true
  | .or .. => true
  | .xor .. => true
  | .andn .. => true
  | .clz .. => true
  | .popc .. => true
  | .brev .. => true
  | .bfx .. => true
  | .bfi .. => true
  | .icmp .. => true
  | .plog .. => true
  | .movW32 .. => true
  | .movW64 .. => true
  | .movS .. => true
  | .movi .. => true
  | .movhi .. => true
  | .add64 .. => true
  | .sub64 .. => true
  | .mul64 .. => true
  | .shl64 .. => true
  | .shr64 .. => true
  | .cmp64 .. => true
  | .bra .. => true
  | .jmp .. => true
  | .call .. => true
  | .ret .. => true
  | .exit .. => true
  | .brx .. => true
  | .vote .. => true
  | .rdsr .. => true
  | .wrsr .. => true
  | .taskSpawn _ _ l _ _ b x => l || (b == 0 && !x)
  | .taskDone .. => true
  | .ctrAdd .. => true
  | .wqPop .. => true
  | .wqPush .. => true
  | .bar _ _ _ s _ => s != 7
  | .barArrive _ _ _ _ s _ => s != 7
  | .barWait _ _ _ s _ => s != 7
  | .roleGive .. => true
  | .roleClaim .. => true
  | .park .. => true
  | .trap .. => true
  | .sysret .. => true
  | .watch .. => true
  | .clock .. => true
  | .pmark .. => true
  | .hold .. => true
  | .cap .. => true
  | .sleep .. => true
  | .fadd .. => true
  | .fsub .. => true
  | .fmul .. => true
  | .ffma .. => true
  | .fmin .. => true
  | .fmax .. => true
  | .fcmp .. => true
  | .frcp .. => true
  | .frsq .. => true
  | .fsqrt .. => true
  | .fdiv .. => true
  | .fexp2 .. => true
  | .flog2 .. => true
  | .fsin .. => true
  | .fcos .. => true
  | .frnd .. => true
  | .fclass .. => true
  | .fscale .. => true
  | .dadd .. => true
  | .dmul .. => true
  | .dfma .. => true
  | .dminmax .. => true
  | .dcmp .. => true
  | .hadd2 .. => true
  | .hmul2 .. => true
  | .hfma2 .. => true
  | .bfma2 .. => true
  | .cvt .. => true
  | .cvtpk _ _ f m _ _ _ => !(9 ≤ f.toNat && f.toNat ≤ 12) || m == 0
  | .cvtupk .. => true
  | .shfl .. => true
  | .bcast .. => true
  | .lred .. => true
  | .lscan .. => true
  | .cellkey .. => true
  | .fdot2 .. => true
  | .ldg .. => true
  | .stg .. => true
  | .lds .. => true
  | .sts .. => true
  | .ldp .. => true
  | .stp .. => true
  | .ldacq _ _ _ _ s _ => s != 7
  | .strel _ _ _ _ s _ => s != 7
  | .atadd _ _ _ _ s _ _ _ => s != 7
  | .atminmax _ _ _ _ s _ _ _ => s != 7
  | .atlogic _ _ _ _ s _ _ _ => s != 7
  | .atxchg _ _ _ _ s _ _ => s != 7
  | .atcas _ _ _ _ s _ _ => s != 7
  | .bankAdd .. => true
  | .bankFx .. => true
  | .bankFxread .. => true
  | .bankApp .. => true
  | .bankAxpy .. => true
  | .bankRed .. => true
  | .fence _ _ s _ => s != 7
  | .fenceRng _ _ s _ _ _ => s != 7
  | .cpyL .. => true
  | .cpyT .. => true
  | .trywait .. => true
  | .pref .. => true
  | .ldk .. => true
  | .stkCtx .. => true
  | .flushl1 .. => true
  | .mma .. => true
  | .accLd .. => true
  | .accSt .. => true
  | .accStrows .. => true
  | .accZero .. => true
  | .resAlloc .. => true
  | .resLoad .. => true
  | .resPin .. => true
  | .resFree .. => true
  | .resQuery .. => true
  | .resHeat .. => true
  | .resAge .. => true
  | .resMigrate .. => true
  | .mfmt .. => true
  | .fireSet .. => true
  | .budgetRd .. => true
  | .tag .. => true
  | .mkt .. => true
  | .mkvar .. => true
  | .mkstr _ _ m _ b x => m != 1 || (b == 0 && !x)
  | .arg _ _ _ m _ b x => (m != 1 && m != 2) || (b == 0 && !x)
  | .deref .. => true
  | .unifyP .. => true
  | .unifyF .. => true
  | .bind .. => true
  | .choice .. => true
  | .retry .. => true
  | .trust .. => true
  | .fail .. => true
  | .cut .. => true
  | .adopt .. => true
  | .publishOpen .. => true
  | .publishClose .. => true
  | .btld .. => true
  | .faddi .. => true
  | .fmuli .. => true
  | .groupAged core slot => core < 384 && slot < 32
  | .loadDataReturn core _ => core < 384
  | .storeAck core _ => core < 384
  | .homeWrite w => w.wellFormed
  | .holdRelease core _ => core < 384
  | .slotReclaim core slot => core < 384 && slot < 32
  | .taskDoneDecrement core _ => core < 384
  | .readyPushAccept quad => quad < 96
  | .taskStart quad => quad < 96
  | .parkRecheck core _ => core < 384
  | .parkTimeout core slot lane => core < 384 && slot < 32 && lane < 32
  | .wqRefillDone core slot lane => core < 384 && slot < 32 && lane < 32
  | .barrierDelivery core _ => core < 384
  | .sleepEnd core slot => core < 384 && slot < 32
  | .trywaitTimeout core slot => core < 384 && slot < 32
  | .runAheadEnd core slot => core < 384 && slot < 32
  | .faultRecordWrite => true
  | .matrixPassDone core _ => core < 384
  | .grottoRequest core _ => core < 384
  | .grottoResult core _ => core < 384
  | .migrationComplete core _ => core < 384
  | .resLoadProceed core _ => core < 384
  | .resLoadComplete core _ => core < 384
  | .copyComplete p _ => p.wellFormed
  | .bankStreamComplete core _ => core < 384
  | .contextImageComplete core _ => core < 384
  | .saveTeam core _ => core < 384
  | .restoreTeam core => core < 384
  | .teamReturn core => core < 384
  | .returnGroup core _ => core < 384
  | .terminate core _ => core < 384
  | .registerWrite _ off d => off < 0x4000000 && [1, 2, 4, 8].contains d.bytes && off % d.bytes == 0
  | .doorbell _ thread _ => thread < 32
  | .launchBundle thread => thread < 32
  | .waitPacket thread => thread < 32
  | .waitPacketTest thread => thread < 32
  | .waitPacketTimeout thread => thread < 32
  | .unknownCommand thread => thread < 32
  | .subLaunchComplete thread _ sub => thread < 32 && sub < 4
  | .belvedereMismatch => true
  | .issueControlMismatch core sched => core < 384 && sched < 4
  | .mcoffWrite i _ => i < 6
  | .invalidate .. => true
  | .invalidationDone => true
  | .staleMark .. => true
  | .staleMarkDone => true
  | .klockSet .. => true
  | .plimitWrite .. => true
  | .sfaultClear .. => true
  | .telemetryCounterClear core reg _ => core < 384 && reg < 6
  | .attestationRequest .. => true
  | .attestationDone => true
  | .functionLevelReset => true
  | .flrDrainEnd => true
  | .hostLinkDown => true
  | .hostCompletion core _ _ => core ≤ 384
  | .remoteTimeout core _ => core ≤ 384
  | .storageDma d => d.wellFormed
  | .flitReceive port flit => port < 64 && flit.length == 64
  | .portDown port => port < 64
  | .portRetrain port _ => port < 64
  | .fabricRead port => port < 64
  | .fabricWrite port => port < 64
  | .fabricMaskedWrite port => port < 64
  | .fabricAtomic port => port < 64
  | .fabricReply port => port < 64
  | .barrierArrivalMessage port => port < 64
  | .barrierCompletionMessage port => port < 64
  | .podBarrierTimeout num => num < 4
  | .hbmRequest stack r => stack < 24 && r.data.length ≤ 128
  | .activationAlert stack pc bank _ => stack < 24 && pc < 64 && bank < 64
  | .selfRefreshEntry stack chan _ => stack < 24 && chan < 32
  | .scrubPass .. => true
  | .stallSample die => die < 3
  | .powerWindow .. => true
  | .dieOver105 die => die < 3
  | .dieBelow100 die => die < 3
  | .thermalTrip die => die < 3
  | .debugHalt core => core < 384
  | .debugQuiescent core => core < 384
  | .debugAccess core a => core < 384 && a.wellFormed
  | .debugRelease core => core < 384
  | .powerGood t => t.ports.length == 64
  | .packageReset => true
  | .notAnInstruction .. => true
  | .literalLanding => true
  | .instructionFetchFault .. => true
  | .hostLinkUp .. => true
  | .hostAtomicop off => off < 0x4000000
  | .prefetchFill core _ => core < 384
  | .refreshDue stack pc bank _ => stack < 24 && pc < 64 && bank < 64

end Sys2Proof
end

