-- ==== Sys2Proof/Decode.lean ====
section
/-! DEFINITION. Decoding, total on any bytes and refusing by name (R213), and after it the encoder, both from the
encoding rows of the spec. The fields are read from the word as a number by division (R12, R195). -/

namespace Sys2Proof

/-- Why a word is no instruction, as R213 names it. -/
inductive Reject where
  /-- An undefined opcode byte. -/
  | illegalOpcode
  /-- A reserved field that is not zero, or a scope of 7. -/
  | reservedField
  /-- A selector value that no row lists (`mov`, `unify`, `publish`). -/
  | illegalOperand
  /-- Fewer than four bytes. -/
  | truncated
deriving DecidableEq, Repr

/-- The `n`-bit field of the word `w` whose lowest bit has weight `d`. -/
def bf (n w d : Nat) : BitVec n := BitVec.ofNat n (w / d)

/-- The bit of `w` of weight `d`. -/
def bb (w d : Nat) : Bool := w / d % 2 == 1

/-- A row's instruction, refused when the row's reserved fields are not all zero or a conditional reserved field is not
zero (R14, R213). -/
def row (zero : Prop) [Decidable zero] (i : Instr) : Except Reject Instr :=
  if zero then (if i.wellFormed then .ok i else .error .reservedField) else .error .reservedField

/-- Opcode bytes 0 to 15 (R214). -/
def decodeRow0 (op w : Nat) : Except Reject Instr :=
  match op with
  | 0 => row (w / 1073741824 % 4 = 0) (.clause (bf 12 w 1024) (bf 4 w 64) (bf 4 w 4) (bb w 2) (bb w 1))
  | 1 => row (w % 65536 = 0 ∧ w / 1073741824 % 4 = 0) (.guard (bf 3 w 524288) (bb w 262144) (bf 2 w 65536))
  | 2 => row (w % 4194304 = 0 ∧ w / 1073741824 % 2 = 0) (.nop (bb w 2147483648))
  | 3 => row (w / 1073741824 % 4 = 0) (.brk (bf 22 w 1))
  | 4 => row True (.iadd (bb w 2147483648) (bb w 1073741824) (bf 7 w 32768) (bf 7 w 256) (bf 7 w 2) (bb w 1))
  | 5 => row True (.isub (bb w 2147483648) (bb w 1073741824) (bf 7 w 32768) (bf 7 w 256) (bf 7 w 2) (bb w 1))
  | 6 => row True (.imul (bb w 2147483648) (bb w 1073741824) (bf 7 w 32768) (bf 7 w 256) (bf 7 w 2) (bb w 1))
  | 7 => row True (.imulh (bb w 2147483648) (bb w 1073741824) (bb w 2097152) (bf 6 w 32768) (bf 7 w 256) (bf 7 w 2) (bb w 1))
  | 8 => row True (.imad (bb w 2147483648) (bb w 1073741824) (bf 7 w 32768) (bf 7 w 256) (bf 7 w 2) (bb w 1))
  | 9 => row (w % 256 = 0) (.iabs (bb w 2147483648) (bb w 1073741824) (bf 7 w 32768) (bf 7 w 256))
  | 10 => row True (.imin (bb w 2147483648) (bb w 1073741824) (bb w 2097152) (bf 6 w 32768) (bf 7 w 256) (bf 7 w 2) (bb w 1))
  | 11 => row True (.imax (bb w 2147483648) (bb w 1073741824) (bb w 2097152) (bf 6 w 32768) (bf 7 w 256) (bf 7 w 2) (bb w 1))
  | 12 => row True (.ishl (bb w 2147483648) (bb w 1073741824) (bf 7 w 32768) (bf 7 w 256) (bf 7 w 2) (bb w 1))
  | 13 => row True (.ishr (bb w 2147483648) (bb w 1073741824) (bb w 2097152) (bf 6 w 32768) (bf 7 w 256) (bf 7 w 2) (bb w 1))
  | 14 => row True (.irot (bb w 2147483648) (bb w 1073741824) (bf 7 w 32768) (bf 7 w 256) (bf 7 w 2) (bb w 1))
  | 15 => row True (.and (bb w 2147483648) (bb w 1073741824) (bf 7 w 32768) (bf 7 w 256) (bf 7 w 2) (bb w 1))
  | _ => .error .illegalOpcode

/-- Opcode bytes 16 to 31 (R214). -/
def decodeRow1 (op w : Nat) : Except Reject Instr :=
  match op with
  | 0 => row True (.or (bb w 2147483648) (bb w 1073741824) (bf 7 w 32768) (bf 7 w 256) (bf 7 w 2) (bb w 1))
  | 1 => row True (.xor (bb w 2147483648) (bb w 1073741824) (bf 7 w 32768) (bf 7 w 256) (bf 7 w 2) (bb w 1))
  | 2 => row True (.andn (bb w 2147483648) (bb w 1073741824) (bf 7 w 32768) (bf 7 w 256) (bf 7 w 2) (bb w 1))
  | 3 => row (w % 256 = 0) (.clz (bb w 2147483648) (bb w 1073741824) (bf 7 w 32768) (bf 7 w 256))
  | 4 => row (w % 256 = 0) (.popc (bb w 2147483648) (bb w 1073741824) (bf 7 w 32768) (bf 7 w 256))
  | 5 => row (w % 256 = 0) (.brev (bb w 2147483648) (bb w 1073741824) (bf 7 w 32768) (bf 7 w 256))
  | 6 => row True (.bfx (bb w 2147483648) (bb w 1073741824) (bb w 2097152) (bf 6 w 32768) (bf 7 w 256) (bf 7 w 2) (bb w 1))
  | 7 => row True (.bfi (bb w 2147483648) (bb w 1073741824) (bf 7 w 32768) (bf 7 w 256) (bf 7 w 2) (bb w 1))
  | 8 => row True (.icmp (bb w 2147483648) (bb w 1073741824) (bf 4 w 262144) (bf 3 w 32768) (bf 7 w 256) (bf 7 w 2) (bb w 1))
  | 9 => row (w % 2 = 0 ∧ w / 16 % 16 = 0 ∧ w / 2048 % 16 = 0) (.plog (bb w 2147483648) (bb w 1073741824) (bf 4 w 262144) (bf 3 w 32768) (bf 3 w 256) (bf 3 w 2))
  | 10 => if bf 7 w 256 == 0 then row True (.movW32 (bb w 2147483648) (bb w 1073741824) (bf 7 w 32768) (bf 7 w 2) (bb w 1)) else if bf 7 w 256 == 1 then row True (.movW64 (bb w 2147483648) (bb w 1073741824) (bf 7 w 32768) (bf 7 w 2) (bb w 1)) else if bf 7 w 256 == 2 then row True (.movS (bb w 2147483648) (bb w 1073741824) (bf 7 w 32768) (bf 7 w 2) (bb w 1)) else .error .illegalOperand
  | 11 => row True (.movi (bb w 2147483648) (bb w 1073741824) (bf 7 w 32768) (bf 15 w 1))
  | 12 => row True (.movhi (bb w 2147483648) (bb w 1073741824) (bf 7 w 32768) (bf 15 w 1))
  | 13 => row (w / 2097152 % 2 = 0) (.add64 (bb w 2147483648) (bb w 1073741824) (bf 6 w 32768) (bb w 16384) (bf 6 w 256) (bf 7 w 2) (bb w 1))
  | 14 => row (w / 2097152 % 2 = 0) (.sub64 (bb w 2147483648) (bb w 1073741824) (bf 6 w 32768) (bb w 16384) (bf 6 w 256) (bf 7 w 2) (bb w 1))
  | 15 => row (w / 2097152 % 2 = 0) (.mul64 (bb w 2147483648) (bb w 1073741824) (bf 6 w 32768) (bb w 16384) (bf 6 w 256) (bf 7 w 2) (bb w 1))
  | _ => .error .illegalOpcode

/-- Opcode bytes 32 to 47 (R214). -/
def decodeRow2 (op w : Nat) : Except Reject Instr :=
  match op with
  | 0 => row (w / 2097152 % 2 = 0) (.shl64 (bb w 2147483648) (bb w 1073741824) (bf 6 w 32768) (bb w 16384) (bf 6 w 256) (bf 7 w 2) (bb w 1))
  | 1 => row True (.shr64 (bb w 2147483648) (bb w 1073741824) (bb w 2097152) (bf 6 w 32768) (bb w 16384) (bf 6 w 256) (bf 7 w 2) (bb w 1))
  | 2 => row True (.cmp64 (bb w 2147483648) (bb w 1073741824) (bf 4 w 262144) (bf 3 w 32768) (bb w 16384) (bf 6 w 256) (bf 7 w 2) (bb w 1))
  | 3 => row True (.bra (bb w 2147483648) (bb w 1073741824) (bf 3 w 524288) (bb w 262144) (bf 18 w 1))
  | 4 => row True (.jmp (bb w 2147483648) (bb w 1073741824) (bf 22 w 1))
  | 5 => row True (.call (bb w 2147483648) (bb w 1073741824) (bf 22 w 1))
  | 6 => row (w % 256 = 0 ∧ w / 32768 % 128 = 0) (.ret (bb w 2147483648) (bb w 1073741824) (bf 7 w 256))
  | 7 => row (w % 4194304 = 0) (.exit (bb w 2147483648) (bb w 1073741824))
  | 8 => row (w / 32768 % 128 = 0) (.brx (bb w 2147483648) (bb w 1073741824) (bf 7 w 256) (bf 7 w 2) (bb w 1))
  | 9 => row (w % 256 = 0 ∧ w / 2048 % 2 = 0) (.vote (bb w 2147483648) (bb w 1073741824) (bf 7 w 32768) (bf 3 w 4096) (bf 3 w 256))
  | 10 => row True (.rdsr (bb w 2147483648) (bb w 1073741824) (bf 7 w 32768) (bf 7 w 256) (bf 8 w 1))
  | 11 => row True (.wrsr (bb w 2147483648) (bb w 1073741824) (bf 7 w 32768) (bf 7 w 256) (bf 8 w 1))
  | 12 => row (w / 65536 % 32 = 0) (.taskSpawn (bb w 2147483648) (bb w 1073741824) (bb w 2097152) (bb w 32768) (bf 7 w 256) (bf 7 w 2) (bb w 1))
  | 13 => row (w % 4194304 = 0 ∧ w / 1073741824 % 2 = 0) (.taskDone (bb w 2147483648))
  | 14 => row True (.ctrAdd (bb w 2147483648) (bb w 1073741824) (bf 7 w 32768) (bf 7 w 256) (bf 7 w 2) (bb w 1))
  | 15 => row (w % 2 = 0 ∧ w / 4 % 64 = 0) (.wqPop (bb w 2147483648) (bb w 1073741824) (bf 7 w 32768) (bf 7 w 256) (bb w 2))
  | _ => .error .illegalOpcode

/-- Opcode bytes 48 to 63 (R214). -/
def decodeRow3 (op w : Nat) : Except Reject Instr :=
  match op with
  | 0 => row True (.wqPush (bb w 2147483648) (bb w 1073741824) (bf 7 w 32768) (bf 7 w 256) (bf 7 w 2) (bb w 1))
  | 1 => row (w % 2 = 0 ∧ w / 32768 % 128 = 0) (.bar (bb w 2147483648) (bb w 1073741824) (bf 7 w 256) (bf 3 w 32) (bf 4 w 2))
  | 2 => row (w % 2 = 0) (.barArrive (bb w 2147483648) (bb w 1073741824) (bf 7 w 32768) (bf 7 w 256) (bf 3 w 32) (bf 4 w 2))
  | 3 => row (w % 2 = 0 ∧ w / 32768 % 128 = 0) (.barWait (bb w 2147483648) (bb w 1073741824) (bf 7 w 256) (bf 3 w 32) (bf 4 w 2))
  | 4 => row (w / 32768 % 128 = 0) (.roleGive (bb w 2147483648) (bb w 1073741824) (bf 15 w 1))
  | 5 => row (w / 32768 % 128 = 0) (.roleClaim (bb w 2147483648) (bb w 1073741824) (bf 15 w 1))
  | 6 => row True (.park (bb w 2147483648) (bb w 1073741824) (bf 7 w 32768) (bf 7 w 256) (bf 7 w 2) (bb w 1))
  | 7 => row (w / 1073741824 % 4 = 0) (.trap (bf 22 w 1))
  | 8 => row (w / 128 % 8192 = 0 ∧ w / 1073741824 % 2 = 0) (.sysret (bb w 2147483648) (bf 2 w 1048576) (bf 7 w 1))
  | 9 => row (w % 256 = 0 ∧ w / 32768 % 2 = 0) (.watch (bb w 2147483648) (bb w 1073741824) (bf 2 w 1048576) (bf 2 w 262144) (bf 2 w 65536) (bf 7 w 256))
  | 10 => row (w / 4 % 8192 = 0) (.clock (bb w 2147483648) (bb w 1073741824) (bf 7 w 32768) (bb w 2) (bb w 1))
  | 11 => row (w / 1073741824 % 2 = 0) (.pmark (bb w 2147483648) (bf 22 w 1))
  | 12 => row (w % 256 = 0) (.hold (bb w 2147483648) (bb w 1073741824) (bf 7 w 32768) (bf 7 w 256))
  | 13 => row (w / 256 % 128 = 0) (.cap (bb w 2147483648) (bb w 1073741824) (bf 7 w 32768) (bf 7 w 2) (bb w 1))
  | 14 => row (w / 32768 % 128 = 0) (.sleep (bb w 2147483648) (bb w 1073741824) (bf 15 w 1))
  | _ => .error .illegalOpcode

/-- Opcode bytes 64 to 79 (R214). -/
def decodeRow4 (op w : Nat) : Except Reject Instr :=
  match op with
  | 0 => row True (.fadd (bb w 2147483648) (bb w 1073741824) (bf 7 w 32768) (bf 7 w 256) (bf 7 w 2) (bb w 1))
  | 1 => row True (.fsub (bb w 2147483648) (bb w 1073741824) (bf 7 w 32768) (bf 7 w 256) (bf 7 w 2) (bb w 1))
  | 2 => row True (.fmul (bb w 2147483648) (bb w 1073741824) (bf 7 w 32768) (bf 7 w 256) (bf 7 w 2) (bb w 1))
  | 3 => row True (.ffma (bb w 2147483648) (bb w 1073741824) (bf 7 w 32768) (bf 7 w 256) (bf 7 w 2) (bb w 1))
  | 4 => row True (.fmin (bb w 2147483648) (bb w 1073741824) (bf 7 w 32768) (bf 7 w 256) (bf 7 w 2) (bb w 1))
  | 5 => row True (.fmax (bb w 2147483648) (bb w 1073741824) (bf 7 w 32768) (bf 7 w 256) (bf 7 w 2) (bb w 1))
  | 6 => row True (.fcmp (bb w 2147483648) (bb w 1073741824) (bf 4 w 262144) (bf 3 w 32768) (bf 7 w 256) (bf 7 w 2) (bb w 1))
  | 7 => row (w % 256 = 0) (.frcp (bb w 2147483648) (bb w 1073741824) (bf 7 w 32768) (bf 7 w 256))
  | 8 => row (w % 256 = 0) (.frsq (bb w 2147483648) (bb w 1073741824) (bf 7 w 32768) (bf 7 w 256))
  | 9 => row (w % 256 = 0) (.fsqrt (bb w 2147483648) (bb w 1073741824) (bf 7 w 32768) (bf 7 w 256))
  | 10 => row True (.fdiv (bb w 2147483648) (bb w 1073741824) (bf 7 w 32768) (bf 7 w 256) (bf 7 w 2) (bb w 1))
  | 11 => row (w % 256 = 0) (.fexp2 (bb w 2147483648) (bb w 1073741824) (bf 7 w 32768) (bf 7 w 256))
  | 12 => row (w % 256 = 0) (.flog2 (bb w 2147483648) (bb w 1073741824) (bf 7 w 32768) (bf 7 w 256))
  | 13 => row (w % 256 = 0) (.fsin (bb w 2147483648) (bb w 1073741824) (bf 7 w 32768) (bf 7 w 256))
  | 14 => row (w % 256 = 0) (.fcos (bb w 2147483648) (bb w 1073741824) (bf 7 w 32768) (bf 7 w 256))
  | 15 => row (w % 2 = 0 ∧ w / 16 % 16 = 0) (.frnd (bb w 2147483648) (bb w 1073741824) (bf 7 w 32768) (bf 7 w 256) (bf 3 w 2))
  | _ => .error .illegalOpcode

/-- Opcode bytes 80 to 95 (R214). -/
def decodeRow5 (op w : Nat) : Except Reject Instr :=
  match op with
  | 0 => row (w % 256 = 0) (.fclass (bb w 2147483648) (bb w 1073741824) (bf 7 w 32768) (bf 7 w 256))
  | 1 => row True (.fscale (bb w 2147483648) (bb w 1073741824) (bf 7 w 32768) (bf 7 w 256) (bf 7 w 2) (bb w 1))
  | 2 => row True (.dadd (bb w 2147483648) (bb w 1073741824) (bb w 2097152) (bf 6 w 32768) (bf 7 w 256) (bf 7 w 2) (bb w 1))
  | 3 => row (w / 2097152 % 2 = 0) (.dmul (bb w 2147483648) (bb w 1073741824) (bf 6 w 32768) (bf 7 w 256) (bf 7 w 2) (bb w 1))
  | 4 => row (w / 2097152 % 2 = 0) (.dfma (bb w 2147483648) (bb w 1073741824) (bf 6 w 32768) (bf 7 w 256) (bf 7 w 2) (bb w 1))
  | 5 => row True (.dminmax (bb w 2147483648) (bb w 1073741824) (bb w 2097152) (bf 6 w 32768) (bf 7 w 256) (bf 7 w 2) (bb w 1))
  | 6 => row True (.dcmp (bb w 2147483648) (bb w 1073741824) (bf 4 w 262144) (bf 3 w 32768) (bf 7 w 256) (bf 7 w 2) (bb w 1))
  | 7 => row True (.hadd2 (bb w 2147483648) (bb w 1073741824) (bf 7 w 32768) (bf 7 w 256) (bf 7 w 2) (bb w 1))
  | 8 => row True (.hmul2 (bb w 2147483648) (bb w 1073741824) (bf 7 w 32768) (bf 7 w 256) (bf 7 w 2) (bb w 1))
  | 9 => row True (.hfma2 (bb w 2147483648) (bb w 1073741824) (bf 7 w 32768) (bf 7 w 256) (bf 7 w 2) (bb w 1))
  | 10 => row True (.bfma2 (bb w 2147483648) (bb w 1073741824) (bf 7 w 32768) (bf 7 w 256) (bf 7 w 2) (bb w 1))
  | 11 => row True (.cvt (bb w 2147483648) (bb w 1073741824) (bf 4 w 262144) (bf 4 w 16384) (bf 2 w 4096) (bf 6 w 64) (bf 6 w 1))
  | 12 => row True (.cvtpk (bb w 2147483648) (bb w 1073741824) (bf 5 w 131072) (bf 2 w 32768) (bf 7 w 256) (bf 7 w 2) (bb w 1))
  | 13 => row (w / 32768 % 4 = 0) (.cvtupk (bb w 2147483648) (bb w 1073741824) (bf 5 w 131072) (bf 7 w 256) (bf 7 w 2) (bb w 1))
  | 14 => row True (.shfl (bb w 2147483648) (bb w 1073741824) (bf 7 w 32768) (bf 7 w 256) (bf 7 w 2) (bb w 1))
  | 15 => row (w % 2 = 0 ∧ w / 16 % 16 = 0) (.bcast (bb w 2147483648) (bb w 1073741824) (bf 7 w 32768) (bf 7 w 256) (bf 3 w 2))
  | _ => .error .illegalOpcode

/-- Opcode bytes 96 to 111 (R214). -/
def decodeRow6 (op w : Nat) : Except Reject Instr :=
  match op with
  | 0 => row (w % 16 = 0) (.lred (bb w 2147483648) (bb w 1073741824) (bf 7 w 32768) (bf 7 w 256) (bf 4 w 16))
  | 1 => row (w % 8 = 0) (.lscan (bb w 2147483648) (bb w 1073741824) (bf 7 w 32768) (bf 7 w 256) (bf 4 w 16) (bb w 8))
  | 2 => row True (.cellkey (bb w 2147483648) (bb w 1073741824) (bf 7 w 32768) (bf 7 w 256) (bf 7 w 2) (bb w 1))
  | 3 => row True (.fdot2 (bb w 2147483648) (bb w 1073741824) (bb w 2097152) (bf 6 w 32768) (bf 7 w 256) (bf 7 w 2) (bb w 1))
  | _ => .error .illegalOpcode

/-- Opcode bytes 128 to 143 (R214). -/
def decodeRow8 (op w : Nat) : Except Reject Instr :=
  match op with
  | 0 => row True (.ldg (bb w 2147483648) (bb w 1073741824) (bf 7 w 32768) (bf 7 w 256) (bf 3 w 32) (bf 5 w 1))
  | 1 => row True (.stg (bb w 2147483648) (bb w 1073741824) (bf 7 w 32768) (bf 7 w 256) (bf 3 w 32) (bf 5 w 1))
  | 2 => row True (.lds (bb w 2147483648) (bb w 1073741824) (bf 7 w 32768) (bf 7 w 256) (bf 3 w 32) (bf 3 w 4) (bf 2 w 1))
  | 3 => row True (.sts (bb w 2147483648) (bb w 1073741824) (bf 7 w 32768) (bf 7 w 256) (bf 3 w 32) (bf 3 w 4) (bf 2 w 1))
  | 4 => row True (.ldp (bb w 2147483648) (bb w 1073741824) (bf 7 w 32768) (bf 7 w 256) (bf 3 w 32) (bf 5 w 1))
  | 5 => row True (.stp (bb w 2147483648) (bb w 1073741824) (bf 7 w 32768) (bf 7 w 256) (bf 3 w 32) (bf 5 w 1))
  | 6 => row (w % 4 = 0) (.ldacq (bb w 2147483648) (bb w 1073741824) (bf 7 w 32768) (bf 7 w 256) (bf 3 w 32) (bf 3 w 4))
  | 7 => row (w % 4 = 0) (.strel (bb w 2147483648) (bb w 1073741824) (bf 7 w 32768) (bf 7 w 256) (bf 3 w 32) (bf 3 w 4))
  | 8 => row True (.atadd (bb w 2147483648) (bb w 1073741824) (bf 7 w 32768) (bf 7 w 256) (bf 3 w 32) (bf 2 w 8) (bb w 4) (bf 2 w 1))
  | 9 => row True (.atminmax (bb w 2147483648) (bb w 1073741824) (bf 7 w 32768) (bf 7 w 256) (bf 3 w 32) (bf 2 w 8) (bb w 4) (bf 2 w 1))
  | 10 => row True (.atlogic (bb w 2147483648) (bb w 1073741824) (bf 7 w 32768) (bf 7 w 256) (bf 3 w 32) (bf 2 w 8) (bb w 4) (bf 2 w 1))
  | 11 => row (w % 4 = 0) (.atxchg (bb w 2147483648) (bb w 1073741824) (bf 7 w 32768) (bf 7 w 256) (bf 3 w 32) (bf 2 w 8) (bb w 4))
  | 12 => row (w % 4 = 0) (.atcas (bb w 2147483648) (bb w 1073741824) (bf 7 w 32768) (bf 7 w 256) (bf 3 w 32) (bf 2 w 8) (bb w 4))
  | 13 => row (w / 8 % 32 = 0) (.bankAdd (bb w 2147483648) (bb w 1073741824) (bf 7 w 32768) (bf 7 w 256) (bf 3 w 1))
  | 14 => row (w / 8 % 32 = 0) (.bankFx (bb w 2147483648) (bb w 1073741824) (bf 7 w 32768) (bf 7 w 256) (bf 3 w 1))
  | 15 => row (w / 8 % 32 = 0) (.bankFxread (bb w 2147483648) (bb w 1073741824) (bf 7 w 32768) (bf 7 w 256) (bf 3 w 1))
  | _ => .error .illegalOpcode

/-- Opcode bytes 144 to 159 (R214). -/
def decodeRow9 (op w : Nat) : Except Reject Instr :=
  match op with
  | 0 => row (w / 8 % 32 = 0) (.bankApp (bb w 2147483648) (bb w 1073741824) (bf 7 w 32768) (bf 7 w 256) (bf 3 w 1))
  | 1 => row (w / 8 % 32 = 0) (.bankAxpy (bb w 2147483648) (bb w 1073741824) (bf 7 w 32768) (bf 7 w 256) (bf 2 w 2) (bb w 1))
  | 2 => row (w / 8 % 32 = 0) (.bankRed (bb w 2147483648) (bb w 1073741824) (bf 7 w 32768) (bf 7 w 256) (bf 2 w 2) (bb w 1))
  | 3 => row (w % 8 = 0 ∧ w / 256 % 16384 = 0) (.fence (bb w 2147483648) (bb w 1073741824) (bf 3 w 32) (bf 2 w 8))
  | 4 => row (w % 2 = 0 ∧ w / 32768 % 4 = 0) (.fenceRng (bb w 2147483648) (bb w 1073741824) (bf 3 w 524288) (bf 2 w 131072) (bf 7 w 256) (bf 7 w 2))
  | 5 => row True (.cpyL (bb w 2147483648) (bb w 1073741824) (bf 6 w 65536) (bf 2 w 16384) (bf 6 w 256) (bf 6 w 4) (bb w 2) (bb w 1))
  | 6 => row (w % 8 = 0) (.cpyT (bb w 2147483648) (bb w 1073741824) (bf 7 w 32768) (bf 7 w 256) (bf 3 w 32) (bb w 16) (bb w 8))
  | 7 => row (w / 4096 % 8 = 0) (.trywait (bb w 2147483648) (bb w 1073741824) (bf 3 w 524288) (bf 4 w 32768) (bf 12 w 1))
  | 8 => row (w / 131072 % 32 = 0) (.pref (bb w 2147483648) (bb w 1073741824) (bf 2 w 32768) (bf 7 w 256) (bf 3 w 32) (bf 5 w 1))
  | 9 => row (w % 256 = 0 ∧ w / 32768 % 128 = 0) (.ldk (bb w 2147483648) (bb w 1073741824) (bf 7 w 256))
  | 10 => row (w % 2 = 0) (.stkCtx (bb w 2147483648) (bb w 1073741824) (bf 7 w 32768) (bf 7 w 256) (bf 7 w 2))
  | 11 => row (w % 4194304 = 0) (.flushl1 (bb w 2147483648) (bb w 1073741824))
  | 12 => row (w / 1073741824 % 2 = 0) (.mma (bb w 2147483648) (bf 4 w 262144) (bf 7 w 2048) (bf 6 w 32) (bb w 16) (bb w 8) (bf 3 w 1))
  | 13 => row (w % 2 = 0 ∧ w / 4 % 4 = 0 ∧ w / 32768 % 4 = 0 ∧ w / 1073741824 % 2 = 0) (.accLd (bb w 2147483648) (bf 4 w 262144) (bb w 131072) (bf 7 w 256) (bf 2 w 64) (bf 2 w 16) (bb w 2))
  | 14 => row (w % 2 = 0 ∧ w / 4 % 4 = 0 ∧ w / 32768 % 4 = 0 ∧ w / 1073741824 % 2 = 0) (.accSt (bb w 2147483648) (bf 4 w 262144) (bb w 131072) (bf 7 w 256) (bf 2 w 64) (bf 2 w 16) (bb w 2))
  | 15 => row (w % 2 = 0 ∧ w / 4 % 64 = 0 ∧ w / 32768 % 4 = 0 ∧ w / 1073741824 % 2 = 0) (.accStrows (bb w 2147483648) (bf 4 w 262144) (bb w 131072) (bf 7 w 256) (bb w 2))
  | _ => .error .illegalOpcode

/-- Opcode bytes 160 to 175 (R214). -/
def decodeRow10 (op w : Nat) : Except Reject Instr :=
  match op with
  | 0 => row (w % 131072 = 0 ∧ w / 1073741824 % 2 = 0) (.accZero (bb w 2147483648) (bf 4 w 262144) (bb w 131072))
  | 1 => row (w % 256 = 0) (.resAlloc (bb w 2147483648) (bb w 1073741824) (bf 7 w 32768) (bf 7 w 256))
  | 2 => row (w % 2 = 0 ∧ w / 4 % 64 = 0) (.resLoad (bb w 2147483648) (bb w 1073741824) (bf 7 w 32768) (bf 7 w 256) (bb w 2))
  | 3 => row (w % 2 = 0 ∧ w / 4 % 64 = 0 ∧ w / 32768 % 128 = 0) (.resPin (bb w 2147483648) (bb w 1073741824) (bf 7 w 256) (bb w 2))
  | 4 => row (w % 256 = 0 ∧ w / 32768 % 128 = 0) (.resFree (bb w 2147483648) (bb w 1073741824) (bf 7 w 256))
  | 5 => row (w % 256 = 0) (.resQuery (bb w 2147483648) (bb w 1073741824) (bf 7 w 32768) (bf 7 w 256))
  | 6 => row (w % 2 = 0) (.resHeat (bb w 2147483648) (bb w 1073741824) (bf 7 w 32768) (bf 7 w 256) (bf 7 w 2))
  | 7 => row (w % 256 = 0 ∧ w / 32768 % 128 = 0) (.resAge (bb w 2147483648) (bb w 1073741824) (bf 7 w 256))
  | 8 => row True (.resMigrate (bb w 2147483648) (bb w 1073741824) (bf 7 w 32768) (bf 7 w 256) (bf 7 w 2) (bb w 1))
  | 9 => row (w % 4 = 0) (.mfmt (bb w 2147483648) (bb w 1073741824) (bf 7 w 32768) (bf 5 w 1024) (bf 5 w 32) (bf 2 w 8) (bb w 4))
  | 10 => row (w % 256 = 0 ∧ w / 131072 % 32 = 0) (.fireSet (bb w 2147483648) (bb w 1073741824) (bf 2 w 32768) (bf 7 w 256))
  | 11 => row (w / 256 % 128 = 0) (.budgetRd (bb w 2147483648) (bb w 1073741824) (bf 7 w 32768) (bf 8 w 1))
  | 12 => row (w % 256 = 0 ∧ w / 16384 % 4 = 0) (.tag (bb w 2147483648) (bb w 1073741824) (bf 6 w 65536) (bf 6 w 256))
  | 13 => row (w / 16384 % 4 = 0) (.mkt (bb w 2147483648) (bb w 1073741824) (bf 6 w 65536) (bf 6 w 256) (bf 7 w 2) (bb w 1))
  | 14 => row (w % 65536 = 0 ∧ w / 1073741824 % 2 = 0) (.mkvar (bb w 2147483648) (bf 6 w 65536))
  | 15 => row (w / 1073741824 % 2 = 0) (.mkstr (bb w 2147483648) (bf 6 w 65536) (bf 2 w 16384) (bf 6 w 256) (bf 7 w 2) (bb w 1))
  | _ => .error .illegalOpcode

/-- Opcode bytes 176 to 191 (R214). -/
def decodeRow11 (op w : Nat) : Except Reject Instr :=
  match op with
  | 0 => row True (.arg (bb w 2147483648) (bb w 1073741824) (bf 6 w 65536) (bf 2 w 16384) (bf 6 w 256) (bf 7 w 2) (bb w 1))
  | 1 => row (w % 256 = 0 ∧ w / 16384 % 4 = 0) (.deref (bb w 2147483648) (bb w 1073741824) (bf 6 w 65536) (bf 6 w 256))
  | 2 => if bf 2 w 16384 == 0 then row (w / 65536 % 8 = 0 ∧ w / 1073741824 % 2 = 0) (.unifyP (bb w 2147483648) (bf 3 w 524288) (bf 6 w 256) (bf 7 w 2) (bb w 1)) else if bf 2 w 16384 == 1 then row (w / 65536 % 64 = 0 ∧ w / 1073741824 % 2 = 0) (.unifyF (bb w 2147483648) (bf 6 w 256) (bf 7 w 2) (bb w 1)) else if (w / 65536 % 8 = 0 ∧ w / 1073741824 % 2 = 0) then .error .illegalOperand else .error .reservedField
  | 3 => row (w / 16384 % 256 = 0 ∧ w / 1073741824 % 2 = 0) (.bind (bb w 2147483648) (bf 6 w 256) (bf 7 w 2) (bb w 1))
  | 4 => row (w / 256 % 256 = 0 ∧ w / 1073741824 % 2 = 0) (.choice (bb w 2147483648) (bf 6 w 65536) (bf 7 w 2) (bb w 1))
  | 5 => row (w / 256 % 16384 = 0 ∧ w / 1073741824 % 2 = 0) (.retry (bb w 2147483648) (bf 7 w 2) (bb w 1))
  | 6 => row (w % 4194304 = 0 ∧ w / 1073741824 % 2 = 0) (.trust (bb w 2147483648))
  | 7 => row (w % 4194304 = 0 ∧ w / 1073741824 % 2 = 0) (.fail (bb w 2147483648))
  | 8 => row (w / 256 % 16384 = 0 ∧ w / 1073741824 % 2 = 0) (.cut (bb w 2147483648) (bf 7 w 2) (bb w 1))
  | 9 => row (w % 256 = 0 ∧ w / 16384 % 32 = 0 ∧ w / 1073741824 % 2 = 0) (.adopt (bb w 2147483648) (bf 3 w 524288) (bf 6 w 256))
  | 10 => if bf 2 w 16384 == 1 then row (w / 256 % 64 = 0 ∧ w / 65536 % 64 = 0 ∧ w / 1073741824 % 2 = 0) (.publishOpen (bb w 2147483648) (bf 7 w 2) (bb w 1)) else if bf 2 w 16384 == 0 then row (w / 256 % 64 = 0 ∧ w / 65536 % 64 = 0 ∧ w / 1073741824 % 2 = 0) (.publishClose (bb w 2147483648) (bf 7 w 2) (bb w 1)) else if (w / 256 % 64 = 0 ∧ w / 65536 % 64 = 0 ∧ w / 1073741824 % 2 = 0) then .error .illegalOperand else .error .reservedField
  | 11 => row (w / 2048 % 32 = 0) (.btld (bb w 2147483648) (bb w 1073741824) (bf 6 w 65536) (bf 3 w 256) (bf 7 w 2) (bb w 1))
  | _ => .error .illegalOpcode

/-- The F class (R212). -/
def decodeF (w : Nat) : Except Reject Instr :=
  if bb w 134217728 then row True (.fmuli (bb w 2147483648) (bb w 1073741824) (bf 7 w 1048576) (bf 20 w 1)) else row True (.faddi (bb w 2147483648) (bb w 1073741824) (bf 7 w 1048576) (bf 20 w 1))

/-- The instruction that the 32-bit word `w` encodes (R195, R213, R214). -/
def decodeWord (w : Nat) : Except Reject Instr :=
  if w / 268435456 % 4 = 3 then decodeF w
  else
    match w / 67108864 % 16 with
    | 0 => decodeRow0 (w / 4194304 % 16) w
    | 1 => decodeRow1 (w / 4194304 % 16) w
    | 2 => decodeRow2 (w / 4194304 % 16) w
    | 3 => decodeRow3 (w / 4194304 % 16) w
    | 4 => decodeRow4 (w / 4194304 % 16) w
    | 5 => decodeRow5 (w / 4194304 % 16) w
    | 6 => decodeRow6 (w / 4194304 % 16) w
    | 8 => decodeRow8 (w / 4194304 % 16) w
    | 9 => decodeRow9 (w / 4194304 % 16) w
    | 10 => decodeRow10 (w / 4194304 % 16) w
    | 11 => decodeRow11 (w / 4194304 % 16) w
    | _ => .error .illegalOpcode

/-- The word as a number from its opcode bits and its fields, for every row of the table; `none` for an event, which
has no encoding. -/
def Instr.code : Instr → Option Nat
  | .clause w a b v x => some (0 + w.toNat * 1024 + a.toNat * 64 + b.toNat * 4 + v.toNat * 2 + x.toNat * 1)
  | .guard p s n => some (4194304 + p.toNat * 524288 + s.toNat * 262144 + n.toNat * 65536)
  | .nop c => some (8388608 + c.toNat * 2147483648)
  | .brk k => some (12582912 + k.toNat * 1)
  | .iadd c u d a b x => some (16777216 + c.toNat * 2147483648 + u.toNat * 1073741824 + d.toNat * 32768 + a.toNat * 256 + b.toNat * 2 + x.toNat * 1)
  | .isub c u d a b x => some (20971520 + c.toNat * 2147483648 + u.toNat * 1073741824 + d.toNat * 32768 + a.toNat * 256 + b.toNat * 2 + x.toNat * 1)
  | .imul c u d a b x => some (25165824 + c.toNat * 2147483648 + u.toNat * 1073741824 + d.toNat * 32768 + a.toNat * 256 + b.toNat * 2 + x.toNat * 1)
  | .imulh c u g d a b x => some (29360128 + c.toNat * 2147483648 + u.toNat * 1073741824 + g.toNat * 2097152 + d.toNat * 32768 + a.toNat * 256 + b.toNat * 2 + x.toNat * 1)
  | .imad c u d a b x => some (33554432 + c.toNat * 2147483648 + u.toNat * 1073741824 + d.toNat * 32768 + a.toNat * 256 + b.toNat * 2 + x.toNat * 1)
  | .iabs c u d a => some (37748736 + c.toNat * 2147483648 + u.toNat * 1073741824 + d.toNat * 32768 + a.toNat * 256)
  | .imin c u g d a b x => some (41943040 + c.toNat * 2147483648 + u.toNat * 1073741824 + g.toNat * 2097152 + d.toNat * 32768 + a.toNat * 256 + b.toNat * 2 + x.toNat * 1)
  | .imax c u g d a b x => some (46137344 + c.toNat * 2147483648 + u.toNat * 1073741824 + g.toNat * 2097152 + d.toNat * 32768 + a.toNat * 256 + b.toNat * 2 + x.toNat * 1)
  | .ishl c u d a b x => some (50331648 + c.toNat * 2147483648 + u.toNat * 1073741824 + d.toNat * 32768 + a.toNat * 256 + b.toNat * 2 + x.toNat * 1)
  | .ishr c u g d a b x => some (54525952 + c.toNat * 2147483648 + u.toNat * 1073741824 + g.toNat * 2097152 + d.toNat * 32768 + a.toNat * 256 + b.toNat * 2 + x.toNat * 1)
  | .irot c u d a b x => some (58720256 + c.toNat * 2147483648 + u.toNat * 1073741824 + d.toNat * 32768 + a.toNat * 256 + b.toNat * 2 + x.toNat * 1)
  | .and c u d a b x => some (62914560 + c.toNat * 2147483648 + u.toNat * 1073741824 + d.toNat * 32768 + a.toNat * 256 + b.toNat * 2 + x.toNat * 1)
  | .or c u d a b x => some (67108864 + c.toNat * 2147483648 + u.toNat * 1073741824 + d.toNat * 32768 + a.toNat * 256 + b.toNat * 2 + x.toNat * 1)
  | .xor c u d a b x => some (71303168 + c.toNat * 2147483648 + u.toNat * 1073741824 + d.toNat * 32768 + a.toNat * 256 + b.toNat * 2 + x.toNat * 1)
  | .andn c u d a b x => some (75497472 + c.toNat * 2147483648 + u.toNat * 1073741824 + d.toNat * 32768 + a.toNat * 256 + b.toNat * 2 + x.toNat * 1)
  | .clz c u d a => some (79691776 + c.toNat * 2147483648 + u.toNat * 1073741824 + d.toNat * 32768 + a.toNat * 256)
  | .popc c u d a => some (83886080 + c.toNat * 2147483648 + u.toNat * 1073741824 + d.toNat * 32768 + a.toNat * 256)
  | .brev c u d a => some (88080384 + c.toNat * 2147483648 + u.toNat * 1073741824 + d.toNat * 32768 + a.toNat * 256)
  | .bfx c u g d a b x => some (92274688 + c.toNat * 2147483648 + u.toNat * 1073741824 + g.toNat * 2097152 + d.toNat * 32768 + a.toNat * 256 + b.toNat * 2 + x.toNat * 1)
  | .bfi c u d a b x => some (96468992 + c.toNat * 2147483648 + u.toNat * 1073741824 + d.toNat * 32768 + a.toNat * 256 + b.toNat * 2 + x.toNat * 1)
  | .icmp c u k p a b x => some (100663296 + c.toNat * 2147483648 + u.toNat * 1073741824 + k.toNat * 262144 + p.toNat * 32768 + a.toNat * 256 + b.toNat * 2 + x.toNat * 1)
  | .plog c u l d a b => some (104857600 + c.toNat * 2147483648 + u.toNat * 1073741824 + l.toNat * 262144 + d.toNat * 32768 + a.toNat * 256 + b.toNat * 2)
  | .movW32 c u d b x => some (109051904 + c.toNat * 2147483648 + u.toNat * 1073741824 + d.toNat * 32768 + b.toNat * 2 + x.toNat * 1)
  | .movW64 c u d b x => some (109052160 + c.toNat * 2147483648 + u.toNat * 1073741824 + d.toNat * 32768 + b.toNat * 2 + x.toNat * 1)
  | .movS c u d b x => some (109052416 + c.toNat * 2147483648 + u.toNat * 1073741824 + d.toNat * 32768 + b.toNat * 2 + x.toNat * 1)
  | .movi c u d i => some (113246208 + c.toNat * 2147483648 + u.toNat * 1073741824 + d.toNat * 32768 + i.toNat * 1)
  | .movhi c u d i => some (117440512 + c.toNat * 2147483648 + u.toNat * 1073741824 + d.toNat * 32768 + i.toNat * 1)
  | .add64 c u d k a b x => some (121634816 + c.toNat * 2147483648 + u.toNat * 1073741824 + d.toNat * 32768 + k.toNat * 16384 + a.toNat * 256 + b.toNat * 2 + x.toNat * 1)
  | .sub64 c u d k a b x => some (125829120 + c.toNat * 2147483648 + u.toNat * 1073741824 + d.toNat * 32768 + k.toNat * 16384 + a.toNat * 256 + b.toNat * 2 + x.toNat * 1)
  | .mul64 c u d k a b x => some (130023424 + c.toNat * 2147483648 + u.toNat * 1073741824 + d.toNat * 32768 + k.toNat * 16384 + a.toNat * 256 + b.toNat * 2 + x.toNat * 1)
  | .shl64 c u d k a b x => some (134217728 + c.toNat * 2147483648 + u.toNat * 1073741824 + d.toNat * 32768 + k.toNat * 16384 + a.toNat * 256 + b.toNat * 2 + x.toNat * 1)
  | .shr64 c u g d k a b x => some (138412032 + c.toNat * 2147483648 + u.toNat * 1073741824 + g.toNat * 2097152 + d.toNat * 32768 + k.toNat * 16384 + a.toNat * 256 + b.toNat * 2 + x.toNat * 1)
  | .cmp64 c u n p k a b x => some (142606336 + c.toNat * 2147483648 + u.toNat * 1073741824 + n.toNat * 262144 + p.toNat * 32768 + k.toNat * 16384 + a.toNat * 256 + b.toNat * 2 + x.toNat * 1)
  | .bra c u p s o => some (146800640 + c.toNat * 2147483648 + u.toNat * 1073741824 + p.toNat * 524288 + s.toNat * 262144 + o.toNat * 1)
  | .jmp c u i => some (150994944 + c.toNat * 2147483648 + u.toNat * 1073741824 + i.toNat * 1)
  | .call c u i => some (155189248 + c.toNat * 2147483648 + u.toNat * 1073741824 + i.toNat * 1)
  | .ret c u a => some (159383552 + c.toNat * 2147483648 + u.toNat * 1073741824 + a.toNat * 256)
  | .exit c u => some (163577856 + c.toNat * 2147483648 + u.toNat * 1073741824)
  | .brx c u a b x => some (167772160 + c.toNat * 2147483648 + u.toNat * 1073741824 + a.toNat * 256 + b.toNat * 2 + x.toNat * 1)
  | .vote c u d f p => some (171966464 + c.toNat * 2147483648 + u.toNat * 1073741824 + d.toNat * 32768 + f.toNat * 4096 + p.toNat * 256)
  | .rdsr c u d k m => some (176160768 + c.toNat * 2147483648 + u.toNat * 1073741824 + d.toNat * 32768 + k.toNat * 256 + m.toNat * 1)
  | .wrsr c u k a m => some (180355072 + c.toNat * 2147483648 + u.toNat * 1073741824 + k.toNat * 32768 + a.toNat * 256 + m.toNat * 1)
  | .taskSpawn c u l f a b x => some (184549376 + c.toNat * 2147483648 + u.toNat * 1073741824 + l.toNat * 2097152 + f.toNat * 32768 + a.toNat * 256 + b.toNat * 2 + x.toNat * 1)
  | .taskDone c => some (188743680 + c.toNat * 2147483648)
  | .ctrAdd c u d a b x => some (192937984 + c.toNat * 2147483648 + u.toNat * 1073741824 + d.toNat * 32768 + a.toNat * 256 + b.toNat * 2 + x.toNat * 1)
  | .wqPop c u d a w => some (197132288 + c.toNat * 2147483648 + u.toNat * 1073741824 + d.toNat * 32768 + a.toNat * 256 + w.toNat * 2)
  | .wqPush c u d a b x => some (201326592 + c.toNat * 2147483648 + u.toNat * 1073741824 + d.toNat * 32768 + a.toNat * 256 + b.toNat * 2 + x.toNat * 1)
  | .bar c u a s n => some (205520896 + c.toNat * 2147483648 + u.toNat * 1073741824 + a.toNat * 256 + s.toNat * 32 + n.toNat * 2)
  | .barArrive c u d a s n => some (209715200 + c.toNat * 2147483648 + u.toNat * 1073741824 + d.toNat * 32768 + a.toNat * 256 + s.toNat * 32 + n.toNat * 2)
  | .barWait c u a s n => some (213909504 + c.toNat * 2147483648 + u.toNat * 1073741824 + a.toNat * 256 + s.toNat * 32 + n.toNat * 2)
  | .roleGive c u n => some (218103808 + c.toNat * 2147483648 + u.toNat * 1073741824 + n.toNat * 1)
  | .roleClaim c u n => some (222298112 + c.toNat * 2147483648 + u.toNat * 1073741824 + n.toNat * 1)
  | .park c u d a b x => some (226492416 + c.toNat * 2147483648 + u.toNat * 1073741824 + d.toNat * 32768 + a.toNat * 256 + b.toNat * 2 + x.toNat * 1)
  | .trap k => some (230686720 + k.toNat * 1)
  | .sysret c f a => some (234881024 + c.toNat * 2147483648 + f.toNat * 1048576 + a.toNat * 1)
  | .watch c u n e t a => some (239075328 + c.toNat * 2147483648 + u.toNat * 1073741824 + n.toNat * 1048576 + e.toNat * 262144 + t.toNat * 65536 + a.toNat * 256)
  | .clock c u d s m => some (243269632 + c.toNat * 2147483648 + u.toNat * 1073741824 + d.toNat * 32768 + s.toNat * 2 + m.toNat * 1)
  | .pmark c i => some (247463936 + c.toNat * 2147483648 + i.toNat * 1)
  | .hold c u d a => some (251658240 + c.toNat * 2147483648 + u.toNat * 1073741824 + d.toNat * 32768 + a.toNat * 256)
  | .cap c u d b x => some (255852544 + c.toNat * 2147483648 + u.toNat * 1073741824 + d.toNat * 32768 + b.toNat * 2 + x.toNat * 1)
  | .sleep c u n => some (260046848 + c.toNat * 2147483648 + u.toNat * 1073741824 + n.toNat * 1)
  | .fadd c u d a b x => some (268435456 + c.toNat * 2147483648 + u.toNat * 1073741824 + d.toNat * 32768 + a.toNat * 256 + b.toNat * 2 + x.toNat * 1)
  | .fsub c u d a b x => some (272629760 + c.toNat * 2147483648 + u.toNat * 1073741824 + d.toNat * 32768 + a.toNat * 256 + b.toNat * 2 + x.toNat * 1)
  | .fmul c u d a b x => some (276824064 + c.toNat * 2147483648 + u.toNat * 1073741824 + d.toNat * 32768 + a.toNat * 256 + b.toNat * 2 + x.toNat * 1)
  | .ffma c u d a b x => some (281018368 + c.toNat * 2147483648 + u.toNat * 1073741824 + d.toNat * 32768 + a.toNat * 256 + b.toNat * 2 + x.toNat * 1)
  | .fmin c u d a b x => some (285212672 + c.toNat * 2147483648 + u.toNat * 1073741824 + d.toNat * 32768 + a.toNat * 256 + b.toNat * 2 + x.toNat * 1)
  | .fmax c u d a b x => some (289406976 + c.toNat * 2147483648 + u.toNat * 1073741824 + d.toNat * 32768 + a.toNat * 256 + b.toNat * 2 + x.toNat * 1)
  | .fcmp c u k p a b x => some (293601280 + c.toNat * 2147483648 + u.toNat * 1073741824 + k.toNat * 262144 + p.toNat * 32768 + a.toNat * 256 + b.toNat * 2 + x.toNat * 1)
  | .frcp c u d a => some (297795584 + c.toNat * 2147483648 + u.toNat * 1073741824 + d.toNat * 32768 + a.toNat * 256)
  | .frsq c u d a => some (301989888 + c.toNat * 2147483648 + u.toNat * 1073741824 + d.toNat * 32768 + a.toNat * 256)
  | .fsqrt c u d a => some (306184192 + c.toNat * 2147483648 + u.toNat * 1073741824 + d.toNat * 32768 + a.toNat * 256)
  | .fdiv c u d a b x => some (310378496 + c.toNat * 2147483648 + u.toNat * 1073741824 + d.toNat * 32768 + a.toNat * 256 + b.toNat * 2 + x.toNat * 1)
  | .fexp2 c u d a => some (314572800 + c.toNat * 2147483648 + u.toNat * 1073741824 + d.toNat * 32768 + a.toNat * 256)
  | .flog2 c u d a => some (318767104 + c.toNat * 2147483648 + u.toNat * 1073741824 + d.toNat * 32768 + a.toNat * 256)
  | .fsin c u d a => some (322961408 + c.toNat * 2147483648 + u.toNat * 1073741824 + d.toNat * 32768 + a.toNat * 256)
  | .fcos c u d a => some (327155712 + c.toNat * 2147483648 + u.toNat * 1073741824 + d.toNat * 32768 + a.toNat * 256)
  | .frnd c u d a m => some (331350016 + c.toNat * 2147483648 + u.toNat * 1073741824 + d.toNat * 32768 + a.toNat * 256 + m.toNat * 2)
  | .fclass c u d a => some (335544320 + c.toNat * 2147483648 + u.toNat * 1073741824 + d.toNat * 32768 + a.toNat * 256)
  | .fscale c u d a b x => some (339738624 + c.toNat * 2147483648 + u.toNat * 1073741824 + d.toNat * 32768 + a.toNat * 256 + b.toNat * 2 + x.toNat * 1)
  | .dadd c u f d a b x => some (343932928 + c.toNat * 2147483648 + u.toNat * 1073741824 + f.toNat * 2097152 + d.toNat * 32768 + a.toNat * 256 + b.toNat * 2 + x.toNat * 1)
  | .dmul c u d a b x => some (348127232 + c.toNat * 2147483648 + u.toNat * 1073741824 + d.toNat * 32768 + a.toNat * 256 + b.toNat * 2 + x.toNat * 1)
  | .dfma c u d a b x => some (352321536 + c.toNat * 2147483648 + u.toNat * 1073741824 + d.toNat * 32768 + a.toNat * 256 + b.toNat * 2 + x.toNat * 1)
  | .dminmax c u f d a b x => some (356515840 + c.toNat * 2147483648 + u.toNat * 1073741824 + f.toNat * 2097152 + d.toNat * 32768 + a.toNat * 256 + b.toNat * 2 + x.toNat * 1)
  | .dcmp c u k p a b x => some (360710144 + c.toNat * 2147483648 + u.toNat * 1073741824 + k.toNat * 262144 + p.toNat * 32768 + a.toNat * 256 + b.toNat * 2 + x.toNat * 1)
  | .hadd2 c u d a b x => some (364904448 + c.toNat * 2147483648 + u.toNat * 1073741824 + d.toNat * 32768 + a.toNat * 256 + b.toNat * 2 + x.toNat * 1)
  | .hmul2 c u d a b x => some (369098752 + c.toNat * 2147483648 + u.toNat * 1073741824 + d.toNat * 32768 + a.toNat * 256 + b.toNat * 2 + x.toNat * 1)
  | .hfma2 c u d a b x => some (373293056 + c.toNat * 2147483648 + u.toNat * 1073741824 + d.toNat * 32768 + a.toNat * 256 + b.toNat * 2 + x.toNat * 1)
  | .bfma2 c u d a b x => some (377487360 + c.toNat * 2147483648 + u.toNat * 1073741824 + d.toNat * 32768 + a.toNat * 256 + b.toNat * 2 + x.toNat * 1)
  | .cvt c u t s m d a => some (381681664 + c.toNat * 2147483648 + u.toNat * 1073741824 + t.toNat * 262144 + s.toNat * 16384 + m.toNat * 4096 + d.toNat * 64 + a.toNat * 1)
  | .cvtpk c u f m a b x => some (385875968 + c.toNat * 2147483648 + u.toNat * 1073741824 + f.toNat * 131072 + m.toNat * 32768 + a.toNat * 256 + b.toNat * 2 + x.toNat * 1)
  | .cvtupk c u f a b x => some (390070272 + c.toNat * 2147483648 + u.toNat * 1073741824 + f.toNat * 131072 + a.toNat * 256 + b.toNat * 2 + x.toNat * 1)
  | .shfl c u d a b x => some (394264576 + c.toNat * 2147483648 + u.toNat * 1073741824 + d.toNat * 32768 + a.toNat * 256 + b.toNat * 2 + x.toNat * 1)
  | .bcast c u d a p => some (398458880 + c.toNat * 2147483648 + u.toNat * 1073741824 + d.toNat * 32768 + a.toNat * 256 + p.toNat * 2)
  | .lred c u d a o => some (402653184 + c.toNat * 2147483648 + u.toNat * 1073741824 + d.toNat * 32768 + a.toNat * 256 + o.toNat * 16)
  | .lscan c u d a o e => some (406847488 + c.toNat * 2147483648 + u.toNat * 1073741824 + d.toNat * 32768 + a.toNat * 256 + o.toNat * 16 + e.toNat * 8)
  | .cellkey c u d a b x => some (411041792 + c.toNat * 2147483648 + u.toNat * 1073741824 + d.toNat * 32768 + a.toNat * 256 + b.toNat * 2 + x.toNat * 1)
  | .fdot2 c u t d a b x => some (415236096 + c.toNat * 2147483648 + u.toNat * 1073741824 + t.toNat * 2097152 + d.toNat * 32768 + a.toNat * 256 + b.toNat * 2 + x.toNat * 1)
  | .ldg c u d a s o => some (536870912 + c.toNat * 2147483648 + u.toNat * 1073741824 + d.toNat * 32768 + a.toNat * 256 + s.toNat * 32 + o.toNat * 1)
  | .stg c u d a s o => some (541065216 + c.toNat * 2147483648 + u.toNat * 1073741824 + d.toNat * 32768 + a.toNat * 256 + s.toNat * 32 + o.toNat * 1)
  | .lds c u d a s w o => some (545259520 + c.toNat * 2147483648 + u.toNat * 1073741824 + d.toNat * 32768 + a.toNat * 256 + s.toNat * 32 + w.toNat * 4 + o.toNat * 1)
  | .sts c u d a s w o => some (549453824 + c.toNat * 2147483648 + u.toNat * 1073741824 + d.toNat * 32768 + a.toNat * 256 + s.toNat * 32 + w.toNat * 4 + o.toNat * 1)
  | .ldp c u d a s o => some (553648128 + c.toNat * 2147483648 + u.toNat * 1073741824 + d.toNat * 32768 + a.toNat * 256 + s.toNat * 32 + o.toNat * 1)
  | .stp c u d a s o => some (557842432 + c.toNat * 2147483648 + u.toNat * 1073741824 + d.toNat * 32768 + a.toNat * 256 + s.toNat * 32 + o.toNat * 1)
  | .ldacq c u d a s z => some (562036736 + c.toNat * 2147483648 + u.toNat * 1073741824 + d.toNat * 32768 + a.toNat * 256 + s.toNat * 32 + z.toNat * 4)
  | .strel c u d a s z => some (566231040 + c.toNat * 2147483648 + u.toNat * 1073741824 + d.toNat * 32768 + a.toNat * 256 + s.toNat * 32 + z.toNat * 4)
  | .atadd c u d a s o w v => some (570425344 + c.toNat * 2147483648 + u.toNat * 1073741824 + d.toNat * 32768 + a.toNat * 256 + s.toNat * 32 + o.toNat * 8 + w.toNat * 4 + v.toNat * 1)
  | .atminmax c u d a s o w v => some (574619648 + c.toNat * 2147483648 + u.toNat * 1073741824 + d.toNat * 32768 + a.toNat * 256 + s.toNat * 32 + o.toNat * 8 + w.toNat * 4 + v.toNat * 1)
  | .atlogic c u d a s o w v => some (578813952 + c.toNat * 2147483648 + u.toNat * 1073741824 + d.toNat * 32768 + a.toNat * 256 + s.toNat * 32 + o.toNat * 8 + w.toNat * 4 + v.toNat * 1)
  | .atxchg c u d a s o w => some (583008256 + c.toNat * 2147483648 + u.toNat * 1073741824 + d.toNat * 32768 + a.toNat * 256 + s.toNat * 32 + o.toNat * 8 + w.toNat * 4)
  | .atcas c u d a s o w => some (587202560 + c.toNat * 2147483648 + u.toNat * 1073741824 + d.toNat * 32768 + a.toNat * 256 + s.toNat * 32 + o.toNat * 8 + w.toNat * 4)
  | .bankAdd c u d a t => some (591396864 + c.toNat * 2147483648 + u.toNat * 1073741824 + d.toNat * 32768 + a.toNat * 256 + t.toNat * 1)
  | .bankFx c u d a t => some (595591168 + c.toNat * 2147483648 + u.toNat * 1073741824 + d.toNat * 32768 + a.toNat * 256 + t.toNat * 1)
  | .bankFxread c u d a t => some (599785472 + c.toNat * 2147483648 + u.toNat * 1073741824 + d.toNat * 32768 + a.toNat * 256 + t.toNat * 1)
  | .bankApp c u d a t => some (603979776 + c.toNat * 2147483648 + u.toNat * 1073741824 + d.toNat * 32768 + a.toNat * 256 + t.toNat * 1)
  | .bankAxpy c u d a t f => some (608174080 + c.toNat * 2147483648 + u.toNat * 1073741824 + d.toNat * 32768 + a.toNat * 256 + t.toNat * 2 + f.toNat * 1)
  | .bankRed c u d a t f => some (612368384 + c.toNat * 2147483648 + u.toNat * 1073741824 + d.toNat * 32768 + a.toNat * 256 + t.toNat * 2 + f.toNat * 1)
  | .fence c u s k => some (616562688 + c.toNat * 2147483648 + u.toNat * 1073741824 + s.toNat * 32 + k.toNat * 8)
  | .fenceRng c u s k a b => some (620756992 + c.toNat * 2147483648 + u.toNat * 1073741824 + s.toNat * 524288 + k.toNat * 131072 + a.toNat * 256 + b.toNat * 2)
  | .cpyL c u d z a b f n => some (624951296 + c.toNat * 2147483648 + u.toNat * 1073741824 + d.toNat * 65536 + z.toNat * 16384 + a.toNat * 256 + b.toNat * 4 + f.toNat * 2 + n.toNat * 1)
  | .cpyT c u d a w i f => some (629145600 + c.toNat * 2147483648 + u.toNat * 1073741824 + d.toNat * 32768 + a.toNat * 256 + w.toNat * 32 + i.toNat * 16 + f.toNat * 8)
  | .trywait c u p f n => some (633339904 + c.toNat * 2147483648 + u.toNat * 1073741824 + p.toNat * 524288 + f.toNat * 32768 + n.toNat * 1)
  | .pref c u t a s o => some (637534208 + c.toNat * 2147483648 + u.toNat * 1073741824 + t.toNat * 32768 + a.toNat * 256 + s.toNat * 32 + o.toNat * 1)
  | .ldk c u a => some (641728512 + c.toNat * 2147483648 + u.toNat * 1073741824 + a.toNat * 256)
  | .stkCtx c u d a b => some (645922816 + c.toNat * 2147483648 + u.toNat * 1073741824 + d.toNat * 32768 + a.toNat * 256 + b.toNat * 2)
  | .flushl1 c u => some (650117120 + c.toNat * 2147483648 + u.toNat * 1073741824)
  | .mma c t a h r z m => some (654311424 + c.toNat * 2147483648 + t.toNat * 262144 + a.toNat * 2048 + h.toNat * 32 + r.toNat * 16 + z.toNat * 8 + m.toNat * 1)
  | .accLd c t s a g n f => some (658505728 + c.toNat * 2147483648 + t.toNat * 262144 + s.toNat * 131072 + a.toNat * 256 + g.toNat * 64 + n.toNat * 16 + f.toNat * 2)
  | .accSt c t s a g n f => some (662700032 + c.toNat * 2147483648 + t.toNat * 262144 + s.toNat * 131072 + a.toNat * 256 + g.toNat * 64 + n.toNat * 16 + f.toNat * 2)
  | .accStrows c t p a f => some (666894336 + c.toNat * 2147483648 + t.toNat * 262144 + p.toNat * 131072 + a.toNat * 256 + f.toNat * 2)
  | .accZero c t p => some (671088640 + c.toNat * 2147483648 + t.toNat * 262144 + p.toNat * 131072)
  | .resAlloc c u d a => some (675282944 + c.toNat * 2147483648 + u.toNat * 1073741824 + d.toNat * 32768 + a.toNat * 256)
  | .resLoad c u d a f => some (679477248 + c.toNat * 2147483648 + u.toNat * 1073741824 + d.toNat * 32768 + a.toNat * 256 + f.toNat * 2)
  | .resPin c u a s => some (683671552 + c.toNat * 2147483648 + u.toNat * 1073741824 + a.toNat * 256 + s.toNat * 2)
  | .resFree c u a => some (687865856 + c.toNat * 2147483648 + u.toNat * 1073741824 + a.toNat * 256)
  | .resQuery c u d a => some (692060160 + c.toNat * 2147483648 + u.toNat * 1073741824 + d.toNat * 32768 + a.toNat * 256)
  | .resHeat c u d a b => some (696254464 + c.toNat * 2147483648 + u.toNat * 1073741824 + d.toNat * 32768 + a.toNat * 256 + b.toNat * 2)
  | .resAge c u a => some (700448768 + c.toNat * 2147483648 + u.toNat * 1073741824 + a.toNat * 256)
  | .resMigrate c u d a b f => some (704643072 + c.toNat * 2147483648 + u.toNat * 1073741824 + d.toNat * 32768 + a.toNat * 256 + b.toNat * 2 + f.toNat * 1)
  | .mfmt c u d a b s i => some (708837376 + c.toNat * 2147483648 + u.toNat * 1073741824 + d.toNat * 32768 + a.toNat * 1024 + b.toNat * 32 + s.toNat * 8 + i.toNat * 4)
  | .fireSet c u g a => some (713031680 + c.toNat * 2147483648 + u.toNat * 1073741824 + g.toNat * 32768 + a.toNat * 256)
  | .budgetRd c u d s => some (717225984 + c.toNat * 2147483648 + u.toNat * 1073741824 + d.toNat * 32768 + s.toNat * 1)
  | .tag c u d a => some (721420288 + c.toNat * 2147483648 + u.toNat * 1073741824 + d.toNat * 65536 + a.toNat * 256)
  | .mkt c u d t b x => some (725614592 + c.toNat * 2147483648 + u.toNat * 1073741824 + d.toNat * 65536 + t.toNat * 256 + b.toNat * 2 + x.toNat * 1)
  | .mkvar c d => some (729808896 + c.toNat * 2147483648 + d.toNat * 65536)
  | .mkstr c d m a b x => some (734003200 + c.toNat * 2147483648 + d.toNat * 65536 + m.toNat * 16384 + a.toNat * 256 + b.toNat * 2 + x.toNat * 1)
  | .arg c u d m a b x => some (738197504 + c.toNat * 2147483648 + u.toNat * 1073741824 + d.toNat * 65536 + m.toNat * 16384 + a.toNat * 256 + b.toNat * 2 + x.toNat * 1)
  | .deref c u d a => some (742391808 + c.toNat * 2147483648 + u.toNat * 1073741824 + d.toNat * 65536 + a.toNat * 256)
  | .unifyP c p a b x => some (746586112 + c.toNat * 2147483648 + p.toNat * 524288 + a.toNat * 256 + b.toNat * 2 + x.toNat * 1)
  | .unifyF c a b x => some (746602496 + c.toNat * 2147483648 + a.toNat * 256 + b.toNat * 2 + x.toNat * 1)
  | .bind c a b x => some (750780416 + c.toNat * 2147483648 + a.toNat * 256 + b.toNat * 2 + x.toNat * 1)
  | .choice c n b x => some (754974720 + c.toNat * 2147483648 + n.toNat * 65536 + b.toNat * 2 + x.toNat * 1)
  | .retry c b x => some (759169024 + c.toNat * 2147483648 + b.toNat * 2 + x.toNat * 1)
  | .trust c => some (763363328 + c.toNat * 2147483648)
  | .fail c => some (767557632 + c.toNat * 2147483648)
  | .cut c b x => some (771751936 + c.toNat * 2147483648 + b.toNat * 2 + x.toNat * 1)
  | .adopt c p a => some (775946240 + c.toNat * 2147483648 + p.toNat * 524288 + a.toNat * 256)
  | .publishOpen c b x => some (780156928 + c.toNat * 2147483648 + b.toNat * 2 + x.toNat * 1)
  | .publishClose c b x => some (780140544 + c.toNat * 2147483648 + b.toNat * 2 + x.toNat * 1)
  | .btld c u d p b x => some (784334848 + c.toNat * 2147483648 + u.toNat * 1073741824 + d.toNat * 65536 + p.toNat * 256 + b.toNat * 2 + x.toNat * 1)
  | .faddi c u d i => some (805306368 + c.toNat * 2147483648 + u.toNat * 1073741824 + d.toNat * 1048576 + i.toNat * 1)
  | .fmuli c u d i => some (939524096 + c.toNat * 2147483648 + u.toNat * 1073741824 + d.toNat * 1048576 + i.toNat * 1)
  | .groupAged .. => none
  | .loadDataReturn .. => none
  | .storeAck .. => none
  | .homeWrite .. => none
  | .holdRelease .. => none
  | .slotReclaim .. => none
  | .taskDoneDecrement .. => none
  | .readyPushAccept .. => none
  | .taskStart .. => none
  | .parkRecheck .. => none
  | .parkTimeout .. => none
  | .wqRefillDone .. => none
  | .barrierDelivery .. => none
  | .sleepEnd .. => none
  | .trywaitTimeout .. => none
  | .runAheadEnd .. => none
  | .faultRecordWrite => none
  | .matrixPassDone .. => none
  | .grottoRequest .. => none
  | .grottoResult .. => none
  | .migrationComplete .. => none
  | .resLoadProceed .. => none
  | .resLoadComplete .. => none
  | .copyComplete .. => none
  | .bankStreamComplete .. => none
  | .contextImageComplete .. => none
  | .saveTeam .. => none
  | .restoreTeam .. => none
  | .teamReturn .. => none
  | .returnGroup .. => none
  | .terminate .. => none
  | .registerWrite .. => none
  | .doorbell .. => none
  | .launchBundle .. => none
  | .waitPacket .. => none
  | .waitPacketTest .. => none
  | .waitPacketTimeout .. => none
  | .unknownCommand .. => none
  | .subLaunchComplete .. => none
  | .belvedereMismatch => none
  | .issueControlMismatch .. => none
  | .mcoffWrite .. => none
  | .invalidate .. => none
  | .invalidationDone => none
  | .staleMark .. => none
  | .staleMarkDone => none
  | .klockSet .. => none
  | .plimitWrite .. => none
  | .sfaultClear .. => none
  | .telemetryCounterClear .. => none
  | .attestationRequest .. => none
  | .attestationDone => none
  | .functionLevelReset => none
  | .flrDrainEnd => none
  | .hostLinkDown => none
  | .hostCompletion .. => none
  | .remoteTimeout .. => none
  | .storageDma .. => none
  | .flitReceive .. => none
  | .portDown .. => none
  | .portRetrain .. => none
  | .fabricRead .. => none
  | .fabricWrite .. => none
  | .fabricMaskedWrite .. => none
  | .fabricAtomic .. => none
  | .fabricReply .. => none
  | .barrierArrivalMessage .. => none
  | .barrierCompletionMessage .. => none
  | .podBarrierTimeout .. => none
  | .hbmRequest .. => none
  | .activationAlert .. => none
  | .selfRefreshEntry .. => none
  | .scrubPass .. => none
  | .stallSample .. => none
  | .powerWindow .. => none
  | .dieOver105 .. => none
  | .dieBelow100 .. => none
  | .thermalTrip .. => none
  | .debugHalt .. => none
  | .debugQuiescent .. => none
  | .debugAccess .. => none
  | .debugRelease .. => none
  | .powerGood .. => none
  | .packageReset => none
  | .notAnInstruction .. => none
  | .literalLanding => none
  | .instructionFetchFault .. => none
  | .hostLinkUp .. => none
  | .hostAtomicop .. => none
  | .prefetchFill .. => none
  | .refreshDue .. => none

/-- The bytes of a number, lowest first (R12). -/
def bytesOf : Nat → Nat → List Byte
  | 0, _ => []
  | n + 1, w => BitVec.ofNat 8 w :: bytesOf n (w / 256)

/-- The number that little-endian bytes stand for (R12). -/
def natOfBytes : List Byte → Nat
  | [] => 0
  | b :: bs => b.toNat + 256 * natOfBytes bs

/-- The words of an instruction: one for a row with an encoding, none for an event. -/
def encode (i : Instr) : List Word :=
  match i.code with
  | some n => [BitVec.ofNat 32 n]
  | none => []

/-- The first instruction of a byte stream, little-endian (R12), with the bytes after it. -/
def decodeBytes : List Byte → Except Reject (Instr × List Byte)
  | b0 :: b1 :: b2 :: b3 :: rest =>
    match decodeWord (natOfBytes [b0, b1, b2, b3]) with
    | .ok i => .ok (i, rest)
    | .error e => .error e
  | _ => .error .truncated

/-- The instruction that the decoder reads from the table's word `w` of `nbits` bits (each word as the hardware stores
it, the bits above `nbits` zero). -/
def decodeTableWord (nbits w : Nat) : Option Instr :=
  match decodeBytes (bytesOf 8 (w % 2 ^ nbits)) with
  | .ok (i, _) => some i
  | .error _ => none

end Sys2Proof
end

