-- ==== Sys2Proof/Machine/Task.lean ====
section
/-! DEFINITION. Tasks, counters, ready queues, work queues, barriers and parked lanes: the operations that the words of
chapter 14 and the device's events share (R124 to R149, R22 to R25, R34, R35, R350). -/

namespace Sys2Proof.Machine

/-! ## Errors that are not precise (R161 to R163) -/

/-- Whether every lane of the group has exited (R32). -/
def Group.exited (g : Group) : Bool := g.lanes.all (·.vpc == 0xFFFFFFFF)

/-! ## Task records (R124) -/

/-- What a task record holds. -/
structure TaskRecord where
  entry : Word
  arg : DWord
  coord : List (BitVec 16)
  succ : DWord
  spad : Nat
  rblk : Nat
  roles : Nat
  groups : Nat
  lseq : Word
  eskip : Bool
  szero : Bool
  prio : Nat
  tenant : BitVec 16
  cbank : DWord
deriving DecidableEq, Repr

/-- The fields of a record's 64 bytes. -/
def TaskRecord.of (b : List Byte) : TaskRecord :=
  let q := fun o => leNat ((b.drop o).take 8)
  { entry := BitVec.ofNat 32 (q 0)
    arg := BitVec.ofNat 64 (q 8)
    coord := (List.range 4).map fun i => BitVec.ofNat 16 (q 0x10 / 2 ^ (16 * i))
    succ := BitVec.ofNat 64 (q 0x18)
    spad := bits (q 0x20) 50 41
    rblk := bits (q 0x20) 40 37
    roles := bits (q 0x20) 36 5
    groups := bits (q 0x20) 4 0
    lseq := BitVec.ofNat 32 (q 0x28 / 2 ^ 32)
    eskip := bit (q 0x28) 25
    szero := bit (q 0x28) 24
    prio := bits (q 0x28) 23 16
    tenant := BitVec.ofNat 16 (q 0x28)
    cbank := BitVec.ofNat 64 (q 0x30) }

/-- The role class of the group with index `i` (R22). -/
def TaskRecord.role (r : TaskRecord) (i : Nat) : Nat := bits r.roles (2 * i + 1) (2 * i)

/-- Whether a record that could be read is rejected at start (R126). -/
def TaskRecord.bad (r : TaskRecord) (tenant : BitVec 16) : Bool :=
  r.entry == 0xFFFFFFFF || r.groups == 0 || 16 < r.groups || (List.range r.groups).any (fun i => r.role i == 3) ||
    768 < r.spad || r.succ.toNat % 16 != 0 || r.cbank.toNat % 64 != 0 || r.tenant != tenant

/-- The successor counter that an ended record names, if any (R126, R131). -/
def TaskRecord.counter (r : TaskRecord) : Option DWord :=
  if r.succ ≠ 0 ∧ r.succ.toNat % 16 = 0 then some r.succ else none

/-! ## Accesses by the device on a task's behalf -/

/-- The party of a core's group or engine operation, which asks under a name. -/
def State.partyOf (s : State) (k : Nat) (who : List Nat) (o : Origin) (waiter : Option (Nat × Nat)) : Party where
  core := k
  who := who
  space := (s.core k).regs.space.toNat % 2 ^ 16
  origin := { o with sub := none }
  quad := k / 4
  waiter := waiter

/-- A task record read by a party, if its address is aligned and it can be read (R126). -/
def State.readRecord (s : State) (p : Party) (va : DWord) : State × Option TaskRecord :=
  if va.toNat % 64 ≠ 0 then (s, none)
  else match s.look p.space p.origin.tenant .read va with
    | (s, none) => (s, none)
    | (s, some pa) => match s.readAt p.core 0 p.who pa 64 with
      | (t, some (0, b)) => (t, some (TaskRecord.of b))
      | (t, _) => (t, none)

/-! ## Ready queues (R138 to R141, R404) -/

/-- Whether a core's MCOFF bit is set (R464). -/
def State.offline (s : State) (k : Nat) : Bool := (s.rel.mcoff.getD (k / 64) 0).getLsbD (k % 64)

/-- Whether a quad has a core online (R141). -/
def State.quadOn (s : State) (q : Nat) : Bool := (List.range 4).any fun i => !s.offline (4 * q + i)

/-- The quad that a push naming `q` goes to: `q`, or the next quad with a core online (R141). -/
def State.homeQuad (s : State) (q : Nat) : Nat :=
  (((List.range 96).map fun i => (q + i) % 96).find? s.quadOn).getD q

/-- A quad. -/
def State.quad (s : State) (q : Nat) : Quad := s.quads.getD q Quad.reset

/-- A quad changed. -/
def State.modQuad (s : State) (q : Nat) (f : Quad → Quad) : State := { s with quads := s.quads.modify q f }

/-- Whether the quad has a ring (R404). -/
def Quad.ring (q : Quad) : Bool := q.ctl.getLsbD 8 && 8 ≤ q.ctl.toNat % 32 && q.ctl.toNat % 32 ≤ 20

/-- Entries in the ring. -/
def Quad.ringLen (q : Quad) : Nat := (q.tail - q.head).toNat

/-- The local address of ring entry `n` (R404). -/
def Quad.entryAt (q : Quad) (n : Nat) : Nat := bits q.base.toNat 43 3 * 8 + 8 * (n % 2 ^ (q.ctl.toNat % 32))

/-- Whether a push goes on chip (R139). -/
def Quad.onChip (q : Quad) : Bool := q.chip.length < 256 && q.ringLen == 0

/-- Whether a push need not wait (R139). -/
def Quad.room (q : Quad) : Bool := q.onChip || (q.ring && q.ringLen < 2 ^ (q.ctl.toNat % 32))

/-- The ready-queue entry of a task record (R138). -/
def RqEntry.of (va : DWord) (prio : Nat) (o : Origin) : RqEntry where
  word := BitVec.ofNat 64 (prio % 256 * 2 ^ 56 + bits va.toNat 55 6 * 64)
  low := va &&& 0xFF0000000000003F
  origin := o

/-- The record address of an entry. -/
def RqEntry.trec (e : RqEntry) : DWord := (e.word &&& 0x00FFFFFFFFFFFFC0) ||| e.low

/-- The priority of an entry. -/
def RqEntry.prio (e : RqEntry) : Nat := bits e.word.toNat 63 56

/-- A push that need not wait: on chip, or at the ring's tail (R139). -/
def State.accept (s : State) (q : Nat) (e : RqEntry) : State :=
  let r := s.quad q
  if r.onChip then s.modQuad q fun r => { r with chip := r.chip ++ [e] }
  else (s.deviceWrite (s.localPa (r.entryAt r.tail.toNat)) (leBytes 8 e.word.toNat)).modQuad q fun r =>
    { r with tail := r.tail + 1, ringOrigins := r.ringOrigins ++ [(e.low, e.origin)] }

/-- A push to the ready queue of quad `q`, or of the next quad with a core online; it waits while there is no room
(R139, R141). -/
def State.push (s : State) (q : Nat) (e : RqEntry) (waiter : Option (Nat × Nat)) : State :=
  let q := s.homeQuad q
  let r := s.quad q
  if s.quadOn q ∧ r.waiting = [] ∧ r.room then s.accept q e
  else s.modQuad q fun r => { r with waiting := r.waiting ++
    [{ entry := e, core := (waiter.map (·.1)).getD 0, flight := waiter.map (·.2) }] }

/-- How many pushes wait (R139). -/
def State.waitingPushes (s : State) : Nat := (s.quads.map (·.waiting.length)).sum

/-- A completion under a name is withheld while a push of it would have to wait (R139), or while it waits for an answer
from beyond the package. -/
def State.withheld (s : State) (who : List Nat) (t : State) : State :=
  if s.waitingPushes < t.waitingPushes then s.keepAsks t else s.settle who t

/-- The entries of a ring's head, oldest first, as memory holds them. -/
def State.ringEntries (s : State) (q : Nat) (n : Nat) : List RqEntry :=
  let r := s.quad q
  (List.range n).map fun i =>
    let m := r.ringOrigins.getD i (0, Origin.zero)
    { word := BitVec.ofNat 64 (s.wordPa (s.localPa (r.entryAt (r.head.toNat + i))) 8), low := m.1, origin := m.2 }

/-- Entries move from the ring's head onto the chip, in ring order (R139). -/
def State.refillChip (s : State) (q : Nat) : State :=
  let r := s.quad q
  let n := if r.ring then min (256 - r.chip.length) r.ringLen else 0
  let es := s.ringEntries q n
  s.modQuad q fun r => { r with chip := r.chip ++ es, head := r.head + BitVec.ofNat 64 n,
                                ringOrigins := r.ringOrigins.drop n }

/-! ## Counters (R134 to R137) -/

/-- The fault record of a rejected task (R126, R418): it ran on no core, so that the core, group and mask fields are
zero (DESIGN CHOICE, assumption 20). -/
def rejectRecord (s : State) (o : Origin) (va : DWord) (entry : Word) : List Byte :=
  leBytes 8 (2 ^ 12 + s.fabric.fnode.toNat * 2 ^ 32 + o.tenant.toNat * 2 ^ 48) ++ leBytes 8 entry.toNat ++
  leBytes 8 (o.lseq.toNat * 2 ^ 32) ++ leBytes 8 va.toNat ++ leBytes 8 va.toNat ++ leBytes 8 o.cpc.toNat ++
  leBytes 8 0 ++ leBytes 8 s.tick

/-- A sub-launch of a bundle changed. -/
def State.modSub (s : State) (r : SubRef) (f : Sub → Sub) : State :=
  { s with belv := { s.belv with threads := s.belv.threads.modify r.1 fun t =>
      { t with inflight := t.inflight.map fun c =>
          if c.index = r.2.1 then { c with subs := c.subs.modify r.2.2 f } else c } } }

/-- A task of a task set has ended: one task less is outstanding, and an error gives code 1 (R414, R415). -/
def State.markSub (s : State) (r : Option SubRef) (err : Bool) : State :=
  match r with
  | none => s
  | some r => s.modSub r fun b => { b with left := b.left - 1, code := if err then 1 else b.code }

/-- A rejected task: its fault record is queued and its set hears of the error (R126). -/
def State.reject (s : State) (o : Origin) (va : DWord) (r : Option TaskRecord) : State :=
  (s.queueRecords none [rejectRecord s o va ((r.map TaskRecord.entry).getD 0)]).markSub o.sub true

/-- `release(t, c)` (R136): the record at `va` is pushed, skipped under eskip, or rejected; the answer is the successor
counter that a task ended at once decrements, with the quad that counts as its releasing party's. A record that cannot be read
is pushed with priority 0 (DESIGN CHOICE, assumption 61). -/
def State.release (s : State) (p : Party) (va : DWord) (flags : Nat) : State × Option (Nat × DWord) :=
  let q := if bit flags 7 then flags % 128 else p.quad
  let t := s.readRecord p va
  let succ := t.2.bind (·.counter)
  if bit flags 7 ∧ 95 < q then (t.1.reject p.origin va t.2, succ.map (p.quad, ·))
  else if bit flags 31 ∧ (t.2.map (·.eskip)).getD false then (t.1, succ.map (t.1.homeQuad q, ·))
  else (t.1.push q (RqEntry.of va ((t.2.map (·.prio)).getD 0) p.origin) p.waiter, none)

/-- What `ctr_update` makes of a record's count and flag word: the new words, and whether the update brought the count
to zero. A failed update only sets err (R135). -/
def ctrWords (count flags : Nat) (delta : Int) (err : Bool) : Nat × Nat × Bool :=
  let new := (count : Int) + delta
  if new < 0 ∨ 2 ^ 32 ≤ new then (count, flags ||| 2 ^ 31, false)
  else
    let flags := if err then flags ||| 2 ^ 31 else flags
    if delta < 0 ∧ new = 0 then (0, flags ||| 2 ^ 30, true) else (new.toNat, flags, false)

/-- One read-modify-write of a counter record's first 8 bytes at its home (R135): a read and an exchange, again until the
exchange succeeds; the first argument bounds the tries, each of which takes answers that have come. It gives the count
that was read, the record's next field, the new flag word, and whether the update brought the count to zero. A record that
cannot be read whole is left as it is (DESIGN CHOICE, assumption 21). -/
def State.ctrSwap : Nat → State → Party → Nat → Int → Bool → State × Option (Nat × DWord × Nat × Bool)
  | 0, s, _, _, _, _ => (s, none)
  | n + 1, s, p, pa, delta, err =>
    match s.readAt p.core 0 p.who pa 16 with
    | (t, some (0, b)) =>
      let old := leNat (b.take 8)
      let w := ctrWords (old % 2 ^ 32) (old / 2 ^ 32) delta err
      match t.swapAt p.core t.nextId p.who pa 8 old (w.1 + w.2.1 * 2 ^ 32) with
      | (u, some (0, was)) =>
        if was = old then (u, some (old % 2 ^ 32, BitVec.ofNat 64 (leNat (b.drop 8)), w.2))
        else State.ctrSwap n u p pa delta err
      | (u, _) => (u, none)
    | (t, _) => (t, none)

/-- `ctr_update` (R135) with what it sets off, and the count that it read. A record that cannot be written is left as it is
(DESIGN CHOICE, assumption 21). The first argument bounds the chain of counters that reach zero one after another: each
holds a count other than zero before, and no two are one record. -/
def State.ctrUpdate : Nat → State → Party → DWord → Int → Bool → State × Nat
  | 0, s, _, _, _, _ => (s, 0)
  | n + 1, s, p, va, delta, err =>
    match s.look p.space p.origin.tenant .write va with
    | (s, none) => (s, 0)
    | (s, some pa) => match s.ctrSwap (s.fabric.requests.length + 1) p pa delta err with
      | (t, none) => (t, 0)
      | (t, some (old, next, flags, zero)) =>
        if zero ∧ next ≠ 0 then
          match t.release p next flags with
          | (t, none) => (t, old)
          | (t, some (q, succ)) => ((State.ctrUpdate n t { p with quad := q } succ (-1) true).1, old)
        else (t, old)

/-- A counter update by a party. -/
def State.counter (s : State) (p : Party) (va : DWord) (delta : Int) (err : Bool) : State × Nat :=
  State.ctrUpdate (s.mem.length + s.fabric.requests.length + 1) s p va delta err

/-- A completion's decrement: 0 names no counter (R135). -/
def State.decrement (s : State) (p : Party) (va : DWord) (err : Bool) : State :=
  if va = 0 then s else (s.counter p va (-1) err).1

/-- A decrement that is owed to a counter happens once its pushes need not wait and its answers are there (R139). -/
def State.owe (s : State) (p : Party) (va : DWord) (err : Bool) : State :=
  if va = 0 then s
  else { s with owed := s.owed ++ [({ p with who := [5, s.nextId] }, va, err)], nextId := s.nextId + 1 }

/-- The decrements that are owed happen, where they can. -/
def State.payOwed (s : State) : State :=
  s.owed.foldl (fun s x =>
    s.withheld x.1.who ({ s with owed := s.owed.filter (·.1.who != x.1.who) }.decrement x.1 x.2.1 x.2.2)) s

/-- A task's counter gets its err bit after the done event: one read-modify-write that releases nothing (R133). -/
def State.setErr (s : State) (p : Party) (va : DWord) : State :=
  if va = 0 then s
  else match s.look p.space p.origin.tenant .write va with
  | (s, none) => s
  | (s, some pa) =>
    if (s.beyond (.phys pa)).isSome then
      s.addAsk (s.askFor p.core nobody 4 1 2 (pa + 4) 4 (leBytes 4 (2 ^ 31)))
    else if s.homeCode (.phys pa) 16 ≠ 0 then s
    else s.performWrite (pa + 4) (leBytes 4 (s.wordPa (pa + 4) 4 ||| 2 ^ 31))

/-! ## Tasks that end (R131, R133) -/

/-- The group's part of its task is done: the lane accesses that happen before it and are not performed yet are covered (R66,
R131, R137, R344). -/
def Core.partDone (c : Core) (slot : Nat) : Core :=
  match c.group slot with
  | none => c
  | some g =>
    if g.partDone then c
    else
      let ids := c.before slot g.team g.seen
      (c.modGroup slot fun g => { g with partDone := true }).modTeam g.team fun t => { t with cover := t.cover ++ ids }

/-- A team of a core, resident or saved. -/
def Core.anyTeam (c : Core) (id : Nat) : Option Team :=
  (c.team id).orElse fun _ => (c.saved.find? (·.team.id == id)).map (·.team)

/-- A team's task ends in error: before its done event the decrement will carry the flag; after it the counter's err
bit is set (R133). -/
def State.teamError (s : State) (k id : Nat) : State :=
  match (s.core k).anyTeam id with
  | none => s
  | some t =>
    let s := s.modCore k (·.modAnyTeam id fun t => { t with err := true })
    if t.doneSent ∧ !t.err then s.setErr (s.partyOf k nobody t.origin none) t.succ else s

/-- Whether an operation of a team is in flight, which may still report an error (R161, R162). -/
def Core.teamOps (c : Core) (id : Nat) : Bool := c.flight.any fun f => f.slot < 32 && f.team == id

/-- A team whose last slot is reclaimed, whose done event has occurred and whose operations have ended is gone; its task set
has a task less outstanding (R47, R133, R414). -/
def State.endTeam (s : State) (k id : Nat) : State :=
  match (s.core k).team id with
  | none => s
  | some t =>
    if t.live ≠ [] ∨ !t.doneSent ∨ (s.core k).teamOps id then s
    else (s.modCore k fun c => { c with teams := c.teams.filter (·.id != id) }).markSub t.origin.sub t.err

/-- Whether a group is within a bundle: a word of it waits for an answer from beyond the package, or for what an earlier word
of it has dispatched. -/
def State.midBundle (s : State) (k slot : Nat) : Bool :=
  s.askedBy [0, k, slot] || ((s.core k).group slot).any (·.part.isSome)

/-- Whether a group waits and so issues nothing (R162). -/
def Group.stopped (g : Group) : Bool := g.phase != .running

/-- A late error befalls the group of an operation (R162, R163): a running group stops and reports it, once the bundle that it
is issuing has issued whole; a group that is away keeps it until it is returned, and an exited one
reports through its issue-tag entry and ends its task in error, whether its team is resident or saved (R133). -/
def State.lateError (s : State) (k : Nat) (f : Flight) (r : Report) : State :=
  let c := s.core k
  let exited := fun (s : State) =>
    (s.queueReport k f.slot f.origin f.trec { r with exited := true }).teamError k f.team
  match c.owner f.slot f.team with
  | some g =>
    if g.exited then exited s
    else if g.phase = .running ∧ g.report.isNone ∧ !s.midBundle k f.slot then s.stopImprecise k f.slot r
    else s.modGroup k f.slot fun g => { g with errors := g.errors ++ [r] }
  | none =>
    if (c.saved.filter (·.team.id == f.team)).any fun x => x.groups.any fun g => g.1 == f.slot && !g.2.exited then s.modCore k (·.modOwner f.slot f.team fun g => { g with errors := g.errors ++ [r] })
    else exited s

/-- The errors of an operation, one report each. -/
def State.lateErrors (s : State) (k : Nat) (f : Flight) (rs : List Report) : State :=
  rs.foldl (fun s r => s.lateError k f r) s

/-- The errors that a word has met at once are reported after it, unless the group has a precise fault to report first
(R161 to R163). -/
def State.reportNoted (s : State) (k slot : Nat) : State :=
  match (s.core k).group slot with
  | none => s
  | some g =>
    if g.errors = [] ∨ g.phase ≠ .running ∨ g.report.isSome then s
    else
      let team := ((s.core k).team g.team).getD Team.blank
      let f : Flight :=
        { Flight.blank 0 .pops with slot := slot, team := g.team, origin := team.origin, trec := team.trec }
      (s.modGroup k slot fun g => { g with errors := [] }).lateErrors k f g.errors

/-! ## Register pools (R45 to R47) -/

/-- Blocks added above a group's highest register, filled with zeros (R46). -/
def Group.grow (g : Group) (m : Nat) : Group := { g with
  claim := none
  rf := { g.rf with v := g.rf.v ++ List.replicate (8 * m) (List.replicate 32 0) } }

/-- The pool serves waiting claims in the order in which they issued (R46). A claim of a group that is switched out
keeps its turn. -/
def Core.serve : Nat → Core → Nat → Core
  | 0, c, _ => c
  | n + 1, c, id =>
    match c.team id with
    | none => c
    | some t => match t.claims with
      | [] => c
      | (slot, m) :: rest =>
        if t.pool < m ∨ ((c.group slot).map Group.stopped).getD true then c
        else
          let c := c.modGroup slot (·.grow m)
          Core.serve n (c.modTeam id fun t => { t with pool := t.pool - m, claims := rest }) id

/-- The claims of a team served. -/
def Core.serveClaims (c : Core) (id : Nat) : Core := c.serve 16 id

/-! ## Parked lanes (R34, R35, R147, R353) -/

/-- The value that an empty pop returns (R347). -/
def emptyItem : DWord := 0xFFFFFFFFFFFFFFFF

/-- The window of a pop that waits for a refill (R144). -/
def PopWait.window (w : PopWait) : WqWindow where
  desc := some w.desc
  items := []
  first := 0
  refill := true
  waiting := some w

/-- The event that wakes a lane takes its effect: the result of `park`, or a pop that completes (R34, R147, R353):
1 a change, 2 all parked, 3 timeout. -/
def Group.wake (g : Group) (lane how : Nat) : Group :=
  match (g.lane lane).park with
  | none => g
  | some p =>
    let g := g.modLane lane fun t => { t with park := none }
    if !p.pop then { g with rf := g.rf.setV p.dest p.mask fun _ => BitVec.ofNat 32 how }
    else if how = 1 ∧ p.mask ≠ 0 then
      g.modLane lane fun t => { t with
        win := PopWait.window { desc := p.desc, dest := p.dest, form := true, mask := p.mask, pc := p.pc, word := p.word } }
    else { g with rf := g.rf.setWords p.dest 2 p.mask fun _ => emptyItem.toNat }

/-- Whether the watched word of a parked lane has changed with its recheck due: a change on the clk of another event (R34,
R353). What a word beyond the package holds is known only when its recheck is answered. -/
def State.parkChanged (s : State) (k : Nat) (p : ParkRec) : Bool :=
  (s.core k).rechecks.contains p.pa && (s.beyond (.phys p.pa)).isNone &&
    leNat (s.coreRead k s.nextId (.phys p.pa) p.width) != p.expected.toNat % 2 ^ (8 * p.width)

/-- Every live lane of the group is parked: all wake on the same clk (R35), those whose word has changed by the change
(R353). -/
def Group.allParked (g : Group) (changed : ParkRec → Bool) : Group :=
  if g.lanes.any (·.park.isSome) ∧ g.lanes.all fun t => t.park.isSome || t.vpc == 0xFFFFFFFF then
    (List.range 32).foldl (fun g l => g.wake l (if (g.lane l).park.any changed then 1 else 2)) g
  else g

/-- What became of the waits of a group while it was away takes effect on its return (R35, R167). -/
def Group.wakeReturned (g : Group) (clk : Nat) (changed : ParkRec → Bool) : Group :=
  ((List.range 32).foldl (fun g l => match (g.lane l).park with
    | none => g
    | some p => match p.event with
      | some e => g.wake l e
      | none => if p.deadline ≤ clk then g.wake l 3 else g) g).allParked changed

/-! ## Barriers (R23, R350, R351) -/

/-- Barriers of a scope (R23). -/
def barCount (scope : Nat) : Nat :=
  match scope with
  | 2 => 16
  | 3 | 4 => 8
  | 5 | 6 => 4
  | _ => 0

/-- A barrier as core `k` sees it. -/
def State.barrier (s : State) (k scope n : Nat) : Barrier :=
  match scope with
  | 2 => (s.core k).bars.getD n Barrier.reset
  | 3 => (s.quadBars.getD (k / 4) []).getD n Barrier.reset
  | 4 => (s.dieBars.getD (k / 128) []).getD n Barrier.reset
  | 5 => s.pkgBars.getD n Barrier.reset
  | _ => s.podBars.getD n Barrier.reset

/-- A barrier changed. -/
def State.setBarrier (s : State) (k scope n : Nat) (b : Barrier) : State :=
  match scope with
  | 2 => s.modCore k fun c => { c with bars := c.bars.set n b }
  | 3 => { s with quadBars := s.quadBars.modify (k / 4) (·.set n b) }
  | 4 => { s with dieBars := s.dieBars.modify (k / 128) (·.set n b) }
  | 5 => { s with pkgBars := s.pkgBars.set n b }
  | _ => { s with podBars := s.podBars.set n b }

/-- Whether cores `k` and `j` share a barrier of the scope. -/
def shares (scope k j : Nat) : Bool :=
  match scope with
  | 2 => j == k
  | 3 => j / 4 == k / 4
  | 4 => j / 128 == k / 128
  | _ => true

/-- A group's wait ends when the barrier's completion count differs from its token (R351); what the core's groups have in
flight then comes before what it does (R25, R66). -/
def Group.endWait (g : Group) (scope n : Nat) (count : Word) (upto : Nat) : Group :=
  match g.barWait with
  | some w => if w.scope.toNat = scope ∧ w.num.toNat = n ∧ w.token.isSome ∧ w.token ≠ some count ∧ g.phase = .running then
      { g with barWait := none, seen := upto } else g
  | none => g

/-- The waits that a barrier's completion count ends (R351): those of groups that are present; a group that is away
finds the count changed when it returns, and one of a quiescent core when the core is released (R168). -/
def State.endWaits (s : State) (k scope n : Nat) : State :=
  let count := (s.barrier k scope n).completions
  { s with cores := s.cores.mapIdx fun j c => if !shares scope k j || c.quiescent then c else
      { c with groups := c.groups.map (Option.map (·.endWait scope n count s.nextId)) } }

/-- A group's token: a waiting `bar` takes it, or the scalar of a `bar.arrive` (R351). -/
def State.giveToken (s : State) (k : Nat) (f : Flight) (dest : Option Nat) (count : Word) : State :=
  let c := s.core k
  match dest with
  | some d =>
    (s.modCore k (·.modOwner f.slot f.team fun g => { g with rf := g.rf.setS d (count.setWidth 64) })).patchMem
      (c.patch f.slot f.team (0x180 + 8 * d) (leBytes 8 count.toNat))
  | none =>
    (s.modCore k (·.modOwner f.slot f.team fun g => { g with
      barWait := g.barWait.map fun w => { w with token := some count } })).patchMem
      (c.patch f.slot f.team 0x034 (leBytes 4 count.toNat))

/-- An arrival counted at its barrier, or refused because its count differs (R350): the state, whether it was counted,
and the completion count that it found. -/
def Barrier.arrive (b : Barrier) (count : Nat) : Option Barrier :=
  if b.arrivals ≠ 0 ∧ b.expected ≠ count then none
  else if b.arrivals + 1 = count then some { completions := b.completions + 1, arrivals := 0, expected := count }
  else some { b with arrivals := b.arrivals + 1, expected := count }

/-- The refused arrival of a group: a waiting `bar` waits no longer, and its group reports illegal-operand in the manner
of an imprecise report (R350). -/
def State.refuseArrival (s : State) (k : Nat) (f : Flight) (dest : Option Nat) : State :=
  let s := if dest.isNone then
      (s.modCore k (·.modOwner f.slot f.team fun g => { g with barWait := none })).patchMem
        ((s.core k).patch f.slot f.team 0x030 (leBytes 8 0))
    else s
  (s.modCore k (·.dropOp f.id)).lateError k f (lateReport .illegalOperand f.pc f.mask false s.tick)

/-- The earlier accesses that an arrival waits for: the group's own (R350), and beyond the core those of other groups that
came before a synchronisation of this one (R66). -/
def Core.arrivalHeld (c : Core) (f : Flight) (scope : Nat) : Bool :=
  c.flight.any fun e =>
    if scope ≤ 2 then e.id < f.id && e.slot == f.slot && e.team == f.team && e.reading
    else e.open_ && (e.id < f.seen || (e.id < f.id && e.slot == f.slot && e.team == f.team))

/-- An arrival delivered to a barrier of this package (R350). -/
def State.deliverArrival (s : State) (k : Nat) (f : Flight) (scope n count : Nat) (dest : Option Nat) : State :=
  let b := s.barrier k scope n
  match b.arrive count with
  | none => s.refuseArrival k f dest
  | some b' =>
    (((s.giveToken k f dest b.completions).setBarrier k scope n b').modCore k (·.dropOp f.id)).endWaits k scope n

end Sys2Proof.Machine
end

