-- ==== Sys2Proof/Machine/Fetch.lean ====
section
/-! DEFINITION. Fetching and reading a packet (R196 to R198, R213): the role of each of its words. -/

namespace Sys2Proof.Machine

/-- Whether an instruction word needs a literal: format A3 with x = 1 and b = 48 (R197). -/
def needsLiteral (i : Instr) : Bool :=
  match i with
  | .clause _ _ _ _ _ => false
  | .guard _ _ _ => false
  | .nop _ => false
  | .brk _ => false
  | .iadd _ _ _ _ b x => x && b == 48
  | .isub _ _ _ _ b x => x && b == 48
  | .imul _ _ _ _ b x => x && b == 48
  | .imulh _ _ _ _ _ b x => x && b == 48
  | .imad _ _ _ _ b x => x && b == 48
  | .iabs _ _ _ _ => false
  | .imin _ _ _ _ _ b x => x && b == 48
  | .imax _ _ _ _ _ b x => x && b == 48
  | .ishl _ _ _ _ b x => x && b == 48
  | .ishr _ _ _ _ _ b x => x && b == 48
  | .irot _ _ _ _ b x => x && b == 48
  | .and _ _ _ _ b x => x && b == 48
  | .or _ _ _ _ b x => x && b == 48
  | .xor _ _ _ _ b x => x && b == 48
  | .andn _ _ _ _ b x => x && b == 48
  | .clz _ _ _ _ => false
  | .popc _ _ _ _ => false
  | .brev _ _ _ _ => false
  | .bfx _ _ _ _ _ b x => x && b == 48
  | .bfi _ _ _ _ b x => x && b == 48
  | .icmp _ _ _ _ _ b x => x && b == 48
  | .plog _ _ _ _ _ _ => false
  | .movW32 _ _ _ b x => x && b == 48
  | .movW64 _ _ _ b x => x && b == 48
  | .movS _ _ _ b x => x && b == 48
  | .movi _ _ _ _ => false
  | .movhi _ _ _ _ => false
  | .add64 _ _ _ _ _ b x => x && b == 48
  | .sub64 _ _ _ _ _ b x => x && b == 48
  | .mul64 _ _ _ _ _ b x => x && b == 48
  | .shl64 _ _ _ _ _ b x => x && b == 48
  | .shr64 _ _ _ _ _ _ b x => x && b == 48
  | .cmp64 _ _ _ _ _ _ b x => x && b == 48
  | .bra _ _ _ _ _ => false
  | .jmp _ _ _ => false
  | .call _ _ _ => false
  | .ret _ _ _ => false
  | .exit _ _ => false
  | .brx _ _ _ b x => x && b == 48
  | .vote _ _ _ _ _ => false
  | .rdsr _ _ _ _ _ => false
  | .wrsr _ _ _ _ _ => false
  | .taskSpawn _ _ _ _ _ b x => x && b == 48
  | .taskDone _ => false
  | .ctrAdd _ _ _ _ b x => x && b == 48
  | .wqPop _ _ _ _ _ => false
  | .wqPush _ _ _ _ b x => x && b == 48
  | .bar _ _ _ _ _ => false
  | .barArrive _ _ _ _ _ _ => false
  | .barWait _ _ _ _ _ => false
  | .roleGive _ _ _ => false
  | .roleClaim _ _ _ => false
  | .park _ _ _ _ b x => x && b == 48
  | .trap _ => false
  | .sysret _ _ _ => false
  | .watch _ _ _ _ _ _ => false
  | .clock _ _ _ _ _ => false
  | .pmark _ _ => false
  | .hold _ _ _ _ => false
  | .cap _ _ _ b x => x && b == 48
  | .sleep _ _ _ => false
  | .fadd _ _ _ _ b x => x && b == 48
  | .fsub _ _ _ _ b x => x && b == 48
  | .fmul _ _ _ _ b x => x && b == 48
  | .ffma _ _ _ _ b x => x && b == 48
  | .fmin _ _ _ _ b x => x && b == 48
  | .fmax _ _ _ _ b x => x && b == 48
  | .fcmp _ _ _ _ _ b x => x && b == 48
  | .frcp _ _ _ _ => false
  | .frsq _ _ _ _ => false
  | .fsqrt _ _ _ _ => false
  | .fdiv _ _ _ _ b x => x && b == 48
  | .fexp2 _ _ _ _ => false
  | .flog2 _ _ _ _ => false
  | .fsin _ _ _ _ => false
  | .fcos _ _ _ _ => false
  | .frnd _ _ _ _ _ => false
  | .fclass _ _ _ _ => false
  | .fscale _ _ _ _ b x => x && b == 48
  | .dadd _ _ _ _ _ b x => x && b == 48
  | .dmul _ _ _ _ b x => x && b == 48
  | .dfma _ _ _ _ b x => x && b == 48
  | .dminmax _ _ _ _ _ b x => x && b == 48
  | .dcmp _ _ _ _ _ b x => x && b == 48
  | .hadd2 _ _ _ _ b x => x && b == 48
  | .hmul2 _ _ _ _ b x => x && b == 48
  | .hfma2 _ _ _ _ b x => x && b == 48
  | .bfma2 _ _ _ _ b x => x && b == 48
  | .cvt _ _ _ _ _ _ _ => false
  | .cvtpk _ _ _ _ _ b x => x && b == 48
  | .cvtupk _ _ _ _ b x => x && b == 48
  | .shfl _ _ _ _ b x => x && b == 48
  | .bcast _ _ _ _ _ => false
  | .lred _ _ _ _ _ => false
  | .lscan _ _ _ _ _ _ => false
  | .cellkey _ _ _ _ b x => x && b == 48
  | .fdot2 _ _ _ _ _ b x => x && b == 48
  | .ldg _ _ _ _ _ _ => false
  | .stg _ _ _ _ _ _ => false
  | .lds _ _ _ _ _ _ _ => false
  | .sts _ _ _ _ _ _ _ => false
  | .ldp _ _ _ _ _ _ => false
  | .stp _ _ _ _ _ _ => false
  | .ldacq _ _ _ _ _ _ => false
  | .strel _ _ _ _ _ _ => false
  | .atadd _ _ _ _ _ _ _ _ => false
  | .atminmax _ _ _ _ _ _ _ _ => false
  | .atlogic _ _ _ _ _ _ _ _ => false
  | .atxchg _ _ _ _ _ _ _ => false
  | .atcas _ _ _ _ _ _ _ => false
  | .bankAdd _ _ _ _ _ => false
  | .bankFx _ _ _ _ _ => false
  | .bankFxread _ _ _ _ _ => false
  | .bankApp _ _ _ _ _ => false
  | .bankAxpy _ _ _ _ _ _ => false
  | .bankRed _ _ _ _ _ _ => false
  | .fence _ _ _ _ => false
  | .fenceRng _ _ _ _ _ _ => false
  | .cpyL _ _ _ _ _ _ _ _ => false
  | .cpyT _ _ _ _ _ _ _ => false
  | .trywait _ _ _ _ _ => false
  | .pref _ _ _ _ _ _ => false
  | .ldk _ _ _ => false
  | .stkCtx _ _ _ _ _ => false
  | .flushl1 _ _ => false
  | .mma _ _ _ _ _ _ _ => false
  | .accLd _ _ _ _ _ _ _ => false
  | .accSt _ _ _ _ _ _ _ => false
  | .accStrows _ _ _ _ _ => false
  | .accZero _ _ _ => false
  | .resAlloc _ _ _ _ => false
  | .resLoad _ _ _ _ _ => false
  | .resPin _ _ _ _ => false
  | .resFree _ _ _ => false
  | .resQuery _ _ _ _ => false
  | .resHeat _ _ _ _ _ => false
  | .resAge _ _ _ => false
  | .resMigrate _ _ _ _ _ _ => false
  | .mfmt _ _ _ _ _ _ _ => false
  | .fireSet _ _ _ _ => false
  | .budgetRd _ _ _ _ => false
  | .tag _ _ _ _ => false
  | .mkt _ _ _ _ b x => x && b == 48
  | .mkvar _ _ => false
  | .mkstr _ _ _ _ b x => x && b == 48
  | .arg _ _ _ _ _ b x => x && b == 48
  | .deref _ _ _ _ => false
  | .unifyP _ _ _ b x => x && b == 48
  | .unifyF _ _ b x => x && b == 48
  | .bind _ _ b x => x && b == 48
  | .choice _ _ b x => x && b == 48
  | .retry _ b x => x && b == 48
  | .trust _ => false
  | .fail _ => false
  | .cut _ b x => x && b == 48
  | .adopt _ _ _ => false
  | .publishOpen _ b x => x && b == 48
  | .publishClose _ b x => x && b == 48
  | .btld _ _ _ _ b x => x && b == 48
  | .faddi _ _ _ _ => false
  | .fmuli _ _ _ _ => false
  | .groupAged _ _ => false
  | .loadDataReturn _ _ => false
  | .storeAck _ _ => false
  | .homeWrite _ => false
  | .holdRelease _ _ => false
  | .slotReclaim _ _ => false
  | .taskDoneDecrement _ _ => false
  | .readyPushAccept _ => false
  | .taskStart _ => false
  | .parkRecheck _ _ => false
  | .parkTimeout _ _ _ => false
  | .wqRefillDone _ _ _ => false
  | .barrierDelivery _ _ => false
  | .sleepEnd _ _ => false
  | .trywaitTimeout _ _ => false
  | .runAheadEnd _ _ => false
  | .faultRecordWrite => false
  | .matrixPassDone _ _ => false
  | .grottoRequest _ _ => false
  | .grottoResult _ _ => false
  | .migrationComplete _ _ => false
  | .resLoadProceed _ _ => false
  | .resLoadComplete _ _ => false
  | .copyComplete _ _ => false
  | .bankStreamComplete _ _ => false
  | .contextImageComplete _ _ => false
  | .saveTeam _ _ => false
  | .restoreTeam _ => false
  | .teamReturn _ => false
  | .returnGroup _ _ => false
  | .terminate _ _ => false
  | .registerWrite _ _ _ => false
  | .doorbell _ _ _ => false
  | .launchBundle _ => false
  | .waitPacket _ => false
  | .waitPacketTest _ => false
  | .waitPacketTimeout _ => false
  | .unknownCommand _ => false
  | .subLaunchComplete _ _ _ => false
  | .belvedereMismatch => false
  | .issueControlMismatch _ _ => false
  | .mcoffWrite _ _ => false
  | .invalidate _ => false
  | .invalidationDone => false
  | .staleMark _ => false
  | .staleMarkDone => false
  | .klockSet _ => false
  | .plimitWrite _ => false
  | .sfaultClear _ => false
  | .telemetryCounterClear _ _ _ => false
  | .attestationRequest _ => false
  | .attestationDone => false
  | .functionLevelReset => false
  | .flrDrainEnd => false
  | .hostLinkDown => false
  | .hostCompletion _ _ _ => false
  | .remoteTimeout _ _ => false
  | .storageDma _ => false
  | .flitReceive _ _ => false
  | .portDown _ => false
  | .portRetrain _ _ => false
  | .fabricRead _ => false
  | .fabricWrite _ => false
  | .fabricMaskedWrite _ => false
  | .fabricAtomic _ => false
  | .fabricReply _ => false
  | .barrierArrivalMessage _ => false
  | .barrierCompletionMessage _ => false
  | .podBarrierTimeout _ => false
  | .hbmRequest _ _ => false
  | .activationAlert _ _ _ _ => false
  | .selfRefreshEntry _ _ _ => false
  | .scrubPass _ => false
  | .stallSample _ => false
  | .powerWindow _ => false
  | .dieOver105 _ => false
  | .dieBelow100 _ => false
  | .thermalTrip _ => false
  | .debugHalt _ => false
  | .debugQuiescent _ => false
  | .debugAccess _ _ => false
  | .debugRelease _ => false
  | .powerGood _ => false
  | .packageReset => false
  | .notAnInstruction _ => false
  | .literalLanding => false
  | .instructionFetchFault _ => false
  | .hostLinkUp _ _ => false
  | .hostAtomicop _ => false
  | .prefetchFill _ _ => false
  | .refreshDue _ _ _ _ => false

/-- What a word of a packet is (R196): a literal word, an instruction, or a pattern that no encoding accepts. -/
inductive Role where
  | literal
  | instr (i : Instr)
  | broken (r : Reject)
deriving DecidableEq, Repr

/-- Whether a pattern that no encoding accepts needs a literal all the same: its opcode's format is A3, its x bit is 1 and its b
field is 48 (R197). The format is that of the opcode's words whose other fields below bit 21 are zero. -/
def brokenLiteral (w : Nat) : Bool :=
  w % 256 == 97 && [97, 2097249].any fun n => match decodeWord (w / 2 ^ 22 % 256 * 2 ^ 22 + n) with
    | .ok i => needsLiteral i
    | .error _ => false

/-- The roles of consecutive words; the first argument says whether the next word is a literal (R197). -/
def rolesFrom : Bool → List Nat → List Role
  | _, [] => []
  | true, _ :: ws => .literal :: rolesFrom false ws
  | false, w :: ws => match decodeWord w with
    | .ok i => .instr i :: rolesFrom (needsLiteral i) ws
    | .error r => .broken r :: rolesFrom (brokenLiteral w) ws

/-- The roles of a packet's words, decoded from word 0 (R196). -/
def roles (ws : List Nat) : List Role := rolesFrom false ws

/-- The word address of word 0 of a PC's packet (R196). -/
def packetOf (pc : Word) : Nat := pc.toNat - pc.toNat % 3

/-- A word of code fetched at a word address: the physical address it lies at, or why the fetch fails (R213). -/
def State.fetchAt (s : State) (space : Nat) (tenant : BitVec 16) (a : Nat) : Xlate :=
  (s.translate space tenant .fetch (4 * a)).1

/-- Where the words of a PC's packet lie, or the cause and address of the fetch that fails: the PC's own word first, then the
others, since every packet is decoded from word 0 (R196, R213). -/
def State.codeSpots (s : State) (space : Nat) (tenant : BitVec 16) (pc : Word) : Except (Cause × Nat) (List Nat) :=
  let at_ := fun a => s.fetchAt space tenant a
  let p := packetOf pc
  match at_ pc.toNat, at_ p, at_ (p + 1), at_ (p + 2) with
  | .fail c, _, _, _ => .error (c, 4 * pc.toNat)
  | _, .fail c, _, _ => .error (c, 4 * p)
  | _, _, .fail c, _ => .error (c, 4 * (p + 1))
  | _, _, _, .fail c => .error (c, 4 * (p + 2))
  | _, .ok a _ _, .ok b _ _, .ok d _ _ => .ok [a, b, d]

/-- The malformed entries that the fetch of a PC's packet meets (R426). -/
def State.codeMalformed (s : State) (space : Nat) (tenant : BitVec 16) (pc : Word) : Nat :=
  ((List.range 3).filter fun i => (s.translate space tenant .fetch (4 * (packetOf pc + i))).2).length

/-- The lowest word address at which a live lane of the group stands. -/
def Group.firstPc (g : Group) : Word :=
  BitVec.ofNat 32 ((g.lanes.filter (·.park.isNone)).foldl (fun m t => min m t.vpc.toNat) 0xFFFFFFFF)

/-- The packet of a group's issue address. -/
def Group.packet (g : Group) : Word := BitVec.ofNat 32 (packetOf g.firstPc)

/-- Words of code read at their homes under a name: the words and the highest code that they meet, or nothing while an answer
from beyond the package is awaited (R10, R420). -/
def State.fetchWords (s : State) (k : Nat) (who : List Nat) : List Nat → State × Option (List Nat × Nat)
  | [] => (s, some ([], 0))
  | pa :: pas => match s.readAt k 0 who pa 4 with
    | (t, none) => (t, none)
    | (t, some a) => match t.fetchWords k who pas with
      | (u, none) => (u, none)
      | (u, some r) => (u, some (leNat a.2 :: r.1, max a.1 r.2))

/-- The words of a group's packet, which lie at `pas`, with the code of the error that their read meets: what this package's
memory holds now, or what has been fetched from beyond it; nothing while that is awaited (R213, R420). -/
def State.codeOf (s : State) (g : Group) (pas : List Nat) : Option (List Nat × Nat) :=
  if pas.any fun pa => (s.beyond (.phys pa)).isSome then
    match g.fetched with
    | some (p, some x) => if p = g.packet ∧ x.2 < 3 then some x else none
    | _ => none
  else some (pas.map (s.wordPa · 4), pas.foldl (fun c pa => max c (s.homeCode (.phys pa) 4)) 0)

/-- The role of the word at a PC within its packet. -/
def roleAt (ws : List Nat) (pc : Word) : Role := (roles ws).getD (pc.toNat % 3) .literal

/-- The word address after the word at `pc` and its literal (R160, R355). -/
def afterWord (ws : List Nat) (pc : Word) : Word :=
  match roleAt ws pc with
  | .instr i => if needsLiteral i then pc + 2 else pc + 1
  | _ => pc + 1

/-! ## Words that cannot issue (R198, R213) -/

/-- The fault cause of a rejected pattern. -/
def Reject.cause : Reject → Cause
  | .illegalOpcode => .illegalOpcode
  | .reservedField => .reservedField
  | .illegalOperand => .illegalOperand
  | .truncated => .illegalOpcode

/-- NOT_AN_INSTRUCTION (R213): a pattern that no encoding accepts raises its cause for the executing lanes. -/
def execNotAnInstruction (w : BitVec 32) (s : State) : Result :=
  .next (match decodeWord w.toNat with
    | .ok _ => s
    | .error r => s.raise (Reject.cause r))

/-- LITERAL_LANDING (R198): the lanes that stand at the literal word raise literal-landing. -/
def execLiteralLanding (s : State) : Result := .next (s.raise .literalLanding)

/-- INSTRUCTION_FETCH_FAULT (R213): the active lanes raise the cause at the address that could not be fetched. -/
def execInstructionFetchFault (c : FetchCause) (s : State) : Result :=
  let cause : Cause := match c with
    | .notPresent => .notPresent
    | .kernelFrame => .kernelFrame
    | .permission => .permission
  let va := match s.codeSpots s.space s.tenant s.issue.pc with
    | .error e => e.2
    | .ok _ => 4 * s.issue.pc.toNat
  .next (if s.issue.exec = 0 then s
    else s.takeFault cause s.issue.exec s.issue.exec (BitVec.ofNat 64 va) 0 [pageOf (BitVec.ofNat 64 va)] [])

end Sys2Proof.Machine
end

