-- ==== Sys2Proof/Machine/Walk.lean ====
section
/-! DEFINITION. A word whose lanes act one after another in ascending lane order (R57, R348): what they have done so
far. -/

namespace Sys2Proof.Machine

/-- What the lanes of a word have done so far, one after another: the state, whether the word is uniform, the lanes'
faults, malformed entries met, comparators hit, stores to be dispatched, values for the destination, whether an access lay
on an SC page (R71), and the number under which the word's operations count. -/
structure Walk where
  st : State
  u : Bool
  faults : List LaneFault
  malformed : Nat
  comps : List Nat
  stores : List (LaneAccess × List Byte)
  vals : List (Nat × Nat)
  sc : Bool
  word : Nat

/-- Before the first lane. -/
def Walk.start (s : State) (u : Bool) : Walk where
  st := s
  u := u
  faults := []
  malformed := 0
  comps := []
  stores := []
  vals := []
  sc := false
  word := s.nextId

/-- The lanes that a lane of the word acts for (R38). -/
def Walk.mask (r : Walk) (l : Nat) : Word := if r.u then r.st.issue.exec else maskOf (· == l)

/-- A lane's fault. -/
def Walk.fault (r : Walk) (l : Nat) (c : Cause) (va : DWord) : Walk := { r with faults := r.faults ++ [(l, c, va)] }

/-- A lane's access of `n` bytes checked and compared by the watchpoints; where it passes and has to wait for nothing (R6, R284),
the lane goes on. -/
def Walk.check (r : Walk) (n : Nat) (t : Try) (watch : List Nat) (go : Nat → Walk → Walk) : Walk :=
  match t.fault, t.access.loc with
  | some f, _ => { r with faults := r.faults ++ [f], malformed := r.malformed + if t.malformed then 1 else 0 }
  | none, .phys pa =>
    if watch ≠ [] then { r.fault t.access.lane .watchpoint t.access.va with comps := (r.comps ++ watch).eraseDups }
    else match r.st.roomWait n [t] with
      | some w => { r with st := r.st.wait w }
      | none => go pa { r with sc := r.sc || t.sc }
  | none, .spad _ => r

/-- A lane's own write at a virtual address. -/
def LaneAccess.at_ (l : Nat) (va : DWord) (pa : Nat) : LaneAccess := { lane := l, va := va, loc := .phys pa, global := true }

/-- A lane's write at a virtual address, checked and compared (R170). -/
def Walk.write (r : Walk) (l : Nat) (va : DWord) (new : List Byte) (go : Nat → Walk → Walk) : Walk :=
  let t := r.st.tryGlobal .write new.length l va
  let q := r.st.sampled true (fun _ => new.length) (passed [t])
  { r with st := q.1 }.check new.length t
    (r.st.watchers true t.access new.length new (r.st.sample q.2 t.access new.length)) go

/-- An error in what the lanes of `m` read at once: it is reported before the group's next issue (R161, R162). -/
def State.noteError (s : State) (c : Cause) (m : Word) : State :=
  s.onGrp fun g => { g with errors := g.errors ++ [lateReport c s.issue.pc m false s.tick] }

/-- A lane reads what it needs at once, as it sees the core's stores before number `id`, and behind its own lanes' loads and
atomics of the same bytes (R60); where that cannot be read the lane does nothing more. -/
def Walk.read (r : Walk) (l id pa n : Nat) (go : List Byte → Walk → Walk) : Walk :=
  if r.st.overtakes (.phys pa) n then { r with st := r.st.wait .pipeBusy }
  else match r.st.readAt r.st.issue.core id r.st.wordName pa n with
  | (t, some (0, b)) => go b { r with st := t }
  | (t, some (c, _)) => { r with st := t.noteError (errCause c) (r.mask l) }
  | (t, none) => { r with st := t }

end Sys2Proof.Machine
end

