-- ==== Sys2Proof/Machine/System.lean ====
section
/-! DEFINITION. The words of chapter 14: tasks, counters, work queues, barriers, register pools, parking, traps, watch,
clock, markers, holds, capabilities and sleep (R341 to R362). -/

namespace Sys2Proof.Machine

/-! ## Releasing tasks and updating counters (R342 to R345) -/

/-- The party of the group being issued, whose operation `id` waits with its pushes. -/
def State.party (s : State) (id : Nat) : Party :=
  s.partyOf s.issue.core s.wordName s.curTeam.origin (some (s.issue.core, id))

/-- An operation of pushes ends when none of them waits any longer: its register is written and its flag loses 1
(R139, R343, R345). -/
def State.endPush (s : State) (k id : Nat) : State :=
  match (s.core k).op id with
  | none => s
  | some f => match f.kind with
    | .push 0 _ d vals =>
      let val := fun l => (vals.find? fun v => vals.length == 1 || v.1 == l).elim 0 (·.2)
      let s := match d with
        | some d => s.fillWords k f.slot f.team d 1 f.mask val
        | none => s
      (s.lowerFlag k f).modCore k (·.dropOp id)
    | _ => s

/-- The pushes that an operation still waits for, with the values it keeps. -/
def Flight.setPush (f : Flight) (left : Nat) (block : Bool) (d : Option Nat) (vals : List (Nat × Nat)) : Flight :=
  { f with kind := .push left block d vals }

/-- Why a releasing word waits: its flag, an acquire, or its lanes' earlier accesses (R270). -/
def State.releaseWait (s : State) (fs : Bool) : Option Stall :=
  (s.memWait (some fs)).orElse fun _ => if s.settled 6 then none else some .pipeBusy

/-- The record accesses of `task.spawn` (R343). -/
def State.spawnTries (s : State) (u q : Bool) (a b : Nat) (x : Bool) : List Try :=
  (s.doers u).map fun l =>
    let va := s.A2 a l
    if q && 96 ≤ (s.B b x l).toNat then .fail l va .illegalOperand false else s.tryGlobal .read 64 l va

/-- `task.spawn` (R343): each lane's record is pushed in ascending lane order. -/
def execTaskSpawn (_c u l f : Bool) (a b : BitVec 7) (x : Bool) (s : State) : Result :=
  s.checked (s.v2Ok a.toNat && (!l || s.bOk b.toNat x))
    (s.after ((s.releaseWait f).orElse fun _ => s.roomWait 64 (s.spawnTries u l a.toNat b.toNat x))
      (s.access u (s.spawnTries u l a.toNat b.toNat x) (fun _ => []) fun ls _ t =>
        let id := t.nextId
        let p := t.party id
        let t := t.dispatch (some f) (t.accessMask u ls) none false false (.push 0 true none [])
        let r := ls.foldl (fun t y =>
          let rd := t.readRecord p y.va
          rd.1.push (if l then (s.B b.toNat x y.lane).toNat else p.quad)
            (RqEntry.of y.va ((rd.2.map (·.prio)).getD 0) p.origin) p.waiter) t
        (r.onCore (·.modOp id (·.setPush (r.waitingPushes - t.waitingPushes) true none []))).endPush s.issue.core id))

/-- `task.done` (R344). -/
def execTaskDone (_c : Bool) (s : State) : Result :=
  .next (if s.issue.exec = 0 then s else s.onCore (·.partDone s.issue.slot))

/-- The bytes that a counter update writes over the old ones, as the watchpoints see it. -/
def ctrBytes (old : List Byte) (delta : Int) : List Byte :=
  let w := ctrWords (leNat (old.take 4)) (leNat (old.drop 4)) delta false
  leBytes 4 w.1 ++ leBytes 4 w.2.1

/-- `ctr.add` (R345): the lanes' updates in ascending lane order, once the hold windows over the records let them (R360); vD takes
the count that each read. -/
def execCtrAdd (_c u : Bool) (d a b : BitVec 7) (x : Bool) (s : State) : Result :=
  let delta := fun l => (s.B b.toNat x (s.from u l)).toInt
  let tries := (s.doers u).map fun l => s.tryGlobal .write 16 l (s.A2 a.toNat l)
  s.checked (s.vOk d.toNat && s.v2Ok a.toNat && s.bOk b.toNat x)
    (s.after ((s.releaseWait false).orElse fun _ => (s.roomWait 16 tries).orElse fun _ =>
        s.holdFor ((passed tries).flatMap (·.span 8)))
      (let q := s.sampled true (fun _ => 8) (passed tries)
       let old := fun y => s.sample q.2 y 8
       q.1.access u tries (fun y => s.watchers true y 8 (ctrBytes (old y) (delta y.lane)) (old y))
        fun ls _ t =>
          let id := t.nextId
          let p := t.party id
          let t := t.dispatch (some false) (t.accessMask u ls) none false false (.push 0 false (some d.toNat) [])
          let r := ls.foldl (fun (r : State × List (Nat × Nat)) y =>
            let c := r.1.counter p y.va (delta y.lane) false
            (c.1, r.2 ++ [(y.lane, c.2)])) (t, [])
          (r.1.onCore (·.modOp id (·.setPush (r.1.waitingPushes - t.waitingPushes) false (some d.toNat) r.2))).endPush
            s.issue.core id))

/-! ## Work queues (R346 to R348) -/

/-- The word ends: its faults are raised, its stores dispatched on flag A, and its results written. With lanes that wait,
the word counts once until the last of them has its item (R206). -/
def Walk.finish (r : Walk) (d n : Nat) (waits : Word) : State :=
  let s := (r.st.noteMalformed r.malformed).raiseLanes r.u false r.faults r.comps
  let flag := s.flag (some false)
  let m := if r.u ∧ r.vals ≠ [] then s.issue.exec else maskOf fun l => r.vals.any (·.1 == l)
  let s := if waits = 0 then s else s.enter r.word flag waits none false false .pops
  let s := s.enterAll r.word flag false r.sc (s.storeParts r.u r.sc r.stores)
  let s := if waits = 0 ∧ r.stores = [] then s else s.countFlag flag
  s.onGrp fun g => { g with rf := g.rf.setWords d n m fun l =>
    (r.vals.find? fun v => r.u || v.1 == l).elim 0 (·.2) }

/-- A work-queue descriptor (R142). -/
structure WqDesc where
  base : DWord
  tail : DWord
  head : DWord
  lcap : Nat
deriving DecidableEq, Repr

/-- The fields of a descriptor's 32 bytes. -/
def WqDesc.of (b : List Byte) : WqDesc :=
  let q := fun o => leNat ((b.drop o).take 8)
  { base := BitVec.ofNat 64 (q 0), tail := BitVec.ofNat 64 (q 8), head := BitVec.ofNat 64 (q 16), lcap := bits (q 24) 63 58 }

/-- Whether lcap is legal (R142). -/
def WqDesc.ok (w : WqDesc) : Bool := 1 ≤ w.lcap && w.lcap ≤ 24

/-- The address of the slot of item `n`. -/
def WqDesc.slot (w : WqDesc) (n : DWord) : DWord := w.base + BitVec.ofNat 64 (8 * (n.toNat % 2 ^ w.lcap))

/-- One lane of `wq.push` (R143, R348): a compare-and-swap advances the tail, tried again from the first step until it
succeeds, once the hold windows over it let it (R360), and the slot's release store is on its way. The first argument bounds the tries, each of which takes answers that
have come (assumption 40). -/
def Walk.push : Nat → Walk → Nat → DWord → DWord → Walk
  | 0, r, _, _, _ => { r with st := r.st.wait .pipeBusy }
  | n + 1, r, l, va, item =>
    r.check 32 (r.st.tryGlobal .write 32 l va) [] fun pa r => r.read l 0 pa 32 fun b r =>
      let w := WqDesc.of b
      if !w.ok || item == emptyItem then r.fault l .illegalOperand va
      else if (w.tail - w.head).toNat = 2 ^ w.lcap then { r with vals := r.vals ++ [(l, 1)] }
      else
        r.write l (va + 8) (leBytes 8 (w.tail + 1).toNat) fun tpa r =>
          r.write l (w.slot w.tail) (leBytes 8 item.toNat) fun spa r =>
            let pushed := { r with
              stores := r.stores ++ [(LaneAccess.at_ l (w.slot w.tail) spa, leBytes 8 item.toNat)]
              vals := r.vals ++ [(l, 0)] }
            match r.st.holdFor [(false, va.toNat + 8, 8)] with
            | some h => { r with st := r.st.wait h }
            | none => match r.st.swapAt r.st.issue.core r.st.nextId r.st.wordName tpa 8 w.tail.toNat (w.tail + 1).toNat with
              | (t, some (0, was)) =>
                if was = w.tail.toNat then { pushed with st := t } else Walk.push n { r with st := t } l va item
              | (t, some (c, _)) => { r with st := t.noteError (errCause c) (r.mask l) }
              | (t, none) => { r with st := t }

/-- `wq.push` (R348). -/
def execWqPush (_c u : Bool) (d a b : BitVec 7) (x : Bool) (s : State) : Result :=
  s.checked (s.vOk d.toNat && s.v2Ok a.toNat && s.b2Ok b.toNat x)
    (s.after (s.releaseWait false)
      (((s.doers u).foldl (fun r l =>
        Walk.push (s.fabric.requests.length + 1) r l (s.A2 a.toNat l) (s.B2 b.toNat x l)) (Walk.start s u)).finish d.toNat 1 0))

/-- A window after its first item has been popped (R144). -/
def WqWindow.popped (win : WqWindow) (rest : List DWord) : WqWindow :=
  { win with items := rest, first := win.first + 1, refill := win.refill || rest.length ≤ 2 }

/-- The stores of a pop: the empty value into the item's slot, the number behind it to head (R144). -/
def popBytes (first : DWord) : List Byte × List Byte := (leBytes 8 emptyItem.toNat, leBytes 8 (first + 1).toNat)

/-- One lane of `wq.pop` (R144, R347): the window's first item, or a wait for a refill. -/
def Walk.pop (r : Walk) (l : Nat) (va : DWord) (d : Nat) (form : Bool) : Walk :=
  r.check 32 (r.st.tryGlobal .write 32 l va) [] fun pa r => r.read l r.st.nextId pa 32 fun b r =>
    let w := WqDesc.of b
    let win := (r.st.grp.lane l).win
    let items := if win.desc = some va then win.items else []
    let n := if items = [] then w.head else win.first
    let bs := popBytes n
    if !w.ok then r.fault l .illegalOperand va
    else r.write l (w.slot n) bs.1 fun spa r => match items with
      | item :: rest =>
        r.write l (va + 16) bs.2 fun hpa r =>
          { r with
            st := r.st.onGrp (·.modLane l fun t => { t with win := win.popped rest })
            stores := r.stores ++ [(LaneAccess.at_ l (w.slot n) spa, bs.1), (LaneAccess.at_ l (va + 16) hpa, bs.2)]
            vals := r.vals ++ [(l, item.toNat)] }
      | [] =>
        let p : PopWait :=
          { desc := va, dest := d, form := form, mask := r.mask l, pc := r.st.issue.pc, word := r.word }
        { r with st := r.st.onGrp (·.modLane l fun t => { t with win := p.window }) }

/-- The lanes of a group that wait for an item under a number (R206). -/
def Group.popping (g : Group) (word : Nat) : Word :=
  maskOf fun l => ((g.lane l).win.waiting.any fun p => p.word == word) ||
    (g.lane l).park.any fun p => p.pop && p.word == word

/-- `wq.pop` (R347). -/
def execWqPop (_c u : Bool) (d a : BitVec 7) (w : Bool) (s : State) : Result :=
  s.checked (s.v2Ok d.toNat && s.v2Ok a.toNat)
    (s.after (s.memWait (some false))
      (let r := (s.doers u).foldl (fun r l => Walk.pop r l (s.A2 a.toNat l) d.toNat w) (Walk.start s u)
       r.finish d.toNat 2 (r.st.grp.popping r.word)))

/-! ## Barriers (R349 to R351) -/

/-- Whether a barrier's number lies within its scope's count (R349). -/
def barOk (scope n : Nat) : Bool := n < barCount scope

/-- Whether the tenant may arrive at a package or pod barrier (R350, R403, R454). -/
def State.barTenantOk (s : State) (scope n : Nat) : Bool :=
  let entry := fun i => (s.barTenants.getD i 0).toNat
  let mine := fun i => bit (entry i) 15 && bits (entry i) 31 16 == s.tenant.toNat
  if scope = 5 then mine n
  else if scope = 6 then mine (4 + n) && (s.fabric.podroot.getD n 0).getLsbD 15
  else true

/-- The checks of an arrival, all precise at issue (R350). -/
def State.arriveOk (s : State) (scope n a : Nat) : Bool :=
  let count := (s.issue.src.rs a).toNat % 2 ^ 32
  a < 64 && barOk scope n && 1 ≤ count && count ≤ 2 ^ 20 && s.barTenantOk scope n

/-- The arrival is on its way (R350). -/
def State.arrive (s : State) (scope : BitVec 3) (n : BitVec 4) (a : Nat) (dest : Option Nat) : State :=
  s.dispatch none s.issue.exec none false false (.arrive scope n ((s.issue.src.rs a).toNat % 2 ^ 32) dest)

/-- The wait of the word being issued at a barrier. -/
def State.barWait (s : State) (sc : BitVec 3) (n : BitVec 4) (token : Option Word) : BarWait where
  scope := sc
  num := n
  token := token
  pc := s.issue.pc
  mask := s.issue.exec

/-- A group that waits at a barrier. -/
def Group.holdAt (g : Group) (w : BarWait) : Group := { g with barWait := some w, heldPc := w.pc }

/-- `bar` (R351): arrives and waits; its token is taken at delivery. -/
def execBar (_c _u : Bool) (a : BitVec 7) (sc : BitVec 3) (n : BitVec 4) (s : State) : Result :=
  s.checked (s.arriveOk sc.toNat n.toNat a.toNat)
    (if s.issue.exec = 0 then s else (s.arrive sc n a.toNat none).onGrp (·.holdAt (s.barWait sc n none)))

/-- `bar.arrive` (R351). -/
def execBarArrive (_c _u : Bool) (d a : BitVec 7) (sc : BitVec 3) (n : BitVec 4) (s : State) : Result :=
  s.checked (d.toNat < 64 && s.arriveOk sc.toNat n.toNat a.toNat)
    (if s.issue.exec = 0 then s else s.arrive sc n a.toNat (some d.toNat))

/-- `bar.wait` (R351): passes at once when the completion count already differs. -/
def execBarWait (_c _u : Bool) (a : BitVec 7) (sc : BitVec 3) (n : BitVec 4) (s : State) : Result :=
  let token : Word := (s.issue.src.rs a.toNat).setWidth 32
  s.checked (a.toNat < 64 && barOk sc.toNat n.toNat)
    (if s.issue.exec = 0 then s
     else if (s.barrier s.issue.core sc.toNat n.toNat).completions ≠ token then s.acquired
     else s.onGrp (·.holdAt (s.barWait sc n (some token))))

/-! ## Register pools (R45, R46, R352) -/

/-- Whether a register at or beyond `n` is pending: one that an operation or a waiting pop still writes, one whose latency has not
passed (R215), or the result of a parked lane (R352, R353). -/
def State.pendingFrom (s : State) (n : Nat) : Bool :=
  let late := (s.grp.late.filter (s.clk < ·.2.2)).map (·.1)
  let parks := s.grp.lanes.filterMap fun t => t.park.map fun p => Reg.v p.dest
  (s.pendingRegs.map (·.1) ++ late ++ parks).any fun r => match r with
    | .v i => n ≤ i
    | _ => false

/-- `role.give` (R45): the highest blocks go to the team's pool. -/
def execRoleGive (_c _u : Bool) (n : BitVec 15) (s : State) : Result :=
  let len := s.issue.src.v.length
  let ok := 1 ≤ n.toNat && n.toNat ≤ 15 && 8 * n.toNat + 8 ≤ len
  if ok ∧ s.issue.exec ≠ 0 ∧ s.pendingFrom (len - 8 * n.toNat) then .next (s.wait .registerPending)
  else s.checked ok
    (if s.issue.exec = 0 then s
     else (s.onGrp fun g => { g with rf := { g.rf with v := g.rf.v.take (len - 8 * n.toNat) } }).onCore fun c =>
       (c.modTeam s.grp.team fun t => { t with pool := t.pool + n.toNat }).serveClaims s.grp.team)

/-- `role.claim` (R46): it takes its turn, and is served at once where the pool and the earlier claims allow. -/
def execRoleClaim (_c _u : Bool) (n : BitVec 15) (s : State) : Result :=
  s.checked (1 ≤ n.toNat && n.toNat ≤ 15 && s.issue.src.v.length + 8 * n.toNat ≤ 128)
    (if s.issue.exec = 0 then s
     else (s.onGrp fun g => { g with claim := some n.toNat, heldPc := s.issue.pc }).onCore fun c =>
       (c.modTeam s.grp.team fun t => { t with claims := t.claims ++ [(s.issue.slot, n.toNat)] }).serveClaims s.grp.team)

/-! ## Parking (R34, R35, R353) -/

/-- A lane parks on the word at its access (R34). -/
def State.parkLane (s : State) (l d : Nat) (x : LaneAccess) (expected : Word) : State :=
  let pa := match x.loc with
    | .phys pa => pa
    | .spad o => o
  let p : ParkRec :=
    { pop := false, va := x.va, pa := pa, width := 4, expected := expected.setWidth 64, deadline := s.clk + 65536,
      dest := d, desc := 0, mask := BitVec.ofNat 32 (2 ^ l), pc := s.issue.pc, event := none, word := 0 }
  s.onGrp (·.modLane l fun t => { t with park := some p })

/-- `park` (R353): each lane reads its word at once. -/
def execPark (_c u : Bool) (d a b : BitVec 7) (x : Bool) (s : State) : Result :=
  let tries := (s.doers u).map fun l => s.tryGlobal .read 4 l (s.A2 a.toNat l)
  let passes := (passed tries).any fun y => s.overtakes y.loc 4
  s.checked (s.vOk d.toNat && s.v2Ok a.toNat && s.bOk b.toNat x)
    (s.after (if s.issue.exec = 0 then none else s.memHeld.orElse fun _ =>
        if passes then some .pipeBusy else s.roomWait 4 tries)
      (let q := s.readLanes 4 (passed tries)
       q.1.access u tries (fun y => s.watchers false y 4 (q.2.2 y) [])
        fun ls _ t => (ls.foldl (fun t y =>
          let m := t.accessMask u [y]
          let want := s.B b.toNat x y.lane
          match q.2.1 y with
          | 0 =>
            if leNat (q.2.2 y) = want.toNat then (lanesOf m).foldl (fun t l => t.parkLane l d.toNat y want) t
            else t.onGrp fun g => { g with rf := g.rf.setV d.toNat m fun _ => 0 }
          | e => t.noteError (errCause e) m) t).onGrp (·.allParked (t.parkChanged t.issue.core))))

/-! ## Traps (R354, R355) -/

/-- `trap` (R354): raises software-trap for the executing lanes, with its code. -/
def execTrap (k : BitVec 22) (s : State) : Result :=
  .next (if s.issue.exec = 0 then s else s.takeFault .softwareTrap s.issue.exec s.issue.exec 0 k [] [])

/-- Where `sysret.after` goes from `t`, or why it cannot (R355), with the code of an error that the fetch met there: the lane
then goes to `t` itself, and its group stops (DESIGN CHOICE, assumption 73). -/
def State.afterTarget (s : State) (t : Word) : State × Except (Cause × Nat) (Word × Nat) :=
  match s.codeSpots s.space s.tenant t with
  | .error e => (s, .error e)
  | .ok pas => match s.fetchWords s.issue.core s.wordName pas with
    | (u, none) => (u, .ok (t, 0))
    | (u, some (ws, c)) => (u, if c ≠ 0 then .ok (t, c) else match roleAt ws t with
      | .literal => .error (.illegalOperand, 4 * t.toNat)
      | _ => .ok (afterWord ws t, 0))

/-- Where each executing lane of a `sysret` goes: its target, or behind the word at it in the after form (R355). -/
def State.sysTargets (s : State) (after : Bool) (a : Nat) : State × List (Nat × Except (Cause × Nat) (Word × Nat)) :=
  (lanesOf s.issue.exec).foldl (fun (r : State × List (Nat × Except (Cause × Nat) (Word × Nat))) l =>
    let t := s.A a l
    if after then
      let x := (r.1.noteMalformed (s.codeMalformed s.space s.tenant t)).afterTarget t
      (x.1, r.2 ++ [(l, x.2)])
    else (r.1, r.2 ++ [(l, .ok (t, 0))])) (s, [])

/-- `sysret` (R355). -/
def execSysret (_c : Bool) (f : BitVec 2) (a : BitVec 7) (s : State) : Result :=
  let r := s.sysTargets (f == 1) a.toNat
  let faults := r.2.filterMap fun x => match x.2 with
    | .error e => some (x.1, e.1, BitVec.ofNat 64 e.2)
    | .ok _ => none
  let going := r.2.filterMap fun x => match x.2 with
    | .error _ => none
    | .ok w => some (x.1, w)
  let go := maskOf fun l => going.any (·.1 == l)
  let met := fun c => maskOf fun l => going.any fun x => x.1 == l && x.2.2 == c
  let note := fun (s : State) c => if met c = 0 then s else s.noteError (errCause c) (met c)
  let s' := note (note ((r.1.raiseLanes false false faults []).branch false go fun l =>
    (going.find? (·.1 == l)).elim 0 (·.2.1)) 1) 2
  s.checked (f != 3 && s.vOk a.toNat)
    (if f = 2 then s'.onGrp fun g => { g with noWatch := g.noWatch ||| go } else s')

/-! ## Watchpoints, clocks, markers, holds (R356 to R360) -/

/-- `watch` (R356, R357). -/
def execWatch (_c _u : Bool) (n e t : BitVec 2) (a : BitVec 7) (s : State) : Result :=
  let r := fun i => s.issue.src.rs (a.toNat + i)
  let w : Comparator :=
    { access := e, data := t, base := r 0, len := r 1, value := r 2, vmask := r 3, tenant := s.tenant,
      setter := s.issue.slot, since := s.clk }
  s.checked (t != 3 && !(t == 2 && e == 1) && a.toNat < 64 && a.toNat % 4 == 0 &&
      !s.cur.regs.cctl.getLsbD (4 + n.toNat))
    (if s.issue.exec = 0 then s
     else s.onCore fun c => { c with watch := c.watch.set n.toNat (if e = 0 then Comparator.reset else w) })

/-- Whether an earlier word of the group has accesses to finish: loads to be written, stores and atomics to be acknowledged,
counter updates and pops to be completed (R358). -/
def Flight.undrained (f : Flight) : Bool :=
  match f.kind with
  | .load _ _ => true
  | .store _ => true
  | .rmw _ _ _ => true
  | .push _ _ _ _ => true
  | .pops => true
  | _ => false

/-- The earlier words of the group that `clock.drain` waits for: clk of issue and PC (R358). -/
def State.unfinished (s : State) : List (Nat × Word) :=
  ((s.mine.filter Flight.undrained).map fun f => (f.born, f.pc)) ++
    (s.grp.holding.filter (s.clk < ·.2.2)).map fun h => (h.2.1, h.1)

/-- The PC of the oldest of several words; of equal age the first. -/
def oldest : List (Nat × Word) → Word
  | [] => 0
  | x :: xs => (xs.foldl (fun m y => if y.1 < m.1 then y else m) x).2

/-- `clock` (R358). -/
def execClock (_c _u : Bool) (d : BitVec 7) (src m : Bool) (s : State) : Result :=
  s.checked (d.toNat < 64)
    (if m ∧ s.issue.exec ≠ 0 ∧ s.unfinished ≠ [] then s.wait (.behind (oldest s.unfinished))
     else s.putS d.toNat (BitVec.ofNat 64 (if src then s.tick else s.clk)))

/-- `pmark` (R359): the marker counter advances; with tracing enabled a trace record goes out. -/
def execPmark (_c : Bool) (i : BitVec 22) (s : State) : Result :=
  let t := s.curTeam
  let rec_ : Output := .trace s.issue.core s.issue.slot s.issue.pc i.toNat t.origin.lseq t.origin.cpc s.clk
  let s' := s.onCore fun c => { c with regs := { c.regs with counters := c.regs.counters.modify 5 (· + 1) } }
  .next (if s.issue.exec = 0 then s
    else if s.cur.regs.cctl.getLsbD 2 then { s' with out := s.out ++ [rec_] } else s')

/-- `hold` (R360). -/
def execHold (_c _u : Bool) (d a : BitVec 7) (s : State) : Result :=
  let r := fun i => (s.issue.src.rs (a.toNat + i)).toNat
  let n := r 2 % 2 ^ 20
  let w : HoldWin := { team := s.grp.team, base := r 0, len := r 1, pav := bit (r 2) 63, n := n }
  let mine := fun (h : HoldWin) => h.team == w.team && h.pav == w.pav && overlap h.base h.len w.base w.len
  let code := if !s.cur.regs.cctl.getLsbD 1 then 1 else if n = 0 then 3 else if 4 ≤ s.cur.holds.length then 2 else 0
  let holds := if code = 3 then s.cur.holds.filter fun h => !mine h
    else if code = 0 then s.cur.holds ++ [w] else s.cur.holds
  let t := s.onCore fun c => { c with holds := holds }
  s.checked (a.toNat < 64 && a.toNat % 4 == 0 && s.vOk d.toNat && bits (r 2) 62 20 == 0)
    (if s.issue.exec = 0 then s else t.putV false d.toNat fun _ => BitVec.ofNat 32 (2 ^ 31 + code))

/-! ## Capabilities and sleep (R361, R362) -/

/-- The version and length of a capability record of the list that starts at a window offset (R399). -/
def capFind : Nat → Memory → Nat → Nat → Option (Nat × Nat)
  | 0, _, _, _ => none
  | n + 1, m, off, id =>
    if off = 0 then none
    else
      let w := leNat (m.bytes off 4)
      if w % 2 ^ 16 = id then some (w / 2 ^ 16, leNat (m.bytes (off + 4) 4))
      else capFind n m (leNat (m.bytes (off + 8) 4)) id

/-- `cap` (R361): an absent id writes 0 to both registers. -/
def execCap (_c u : Bool) (d b : BitVec 7) (x : Bool) (s : State) : Result :=
  let rec_ := fun l => capFind 64 s.host.info s.host.capHead.toNat (s.B b.toNat x (s.from u l)).toNat
  s.checked (s.v2Ok d.toNat && s.bOk b.toNat x)
    ((s.putV false d.toNat fun l => (rec_ l).elim 0 fun r => BitVec.ofNat 32 (2 ^ 31 + r.1)).putV false (d.toNat + 1)
      fun l => (rec_ l).elim 0 fun r => BitVec.ofNat 32 r.2)

/-- `sleep` (R362): the group issues nothing on the `n` clk behind this one. -/
def execSleep (_c _u : Bool) (n : BitVec 15) (s : State) : Result :=
  .next (if s.issue.exec = 0 ∨ n = 0 then s else s.onGrp fun g => { g with
    sleepUntil := some (s.clk + n.toNat + 1)
    heldPc := s.issue.pc })

end Sys2Proof.Machine
end

