-- ==== Sys2Proof/Machine/Return.lean ====
section
/-! DEFINITION. The events of operations in flight: data that return, writes that reach their home, acknowledgements,
and the ends of copies, bank streams and context images (R60, R67 to R72, R161, R206, R266, R281, R286 to R288,
R441). An event that finds no subject changes nothing. -/

namespace Sys2Proof.Machine

/-! ## Loads (R161, R266, R291) -/

/-- A group that waits to be switched out is, once its loads have returned (R150). -/
def State.drained (s : State) (k slot team : Nat) : State :=
  if ((s.core k).owner slot team).any (·.phase == .draining) then s.switchOut k slot else s

/-- A load has its data: its destinations are written, and the errors of the lanes that failed are reported (R161). -/
def State.loadReturned (s : State) (k : Nat) (f : Flight) (dest : LoadDest) (ls : List LaneAccess) : State :=
  let r := s.loadBack k f dest ls
  (((r.1.lateErrors k f r.2).sendRequests k).drained k f.slot f.team).endTeam k f.team

/-- LOAD_DATA_RETURN (R266): the load takes its value and writes its destinations; lanes whose access failed keep
theirs. On SC pages the lanes of a word take their turns (R267). -/
def execLoadDataReturn (k id : Nat) (s : State) : Result :=
  .next (match (s.core k).op id with
    | none => s
    | some f => match f.kind with
      | .load dest ls => if s.awaits k id ∨ (s.core k).blocked f ∨ !(s.core k).scTurn f then s else s.loadReturned k f dest ls
      | _ => s)

/-! ## Stores and atomics at their home (R57, R60, R87, R436) -/

/-- The error code of a write at its home before its data are looked at: 2 where R421 backs nothing (R422). -/
def Loc.writeCode (a : Loc) : Nat :=
  match a with
  | .spad _ => 0
  | .phys pa => if backed (paLocal pa) then 0 else 2

/-- The writes of a store, in ascending lane order, as its parts from number `i` on: the state, and the parts that failed
(R266). A part that goes beyond the package is passed over. All of them make one step, though lanes are parties of their
own and R60 sets no order between their stores (DESIGN CHOICE, assumption 45). -/
def State.performStores (s : State) (k : Nat) : Nat → List (LaneAccess × List Byte) → State × List (Nat × Nat)
  | _, [] => (s, [])
  | i, x :: xs =>
    if (s.beyond x.1.loc).isSome then s.performStores k (i + 1) xs
    else
      let t := if x.1.loc.writeCode = 0 then s.storeLoc k x.1.loc x.2 else (s, false)
      let r := t.1.performStores k (i + 1) xs
      match if t.2 then 1 else x.1.loc.writeCode with
      | 0 => r
      | e => (r.1, (i, e) :: r.2)

/-- An operation performed, with the parts that failed and the values that it read. -/
def Flight.done (f : Flight) (errs : List (Nat × Nat)) (old : List (Nat × Nat)) : Flight :=
  { f with
    performed := true
    errs := f.errs ++ errs
    kind := match f.kind with
      | .rmw ls d was => .rmw ls d (was ++ old)
      | k => k }

/-- The write or read-modify-write of an operation reaches its home. -/
def State.performOp (s : State) (k : Nat) (f : Flight) : State :=
  match f.kind with
  | .store ls =>
    let r := s.performStores k 0 ls
    (r.1.recordErrors 6 f.kind.locs).modCore k (·.modOp f.id (·.done r.2 []))
  | .rmw ls _ _ =>
    let r := s.performRmws k f.errs 0 ls
    ((r.1.recordErrors 2 f.kind.locs).recordWeak f.kind.locs).modCore k (·.modOp f.id (·.done r.2.2 r.2.1))
  | _ => s

/-- Whether an operation of a core may be performed: not held by a window, in its turn, not behind an earlier access of the core
to the same bytes, not waiting for an answer (R60, R72, R267, R325). -/
def State.canPerform (s : State) (k : Nat) (f : Flight) : Bool :=
  !f.performed && f.held.isNone && (s.core k).scTurn f && !(s.core k).blocked f && !s.awaits k f.id && match f.kind with
    | .store _ => true
    | .rmw _ _ _ => true
    | _ => false

/-- A write of an entry of kind 3 or 4 behind the last of the measurement log appends it: Arbour measures what it loads (R459, R461;
DEDUCED, assumption 38). -/
def State.noteEntry (s : State) (pa : Nat) (bs : List Byte) : State :=
  let kind := leNat (bs.take 4)
  if s.host.log ≠ [] ∧ pa = s.host.logAt + 48 * s.host.log.length ∧ bs.length = 48 ∧ (kind = 3 ∨ kind = 4) then
    { s with host := { s.host with log := s.host.log ++ [bs] } }
  else s

/-- HOME_WRITE (R87): what waited for its turn behind the operation may leave then. -/
def execHomeWrite (w : HomeWrite) (s : State) : Result :=
  .next (match w with
    | .outside pa bs => (s.deviceWrite pa bs).noteEntry pa bs
    | .pending k id => match (s.core k).op id with
      | none => s
      | some f =>
        if !s.canPerform k f then s
        else match s.appendHeld k f with
          | some t => s.modCore k (·.modOp id fun f => { f with held := some t })
          | none => (s.performOp k f).sendRequests k)

/-- The lanes of a performed operation that no error kept from their access. -/
def Flight.good (f : Flight) : Word :=
  let bad := fun l => f.errs.any fun e => (f.lanesOf ((f.kind.accesses[e.1]?).elim 32 (·.lane))).getLsbD l
  f.mask &&& ~~~(maskOf bad)

/-- What the parts of an operation have met: the lane and the code of each that failed. -/
def Flight.failed (f : Flight) : List (Nat × Nat) :=
  f.errs.map fun e => ((f.kind.accesses[e.1]?).elim 32 (·.lane), e.2)

/-- A performed store or atomic is acknowledged: the values that an atomic read are written in the lanes whose access did
not fail, and the others' errors are reported (R161, R206). -/
def State.acked (s : State) (k : Nat) (f : Flight) : State :=
  let val := fun (old : List (Nat × Nat)) l => (old.find? fun v => f.kind.width == 1 || v.1 == l).elim 0 (·.2)
  let s := match f.kind with
    | .rmw _ (some d) old => s.fillWords k f.slot f.team d.1 d.2 f.good (val old)
    | _ => s
  ((s.finishOp k f).acquire k f).lateErrors k f (f.reports s.tick f.failed)

/-- The prefetched lines of the L1 are dropped (R292, R468). -/
def Core.dropL1 (c : Core) : Core :=
  let gone := fun (p : Nat × Nat × Bool) => p.2.1 == 0 && p.2.2
  { c with pref := c.pref.filter fun p => !gone p }.count 3 (c.pref.filter gone).length

/-- STORE_ACK (R206): a performed store or atomic is acknowledged; a `flushl1` has dropped its last line; the last lane of a
`wq.pop` has its item. -/
def execStoreAck (k id : Nat) (s : State) : Result :=
  .next (match (s.core k).op id with
    | none => s
    | some f => match f.kind with
      | .flush => (s.modCore k Core.dropL1).finishOp k f
      | .pops => if ((s.core k).groupOf f.slot f.team).popping f.word = 0 then s.finishOp k f else s
      | _ => if f.performed then s.acked k f else s)

/-! ## Engine operations (R69, R281, R282, R286 to R288) -/

/-- Whether the lane accesses that come before an engine operation are performed: its own lanes', and those that came before
a synchronisation of its group (R66, R69). -/
def Core.engineReady (c : Core) (f : Flight) : Bool :=
  !c.flight.any fun e => e.open_ &&
    (e.id < f.seen || (e.id < f.id && e.slot == f.slot && e.team == f.team && (e.mask &&& f.mask) != 0))

/-- The status word of a code (R282). -/
def statusWord (code : Nat) : Word := BitVec.ofNat 32 (2 ^ 31 + code)

/-- The code of an engine operation's write beyond the package, once it is answered. -/
def State.lateCode (s : State) (f : Flight) (a : Loc) (n : Nat) : Nat := if (s.beyond a).isNone then 0 else s.engineCode f a n

/-- One piece of a copy: the state and the code of what went wrong. -/
def State.copyPiece (s : State) (k : Nat) (f : Flight) (p : CopyPiece) : State × Nat :=
  match s.engineCode f p.1 p.2.2 with
  | 0 => (s.recordWeak [(p.1, p.2.2)]).engineWrite k f p.2.1 (s.engineRead k f p.1 p.2.2)
  | e => (s.recordErrors 2 [(p.1, p.2.2)], e)

/-- The pieces of a copy, one after another: the state and each piece's code. They make one step (DESIGN CHOICE,
assumption 42): R59 gives them no order. -/
def State.copyPieces (s : State) (k : Nat) (f : Flight) : List CopyPiece → State × List Nat
  | [] => (s, [])
  | p :: ps =>
    let r := s.copyPiece k f p
    let t := r.1.copyPieces k f ps
    (t.1, r.2 :: t.2)

/-- The worst of several codes. -/
def worst (es : List Nat) : Nat := es.foldl max 0

/-- The counter of an engine operation that is done (R135, R281, R286). -/
def State.engineCounter (s : State) (k : Nat) (f : Flight) (ctr : DWord) (err : Bool) : State :=
  s.decrement (s.partyOf k [1, k, f.id] f.origin none) ctr err

/-- The code of each piece of a copy whose accesses are all performed. -/
def State.copyCodes (s : State) (f : Flight) (pieces : List CopyPiece) : List Nat :=
  pieces.zipIdx.map fun p => max (f.codes.getD p.2 0) (s.lateCode f p.1.2.1 p.1.2.2)

/-- A copy of a core ends (R286, R287): every lane's status is written, the counter decremented; the whole is withheld
while a push of the counter would wait (R139). -/
def State.copyDone (s : State) (k : Nat) (f : Flight) (pieces : List CopyPiece) (lanes : List Nat) (d : Option Nat)
    (ctr : DWord) : State :=
  let cs := s.copyCodes f pieces
  let code := fun l => if lanes.length ≤ 1 then worst cs else ((lanes.zip cs).find? (·.1 == l)).elim 0 (·.2)
  let t := match d with
    | some d => s.fill k f.slot f.team d f.mask fun l => statusWord (code l)
    | none => s
  s.withheld [1, k, f.id] ((t.finishOp k f).engineCounter k f ctr (worst cs != 0))

/-- The ranges of the physical space among locations. -/
def physRanges (ls : List (Loc × Nat)) : List (Nat × Nat) :=
  ls.filterMap fun x => match x.1 with
    | .phys pa => some (pa, x.2)
    | .spad _ => none

/-- The sources of a copy. -/
def copySources (pieces : List CopyPiece) : List (Nat × Nat) := physRanges (pieces.map fun p => (p.1, p.2.2))

/-- The elements of a streaming operation's source: for each index the four bytes, or the code of a failed read. -/
def State.streamWords (s : State) (k : Nat) (f : Flight) (x : List (Nat × Nat)) : List (Except Nat Nat) :=
  x.flatMap fun p => (List.range (p.2 / 4)).map fun i =>
    match s.engineCode f (.phys (p.1 + 4 * i)) 4 with
    | 0 => .ok (leNat (s.engineRead k f (.phys (p.1 + 4 * i)) 4))
    | e => .error e

/-- The new bytes of an element of y (R281). -/
def axpyElem (type : Nat) (alpha : Word) (x y : Nat) : List Byte :=
  if type = 0 then
    leBytes 4 (rne32 ((Val.mul (decF alpha) (decF (BitVec.ofNat 32 x))).add (decF (BitVec.ofNat 32 y)))).toNat
  else leBytes 4 (alpha * BitVec.ofNat 32 x + BitVec.ofNat 32 y).toNat

/-- The updates of `bank.axpy`: the state and the worst code. -/
def State.axpy (s : State) (type : Nat) (alpha : Word) (y : Nat) : Nat → List (Except Nat Nat) → State × Nat
  | _, [] => (s, 0)
  | i, .error e :: xs =>
    let r := s.axpy type alpha y (i + 1) xs
    (r.1, max e r.2)
  | i, .ok x :: xs =>
    let pa := y + 4 * i
    let t := match s.homeCode (.phys pa) 4 with
      | 0 => (s.performWrite pa (axpyElem type alpha x (s.wordPa pa 4)), 0)
      | e => (s.recordErrors 2 [(.phys pa, 4)], e)
    let r := t.1.axpy type alpha y (i + 1) xs
    (r.1, max t.2 r.2)

/-- The result of `bank.red` over the elements, from the old bytes of its destination (R281). -/
def redBytes (type : Nat) (old : List Byte) (xs : List Nat) : List Byte :=
  if type = 0 then xs.foldl (fun c x => fxAdd c (fxconv (decF (BitVec.ofNat 32 x)))) old
  else leBytes 4 (xs.foldl (fun m x => f32.minMax (type == 1) m x) (leNat old))

/-- The update of `bank.red`: the state and the code. -/
def State.red (s : State) (type dst : Nat) (xs : List (Except Nat Nat)) : State × Nat :=
  let n := if type = 0 then 32 else 4
  let bad := worst (xs.map fun x => match x with | .error e => e | .ok _ => 0)
  let good := xs.filterMap fun x => match x with | .ok v => some v | .error _ => none
  match s.homeCode (.phys dst) n with
  | 0 => (if good = [] then s else s.performWrite dst (redBytes type (s.readPa dst n) good), bad)
  | e => (s.recordErrors 2 [(.phys dst, n)], max e bad)

/-- A streaming operation's updates: the state and the worst code. -/
def State.stream (s : State) (k : Nat) (f : Flight) : State × Nat :=
  match f.kind with
  | .axpy type alpha x y _ _ _ => s.axpy type alpha y 0 (s.streamWords k f x)
  | .red type x n dst _ _ => if n = 0 then (s, 0) else s.red type dst (s.streamWords k f [(x, 4 * n)])
  | _ => (s, 0)

/-- BANK_STREAM_COMPLETE (R281): an operation without elements completes at once. -/
def execBankStreamComplete (k id : Nat) (s : State) : Result :=
  let run := fun (x : List (Nat × Nat)) (n d : Nat) (ctr : DWord) =>
    s.engineRun k id (fun f => n == 0 || ((s.core k).engineReady f && f.held.isNone)) (fun _ => x)
      (fun s f => let r := s.stream k f; (r.1, [r.2])) fun s f =>
        s.withheld [1, k, id] ((s.endOp k f (some d) (statusWord (worst f.codes))).engineCounter k f ctr (worst f.codes != 0))
  .next (match (s.core k).op id with
    | none => s
    | some f => match f.kind with
      | .axpy _ _ x _ n d ctr => run x n d ctr
      | .red _ _ n _ d ctr => run [] n d ctr
      | _ => s)

/-- The bytes of an image written piece by piece: the state and each piece's code. -/
def State.writePieces (s : State) (k : Nat) (f : Flight) (bs : List Byte) : List (Nat × Nat) → State × List Nat
  | [] => (s, [])
  | p :: ps =>
    let t := s.engineWrite k f (.phys p.1) (bs.take p.2)
    let r := t.1.writePieces k f (bs.drop p.2) ps
    (r.1, t.2 :: r.2)

/-- CONTEXT_IMAGE_COMPLETE (R288). -/
def execContextImageComplete (k id : Nat) (s : State) : Result :=
  .next (match (s.core k).op id with
    | none => s
    | some f => match f.kind with
      | .image pieces bs d =>
        s.engineRun k id (fun f => (s.core k).engineReady f && f.held.isNone) (fun _ => [])
          (fun s f => s.writePieces k f bs pieces) fun s f =>
            s.endOp k f (some d) (statusWord (worst (f.codes ++ pieces.map fun p => s.lateCode f (.phys p.1) p.2)))
      | _ => s)

/-- PREFETCH_FILL (R468): a requested line has arrived. -/
def execPrefetchFill (k line : Nat) (s : State) : Result :=
  let rec_ := fun (p : Nat × Nat × Bool) => p.1 == line && !p.2.2
  .next (s.modCore k fun c => match c.pref.find? rec_ with
    | none => c
    | some p => { c with pref := (c.pref.erase p) ++ [(p.1, p.2.1, true)] })

end Sys2Proof.Machine
end

