-- ==== Sys2Proof/Machine/Events.lean ====
section
/-! DEFINITION. The events of tasks and groups: ageing, done events, ready queues, starts, parked lanes, work-queue
refills, sleeps, waits and fault records (R34, R35, R41, R126 to R147, R289, R362, R417). An event that finds no
subject, or whose time has not come, changes nothing. -/

namespace Sys2Proof.Machine

/-- GROUP_AGED (R41). -/
def execGroupAged (k slot : Nat) (s : State) : Result :=
  .next (s.modGroup k slot fun g => if 48 ≤ g.age then { g with aged := true } else g)

/-! ## The done event (R131 to R133, R344) -/

/-- A team of a core, resident or saved, with its groups. -/
def Core.teamWith (c : Core) (id : Nat) : Option (Team × List Group) :=
  match c.team id with
  | some t => some (t, t.live.filterMap fun j => c.owner j id)
  | none => (c.saved.find? (·.team.id == id)).map fun x => (x.team, x.groups.map (·.2))

/-- The operations of a core, those among them that wait to be replayed (R149). -/
def Core.allOps (c : Core) : List Flight := c.flight ++ c.replays ++ c.saved.flatMap (·.replays)

/-- Whether a team's done event is due: every group has done its part, or the task has ended in error (R133); and every
access covered is performed. -/
def Core.doneDue (c : Core) (id : Nat) : Bool :=
  match c.teamWith id with
  | none => false
  | some (t, gs) =>
    !t.doneSent && (t.err || gs.all (·.partDone)) && !c.allOps.any fun f => t.cover.contains f.id && f.open_

/-- TASK_DONE_DECREMENT (R131): the successor counter is decremented once, with the error flag of a task that has ended in
error; it is withheld while a push would wait (R139). -/
def execTaskDoneDecrement (k id : Nat) (s : State) : Result :=
  .next (match (s.core k).teamWith id with
    | none => s
    | some (t, _) =>
      if !(s.core k).doneDue id then s
      else s.withheld [2, k, id] (((s.modCore k (·.modAnyTeam id fun t => { t with doneSent := true })).decrement
        (s.partyOf k [2, k, id] t.origin none) t.succ t.err).endTeam k id))

/-! ## Ready queues and starts (R126 to R128, R139, R140) -/

/-- A push of an operation that waited has been accepted. -/
def State.pushed (s : State) (k : Nat) (id : Nat) : State :=
  let step := fun (f : Flight) => match f.kind with
    | .push n b d v => f.setPush (n - 1) b d v
    | _ => f
  (s.modCore k (·.modOp id step)).endPush k id

/-- READY_PUSH_ACCEPT (R139): the oldest push that waits at a quad, once there is room. -/
def execReadyPushAccept (q : Nat) (s : State) : Result :=
  .next (match (s.quad q).waiting with
    | [] => s
    | w :: ws =>
      if !s.quadOn q ∨ !(s.quad q).room then s
      else
        let t := (s.modQuad q fun r => { r with waiting := ws }).accept q w.entry
        let t := match w.flight with
          | some id => t.pushed w.core id
          | none => t
        t.refillChip q)

/-- A push made anew for an operation that waits with it: accepted at once, or still waiting (R141). -/
def State.pushAgain (s : State) (q : Nat) (w : WaitingPush) : State :=
  let t := s.push q w.entry (w.flight.map fun id => (w.core, id))
  if s.waitingPushes < t.waitingPushes then t
  else match w.flight with
    | some id => t.pushed w.core id
    | none => t

/-- A quad whose every core is offline forwards its entries, oldest first, on chip and then in its ring, to the next quad
with a core online; the pushes that wait for it go there too (R141). -/
def State.forward (s : State) (q : Nat) : State :=
  if s.quadOn q ∨ !s.quadOn (s.homeQuad q) then s
  else
    let r := s.quad q
    let es := r.chip ++ s.ringEntries q r.ringLen
    let t := s.modQuad q fun r =>
      { r with chip := [], head := r.tail, ringOrigins := [], waiting := [], chosen := none }
    let t := es.foldl (fun t e => t.push q e none) t
    r.waiting.foldl (fun t w => t.pushAgain q w) t

/-- The entry that a quad's dispatcher chooses: the highest priority, the oldest among equals (R140). -/
def chooseEntry : List RqEntry → Option RqEntry
  | [] => none
  | e :: es => match chooseEntry es with
    | none => some e
    | some x => if e.prio < x.prio then some x else some e

/-- The cores of a quad in rotation, starting after the one that last received a task, those online (R140, R141). -/
def State.rotation (s : State) (q : Nat) : List Nat :=
  ((List.range 4).map fun i => 4 * q + ((s.quad q).last + 1 + i) % 4).filter fun k => !s.offline k

/-- The free KiB of a core's scratchpad, lowest first. -/
def Core.freeSpad (c : Core) : List Nat := (List.range 768).filter fun i => !c.teams.any (·.spadMap.contains i)

/-- The free slots of a core, lowest first. -/
def Core.freeSlots (c : Core) : List Nat := (List.range c.groups.length).filter fun j => (c.group j).isNone

/-- Whether a core has the free resources that a task needs (R128). -/
def Core.fits (c : Core) (r : TaskRecord) : Bool :=
  r.groups ≤ c.freeSlots.length && r.groups * (r.rblk + 1) ≤ c.freeBlocks && r.spad ≤ c.freeSpad.length

/-- The constant bank that a start loads (R54): zeros for a pointer of 0; bytes that cannot be read are free values
(assumption 86). -/
def State.startBank (s : State) (p : Party) (cbank : DWord) : State × List Word :=
  if cbank = 0 then (s, List.replicate 48 0)
  else
    let free := fun i => (List.range 64).map fun j => Config.freeByte (192 * s.choice + 64 * i + j)
    let r := (List.range 3).foldl (fun (r : State × List Byte) i =>
      match r.1.look p.space p.origin.tenant .read (cbank + BitVec.ofNat 64 (64 * i)) with
      | (t, none) => (t, r.2 ++ free i)
      | (t, some pa) => match t.readAt p.core 0 p.who pa 64 with
        | (t, some (0, b)) => (t, r.2 ++ b)
        | (t, _) => (t, r.2 ++ free i)) (s, [])
    (r.1, bankOf r.2)

/-- The KiB that a start takes are zeroed where szero asks for it or another tenant held them last (R128). -/
def Core.takeSpad (c : Core) (ks : List Nat) (tenant : BitVec 16) (zero : Bool) : Core :=
  let wipe := fun i => ks.contains i && (zero || c.spadOwner.getD i none != some tenant)
  { c with
    spad := c.spad.filter fun x => !wipe (x.1 / 1024)
    spadOwner := c.spadOwner.mapIdx fun i o => if ks.contains i then some tenant else o }

/-- A task started on a core (R20, R44, R54, R128); `p` reads its constant bank. -/
def State.startOn (s : State) (p : Party) (k : Nat) (e : RqEntry) (r : TaskRecord) : State :=
  let b := s.startBank { p with space := (s.core k).regs.space.toNat % 2 ^ 16 } r.cbank
  let s := b.1
  let c := s.core k
  let slots := c.freeSlots.take r.groups
  let ks := c.freeSpad.take r.spad
  let id := c.nextTeam
  let o := if e.origin.sub.isSome then { e.origin with lseq := r.lseq } else e.origin
  let team : Team :=
    { id := id, slots := slots, live := slots, origin := o, trec := e.trec, arg := r.arg, coord := r.coord,
      succ := r.succ, spadMap := ks, spadSize := 1024 * r.spad, pool := 0, claims := [], cover := [], doneSent := false,
      err := false }
  let place := fun (gs : List (Option Group)) (x : Nat × Nat) =>
    gs.set x.1 (some (Group.launch (8 * (r.rblk + 1)) r.entry b.2 x.2 (BitVec.ofNat 2 (r.role x.2)) id))
  let start := fun (c : Core) => { c.takeSpad ks e.origin.tenant r.szero with
    groups := slots.zipIdx.foldl place c.groups
    teams := c.teams ++ [team]
    nextTeam := id + 1
    freeBlocks := c.freeBlocks - r.groups * (r.rblk + 1) }
  { s.modCore k start with choice := s.choice + 1 }

/-- The chosen entry leaves the chip, and entries of the ring move up (R139). -/
def State.takeEntry (s : State) (q : Nat) (e : RqEntry) : State :=
  (s.modQuad q fun r => { r with chip := r.chip.erase e, chosen := none }).refillChip q

/-- The entry that a quad's dispatcher has chosen and still waits to start, or the one that it chooses now (R140). -/
def Quad.choice (r : Quad) : Option RqEntry := r.chosen.orElse fun _ => chooseEntry r.chip

/-- The dispatcher of a quad as the party that reads the record of an entry, under the SPACE of core `k` (DESIGN CHOICE,
assumption 24). -/
def State.dispatcher (s : State) (q k : Nat) (e : RqEntry) : Party where
  core := belvedere
  who := [3, q]
  space := (s.core k).regs.space.toNat % 2 ^ 16
  origin := { e.origin with sub := none }
  quad := q
  waiter := none

/-- A task is rejected at start (R126): it has left the queue, and its counter is owed the decrement (R139). -/
def State.rejectStart (s : State) (q : Nat) (p : Party) (e : RqEntry) (r : Option TaskRecord) : State :=
  let t := (s.takeEntry q e).reject e.origin e.trec r
  match r.bind (·.counter) with
  | some c => (t.owe p c true).payOwed
  | none => t

/-- TASK_START (R140): the chosen entry starts on the first core that meets R128, or is rejected (R126); while no core meets
it, it stays chosen. The record is read under the SPACE of the first core in rotation. -/
def execTaskStart (q : Nat) (s : State) : Result :=
  .next (match (s.quad q).choice, (s.rotation q).head? with
    | some e, some k0 =>
      let p := s.dispatcher q k0 e
      let rd := s.readRecord p e.trec
      s.settle p.who (match rd.2 with
        | none => rd.1.rejectStart q p e none
        | some r =>
          if r.bad e.origin.tenant then rd.1.rejectStart q p e (some r)
          else match (s.rotation q).find? fun k => (s.core k).fits r && !(s.core k).quiescent with
            | none => rd.1.modQuad q fun x => { x with chosen := some e }
            | some k => ((rd.1.startOn p k e r).modQuad q fun x => { x with last := k % 4 }).takeEntry q e)
    | _, _ => s)

/-! ## Parked lanes (R34, R35, R167) -/

/-- A group's parked lanes look at a word of a value again: a change counts unless their time had passed (R35, R353). A
group that is away keeps what it finds (R34, R167). -/
def Group.recheck (g : Group) (clk pa : Nat) (away : Bool) (val : Nat → Nat) (changed : ParkRec → Bool) : Group :=
  let event := fun (p : ParkRec) => if p.deadline < clk then 3 else 1
  let hit := fun (p : ParkRec) => p.pa == pa && val p.width != p.expected.toNat % 2 ^ (8 * p.width)
  let g := (List.range 32).foldl (fun g l => match (g.lane l).park with
    | none => g
    | some p =>
      if !hit p then g
      else if away then g.modLane l fun t => { t with park := some { p with event := p.event.orElse fun _ => some (event p) } }
      else g.wake l (event p)) g
  if away then g else g.allParked changed

/-- The parked lanes of a core look at a word again, which holds `b`; the word is no longer due a recheck. -/
def State.recheckAll (s : State) (k pa : Nat) (b : List Byte) : State :=
  let val := fun n => leNat (b.take n)
  let s := s.modCore k fun c => { c with rechecks := c.rechecks.filter (· != pa) }
  let ch := s.parkChanged k
  s.modCore k fun c => { c with
    groups := c.groups.map (Option.map fun g => g.recheck s.clk pa (g.phase == .switchedOut) val ch)
    saved := c.saved.map fun t => { t with groups := t.groups.map fun g => (g.1, g.2.recheck s.clk pa true val ch) } }

/-- The recheck of a word has failed at its home: a relaxed load of the lanes that wait on it, whose error is reported (R161,
R353). -/
def State.recheckFailed (s : State) (k pa code : Nat) : State :=
  let c := s.core k
  if !c.rechecks.contains pa then s
  else
    let s := s.modCore k fun c => { c with rechecks := c.rechecks.filter (· != pa) }
    (List.range c.groups.length).foldl (fun s j => match c.group j with
      | none => s
      | some g =>
        let m := maskOf fun l => (g.lane l).park.any (·.pa == pa)
        let pc := ((g.lane (lowest m)).park.map (·.pc)).getD 0
        let team := (c.team g.team).getD Team.blank
        let f : Flight :=
          { Flight.blank 0 .pops with slot := j, team := g.team, pc := pc, mask := m, origin := team.origin, trec := team.trec }
        if m = 0 then s else s.lateError k f (lateReport (errCause code) pc m false s.tick)) s

/-- Whether the core may look at a watched word again: a store to it has become visible (R34); of a word beyond the package, to
which others store unseen, at any time. -/
def State.recheckDue (s : State) (k pa : Nat) : Bool :=
  (s.core k).rechecks.contains pa || ((s.beyond (.phys pa)).isSome && (s.core k).watchers.any (·.pa == pa))

/-- PARK_RECHECK (R34): a relaxed load of the watched word, at its home (R353, R420). -/
def execParkRecheck (k pa : Nat) (s : State) : Result :=
  let who := [12, k, pa]
  let n := ((s.core k).watchers.filter (·.pa == pa)).foldl (fun n p => max n p.width) 4
  .next (if !s.recheckDue k pa then s
    else s.settle who (match s.readAt k s.nextId who pa n with
      | (t, none) => t
      | (t, some (0, b)) => t.recheckAll k pa b
      | (t, some (c, _)) => t.recheckFailed k pa c))

/-- PARK_TIMEOUT (R35): a lane whose group is away wakes when the group returns; a change on the same clk comes first
(R353). -/
def execParkTimeout (k slot lane : Nat) (s : State) : Result :=
  .next (s.modGroup k slot fun g => match (g.lane lane).park with
    | none => g
    | some p =>
      if p.deadline ≤ s.clk ∧ g.phase ≠ .switchedOut ∧ !(s.core k).rechecks.contains p.pa then
        (g.wake lane 3).allParked (s.parkChanged k)
      else g)

/-! ## Work-queue refills (R144, R145, R147, R347) -/

/-- The items that a refill reads from slot `n` on: up to `left` of them, stopping at the first that reads empty or cannot
be read. -/
def State.refillItems (s : State) (p : Party) (w : WqDesc) : Nat → DWord → State × List DWord
  | 0, _ => (s, [])
  | left + 1, n =>
    match s.look p.space p.origin.tenant .read (w.slot n) with
    | (s, none) => (s, [])
    | (s, some pa) => match s.readAt p.core s.nextId p.who pa 8 with
      | (t, some (0, b)) =>
        let x := BitVec.ofNat 64 (leNat b)
        if x = emptyItem then (t, [])
        else
          let r := t.refillItems p w left (n + 1)
          (r.1, x :: r.2)
      | (t, _) => (t, [])

/-- The issue register stands for a word of a group that is completed by an event. -/
def State.asIf (s : State) (k slot : Nat) (pc mask : Word) : State :=
  { s with issue := { s.issue with core := k, slot := slot, pc := pc, exec := mask } }

/-- Where a lane's write at a virtual address goes, and whether to an SC page. -/
def State.popAt (s : State) (lane : Nat) (va : DWord) : Option (LaneAccess × Bool) :=
  match (s.translate s.space s.tenant .write va.toNat).1 with
  | .ok pa sc _ => some (LaneAccess.at_ lane va pa, sc)
  | .fail _ => none

/-- The stores of a pop that completes, part of its word: the empty value into the item's slot, the new head (R144,
R206). -/
def State.popStores (s : State) (k slot : Nat) (lane : Nat) (p : PopWait) (w : WqDesc) : State :=
  let t := s.asIf k slot p.pc p.mask
  let bs := popBytes w.head
  let u := p.mask != BitVec.ofNat 32 (2 ^ lane)
  match t.popAt lane (w.slot w.head), t.popAt lane (p.desc + 16) with
  | some a, some b =>
    (t.enterAll p.word (((t.core k).op p.word).bind (·.flag)) false (a.2 || b.2)
      (t.storeParts u (a.2 || b.2) [(a.1, bs.1), (b.1, bs.2)])).sendRequests k
  | _, _ => t

/-- A waiting pop finds the queue empty: it returns empty, or parks its lanes on the tail word (R147). -/
def Group.popEmpty (g : Group) (clk lane : Nat) (p : PopWait) (w : WqDesc) (tailPa : Nat) (changed : ParkRec → Bool) : Group :=
  let win : WqWindow := { desc := some p.desc, items := [], first := w.head, refill := false, waiting := none }
  let g := g.modLane lane fun t => { t with win := win }
  if !p.form then { g with rf := g.rf.setWords p.dest 2 p.mask fun _ => emptyItem.toNat }
  else
    let rec_ := fun l : Nat => ({
      pop := true, va := p.desc + 8, pa := tailPa, width := 8, expected := w.tail, deadline := clk + 65536,
      dest := p.dest, desc := p.desc, mask := if l = lane then p.mask else 0, pc := p.pc, event := none,
      word := p.word } : ParkRec)
    (g.mapLanes p.mask fun l t => { t with park := some (rec_ l) }).allParked changed

/-- A waiting pop takes the window's first item. -/
def Group.popItem (g : Group) (lane : Nat) (p : PopWait) (win : WqWindow) (item : DWord) (rest : List DWord) : Group :=
  let g := g.modLane lane fun t => { t with win := win.popped rest }
  { g with rf := g.rf.setWords p.dest 2 p.mask fun _ => item.toNat }

/-- The party that refills a lane's window. -/
def State.refiller (s : State) (k slot lane : Nat) (g : Group) : Party :=
  s.partyOf k [6, k, slot, lane] (((s.core k).team g.team).getD Team.blank).origin none

/-- A queue's descriptor as a refill reads it, with the physical address of it (R142). -/
def State.refillDesc (s : State) (p : Party) (va : DWord) : State × WqDesc × Nat :=
  match s.look p.space p.origin.tenant .read va with
  | (s, none) => (s, WqDesc.of [], 0)
  | (s, some pa) => match s.readAt p.core s.nextId p.who pa 32 with
    | (t, some (0, b)) => (t, WqDesc.of b, pa)
    | (t, _) => (t, WqDesc.of [], pa)

/-- WQ_REFILL_DONE (R144): the refill's loads have returned; a pop that waits for it completes. -/
def execWqRefillDone (k slot lane : Nat) (s : State) : Result :=
  .next (match (s.core k).group slot with
    | none => s
    | some g =>
      let win := (g.lane lane).win
      if !win.refill ∨ g.phase = .switchedOut then s
      else match win.desc with
        | none => s
        | some va =>
          let p := s.refiller k slot lane g
          let d := s.refillDesc p va
          let w := d.2.1
          let first := if win.items = [] then w.head else win.first
          let new := if w.ok then
              d.1.refillItems p w (4 - win.items.length) (first + BitVec.ofNat 64 win.items.length)
            else (d.1, [])
          let full : WqWindow :=
            { desc := some va, items := win.items ++ new.2, first := first, refill := false, waiting := none }
          s.settle p.who (match win.waiting, full.items with
            | none, _ => new.1.modGroup k slot (·.modLane lane fun t => { t with win := full })
            | some x, [] => new.1.modGroup k slot (·.popEmpty s.clk lane x w (d.2.2 + 8) (s.parkChanged k))
            | some x, item :: rest =>
              (new.1.modGroup k slot (·.popItem lane x full item rest)).popStores k slot lane x { w with head := first }))

/-! ## Waits that end by time (R289, R362) -/

/-- SLEEP_END (R362). -/
def execSleepEnd (k slot : Nat) (s : State) : Result :=
  .next (s.modGroup k slot fun g => match g.sleepUntil with
    | some t => if t ≤ s.clk then { g with sleepUntil := none } else g
    | none => g)

/-- TRYWAIT_TIMEOUT (R289): the predicate takes whether the flag reads zero; the image of a group that is away holds it
(R162, R208). -/
def execTrywaitTimeout (k slot : Nat) (s : State) : Result :=
  .next (match (s.core k).group slot with
    | none => s
    | some g => match g.tryUntil with
      | none => s
      | some (f, p, m, t) =>
        if t ≤ s.clk then s.endTry k slot g.team p m (g.flags.getD f 0 == 0) else s)

/-! ## The end of a run-ahead (R157, R158) -/

/-- The report of a group with the advisory pages that its run-ahead found beside the true ones. -/
def Group.advise (g : Group) (pages : List Nat) : Group :=
  let new := fun (r : Report) => (pages.filter fun p => !(r.pages.any (·.1 == p) || g.missed.contains p)).map (·, false)
  { g with
    missed := []
    report := g.report.map fun r => { r with pages := r.pages ++ (g.missed.filter fun p => !r.pages.any (·.1 == p)).map (·, true) ++ new r } }

/-- RUN_AHEAD_END (R157, R158): a run-ahead that has ended leaves its group at the checkpoint, to be switched out; the groups of a
quiescent core stand still (R168). -/
def execRunAheadEnd (k slot : Nat) (s : State) : Result :=
  .next (match (s.core k).runs.find? (·.slot == slot) with
    | none => s
    | some r =>
      if !r.ended ∨ (s.core k).quiescent then s
      else
        let s := s.modCore k fun c => { c with runs := c.runs.filter (·.slot != slot) }
        (s.modGroup k slot (·.advise r.pages)).switchOut k slot)

/-! ## Fault records (R417) -/

/-- FAULT_RECORD_WRITE (R417): the oldest record that waits, once the queue has room. -/
def execFaultRecordWrite (s : State) : Result :=
  .next (match s.fq.pending with
    | [] => s
    | r :: rs =>
      if s.fq.free = 0 then s
      else
        let base := bits s.fq.base.toNat 63 6 * 64
        let t := s.deviceWrite (s.localPa (base % 2 ^ 44 + 64 * (s.fq.tail.toNat % 2 ^ (s.fq.ctl.toNat % 32)))) r.2
        { t with fq := { t.fq with tail := s.fq.tail + 1, pending := rs } })

end Sys2Proof.Machine
end

