-- ==== Sys2Proof/Machine/Product.lean ====
section
/-! DEFINITION. What the matrix array computes: A blocks, weight rows, the format vote's inputs, the order of sums, and
the residency table (R74 to R104, R182 to R190, R297, R298, R313). -/

namespace Sys2Proof.Machine

/-! ## A blocks (R184, R297, R298) -/

/-- The logical K of a tile in a weight format under a sparsity (R186). -/
def logicalK (bfmt sp : Nat) : Nat := (if elemBits bfmt < 8 then 192 else 96) * (sp + 1)

/-- The words of an A block without its format word (R298). -/
def blockWords (afmt k : Nat) : Nat := vectorWords afmt k

/-- A format word's fields (R184). -/
def afmtOf (w : Word) : Nat := bits w.toNat 4 0
def bfmtOf (w : Word) : Nat := bits w.toNat 9 5
def spOf (w : Word) : Nat := bits w.toNat 11 10
def isatOf (w : Word) : Bool := bit w.toNat 12

/-- Whether a format word has a reserved bit or an undefined code (R185). -/
def formatBad (w : Word) : Bool := bits w.toNat 31 13 != 0 || 20 ≤ afmtOf w || 20 ≤ bfmtOf w

/-! ## Weight rows (R85, R313) -/

/-- The words of bytes, little-endian. -/
def wordsOf (bs : List Byte) : List Word :=
  (List.range ((bs.length + 3) / 4)).map fun i => BitVec.ofNat 32 (leNat ((bs.drop (4 * i)).take 4))

/-- The weights that a sparse run keeps (R77). -/
def keptOf (sp : Nat) : Nat := 48 / (sp + 1)

/-- Bytes of a weight row of `n` logical weights: packed weights, side bytes, and a keep mask for each run. -/
def rowBytes (bfmt sp n : Nat) : Nat :=
  if sp = 0 then 4 * packedWords n (elemBits bfmt) + sideBytes bfmt n
  else 4 * packedWords (n / 48 * keptOf sp) (elemBits bfmt) + sideBytes bfmt n + n / 48 * 6

/-- The least power of two from `p` on that is at least `n`. -/
def powerFrom : Nat → Nat → Nat → Nat
  | 0, p, _ => p
  | f + 1, p, n => if n ≤ p then p else powerFrom f (2 * p) n

/-- The pitch of a row: its size rounded up to a power of two, at least 128 (R85). -/
def pitchOf (bfmt sp n : Nat) : Nat := powerFrom 32 128 (rowBytes bfmt sp n)

/-- The keep mask of a run, as the lowest `n` set positions of its 48 bits. -/
def keepRank (mask n i : Nat) : Option Nat :=
  let below := ((List.range i).filter fun j => bit mask j).length
  if bit mask i ∧ below < n then some below else none

/-- Byte `j` of a list. -/
def byteAt (bs : List Byte) (j : Nat) : Nat := (bs.getD j 0).toNat

/-- The weight at logical position `p` of a row of `n` logical weights: its value and its element pattern; nothing
where it is pruned (R181, R313). -/
def weightAt (bfmt sp n : Nat) (row : List Byte) (p : Nat) : Option (Val × Nat) :=
  let w := elemBits bfmt
  let stored := if sp = 0 then n else n / 48 * keptOf sp
  let side := 4 * packedWords stored w
  let blocks := if isBlock bfmt then (n + blockSize bfmt - 1) / blockSize bfmt else 0
  let masks := side + blocks * if hasSpecial bfmt then 2 else 1
  let value := fun j =>
    let e := packed (wordsOf (row.take side)) w j
    let b := p / blockSize bfmt
    (blockVal bfmt e (byteAt row (side + b)) (byteAt row (side + blocks + b)), e)
  if sp = 0 then some (value p)
  else
    let r := p / 48
    (keepRank (leNat ((row.drop (masks + 6 * r)).take 6)) (keptOf sp) (p % 48)).map fun k => value (r * keptOf sp + k)

/-! ## Sums (R188, R189) -/

/-- The group length of a float pass (R188). -/
def groupOf (afmt bfmt : Nat) : Nat :=
  if !isBlock afmt && !isBlock bfmt then 16
  else min (if isBlock afmt then blockSize afmt else 64) (if isBlock bfmt then blockSize bfmt else 64)

/-- Whether an integer format is signed (R177). -/
def signedFmt (code : Nat) : Bool := code == 9 || code == 11

/-- One element after a pass: `a` the A block with its format word, `row` the weight row of `n` logical weights, the
K logical positions of k-block `kb` (R188, R189). -/
def passElem (a : List Word) (sp n kb k : Nat) (row : List Byte) (acc : Word) : Word :=
  let fw := a.headD 0
  let afmt := afmtOf fw
  let bfmt := bfmtOf fw
  let data := a.drop 1
  if isIntFmt bfmt then
    (List.range k).foldl (fun acc i => match weightAt bfmt sp n row (kb * k + i) with
      | none => acc
      | some b => addInt (isatOf fw) acc (intOf (elemBits afmt) (signedFmt afmt) (packed data (elemBits afmt) i))
          (intOf (elemBits bfmt) (signedFmt bfmt) b.2)) acc
  else
    let g := groupOf afmt bfmt
    (List.range (k / g)).foldl (fun acc c => addGroup acc ((List.range g).filterMap fun i =>
      (weightAt bfmt sp n row (kb * k + c * g + i)).map fun b => (vectorVal afmt k data (c * g + i), b.1))) acc

/-! ## The residency table (R74 to R83) -/

/-- The fields of a residency descriptor (R76). -/
def descReserved (d : DWord) : Bool := bits d.toNat 63 53 != 0
def descEntry (d : DWord) : Nat := bits d.toNat 5 0
def descGen (d : DWord) : Nat := bits d.toNat 15 6
def descKblk (d : DWord) : Nat := bits d.toNat 21 16
def descNblk (d : DWord) : Nat := bits d.toNat 27 22

/-- The entry of a core's table. -/
def Core.entry (c : Core) (e : Nat) : ResEntry := c.res.getD e ResEntry.reset

/-- An entry changed. -/
def Core.modEntry (c : Core) (e : Nat) (f : ResEntry → ResEntry) : Core := { c with res := c.res.modify e f }

/-- Whether a descriptor's handle names an entry (R74, R75). -/
def Core.live (c : Core) (d : DWord) : Bool :=
  descGen d != 0 && (c.entry (descEntry d)).gen.toNat == descGen d && (c.entry (descEntry d)).st != .free

/-- Whether a descriptor's handle names an entry of the tenant (R80). -/
def Core.names (c : Core) (d : DWord) (tenant : BitVec 16) : Bool := c.live d && (c.entry (descEntry d)).tenant == tenant

/-- The logical weights of a row of the entry. -/
def ResEntry.rowLen (e : ResEntry) : Nat := e.kblk * logicalK e.bfmt e.sp

/-- The pitch of the entry's source. -/
def ResEntry.pitch (e : ResEntry) : Nat := pitchOf e.bfmt e.sp e.rowLen

/-- The source length that a load must have (R84, R313). -/
def ResEntry.sourceLen (e : ResEntry) : Nat := e.rows * e.pitch

/-- The array column of a hot row of a row-split residency (R90). -/
def ResEntry.columnOf (e : ResEntry) (row : Nat) : Option Nat :=
  match e.rowMap.idxOf row with
  | c => if c < e.rowMap.length then some c else none

/-- Bytes of a source at an offset of its range, through the physical pieces that hold it, by a reader of memory (R84,
R87). -/
def sourceBytes (rd : Nat → Nat → List Byte) : List (Nat × Nat) → Nat → Nat → List Byte
  | [], _, _ => []
  | (pa, len) :: ps, off, n =>
    if n = 0 then []
    else if off < len then
      let m := min n (len - off)
      rd (pa + off) m ++ sourceBytes rd ps 0 (n - m)
    else sourceBytes rd ps (off - len) n

/-- The physical parts of a part of the source. -/
def sourceParts : List (Nat × Nat) → Nat → Nat → List (Nat × Nat)
  | [], _, _ => []
  | (pa, len) :: ps, off, n =>
    if n = 0 then []
    else if off < len then (pa + off, min n (len - off)) :: sourceParts ps 0 (n - min n (len - off))
    else sourceParts ps (off - len) n

/-- The node and stack that a physical address lies in, where it lies in HBM (R85). -/
def stackOf (pa : Nat) : Option Nat :=
  match region (paLocal pa) with
  | .hbm n => some (paNode pa * 24 + n)
  | _ => none

/-- The stacks that a row of the source lies in (R85, R97). -/
def ResEntry.rowStacks (e : ResEntry) (pieces : List (Nat × Nat)) (row : Nat) : List (Option Nat) :=
  ((sourceParts pieces (row * e.pitch) (rowBytes e.bfmt e.sp e.rowLen)).flatMap fun p =>
    [stackOf p.1, stackOf (p.1 + p.2 - 1)]).eraseDups

/-- The physical parts of a row of the source. -/
def ResEntry.rowParts (e : ResEntry) (pieces : List (Nat × Nat)) (row : Nat) : List (Nat × Nat) :=
  sourceParts pieces (row * e.pitch) (rowBytes e.bfmt e.sp e.rowLen)

/-- A row of the source as operation `f` of core `k` reads it. -/
def State.sourceRow (s : State) (k : Nat) (f : Flight) (e : ResEntry) (pieces : List (Nat × Nat)) (row : Nat) : List Byte :=
  sourceBytes (fun pa n => s.engineRead k f (.phys pa) n) pieces (row * e.pitch) (rowBytes e.bfmt e.sp e.rowLen)

/-- What the read of a row of the source meets: 0 nothing, 1 uncorrectable data, 2 a failed access (R86, R161, R436). -/
def State.sourceCode (s : State) (f : Flight) (e : ResEntry) (pieces : List (Nat × Nat)) (row : Nat) : Nat :=
  (e.rowParts pieces row).foldl (fun m p => max m (s.engineCode f (.phys p.1) p.2)) 0

/-- Whether a row of the source cannot be read: its data are uncorrectable, or the access fails as one that is not backed or whose
home reports remote-error. Either ends a load or a migration with status 2; for a failed access R86 and R314 state no status
(DESIGN CHOICE, assumption 76). -/
def State.sourceBad (s : State) (f : Flight) (e : ResEntry) (pieces : List (Nat × Nat)) (row : Nat) : Bool :=
  s.sourceCode f e pieces row != 0

/-- A stored weight row. -/
def ResEntry.weightRow (e : ResEntry) (row : Nat) : List Byte :=
  ((e.weights.find? (·.1 == row)).map (·.2)).getD []

/-! ## Products, migrations and loads in flight (R82, R100, R102) -/

/-- Whether a residency has a product in flight (R100). -/
def Core.product (c : Core) (e : Nat) : Bool := c.flight.any fun f => match f.kind with
  | .pass x _ _ _ _ _ _ => x == e
  | .grotto x _ _ _ _ _ _ _ => x == e
  | _ => false

/-- The loads in flight on a residency (R82). -/
def Core.loads (c : Core) (e : Nat) : List Flight := c.flight.filter fun f => match f.kind with
  | .resLoad x _ _ _ _ _ _ _ _ _ => x == e
  | _ => false

/-- The pending migrations of a residency (R102). -/
def Core.migrations (c : Core) (e : Nat) : List Flight := c.flight.filter fun f => match f.kind with
  | .migrate x _ _ _ => x == e
  | _ => false

/-- The status word of a residency load or a migration (R314). -/
def resStatus (code : Nat) : Word := BitVec.ofNat 32 (2 ^ 31 + code)

/-- A freed entry (R75): its generation has advanced, from 1023 to 1. -/
def ResEntry.freed (e : ResEntry) : ResEntry :=
  { ResEntry.reset with gen := if e.gen = 1023 then 1 else e.gen + 1 }

/-- A load's status register and counter when it completes (R312); a load of a launch bundle tells its sub-launch
(R414, R415). -/
def State.endLoad (s : State) (k : Nat) (f : Flight) (code : Nat) : State :=
  match f.kind with
  | .resLoad _ _ _ _ _ d ctr _ _ sub =>
    let s := match sub with
      | some r => s.modSub r fun b => { b with left := 0, code := if code = 0 then 0 else 8 + code }
      | none => s
    (s.endOp k f d (resStatus code)).decrement (s.partyOf k [1, k, f.id] f.origin none) ctr (code != 0)
  | _ => s

/-- A flight of a residency load with what it waits for, and whether it is abandoned. -/
def Flight.setLoad (f : Flight) (waiting : Nat) (abandoned : Bool) : Flight :=
  match f.kind with
  | .resLoad e g src len ps d ctr _ _ sub => { f with kind := .resLoad e g src len ps d ctr waiting abandoned sub }
  | _ => f

/-- Whether a load is abandoned (R82). -/
def Flight.abandoned (f : Flight) : Bool :=
  match f.kind with
  | .resLoad _ _ _ _ _ _ _ _ a _ => a
  | _ => false

/-- What a load waits for. -/
def Flight.waitingLoad (f : Flight) : Nat :=
  match f.kind with
  | .resLoad _ _ _ _ _ _ _ w _ _ => w
  | _ => 0

/-- A migration that has reached its instant. -/
def Flight.begun (f : Flight) : Flight :=
  match f.kind with
  | .migrate e sw d _ => { f with kind := .migrate e sw d true }
  | _ => f

/-- The status register of a migration. -/
def Flight.migrateDest (f : Flight) : Option Nat :=
  match f.kind with
  | .migrate _ _ d _ => some d
  | _ => none

/-- What happens on a residency at an instant (R82, R102, R315): a `res.free` that has issued completes the pending
migrations with status 1 and, once no load is in flight, frees the entry; otherwise a pending migration begins. -/
def State.instant (s : State) (k e : Nat) : State :=
  let c := s.core k
  if c.product e then s
  else if (c.entry e).freeing then
    let s := (c.migrations e).foldl (fun s f => s.endOp k f f.migrateDest (resStatus 1)) s
    if (s.core k).loads e = [] then s.modCore k (·.modEntry e ResEntry.freed) else s
  else (c.migrations e).foldl (fun s f => s.modCore k (·.modOp f.id Flight.begun)) s

/-- Whether a tile is pending, or earlier passes have still to write their results into it (R97, R98, R295). -/
def Core.tileBusy (c : Core) (t : Nat) : Bool := c.flight.any fun f => match f.kind with
  | .pass _ n _ _ _ split _ => n == t || (split && n + 1 == t)
  | .grotto _ n _ _ _ _ _ _ => n == t
  | _ => false

/-- Whether a tile waits for grotto results (R97). -/
def Core.joining (c : Core) (t : Nat) : Bool := c.flight.any fun f => match f.kind with
  | .grotto _ n _ _ _ _ _ _ => n == t
  | _ => false

/-- Whether an earlier `acc.ld` has still to write rows of the tile in lanes of `m` (R295). -/
def Core.rowsLoading (c : Core) (t : Nat) (m : Word) : Bool := c.flight.any fun f => match f.kind with
  | .load (.tile n _ _) _ => n == t && (f.mask &&& m) != 0
  | _ => false

/-- A tile. -/
def Core.tile (c : Core) (t : Nat) : Tile := c.tiles.getD t Tile.reset

/-- A tile changed. -/
def Core.modTile (c : Core) (t : Nat) (f : Tile → Tile) : Core := { c with tiles := c.tiles.modify t f }

/-- Rows of a tile zeroed in the lanes of `m`, and the tags of every band that holds one of them cleared (R294, R308). -/
def Tile.zeroRows (a : Tile) (m : Word) : Tile :=
  { a with
    rows := a.rows.mapIdx fun l row => if m.getLsbD l then List.replicate 256 0 else row
    tags := a.tags.mapIdx fun q band => if (List.range 8).any (fun i => m.getLsbD (8 * q + i)) then
      List.replicate 256 none else band }

/-- An element of a tile changed, and its column of the band tagged (R95). -/
def Tile.addAt (a : Tile) (l c tag : Nat) (f : Word → Word) : Tile :=
  { a with
    rows := a.rows.modify l fun row => row.modify c f
    tags := a.tags.modify (l / 8) fun band => band.set c (some (BitVec.ofNat 14 tag)) }

/-- The lanes of A blocks. -/
def blockMask (bs : List (Nat × List Word)) : Word := maskOf fun l => bs.any (·.1 == l)

/-- Rows of weights multiplied with A blocks and added into a tile: each entry a column with its weight row. -/
def Tile.addProducts (a : Tile) (e : ResEntry) (kb : Nat) (bs : List (Nat × List Word)) (cols : List (Nat × Nat))
    (row : Nat → List Byte) : Tile :=
  bs.foldl (fun a b => cols.foldl (fun a c =>
    a.addAt b.1 c.1 c.2 (passElem b.2 e.sp e.rowLen kb (logicalK e.bfmt e.sp) (row c.2))) a) a

end Sys2Proof.Machine
end

