-- ==== Sys2Proof/Machine/Matrix.lean ====
section
/-! DEFINITION. `mma` and the accumulator instructions (R293 to R308). -/

namespace Sys2Proof.Machine

/-! ## The blocks that a pass uses (R297, R301) -/

/-- The words that a block of a format takes at a logical K, format word included, when it lies within the lane's
allotment and its span within 96 words (R297). -/
def State.regBlock (s : State) (a k l : Nat) : Option (List Word) :=
  let fw := s.A a l
  let n := blockWords (afmtOf fw) k
  if 20 ≤ afmtOf fw ∨ 96 < n ∨ s.issue.src.v.length < a + 1 + n then none
  else some ((List.range (n + 1)).map fun i => s.A (a + i) l)

/-- The block that lane `l` uses: with reuse its latched block, whatever `a` names; otherwise its registers. Its span at the
tile's K is checked either way (R297, R299, R301). -/
def State.blockOf (s : State) (a k : Nat) (reuse : Bool) (l : Nat) : Option (List Word) :=
  match if reuse then s.grp.latch.getD l none else none with
  | some b => if 20 ≤ afmtOf (b.headD 0) ∨ 96 < blockWords (afmtOf (b.headD 0)) k then none else some b
  | none => s.regBlock a k l

/-- The format word that lane `l` uses. -/
def State.formatOf (s : State) (a : Nat) (reuse : Bool) (l : Nat) : Word :=
  match if reuse then s.grp.latch.getD l none else none with
  | some b => b.headD 0
  | none => s.A a l

/-- The lanes of quarter `q` that take part (R299). -/
def State.quarter (s : State) (q : Nat) : List Nat := (lanesOf s.issue.exec).filter (· / 8 == q)

/-! ## Checks (R299) -/

/-- The cause of a quarter, the lowest of its own (R185, R297): `known` says whether the handle names an entry, whose formats then
take part, whichever tenant's it is (R80, R152). -/
def State.quarterCause (s : State) (a : Nat) (reuse known : Bool) (e : ResEntry) (q : Nat) : Option Cause :=
  let ls := s.quarter q
  let k := logicalK e.bfmt e.sp
  let ws := ls.map (s.formatOf a reuse)
  let w := ws.headD 0
  if ls = [] then none
  else if ws.any formatBad || (known && ls.any fun l => (s.blockOf a k reuse l).isNone) then some .illegalOperand
  else if ws.any (bits ·.toNat 12 0 != bits w.toNat 12 0) then some .formatDivergence
  else if (known && (bfmtOf w != e.bfmt || spOf w != e.sp)) || isIntFmt (afmtOf w) != isIntFmt (bfmtOf w) then
    some .formatMismatch
  else none

/-- The cold rows that the group's firing mask selects, in ascending row order (R95). -/
def State.firedRows (s : State) (e : ResEntry) : List Nat :=
  (List.range e.rows).filter fun r => (s.grp.fire.getD (r / 32) 0).getLsbD (r % 32)

/-- The fired rows that are cold. -/
def State.firedCold (s : State) (e : ResEntry) : List Nat := (s.firedRows e).filter fun r => (e.columnOf r).isNone

/-- The residency's state as `mma` sees it (R79, R80, R82). -/
def ResEntry.fault (e : ResEntry) (known : Bool) : Option Cause :=
  if !known || e.freeing || e.st == .empty || e.st == .evicted then some .residencyAbsent
  else if e.st == .ready && e.stale then some .residencyStale else none

/-! ## Charges (R303) -/

/-- The bits that differ between two lists of words. -/
def toggles (a b : List Word) : Nat :=
  ((List.range (max a.length b.length)).map fun i => (lanesOf (a.getD i 0 ^^^ b.getD i 0)).length).sum

/-- The toggle estimate of a pass: over consecutive lanes taking part, format words left out. -/
def estimate : List (List Word) → Nat
  | a :: b :: bs => toggles (a.drop 1) (b.drop 1) + estimate (b :: bs)
  | _ => 0

/-- The charge of a pass. -/
def charge (bs : List (List Word)) : Nat := 16 + estimate bs / 64

/-! ## Issue (R300) -/

/-- Heat after one row-split pass: each fired row counts once, saturating; when the pass count reaches 2^age every
counter halves (R92, R93). -/
def ResEntry.heatPass (e : ResEntry) (fired : List Nat) : ResEntry :=
  let heat := e.heat.mapIdx fun r h => if fired.contains r then min 0xFFFF (h + 1) else h
  if e.age ≠ 0 ∧ e.passes + 1 = 2 ^ e.age then { e with heat := heat.map (· / 2), passes := 0 }
  else { e with heat := heat, passes := e.passes + 1 }

/-- A further operation of the word being issued, whose first operation has number `word`. -/
def State.dispatchPart (s : State) (word : Nat) (mask : Word) (kind : FlightKind) : State :=
  s.enter word (s.flag (some false)) mask none false false kind

/-- The stacks that a list of cold rows lies in, each with its rows and their columns (R97). -/
def ResEntry.byStack (e : ResEntry) (cold : List Nat) : List (Nat × List (Nat × Nat)) :=
  let rows := cold.mapIdx fun j r => (j, r)
  let home := fun r => ((e.rowStacks e.watched r).headD none).getD 0
  (rows.map fun x => home x.2).eraseDups.map fun st => (st, rows.filter fun x => home x.2 == st)

/-- The passes of one quarter dispatched: the array's pass, and in row-split mode one request to each stack that holds a
fired cold row (R95, R97); the heat counters see the pass at once (R92). -/
def State.issueQuarter (s : State) (word ent tile kb nb : Nat) (z split : Bool) (bs : List (Nat × List Word)) : State :=
  let e := s.cur.entry ent
  let m := blockMask bs
  let hot := (s.firedRows e).filterMap fun r => (e.columnOf r).map (·, r)
  let cols := if split then hot
    else (List.range 256).map fun c => (c, if e.split then e.rowMap.getD c 0 else nb * 256 + c)
  let s := s.dispatchPart word m (.pass ent tile kb bs z split cols)
  if !split then s
  else
    let s := (e.byStack (s.firedCold e)).foldl (fun s st =>
      s.dispatchPart word m (.grotto ent (tile + 1) kb st.1 bs st.2 e.watched none)) s
    s.onCore (·.modEntry ent (·.heatPass (s.firedRows e)))

/-- The latches after the word (R301). -/
def Group.latchAfter (g : Group) (reuse : Bool) (bs : List (Nat × List Word)) : Group :=
  let quarters := (bs.map (·.1 / 8)).eraseDups
  { g with latch := g.latch.mapIdx fun l b =>
      if !quarters.contains (l / 8) then b
      else if !reuse then none
      else match bs.find? (·.1 == l) with
        | some x => some x.2
        | none => b }

/-- The pending stores and atomics of the core that reach watched source bytes: the stale check must see them (R299). -/
def Core.writesTo (c : Core) (ranges : List (Nat × Nat)) : Bool := c.flight.any fun f => f.open_ && !f.performed &&
  (match f.kind with
    | .load _ _ => false
    | k => k.locs.any fun x => match x.1 with
      | .phys pa => ranges.any fun r => overlap pa x.2 r.1 r.2
      | .spad _ => false)

/-- Why a checked `mma` waits, the lowest reason first (R169): its flag, the residency's load, its tiles, its own core's
stores or the residency's migration, the budget. A row-split `mma` too waits for a pending a(n), of which R98 does not
speak (DESIGN CHOICE, assumption 43). -/
def State.mmaWait (s : State) (e : ResEntry) (ent tile : Nat) (split : Bool) (cost : Nat) : Option Stall :=
  if s.flagFull (some false) then some .clauseWait
  else if e.st = .loading then some .registerPending
  else if s.cur.joining tile || (s.cur.rowsLoading tile s.issue.exec) ||
      (split && s.cur.rowsLoading (tile + 1) s.issue.exec) then some .accumulatorPending
  else if s.cur.writesTo e.watched ∨ s.cur.migrations ent ≠ [] then some .pipeBusy
  else if s.cur.bucket < cost then some .budget
  else none

/-- Every pass of a checked `mma` that need not wait. -/
def State.mmaIssue (s : State) (ent tile kb nb : Nat) (reuse z split : Bool) (bs : List (Nat × List Word)) : State :=
  let qs := ((List.range 4).map fun q => bs.filter (·.1 / 8 == q)).filter (· != [])
  let costs := qs.map fun q => charge (q.map (·.2))
  let word := s.nextId
  let flag := s.flag (some false)
  let s := qs.foldl (fun s q => s.issueQuarter word ent tile kb nb z split q) s
  let own := fun (a : Tile) => { a with owner := some s.grp.team }
  (s.onCore fun c => (if split then (c.modTile tile own).modTile (tile + 1) own else c.modTile tile own)).onCore
    (fun c => { c with bucket := c.bucket - costs.sum }) |>.onGrp fun g =>
      { g.latchAfter reuse bs with
        charged := g.charged + costs.sum
        lastCharge := costs.getLastD 0
        flags := flag.elim g.flags fun i => g.flags.modify i (· + 1) }

/-- `mma` (R296 to R304). -/
def execMma (_c : Bool) (t : BitVec 4) (a : BitVec 7) (h : BitVec 6) (r z : Bool) (m : BitVec 3) (s : State) : Result :=
  let d := s.issue.src.rs h.toNat
  let ent := descEntry d
  let e := s.cur.entry ent
  let known := s.cur.names d s.tenant
  let split := m == 1
  let live := s.cur.live d
  let indexOk := !live || (descKblk d < e.kblk && descNblk d < e.nblk)
  let modeOk := !split || (t != 15 && (!live || (e.split && (s.firedCold e).length ≤ 256)))
  let k := logicalK e.bfmt e.sp
  let quarters := (List.range 4).filterMap fun q => (s.quarterCause a.toNat r live e q).map fun c => (q, c)
  let lf : List LaneFault := quarters.flatMap fun x => (s.quarter x.1).map fun l => (l, x.2, 0)
  let wf : List LaneFault := match e.fault known with
    | some c => (lanesOf s.issue.exec).map fun l => (l, c, 0)
    | none => []
  let bs := (lanesOf s.issue.exec).map fun l => (l, (s.blockOf a.toNat k r l).getD [])
  let cost := ((((List.range 4).map fun q => bs.filter (·.1 / 8 == q)).filter (· != [])).map
    fun q => charge (q.map (·.2))).sum
  s.checked (m.toNat < 2 && s.vOk a.toNat && !descReserved d && indexOk && modeOk)
    (if s.issue.exec = 0 then s
     else if lf ++ wf ≠ [] then s.raiseLanes false true (lf ++ wf) []
     else s.after (s.mmaWait e ent t.toNat split cost)
       (s.mmaIssue ent t.toNat (descKblk d) (descNblk d) r z split bs))

/-! ## Accumulator instructions (R305 to R308) -/

/-- Groups of 64 columns by count code. -/
def accGroups (n : Nat) : Nat :=
  match n with
  | 0 => 1
  | 1 => 2
  | _ => 4

/-- Why an accumulator word waits for a tile in its lanes (R98, R295). -/
def State.tileWait (s : State) (t : Nat) : Option Stall :=
  if s.issue.exec ≠ 0 ∧ (s.cur.tileBusy t ∨ s.cur.rowsLoading t s.issue.exec) then some .accumulatorPending else none

/-- The lanes' accesses of `acc.ld` and `acc.st`. -/
def State.accTries (s : State) (spad : Bool) (want : Want) (a n : Nat) : List Try :=
  if spad then s.spadTries false n a 0 0 else s.globalTries false want n a 0

/-- The bytes of columns of a tile's row. -/
def Tile.rowBytes (a : Tile) (l start n : Nat) : List Byte :=
  ((((a.rows.getD l []).drop start).take (n / 4)).flatMap fun w => leBytes 4 w.toNat)

/-- `acc.ld` (R306): the tile's owner becomes the team when a row of it is to be written (R166). -/
def execAccLd (_c : Bool) (t : BitVec 4) (sp : Bool) (a : BitVec 7) (g n : BitVec 2) (f : Bool) (s : State) : Result :=
  let len := 256 * accGroups n.toNat
  s.checked (n != 3 && g.toNat + accGroups n.toNat ≤ 4 && s.vOk a.toNat)
    (s.after (leastWait (s.memWait (some f)) (s.tileWait t.toNat))
      (let r := s.load false len false (some f) (.tile t.toNat (64 * g.toNat) len) (s.accTries sp .read a.toNat len)
       if r.cur.flight.length = s.cur.flight.length then r
       else r.onCore (·.modTile t.toNat fun x => { x with owner := some s.grp.team })))

/-- `acc.st` (R306). -/
def execAccSt (_c : Bool) (t : BitVec 4) (sp : Bool) (a : BitVec 7) (g n : BitVec 2) (f : Bool) (s : State) : Result :=
  let len := 256 * accGroups n.toNat
  s.checked (n != 3 && g.toNat + accGroups n.toNat ≤ 4 && s.vOk a.toNat)
    (s.after (leastWait (s.memWait (some f)) (s.tileWait t.toNat))
      (s.storeOn false f len (fun l => (s.cur.tile t.toNat).rowBytes l (64 * g.toNat) len)
        (s.accTries sp .write a.toNat len)))

/-- The tagged elements of a lane's row in the tiles of `acc.strows`, in tile and column order: byte address and
element (R307). -/
def State.taggedElems (s : State) (tiles : List Nat) (out pitch : Nat) (l : Nat) : List (DWord × Word) :=
  tiles.flatMap fun t =>
    let a := s.cur.tile t
    (List.range 256).filterMap fun c => ((a.tags.getD (l / 8) []).getD c none).map fun tag =>
      (BitVec.ofNat 64 (out + l * pitch + tag.toNat * 4), (a.rows.getD l []).getD c 0)

/-- A lane's stores, up to the first that fails. -/
def Walk.rowStores (r : Walk) (l : Nat) : List (DWord × Word) → Walk
  | [] => r
  | x :: xs =>
    let new := leBytes 4 x.2.toNat
    r.write l x.1 new fun pa r =>
      Walk.rowStores { r with stores := r.stores ++ [(LaneAccess.at_ l x.1 pa, new)] } l xs

/-- The end of a word of stores: faults raised, the lanes' stores dispatched as one word, once the core has room
for their requests (R6, R307). -/
def Walk.finishStores (r : Walk) (fs : Bool) : State :=
  let s := (r.st.noteMalformed r.malformed).raiseLanes false false r.faults r.comps
  if r.stores = [] then s
  else if s.crowdedBy (r.stores.map fun x => (x.1.loc, x.2.length)) then s.wait .pipeBusy
  else s.dispatchAll (some fs) false r.sc (s.storeParts false r.sc r.stores)

/-- `acc.strows` (R99, R307). -/
def execAccStrows (_c : Bool) (t : BitVec 4) (p : Bool) (a : BitVec 7) (f : Bool) (s : State) : Result :=
  let out := s.issue.src.rs a.toNat
  let pitch := (s.issue.src.rs (a.toNat + 1)).toNat % 2 ^ 32
  let tiles := if p then [t.toNat, t.toNat + 1] else [t.toNat]
  let waits := (tiles.map s.tileWait).foldl leastWait (s.memWait (some f))
  s.checked (!(p && t == 15) && a.toNat < 64 && a.toNat % 2 == 0)
    (if s.issue.exec = 0 then s
     else if out.toNat % 4 ≠ 0 ∨ pitch % 4 ≠ 0 then
       s.raiseLanes true true [(lowest s.issue.exec, .misaligned, out)] []
     else s.after waits
       (((lanesOf s.issue.exec).foldl (fun r l => r.rowStores l (s.taggedElems tiles out.toNat pitch l))
         (Walk.start s false)).finishStores f))

/-- `acc.zero` (R308). -/
def execAccZero (_c : Bool) (t : BitVec 4) (p : Bool) (s : State) : Result :=
  let tiles := if p then [t.toNat, t.toNat + 1] else [t.toNat]
  let waits := (tiles.map s.tileWait).foldl (fun w x => w.orElse fun _ => x) none
  s.checked (!(p && t == 15))
    (if s.issue.exec = 0 then s
     else s.after waits (s.onCore fun c => tiles.foldl (fun c t =>
       c.modTile t fun a => { a.zeroRows s.issue.exec with owner := some s.grp.team }) c))

end Sys2Proof.Machine
end

