-- ==== Sys2Proof/Machine/Residency.lean ====
section
/-! DEFINITION. The residency instructions, the firing mask, format words and the budget (R309 to R320). -/

namespace Sys2Proof.Machine

/-- A word on a residency behind its checks (R310): a reserved field raises illegal-operand, a handle that names nothing
of the tenant raises residency-absent, both with word extent. -/
def State.onResidency (s : State) (ok : Bool) (d : DWord) (t : State) : Result :=
  s.checked (ok && !descReserved d) (if s.cur.names d s.tenant then t else s.raise .residencyAbsent)

/-! ## Allocation (R76 to R78, R311) -/

/-- A count field: 0 stands for 64 (R76). -/
def countOf (n : Nat) : Nat := if n = 0 then 64 else n

/-- The slots of `n` tiles in a weight format (R77, R187). -/
def slotsFor (bfmt n : Nat) : Nat :=
  match elemBits bfmt with
  | 32 => 4 * n
  | 16 => 2 * n
  | 6 => (3 * n + 1) / 2
  | _ => n

/-- The slots that a tenant holds on the core (R78). -/
def Core.slotsOf (c : Core) (tenant : BitVec 16) : Nat :=
  ((c.res.filter fun e => e.st != .free && e.tenant == tenant).map (·.slots)).sum

/-- The slots held on the core. -/
def Core.slotsHeld (c : Core) : Nat := ((c.res.filter (·.st != .free)).map (·.slots)).sum

/-- The rows held in the core's row store. -/
def Core.rowsHeld (c : Core) : Nat := ((c.res.filter (·.st != .free)).map (·.rows)).sum

/-- A tenant's slot quota on the core: its first valid QUOTA entry, or 0 (R401). -/
def Core.quota (c : Core) (tenant : BitVec 16) : Nat :=
  ((c.regs.quota.find? fun q => q.getLsbD 15 && bits q.toNat 31 16 == tenant.toNat).map (·.toNat % 128)).getD 0

/-- Whether the tenant's quota allows so many further slots (R78). -/
def Core.quotaOk (c : Core) (tenant : BitVec 16) (slots : Nat) : Bool := c.slotsOf tenant + slots ≤ c.quota tenant

/-- The entry that an alloc descriptor asks for (R76, R77, R90, R311). -/
def allocEntry (d : DWord) (tenant : BitVec 16) (gen : BitVec 10) : ResEntry :=
  let n := d.toNat
  let split := bit n 40
  let nblk := countOf (bits n 27 22)
  let kblk := countOf (bits n 21 16)
  let rows := if split then bits n 39 28 + 1 else 256 * nblk
  { ResEntry.reset with
    st := .empty
    gen := gen
    bfmt := bits n 50 46
    sp := bits n 52 51
    age := bits n 45 41
    split := split
    frows := if split then rows else 0
    kblk := kblk
    nblk := nblk
    tenant := tenant
    slots := slotsFor (bits n 50 46) (kblk * nblk)
    rows := rows
    rowMap := if split then List.range 256 else []
    heat := List.replicate rows 0 }

/-- What makes an alloc descriptor illegal (R77). -/
def ResEntry.illegal (e : ResEntry) : Bool :=
  64 < e.slots || 20 ≤ e.bfmt || (e.split && (e.nblk != 1 || 8 < elemBits e.bfmt || e.sp != 0 || e.rows < 256))

/-- The status of a legal request (R78) and the entry that it takes. Where several statuses apply R78 gives no order: the
lowest is returned (DESIGN CHOICE, assumption 47). -/
def Core.allocStatus (c : Core) (e : ResEntry) : Nat × Nat :=
  let i := c.res.findIdx (·.st == .free)
  if !c.quotaOk e.tenant e.slots then (1, i)
  else if 64 < c.slotsHeld + e.slots ∨ c.res.length ≤ i then (2, i)
  else if 32768 < c.rowsHeld + e.rows then (3, i)
  else (0, i)

/-- `res.alloc` (R311). -/
def execResAlloc (_c _u : Bool) (d a : BitVec 7) (s : State) : Result :=
  let desc := s.issue.src.rs a.toNat
  let want := allocEntry desc s.tenant 0
  let st := s.cur.allocStatus want
  let gen := (s.cur.entry st.2).gen
  let handle := BitVec.ofNat 64 (gen.toNat * 64 + st.2)
  s.checked (d.toNat < 64 && d.toNat % 2 == 0 && a.toNat < 64 && !descReserved desc && !want.illegal)
    (if s.issue.exec = 0 then s
     else if st.1 ≠ 0 then (s.putS d.toNat 0).putS (d.toNat + 1) (BitVec.ofNat 64 st.1)
     else ((s.onCore (·.modEntry st.2 fun _ => allocEntry desc s.tenant gen)).putS d.toNat handle).putS (d.toNat + 1) 0)

/-! ## Loading (R79, R84, R312) -/

/-- A load starts on its residency: the state becomes Loading, the stale bit clears, but for writes that met the source
since the load's issue, and the watch is set (R79, R87, R88). -/
def ResEntry.startLoad (e : ResEntry) (id : Nat) (src : DWord) (pieces : List (Nat × Nat)) : ResEntry :=
  { e with
    st := .loading
    stale := e.ahead.any fun a => a.1 == id && a.2.2
    src := src
    len := (pieces.map (·.2)).sum
    watched := pieces
    slots := slotsFor e.bfmt (e.kblk * e.nblk)
    ahead := e.ahead.filter (·.1 != id) }

/-- Whether an evicted residency's slots can be taken back (R79, R312). -/
def Core.canTakeBack (c : Core) (e : ResEntry) : Bool :=
  let n := slotsFor e.bfmt (e.kblk * e.nblk)
  c.quotaOk e.tenant n && c.slotsHeld + n ≤ 64

/-- What a load that issues or proceeds now has to wait for (R312). -/
def Core.loadWaits (c : Core) (ent : Nat) : Nat :=
  let e := c.entry ent
  if e.st = .loading ∨ c.migrations ent ≠ [] ∨ (e.st = .evicted ∧ !c.canTakeBack e) then 2
  else if e.st = .ready ∧ c.product ent then 1
  else 0

/-- Load `id` of entry `ent` issues: it starts, or waits to start and watches its source meanwhile (R87, R312). -/
def Core.beginLoad (c : Core) (id ent : Nat) (src : DWord) (pieces : List (Nat × Nat)) : Core :=
  c.modEntry ent fun e =>
    if c.loadWaits ent = 2 then { e with ahead := e.ahead ++ [(id, pieces, false)] } else e.startLoad id src pieces

/-- The checks of the source (R84): alignment, length, regions; the physical pieces. -/
def State.sourceTries (s : State) (e : ResEntry) (src : DWord) (len : Nat) : List (Nat × Nat) × List Try :=
  let r := s.tryRange .read src.toNat len
  let bad := r.1.any fun p => match region (paLocal p.1) with
    | .hbm _ => false
    | .tier _ => e.split
    | _ => true
  if r.2 = [] ∧ bad then ([], [Try.fail (lowest s.issue.exec) src .permission false]) else r

/-- `res.load` (R312): all its faults are precise, at the word. -/
def execResLoad (_c _u : Bool) (d a : BitVec 7) (f : Bool) (s : State) : Result :=
  let r := fun i => s.issue.src.rs (a.toNat + i)
  let desc := r 0
  let ent := descEntry desc
  let e := s.cur.entry ent
  let src := r 1
  let len := (r 2).toNat
  let known := s.cur.names desc s.tenant
  let at_ := lowest s.issue.exec
  let mis := (if src.toNat % 128 ≠ 0 then [misalignedAt' at_ src] else []) ++
    if (r 3).toNat % 16 ≠ 0 then [misalignedAt' at_ (r 3)] else []
  let tries := s.sourceTries e src len
  let faults : List LaneFault := ((if mis = [] then tries.2 else mis).filterMap (·.fault)) ++
    if known then [] else [(at_, .residencyAbsent, 0)]
  let pieces := tries.1
  let t := s.noteMalformed (tries.2.filter (·.malformed)).length
  s.checked (a.toNat < 64 && a.toNat % 4 == 0 && s.vOk d.toNat && !descReserved desc && (!known || len == e.sourceLen))
    (if s.issue.exec = 0 then s
     else if faults ≠ [] then t.raiseLanes true true faults []
     else s.after ((s.memWait (some f)).orElse fun _ => if s.cur.writesTo pieces then some .pipeBusy else none)
       ((s.dispatch (some f) s.issue.exec (s.heldUntil [ctrSpan (r 3)]) false false
           (.resLoad ent e.gen src len pieces (some d.toNat) (r 3) (s.cur.loadWaits ent) false none)).onCore
         (·.beginLoad s.nextId ent src pieces)))
where
  /-- A word-level misalignment. -/
  misalignedAt' (l : Nat) (va : DWord) : Try := .fail l va .misaligned false

/-! ## Pin, free, query, heat and age (R315, R316) -/

/-- `res.pin` (R81, R315). -/
def execResPin (_c _u : Bool) (a : BitVec 7) (set : Bool) (s : State) : Result :=
  let d := s.issue.src.rs a.toNat
  s.onResidency (a.toNat < 64) d
    (if s.issue.exec = 0 then s else s.onCore (·.modEntry (descEntry d) fun e => { e with pin := set }))

/-- `res.free` (R82): every load in flight is abandoned at once; the free takes effect at the first instant. -/
def execResFree (_c _u : Bool) (a : BitVec 7) (s : State) : Result :=
  let d := s.issue.src.rs a.toNat
  let ent := descEntry d
  s.onResidency (a.toNat < 64) d
    (if s.issue.exec = 0 then s
     else
       let t := s.onCore (·.modEntry ent fun e => { e with freeing := true })
       let t := (s.cur.loads ent).foldl (fun t f => t.onCore (·.modOp f.id (·.setLoad 0 true))) t
       t.instant s.issue.core ent)

/-- The status word of a residency (R83). -/
def Core.resWord (c : Core) (ent : Nat) : Nat :=
  let e := c.entry ent
  let st := match e.st with
    | .free => 0
    | .empty => 1
    | .loading => 2
    | .ready => 3
    | .evicted => 4
  let b := fun (x : Bool) n => if x then 2 ^ n else 0
  st * 2 ^ 29 + b e.stale 28 + b e.pin 27 + b (c.migrations ent != []) 26 + b e.split 25 + e.slots * 2 ^ 18 +
    e.bfmt * 2 ^ 13 + e.sp * 2 ^ 11 + e.lerr.toNat * 2 ^ 8

/-- `res.query` (R83, R310, R315): a handle that names nothing reads 0. -/
def execResQuery (_c _u : Bool) (d a : BitVec 7) (s : State) : Result :=
  let desc := s.issue.src.rs a.toNat
  s.checked (d.toNat < 64 && a.toNat < 64 && !descReserved desc)
    (s.putS d.toNat (BitVec.ofNat 64 (if s.cur.live desc then s.cur.resWord (descEntry desc) else 0)))

/-- `res.heat` (R316): a row at or beyond the row count raises illegal-operand in its lane. -/
def execResHeat (_c u : Bool) (d a b : BitVec 7) (s : State) : Result :=
  let desc := s.issue.src.rs a.toNat
  let e := s.cur.entry (descEntry desc)
  let row := fun l => (s.A b.toNat l).toNat % 2 ^ 12
  let bad := (s.doers u).filter fun l => e.rows ≤ row l
  let go := if u then (if bad = [] then s.issue.exec else 0) else s.issue.exec &&& ~~~(maskOf fun l => bad.contains l)
  s.onResidency (a.toNat < 64 && s.vOk d.toNat && s.vOk b.toNat) desc
    ((s.raiseLanes u false (bad.map fun l => (l, .illegalOperand, 0)) []).onGrp fun g =>
      { g with rf := g.rf.setV d.toNat go fun l => BitVec.ofNat 32 (e.heat.getD (row (s.from u l)) 0) })

/-- `res.age` (R93, R316). -/
def execResAge (_c _u : Bool) (a : BitVec 7) (s : State) : Result :=
  let d := s.issue.src.rs a.toNat
  s.onResidency (a.toNat < 64) d
    (if s.issue.exec = 0 then s
     else s.onCore (·.modEntry (descEntry d) fun e => { e with heat := e.heat.map (· / 2), passes := 0 }))

/-! ## Migration (R101 to R103, R317) -/

/-- Whether swaps are illegal: a row out of range, a cold operand hot, a hot operand cold, or a row twice (R101). -/
def ResEntry.swapsBad (e : ResEntry) (sw : List (Nat × Nat)) : Bool :=
  let rows := sw.flatMap fun x => [x.1, x.2]
  rows.any (e.rows ≤ ·) || sw.any (fun x => (e.columnOf x.1).isSome || (e.columnOf x.2).isNone) || rows.eraseDups != rows

/-- Why a `res.migrate` waits before its row map is looked at: its flag, the residency's load, a pending migration. -/
def State.migrateWait (s : State) (ent : Nat) (fs : Bool) : Option Stall :=
  if s.flagFull (some fs) then some .clauseWait
  else if (s.cur.entry ent).st = .loading then some .registerPending
  else if s.cur.migrations ent ≠ [] then some .pipeBusy
  else none

/-- `res.migrate` (R317): one swap from each executing lane, checked against the row map as it stands at issue; the stale
bit is looked at once the core's stores to the source are performed (R299). -/
def execResMigrate (_c u : Bool) (d a b : BitVec 7) (f : Bool) (s : State) : Result :=
  let desc := s.issue.src.rs a.toNat
  let ent := descEntry desc
  let e := s.cur.entry ent
  let swap := fun l => (bits (s.A b.toNat l).toNat 15 0, bits (s.A b.toNat l).toNat 31 16)
  let sw := (s.doers u).map swap
  s.onResidency (a.toNat < 64 && s.vOk d.toNat && s.vOk b.toNat &&
      (!s.cur.names desc s.tenant || s.issue.exec == 0 || e.split)) desc
    (if s.issue.exec = 0 then s
     else s.after (s.migrateWait ent f)
       (if e.swapsBad sw then s.raise .illegalOperand
        else if e.st = .empty ∨ e.st = .evicted then s.raise .residencyAbsent
        else s.after ((s.memWait (some f)).orElse fun _ => if s.cur.writesTo e.watched then some .pipeBusy else none)
          (if e.stale then s.raise .residencyStale
           else (s.dispatch (some f) s.issue.exec none false false (.migrate ent sw d.toNat false)).instant
             s.issue.core ent)))

/-! ## The firing mask, format words and the budget (R318 to R320) -/

/-- `fire.set` (R318): lane l's word covers mask bits 1024 g + 32 l onwards. -/
def execFireSet (_c u : Bool) (g : BitVec 2) (a : BitVec 7) (s : State) : Result :=
  s.checked (s.vOk a.toNat)
    (s.onGrp fun x => { x with fire := x.fire.mapIdx fun w old =>
      if w / 32 = g.toNat ∧ s.issue.exec.getLsbD (w % 32) then s.A a.toNat (s.from u (w % 32)) else old })

/-- `mfmt` (R319). -/
def execMfmt (_c u : Bool) (d : BitVec 7) (a b : BitVec 5) (sp : BitVec 2) (i : Bool) (s : State) : Result :=
  s.checked (a.toNat < 20 && b.toNat < 20 && s.vOk d.toNat)
    (s.putV u d.toNat fun _ =>
      BitVec.ofNat 32 ((if i then 2 ^ 12 else 0) + sp.toNat * 2 ^ 10 + b.toNat * 2 ^ 5 + a.toNat))

/-- The refill rate of the core's bucket (R401). -/
def Core.refill (c : Core) : Nat := min 65536 (c.regs.brefill.toNat % 2 ^ 17)

/-- `budget.rd` (R320): the bucket and the charges as they stood before the bundle (R200). -/
def execBudgetRd (_c _u : Bool) (d : BitVec 7) (sel : BitVec 8) (s : State) : Result :=
  s.checked (d.toNat < 64 && sel.toNat < 4)
    (s.putS d.toNat (BitVec.ofNat 64 (match sel.toNat with
      | 0 => s.issue.bucket
      | 1 => s.issue.charged.1
      | 2 => s.issue.charged.2
      | _ => s.cur.refill)))

end Sys2Proof.Machine
end

