-- ==== Sys2Proof/Machine/Finish.lean ====
section
/-! DEFINITION. The events of matrix passes, grotto units, migrations and residency loads (R84 to R104, R300, R312,
R314). An event that finds no subject, or whose turn has not come, changes nothing. -/

namespace Sys2Proof.Machine

/-! ## Passes and joins (R95 to R98, R295, R300) -/

/-- The tiles that an operation on the matrix unit changes. -/
def Flight.tiles (f : Flight) : List Nat :=
  match f.kind with
  | .pass _ t _ _ _ split _ => if split then [t, t + 1] else [t]
  | .grotto _ t _ _ _ _ _ _ => [t]
  | _ => []

/-- Whether an earlier matrix operation on one of the same tiles in one of the same lanes is still to act: results are
added in the order in which the passes issued (R96, R295). -/
def Core.tileTurn (c : Core) (f : Flight) : Bool :=
  !c.flight.any fun e => e.id < f.id && (e.mask &&& f.mask) != 0 && e.tiles.any f.tiles.contains

/-- The A blocks' products added into a tile, its rows zeroed first where the pass asks for it. -/
def Core.runPass (c : Core) (ent tile kb : Nat) (bs : List (Nat × List Word)) (zero split : Bool)
    (cols : List (Nat × Nat)) : Core :=
  let e := c.entry ent
  let m := blockMask bs
  let c := if zero then c.modTile tile (·.zeroRows m) else c
  let c := if zero && split then c.modTile (tile + 1) (·.zeroRows m) else c
  c.modTile tile (·.addProducts e kb bs cols e.weightRow)

/-- MATRIX_PASS_DONE (R300): a pass's array results are in its tile. -/
def execMatrixPassDone (k id : Nat) (s : State) : Result :=
  .next (match (s.core k).op id with
    | none => s
    | some f => match f.kind with
      | .pass ent tile kb bs zero split cols =>
        if !(s.core k).tileTurn f then s
        else ((s.modCore k (·.runPass ent tile kb bs zero split cols)).finishOp k f).instant k ent
      | _ => s)

/-- A grotto request with the rows that its stack has read. -/
def Flight.setRows (f : Flight) (rows : List (Nat × List Byte)) : Flight :=
  match f.kind with
  | .grotto e t kb st bs cold src _ => { f with kind := .grotto e t kb st bs cold src (some rows) }
  | _ => f

/-- The stack has the cold rows of a request: those that could be read stand with it; the others give no result, and the
error is reported (R161, R441). -/
def State.grottoRead (s : State) (k : Nat) (f : Flight) (ent : Nat) (cold src : List (Nat × Nat)) : State :=
  let e := (s.core k).entry ent
  let code := fun (x : Nat × Nat) => s.sourceCode f e src x.2
  let rows := (cold.filter fun x => code x == 0).map fun x => (x.2, s.sourceRow k f e src x.2)
  let bad := cold.filter fun x => code x != 0
  let t := (s.modCore k (·.modOp f.id (·.setRows rows))).recordErrors 2 (bad.flatMap fun x =>
    (e.rowParts src x.2).map fun p => (.phys p.1, p.2))
  let t := t.recordWeak (cold.flatMap fun x => (e.rowParts src x.2).map fun p => (.phys p.1, p.2))
  t.lateErrors k f ([1, 2].filterMap fun c =>
    if bad.any fun x => code x == c then some (lateReport (errCause c) f.pc f.mask false s.tick) else none)

/-- GROTTO_REQUEST (R97): the stack's grotto units read the cold rows from the pass's source as memory holds them now, once
the accesses before the pass are performed (R69). -/
def execGrottoRequest (k id : Nat) (s : State) : Result :=
  .next (match (s.core k).op id with
    | none => s
    | some f => match f.kind with
      | .grotto ent _ _ _ _ cold src none =>
        s.engineRun k id (s.core k).engineReady
          (fun _ => cold.flatMap fun x => ((s.core k).entry ent).rowParts src x.2)
          (fun s f => (s.grottoRead k f ent cold src, [])) fun s _ => s
      | _ => s)

/-- The results of a grotto request added into its tile. -/
def Core.addJoin (c : Core) (ent tile kb : Nat) (bs : List (Nat × List Word)) (cold : List (Nat × Nat))
    (rows : List (Nat × List Byte)) : Core :=
  let e := c.entry ent
  let row := fun r => ((rows.find? (·.1 == r)).map (·.2)).getD []
  c.modTile tile (·.addProducts e kb bs (cold.filter fun x => rows.any (·.1 == x.2)) row)

/-- GROTTO_RESULT (R97): a stack's result is added into a(n+1), after the array results of its pass and of earlier
passes. -/
def execGrottoResult (k id : Nat) (s : State) : Result :=
  .next (match (s.core k).op id with
    | none => s
    | some f => match f.kind with
      | .grotto ent tile kb _ bs cold _ (some rows) =>
        let later := (s.core k).flight.any fun e => e.id < f.id && e.word != f.word && (e.mask &&& f.mask) != 0 &&
          e.tiles.contains tile
        let own := (s.core k).flight.any fun e => e.word == f.word && e.mask == f.mask && match e.kind with
          | .pass _ _ _ _ _ _ _ => true
          | _ => false
        if later || own then s
        else ((s.modCore k (·.addJoin ent tile kb bs cold rows)).finishOp k f).instant k ent
      | _ => s)

/-! ## Migrations (R101 to R103, R317) -/

/-- The rows of a source are read: the errors that they hold are recorded (R441). -/
def State.readRows (s : State) (e : ResEntry) (pieces : List (Nat × Nat)) (rows : List Nat) : State :=
  let parts := rows.flatMap fun r => (e.rowParts pieces r).map fun p => (Loc.phys p.1, p.2)
  (s.recordErrors 2 parts).recordWeak parts

/-- The row map after swaps: each new hot row takes the column of the row that it displaces (R102). -/
def swapRows (map : List Nat) (sw : List (Nat × Nat)) : List Nat :=
  map.map fun r => ((sw.find? (·.2 == r)).map (·.1)).getD r

/-- The weights after migration `f`: the displaced rows leave the store, the new ones come from the source. -/
def State.migrated (s : State) (k : Nat) (f : Flight) (e : ResEntry) (sw : List (Nat × Nat)) : ResEntry :=
  { e with
    rowMap := swapRows e.rowMap sw
    weights := (e.weights.filter fun w => !sw.any (·.2 == w.1)) ++ sw.map fun x => (x.1, s.sourceRow k f e e.watched x.1) }

/-- MIGRATION_COMPLETE (R102, R317): at its instant a migration changes the row map and loads its new hot columns. -/
def execMigrationComplete (k id : Nat) (s : State) : Result :=
  .next (match (s.core k).op id with
    | none => s
    | some f => match f.kind with
      | .migrate ent sw d true =>
        let e := (s.core k).entry ent
        s.engineRun k id (s.core k).engineReady (fun _ => sw.flatMap fun x => e.rowParts e.watched x.1)
          (fun s _ => (s.readRows e e.watched (sw.map (·.1)), [])) fun s f =>
            if ((s.core k).entry ent).stale then (s.endOp k f (some d) (resStatus 1)).instant k ent
            else if sw.any fun x => s.sourceBad f e e.watched x.1 then (s.endOp k f (some d) (resStatus 2)).instant k ent
            else ((s.modCore k (·.modEntry ent (s.migrated k f · sw))).endOp k f (some d) (resStatus 0)).instant k ent
      | _ => s)

/-! ## Residency loads (R84 to R86, R312) -/

/-- RES_LOAD_PROCEED (R312): a waiting load looks again at what it waits for; loads proceed in issue order. -/
def execResLoadProceed (k id : Nat) (s : State) : Result :=
  .next (match (s.core k).op id with
    | none => s
    | some f => match f.kind with
      | .resLoad ent _ src _ pieces _ _ waiting _ _ =>
        let c := s.core k
        let first := !(c.loads ent).any fun x => x.id < f.id
        let w := if (c.entry ent).st = .loading ∧ waiting = 1 then (if c.product ent then 1 else 0) else c.loadWaits ent
        if waiting = 0 ∨ !first then s
        else s.modCore k fun c =>
          (if waiting = 2 ∧ w ≠ 2 then c.modEntry ent (·.startLoad id src pieces) else c).modOp id (·.setLoad w false)
      | _ => s)

/-- The rows of the source that a load brings into the weight store: every row, or the hot rows (R90). Only these are read, so that
uncorrectable data in a cold row do not end a load (DESIGN CHOICE, assumption 77). -/
def ResEntry.loadRows (e : ResEntry) : List Nat := if e.split then e.rowMap else List.range e.rows

/-- How load `f` ends (R86). A row that straddles stacks is reported before uncorrectable data (DESIGN CHOICE,
assumption 44): R86 gives no order. -/
def State.loadCode (s : State) (f : Flight) (e : ResEntry) (pieces : List (Nat × Nat)) : Nat :=
  if f.abandoned then 3
  else if e.split && (List.range e.rows).any fun r => 1 < (e.rowStacks pieces r).length then 1
  else if e.loadRows.any fun r => s.sourceBad f e pieces r then 2
  else 0

/-- The entry after load `f` has ended (R79, R83, R89, R90). -/
def State.loaded (s : State) (k : Nat) (f : Flight) (e : ResEntry) (pieces : List (Nat × Nat)) (code : Nat) : ResEntry :=
  if code = 0 then
    { e with
      st := .ready
      lerr := 0
      heat := List.replicate e.rows 0
      passes := 0
      weights := e.loadRows.map fun r => (r, s.sourceRow k f e pieces r) }
  else
    { e with
      st := if e.st = .loading then .empty else e.st
      lerr := BitVec.ofNat 3 code
      ahead := e.ahead.filter (·.1 != f.id) }

/-- RES_LOAD_COMPLETE (R86, R312) of a load that is in flight on a core; the whole is withheld while a push of its counter
would wait (R139). An abandoned load sends no further reads (R82). -/
def State.resLoadDone (s : State) (k : Nat) (f : Flight) : State :=
  match f.kind with
  | .resLoad ent _ _ _ pieces _ _ 0 _ _ =>
    s.engineRun k f.id
      (fun f => (s.core k).engineReady f && f.held.isNone && !((s.core k).loads ent).any fun x => x.id < f.id)
      (fun f => if f.abandoned then [] else pieces)
      (fun s f => (if f.abandoned then s
        else s.readRows ((s.core k).entry ent) pieces ((s.core k).entry ent).loadRows, [])) fun s f =>
        let code := s.loadCode f ((s.core k).entry ent) pieces
        let t := s.modCore k (·.modEntry ent (s.loaded k f · pieces code))
        s.withheld [1, k, f.id] ((t.endLoad k f code).instant k ent)
  | _ => s

end Sys2Proof.Machine
end

