-- ==== Sys2Proof/Machine/Teams.lean ====
section
/-! DEFINITION. Slots that are reclaimed and the core commands: pre-emption, return, termination (R32, R47, R149, R164 to
R167, R402, R419). -/

namespace Sys2Proof.Machine

/-! ## Slots that are reclaimed (R32, R47) -/

/-- Whether a group's slot can be reclaimed: every lane has exited, its last bundle has issued whole, and every store is
acknowledged. -/
def Core.reclaimable (c : Core) (slot : Nat) : Bool :=
  match c.group slot with
  | none => false
  | some g => g.exited && g.phase == .running && g.part.isNone && !c.flight.any fun f => f.slot == slot && f.team == g.team &&
      match f.kind with
      | .store _ => true
      | .rmw _ _ _ => true
      | _ => false

/-- An ended group leaves its slot: its blocks return to the core; with the team's last group the pool, the scratchpad, the
hold windows and the tiles' ownership go (R47, R166, R360). -/
def Core.reclaim (c : Core) (slot : Nat) : Core :=
  match c.group slot with
  | none => c
  | some g =>
    let c := { c with groups := c.groups.set slot none, freeBlocks := c.freeBlocks + g.rf.v.length / 8 }
    let c := c.modTeam g.team fun t =>
      { t with live := t.live.filter (· != slot), claims := t.claims.filter (·.1 != slot) }
    match c.team g.team with
    | none => c
    | some t =>
      if t.live ≠ [] then c
      else { c.modTeam g.team fun t => { t with pool := 0, spadMap := [] } with
        freeBlocks := c.freeBlocks + t.pool
        holds := c.holds.filter (·.team != g.team)
        tiles := c.tiles.map fun a => if a.owner = some g.team then { a with owner := none } else a }

/-! ## Blocking points (R149, R164) -/

/-- Whether an operation is a load from another package whose data have not returned (R149). -/
def State.remoteOp (s : State) (k : Nat) (f : Flight) : Bool :=
  f.kind.loads && s.awaits k f.id && f.kind.accesses.any fun x => s.beyond x.loc == some false

/-- The load from another package that a lane waits for, if any: its access (R149). -/
def State.remoteLoad (s : State) (k slot team lane : Nat) : Option LaneAccess :=
  (s.core k).flight.findSome? fun f =>
    if f.slot = slot ∧ f.team = team ∧ f.mask.getLsbD lane ∧ s.remoteOp k f then
      f.kind.accesses.find? fun x => x.lane == lane || f.kind.width == 1
    else none

/-- Whether a group waits for a load from another package: in a clause, for a register, or behind an access of an SC page
(R71, R149). -/
def State.onRemote (s : State) (k slot : Nat) (g : Group) : Bool :=
  [3, 4, 6].contains g.why.1 &&
    (s.core k).flight.any fun f => f.slot == slot && f.team == g.team && f.pc == g.why.2.2 && s.remoteOp k f

/-- Whether a group is at a blocking point: each lane has exited or waits in a barrier, on a word, or for a load from
another package (R149). -/
def State.blocking (s : State) (k slot : Nat) (g : Group) : Bool :=
  g.barWait.isSome || (List.range 32).all fun l =>
    (g.lane l).vpc == 0xFFFFFFFF || (g.lane l).park.isSome ||
      (s.onRemote k slot g && (s.remoteLoad k slot g.team l).isSome)

/-- Whether a team may be pre-empted (R164): none of its groups is within a bundle. -/
def State.mayPreempt (s : State) (k : Nat) (t : Team) : Bool :=
  t.live.all fun j => !s.midBundle k j && match (s.core k).owner j t.id with
    | none => true
    | some g => g.exited || g.phase == .switchedOut || (g.phase == .running && s.blocking k j g)

/-! ## Saving a team (R165, R166, R402, R419) -/

/-- Bytes that a group's image takes in a save area. -/
def imagePlace : Nat := 20480

/-- The header of a save area: team size, KiB of scratchpad, tile mask and task record address, eight bytes each
(DESIGN CHOICE, assumption 26), zeros up to 256 bytes. -/
def saveHeader (t : Team) (tiles : List Nat) : List Byte :=
  leBytes 8 t.slots.length ++ leBytes 8 (t.spadSize / 1024) ++ leBytes 8 ((tiles.map (2 ^ ·)).sum) ++
    leBytes 8 t.trec.toNat ++ leBytes 224 0

/-- The bytes of a tile with its tags (R419). -/
def Tile.bytes (a : Tile) : List Byte :=
  (a.rows.flatMap fun r => r.flatMap fun w => leBytes 4 w.toNat) ++
    (a.tags.flatMap fun b => b.flatMap fun t => leBytes 2 (t.elim 0 fun f => 2 ^ 15 + f.toNat))

/-- Bytes of a saved tile. -/
def tileSize : Nat := 34816

/-- A tile as its saved bytes give it, owned by a team. -/
def Tile.of (b : List Byte) (team : Nat) : Tile where
  rows := (List.range 32).map fun l => (List.range 256).map fun c =>
    BitVec.ofNat 32 (leNat ((b.drop (1024 * l + 4 * c)).take 4))
  tags := (List.range 4).map fun q => (List.range 256).map fun c =>
    let w := leNat ((b.drop (32768 + 512 * q + 2 * c)).take 2)
    if bit w 15 then some (BitVec.ofNat 14 w) else none
  owner := some team

/-- The offset of the scratchpad in a team's save area. -/
def Team.spadAt (t : Team) : Nat := 256 + imagePlace * t.slots.length

/-- The offset of the `i`-th saved tile in a team's save area. -/
def Team.tileAt (t : Team) (i : Nat) : Nat := t.spadAt + t.spadSize + tileSize * i

/-- A team's scratchpad allocation, in order. -/
def Core.spadBytes (c : Core) (t : Team) : List Byte := t.spadMap.flatMap fun i => c.spad.bytes (1024 * i) 1024

/-- The tiles that a team owns (R166). -/
def Core.ownTiles (c : Core) (id : Nat) : List Nat :=
  (List.range 16).filter fun t => (c.tile t).owner == some id

/-- The image of a group as pre-emption saves it: a group that is switched out already keeps the image it has, and a lane
that waits for a remote load, and neither is parked nor waits in a pop, says so (R158, R419). -/
def State.saveImage (s : State) (k slot : Nat) (t : Team) (g : Group) : List Byte :=
  if g.phase = .switchedOut then s.readPa g.area (imageHead + 128 * g.rf.v.length + 192)
  else
    (List.range 32).foldl (fun b l => match if (g.lane l).park.isSome then none else s.remoteLoad k slot t.id l with
      | none => b
      | some x => b.take (0x580 + 64 * l + 0x30) ++ leBytes 8 (3 * 2 ^ 56 + x.va.toNat % 2 ^ 56) ++
          b.drop (0x580 + 64 * l + 0x38)) (g.image slot t.origin.lseq false)

/-- A group as it leaves with its team: latches empty, the items of its windows dropped (R144, R301). -/
def Group.leave (g : Group) (area : Nat) : Group :=
  { g with
    area := area
    latch := List.replicate 32 none
    lanes := g.lanes.map fun t => { t with win := t.win.away } }

/-- The tenant's Ready residencies without a pin are evicted (R79, R81). -/
def ResEntry.evict (tenant : BitVec 16) (e : ResEntry) : ResEntry :=
  if e.st = .ready ∧ !e.pin ∧ e.tenant = tenant then { e with st := .evicted, slots := 0, weights := [] } else e

/-- Whether a load of a team waits for an answer but is none that is replayed. -/
def State.hostLoads (s : State) (k id : Nat) : Bool := (s.core k).flight.any fun f =>
  f.team == id && f.kind.loads && s.awaits k f.id && !s.remoteOp k f

/-- Whether the eviction and the save have to wait: for a product or a pending migration of one of the tenant's residencies, a
pending tile of the team, an ended group whose stores are not acknowledged, or a load from the host (R104, R165, R317). -/
def State.saveWaits (s : State) (k : Nat) (t : Team) : Bool :=
  let c := s.core k
  (List.range 64).any (fun e => (c.entry e).tenant == t.origin.tenant && (c.product e || c.migrations e != [])) ||
    s.hostLoads k t.id ||
    (c.ownTiles t.id).any (fun a => c.tileBusy a || c.rowsLoading a 0xFFFFFFFF) ||
    t.live.any fun j => ((c.owner j t.id).map Group.exited).getD false

/-- What a group of a slot has asked is over: words, code and refills (R32, R402). -/
def State.dropGroupAsks (s : State) (k slot : Nat) : State :=
  let own := fun (w : List Nat) => [0, 6, 7].contains (w.getD 0 9) && w.getD 1 0 == k && w.getD 2 0 == slot
  { s with fabric := { s.fabric with requests := s.fabric.requests.filter fun r => !r.asker.any own } }

/-- The loads of a team that are to be replayed leave the core with it; the answers that they have asked for are no longer
awaited (R149). -/
def State.takeReplays (s : State) (k : Nat) (t : Team) : State × List Flight :=
  let c := s.core k
  let mine := fun (f : Flight) => f.team == t.id && s.remoteOp k f
  let fs := c.flight.filter mine
  let gone := fun (r : Request) => r.core == k && r.asker.isNone && fs.any (·.id == r.flight)
  let s := t.live.foldl (fun s j => s.dropGroupAsks k j) s
  (({ s with fabric := { s.fabric with requests := s.fabric.requests.filter fun r => !gone r } }).modCore k fun c =>
    { c with flight := c.flight.filter fun f => !fs.any (·.id == f.id), replays := c.replays.filter (·.team != t.id) },
    fs ++ c.replays.filter (·.team == t.id))

/-- The accesses of a load translated anew: where each lies, or the faults that they meet (R149, R426). -/
def State.placeAnew (s : State) (space : Nat) (tenant : BitVec 16) : List LaneAccess → State × List LaneAccess × List LaneFault
  | [] => (s, [], [])
  | x :: xs =>
    let t := s.translate space tenant .read x.va.toNat
    let r := (s.noteMalformed (if t.2 then 1 else 0)).placeAnew space tenant xs
    match x.global, t.1 with
    | true, .ok pa _ _ => (r.1, { x with loc := .phys pa } :: r.2.1, r.2.2)
    | true, .fail c => (r.1, x :: r.2.1, (x.lane, c, x.va) :: r.2.2)
    | false, _ => (r.1, x :: r.2.1, r.2.2)

/-- The operation among those of a core, in the order of their issue. -/
def Core.putOp (c : Core) (f : Flight) : Core :=
  { c with flight := c.flight.filter (·.id < f.id) ++ f :: c.flight.filter (f.id < ·.id) }

/-- The report of a load whose replay faults: its cause in the lanes that have it, at the word that loaded (R149, R152, R153).
The group has issued words behind that one, so that the report is as R162 has it, and the load is replayed again when the
group returns (DESIGN CHOICE, assumption 78). -/
def Flight.replayReport (f : Flight) (tick : Nat) (fs : List LaneFault) (c : Cause) : Report :=
  let mine := fs.filter (·.2.1 == c)
  { lateReport c f.pc (mine.foldl (fun m x => m ||| f.lanesOf x.1) 0) false tick with
    va := (lowestFault mine).elim 0 (·.2.2)
    pages := if c = .notPresent then (missingPages fs).map (·, true) else [] }

/-- A load is replayed, with its pages translated anew: it keeps its place among the operations of its group (R149). That of a
group that stands still waits for its return. -/
def State.replay (s : State) (k : Nat) (f : Flight) : State :=
  let later := fun (o : Core) => { o with replays := o.replays ++ [f] }
  match f.kind with
  | .load dest ls =>
    if ((s.core k).owner f.slot f.team).any (·.phase != .running) then s.modCore k later
    else
    let r := s.placeAnew ((s.core k).regs.space.toNat % 2 ^ 16) f.origin.tenant ls
    match lowestCause r.2.2 with
    | none =>
      let f := { f with errs := [], got := [], sent := 0, space := (s.core k).regs.space.toNat % 2 ^ 16, kind := .load dest r.2.1 }
      r.1.modCore k (·.putOp f)
    | some c => (r.1.modCore k later).lateError k f (f.replayReport s.tick r.2.2 c)
  | _ => s

/-- The loads of a group that wait to be replayed are (R149). -/
def State.replayGroup (s : State) (k slot team : Nat) : State :=
  let mine := fun (f : Flight) => f.slot == slot && f.team == team
  let fs := (s.core k).replays.filter mine
  (fs.foldl (fun s f => s.replay k f) (s.modCore k fun c => { c with replays := c.replays.filter fun f => !mine f })).sendRequests k

/-- A team pre-empted: its groups' images, scratchpad and tiles stand in its save area, and its slots, blocks, scratchpad
and tiles are free (R165, R166). -/
def State.preempt (s : State) (k : Nat) (t : Team) (area : Nat) : State :=
  let s := t.live.foldl (fun s j => s.drainLoads k j t.id) s
  let c := s.core k
  let tiles := c.ownTiles t.id
  let groups := t.live.filterMap fun j => (c.owner j t.id).map fun g => (j, g)
  let at_ := fun (g : Group) => area + 256 + imagePlace * g.tix
  let s := s.deviceWrite area (saveHeader t tiles)
  let s := groups.foldl (fun s x => s.deviceWrite (at_ x.2) (s.saveImage k x.1 t x.2)) s
  let s := s.deviceWrite (area + t.spadAt) (c.spadBytes t)
  let s := tiles.zipIdx.foldl (fun s x => s.deviceWrite (area + t.tileAt x.2) (c.tile x.1).bytes) s
  let r := s.takeReplays k t
  let saved : SavedTeam :=
    { team := t, area := area, tiles := tiles, groups := groups.map fun x => (x.1, x.2.leave (at_ x.2)), wanted := false,
      replays := r.2 }
  r.1.modCore k fun c => { c with
    groups := t.live.foldl (fun gs j => gs.set j none) c.groups
    teams := c.teams.filter (·.id != t.id)
    freeBlocks := c.freeBlocks + t.pool + (groups.map fun x => x.2.rf.v.length / 8).sum
    tiles := c.tiles.map fun a => if a.owner = some t.id then { a with owner := none } else a
    res := c.res.map (·.evict t.origin.tenant)
    saved := c.saved ++ [saved] }

/-- The command of a core ends: CSTAT reads 2 done or 3 refused (R401). -/
def State.endCommand (s : State) (k : Nat) (st : DWord) : State :=
  s.modCore k fun c => { c with regs := { c.regs with cstat := st } }

/-- The local address of CARG. -/
def State.cargPa (s : State) (k : Nat) : Nat := s.localPa ((s.core k).regs.carg.toNat % 2 ^ 44)

/-- The slots of a command's mask that hold a group, lowest first. -/
def Core.named (c : Core) (m : Word) : List Nat := (lanesOf m).filter fun j => (c.group j).isSome

/-- SAVE_TEAM (R402): refused unless R164 holds. -/
def execSaveTeam (k : Nat) (m : BitVec 32) (s : State) : Result :=
  let c := s.core k
  .next (match (c.named m).head?.bind fun j => (c.group j).bind fun g => c.team g.team with
    | none => s.endCommand k 3
    | some t =>
      if !s.mayPreempt k t then s.endCommand k 3
      else if s.saveWaits k t then s
      else (s.preempt k t (s.cargPa k)).endCommand k 2)

/-- RESTORE_TEAM (R402): the return of the team whose save area is at CARG is requested. -/
def execRestoreTeam (k : Nat) (s : State) : Result :=
  let area := s.cargPa k
  .next (if (s.core k).saved.any (·.area == area) then
      s.modCore k fun c => { c with saved := c.saved.map fun t => if t.area = area then { t with wanted := true } else t }
    else s.endCommand k 3)

/-! ## The return of a team (R165 to R167) -/

/-- Whether everything that a saved team left is free again (R165, R166). -/
def Core.canReturn (c : Core) (t : SavedTeam) : Bool :=
  let blocks := t.team.pool + (t.groups.map fun g => g.2.rf.v.length / 8).sum
  t.groups.all (fun g => (c.group g.1).isNone) && blocks ≤ c.freeBlocks &&
    t.team.spadMap.all (fun i => !c.teams.any (·.spadMap.contains i)) &&
    t.tiles.all fun a => match (c.tile a).owner with
      | none => true
      | some id => !c.teams.any (·.id == id)

/-- What became of a returned group's waits takes effect (R35, R167, R351): parked lanes, the barrier. -/
def State.settleGroup (s : State) (k slot : Nat) : State :=
  s.modGroup k slot fun g =>
    if g.phase ≠ .running then g
    else
      let g := g.wakeReturned s.clk (s.parkChanged k)
      match g.barWait with
      | some w => g.endWait w.scope.toNat w.num.toNat (s.barrier k w.scope.toNat w.num.toNat).completions s.nextId
      | none => g

/-- A group of a returning team: from its image in the save area; a group that was switched out for a fault stays so, with
its image in its slot's area again (R158, R165). -/
def State.returnGroup (s : State) (k : Nat) (x : Nat × Group) : State :=
  let n := x.2.rf.v.length
  let b := s.readPa x.2.area (imageHead + 128 * n + 192)
  let home := s.localPa ((s.core k).regs.fsave.toNat % 2 ^ 44 / 4096 * 4096 + imagePlace * x.1)
  if x.2.phase = .switchedOut then
    (s.deviceWrite home b).modCore k fun c =>
      { c with groups := c.groups.set x.1 (some { x.2 with area := home }) }
  else
    let r := s.reload k x.1 (x.2.restore b)
    (r.1.modCore k fun c => { c with groups := c.groups.set x.1 (some r.2) }).settleGroup k x.1

/-- A saved team written back. -/
def State.returnTeam (s : State) (k : Nat) (t : SavedTeam) : State :=
  let spad := t.team.spadMap.zipIdx.map fun x => (x.1, s.readPa (t.area + t.team.spadAt + 1024 * x.2) 1024)
  let tiles := t.tiles.zipIdx.map fun x => (x.1, Tile.of (s.readPa (t.area + t.team.tileAt x.2) tileSize) t.team.id)
  let blocks := t.team.pool + (t.groups.map fun g => g.2.rf.v.length / 8).sum
  let s := s.modCore k fun c => { c with
    teams := c.teams ++ [t.team]
    saved := c.saved.filter (·.area != t.area)
    freeBlocks := c.freeBlocks - blocks
    spad := spad.foldl (fun m x => m.write (1024 * x.1) x.2) c.spad
    spadOwner := c.spadOwner.mapIdx fun i o => if t.team.spadMap.contains i then some t.team.origin.tenant else o
    tiles := tiles.foldl (fun ts x => ts.set x.1 x.2) c.tiles }
  let s := t.groups.foldl (fun s x => s.returnGroup k x) s
  (t.replays.foldl (fun s f => s.replay k f) s).sendRequests k

/-- TEAM_RETURN (R165): the oldest saved team whose return is requested, once what it left is free. -/
def execTeamReturn (k : Nat) (s : State) : Result :=
  .next (match (s.core k).saved.find? (·.wanted) with
    | none => s
    | some t => if !(s.core k).canReturn t then s else (s.returnTeam k t).endCommand k 2)

/-! ## Returning and terminating groups (R158, R160, R402) -/

/-- RETURN_GROUP (R402): the switched-out group of the lowest slot in the mask, from the image at CARG; a group whose record
waits for room in the fault queue stays switched out until it fits (R417). -/
def execReturnGroup (k : Nat) (m : BitVec 32) (s : State) : Result :=
  let c := s.core k
  .next (match (lanesOf m).find? fun j => ((c.group j).map fun g => g.phase == .switchedOut).getD false with
    | none => s.endCommand k 3
    | some j =>
      if s.fq.pending.any (·.1 == some (k, j)) then s
      else
        let t := (s.returnFrom k j (s.cargPa k)).settleGroup k j
        let team := ((c.group j).map (·.team)).getD 0
        ((t.modCore k (·.serveClaims team)).replayGroup k j team).endCommand k 2)

/-- A group stopped for good: every lane has exited, and it waits for nothing. -/
def Group.kill (g : Group) : Group :=
  { g with
    lanes := g.lanes.map fun t =>
      let win : WqWindow := { desc := none, items := [], first := 0, refill := false, waiting := none }
      { t with vpc := 0xFFFFFFFF, park := none, win := win }
    phase := .running
    report := none
    unfin := 0
    errors := []
    barWait := none
    sleepUntil := none
    tryUntil := none
    claim := none
    fences := []
    part := none }

/-- Groups of a core stopped and their tasks ended in error (R133, R402). -/
def State.killGroups (s : State) (k : Nat) (js : List Nat) : State :=
  js.foldl (fun s j => match (s.core k).group j with
    | none => s
    | some g =>
      let s := (s.dropGroupAsks k j).modCore k fun c => ({ c.modGroup j Group.kill with
        runs := c.runs.filter (·.slot != j)
        replays := c.replays.filter (·.slot != j) }).partDone j
      let s := s.modCore k (·.modTeam g.team fun t => { t with claims := t.claims.filter (·.1 != j) })
      (s.modCore k (·.serveClaims g.team)).teamError k g.team) s

/-- TERMINATE (R402): a bundle that has begun to issue is waited for, its end being the next issue boundary. -/
def execTerminate (k : Nat) (m : BitVec 32) (s : State) : Result :=
  let js := (s.core k).named m
  .next (if js.any fun j => s.midBundle k j then s else (s.killGroups k js).endCommand k 2)

end Sys2Proof.Machine
end

