-- ==== Sys2Proof/Machine/Launch.lean ====
section
/-! DEFINITION. The Belvedere: command rings, launch bundles, wait packets, completion and retirement (R405 to R416), and the
steps of cores that can retire a bundle. The accesses of the Belvedere's thread t are carried out by the bulk-copy engine t, which
translates under PSPACE t (R428; DESIGN CHOICE, assumption 25). -/

namespace Sys2Proof.Machine

/-! ## Threads and their ring (R406, R408) -/

/-- A thread. -/
def State.thread (s : State) (t : Nat) : BThread := s.belv.threads.getD t BThread.reset

/-- A thread changed. -/
def State.modThread (s : State) (t : Nat) (f : BThread → BThread) : State :=
  { s with belv := { s.belv with threads := s.belv.threads.modify t f } }

/-- The tenant of a thread's queue. -/
def BThread.tenant (b : BThread) : BitVec 16 := BitVec.ofNat 16 (b.qctl.toNat / 2 ^ 48)

/-- Whether the ring's length is legal. -/
def BThread.lcapOk (b : BThread) : Bool := 1 ≤ b.qctl.toNat % 32 && b.qctl.toNat % 32 ≤ 16

/-- The address of command `n`. -/
def BThread.commandAt (b : BThread) (n : Nat) : DWord :=
  BitVec.ofNat 64 (b.qbase.toNat / 128 * 128 + 128 * (n % 2 ^ (b.qctl.toNat % 32)))

/-- The space that bulk-copy engine `t` translates under (R428), which serves thread `t`. -/
def State.belvSpace (s : State) (t : Nat) : Nat := (s.mc.pspace.getD t 0).toNat % 2 ^ 16

/-- A thread as the party that reads, writes, pushes and completes, under a name (R136: place 0 goes to quad 0 of die 0). -/
def State.belvParty (s : State) (t : Nat) (who : List Nat) (lseq : Word) (cpc : DWord) : Party where
  core := belvedere
  who := who
  space := s.belvSpace t
  origin := { tenant := (s.thread t).tenant, lseq := lseq, cpc := cpc, sub := none }
  quad := 0
  waiter := none

/-- Bytes that a thread reads at a virtual address: nothing where they cannot be read, or while their answer is
awaited. -/
def State.belvRead (s : State) (t : Nat) (who : List Nat) (va : DWord) (n : Nat) : State × Option (List Byte) :=
  match s.look (s.belvSpace t) (s.thread t).tenant .read va with
  | (s, none) => (s, none)
  | (s, some pa) => match s.readAt belvedere 0 who pa n with
    | (u, some (0, b)) => (u, some b)
    | (u, _) => (u, none)

/-- Bytes that a thread writes at a virtual address, as a pod-scope release (R413, R414, R445); nothing where its page cannot be
written. -/
def State.belvWrite (s : State) (t : Nat) (who : List Nat) (va : DWord) (bs : List Byte) : State :=
  match s.look (s.belvSpace t) (s.thread t).tenant .write va with
  | (s, some pa) => (s.writeAt belvedere 0 who false pa bs).1
  | (s, none) => s

/-- The command that a thread would start next. -/
def State.nextCommand (s : State) (t : Nat) : State × Option (List Byte) :=
  s.belvRead t [4, t] ((s.thread t).commandAt (s.thread t).started) 128

/-- The thread's pushes that wait for room (R139). -/
def State.belvPushes (s : State) (t : Nat) : Bool :=
  s.quads.any fun q => q.waiting.any fun w => match w.entry.origin.sub with
    | some r => r.1 == t
    | none => false

/-- Whether a thread may start a command: enabled, with one written, no wait packet blocking, every sub-launch of its
earlier commands started (R406, R408, R409, R464). -/
def State.mayStart (s : State) (t : Nat) : Bool :=
  let b := s.thread t
  !s.belv.dead && b.qctl.getLsbD 8 && b.lcapOk && b.started < b.qtail.toNat && !b.inflight.any (·.wait) &&
    !s.belvPushes t && b.inflight.all (·.todo.isEmpty)

/-- Whether a thread has room for one more bundle in flight (R408). -/
def BThread.bundleRoom (b : BThread) : Bool := (b.inflight.filter (!·.wait)).length < 16

/-- The little-endian eight bytes at an offset of a command. -/
def field (b : List Byte) (o : Nat) : Nat := leNat ((b.drop o).take 8)

/-- Whether a command is a wait packet with a known condition (R406, R409). -/
def waitKind (b : List Byte) : Bool := field b 0 % 256 == 2 && bits (field b 0) 15 8 < 4

/-- Bit 0 of QSTAT, running: a command of the thread is in flight (DEDUCED, assumption 27); bit 1: blocked in a wait
packet (R406, R409). -/
def BThread.setStat (b : BThread) : BThread :=
  let low := (if b.inflight = [] then 0 else 1) + if b.inflight.any (·.wait) then 2 else 0
  { b with qstat := (b.qstat &&& ~~~3) ||| BitVec.ofNat 64 low }

/-- A thread halts: a halt code in QSTAT, enable clears (R406). -/
def BThread.halt (b : BThread) (code : Nat) : BThread :=
  { b with
    qctl := b.qctl &&& ~~~0x100
    qstat := (b.qstat &&& ~~~0xFF00) ||| BitVec.ofNat 64 (code * 256) }

/-- The last refusal code in QSTAT (R406): the highest code of R415 among the slots that were refused (DESIGN CHOICE,
assumption 79). -/
def BThread.refusal (b : BThread) (code : Nat) : BThread :=
  { b with qstat := (b.qstat &&& ~~~0xFF00) ||| BitVec.ofNat 64 (code * 256) }

/-- The thread's PC as it starts a command: the firmware's own, a free value (R408, assumption 28). -/
def State.threadPc (s : State) : DWord :=
  BitVec.ofNat 64 (leNat ((List.range 8).map fun i => Config.freeByte (192 * s.choice + i)))

/-! ## Interrupts (R444) -/

/-- A vector is raised: a message, or its pending bit while the vector is masked; a vector of 64 or more raises none. -/
def State.raiseVector (s : State) (v : Nat) : State :=
  if 64 ≤ v then s
  else if (s.host.msix.getD (2 * v + 1) 0).getLsbD 32 then
    { s with host := { s.host with pba := s.host.pba ||| (1#64 <<< v) } }
  else { s with out := s.out ++ [.msix v] }

/-! ## Completion and retirement (R414 to R416) -/

/-- The engine time of a command that retires now: the clk since its start for a bundle, none for a wait packet (R415,
R416). -/
def Command.engineTime (c : Command) (now : Nat) : Nat := if c.wait then 0 else now - c.start

/-- The bytes of a completion record (R415). -/
def Command.record (c : Command) (codes now : Nat) : List Byte :=
  leBytes 4 c.lseq.toNat ++
  leBytes 4 (2 ^ 31 + (if codes = 0 then 0 else 2 ^ 30) + (if c.refused then 2 ^ 29 else 0) + codes) ++
  leBytes 8 (c.engineTime now) ++ leBytes 8 (c.start / 15) ++ leBytes 8 (now / 15)

/-- Engine time charged to a tenant's entry, or to entry 16 where no valid entry names the tenant (R470). -/
def chargeTenant (es : List (DWord × DWord)) (tenant : BitVec 16) (n : Nat) : List (DWord × DWord) :=
  let i := (es.take 16).findIdx fun e => e.1.getLsbD 15 && bits e.1.toNat 31 16 == tenant.toNat
  es.modify (min i 16) fun e => (e.1, e.2 + BitVec.ofNat 64 n)

/-- QHEAD passes the commands that have retired in ring order; the first argument bounds them (R408). -/
def BThread.advance : Nat → BThread → BThread
  | 0, b => b
  | n + 1, b =>
    if b.retired.contains b.qhead.toNat then
      BThread.advance n { b with qhead := b.qhead + 1, retired := b.retired.filter (· != b.qhead.toNat) }
    else b

/-- The completion codes of a command (R415). -/
def Command.codes (c : Command) : Nat := (c.subs.zipIdx.map fun x => x.1.code * 16 ^ x.2).sum

/-- A command retires: completion record, counter, engine time, vector, QHEAD (R414 to R416, R470). After a Belvedere mismatch no
completion record is written (R464). -/
def State.retire (s : State) (t : Nat) (c : Command) : State :=
  let who := [4, t, c.index]
  let s := if c.crec = 0 ∨ c.crec.toNat % 32 ≠ 0 ∨ s.belv.dead then s
    else s.belvWrite t who c.crec (c.record c.codes s.clk)
  let s := if c.ctr.toNat % 16 ≠ 0 then s else s.decrement (s.belvParty t who c.lseq c.cpc) c.ctr (c.codes != 0)
  let b := s.thread t
  let s := if c.irq ∧ b.qctl.getLsbD 10 then s.raiseVector (bits b.qctl.toNat 47 32) else s
  let n := c.engineTime s.clk
  let s := { s with rel := { s.rel with etime := chargeTenant s.rel.etime b.tenant n } }
  s.modThread t fun b =>
    let b := { b with
      qetime := b.qetime + BitVec.ofNat 64 n
      inflight := b.inflight.filter (·.index != c.index)
      retired := b.retired ++ [c.index] }
    (b.advance (b.retired.length + 1)).setStat

/-- A command of a thread in flight. -/
def State.command (s : State) (t i : Nat) : Option Command := (s.thread t).inflight.find? (·.index == i)

/-- A command retires once every part of it has completed (R412, R414); its retirement is withheld while a push would wait
(R139). -/
def State.retireIfDone (s : State) (t i : Nat) : State :=
  match s.command t i with
  | none => s
  | some c => if c.subs.any (!·.closed) then s else s.withheld [4, t, i] (s.retire t c)

/-- A sub-launch with no work outstanding completes: its cref counter is decremented, with the error flag when its code is
not zero (R414). -/
def State.closeSub (s : State) (r : SubRef) : State :=
  match s.command r.1 r.2.1 with
  | none => s
  | some c => match c.subs[r.2.2]? with
    | none => s
    | some b =>
      if b.left ≠ 0 ∨ b.closed ∨ c.wait then s
      else
        let s := s.modSub r fun b => { b with closed := true }
        if b.cref < c.ctrs.length then
          s.decrement (s.belvParty r.1 [4, r.1, r.2.1, r.2.2] c.lseq c.cpc) (c.ctrs.getD b.cref 0) (b.code != 0)
        else s

/-- A sub-launch completes if its work is done, withheld while a push of its counter would wait (R139); its bundle retires
with its last one. -/
def State.complete (s : State) (r : SubRef) : State :=
  (s.withheld [4, r.1, r.2.1, r.2.2] (s.closeSub r)).retireIfDone r.1 r.2.1

/-- The sub-launch of an origin completes if its work is done. -/
def State.closeOf (s : State) (r : Option SubRef) : State := r.elim s s.complete

/-- SUB_LAUNCH_COMPLETE (R414). -/
def execSubLaunchComplete (t cmd sub : Nat) (s : State) : Result := .next (s.complete (t, cmd, sub))

/-! ## Steps of cores that can retire a bundle (R32, R86, R286) -/

/-- SLOT_RECLAIM (R32): an ended group's slot is reclaimed once its stores are acknowledged. -/
def execSlotReclaim (k slot : Nat) (s : State) : Result :=
  .next (match (s.core k).group slot with
    | none => s
    | some g =>
      if !(s.core k).reclaimable slot then s
      else
        let sub := (((s.core k).team g.team).getD Team.blank).origin.sub
        (((s.modCore k (·.reclaim slot)).dropGroupAsks k slot).endTeam k g.team).closeOf sub)

/-- RES_LOAD_COMPLETE (R86). -/
def execResLoadComplete (k id : Nat) (s : State) : Result :=
  .next (match (s.core k).op id with
    | none => s
    | some f => match f.kind with
      | .resLoad _ _ _ _ _ _ _ _ _ sub => (s.resLoadDone k f).closeOf sub
      | _ => s)

/-- A copy of the Belvedere ends: its sub-launch takes the engine status (R413 to R415). -/
def State.belvCopyDone (s : State) (f : Flight) (pieces : List CopyPiece) (sub : Option SubRef) : State :=
  let code := worst (s.copyCodes f pieces)
  let t := { s with belv := { s.belv with flight := s.belv.flight.filter (·.id != f.id) } }
  match sub with
  | none => t
  | some x => t.modSub x fun b => { b with left := 0, code := if code = 0 then 0 else 8 + code }

/-- COPY_COMPLETE (R286, R413). -/
def execCopyComplete (p : EngineParty) (id : Nat) (s : State) : Result :=
  .next (match p with
    | .core k => match (s.core k).op id with
      | none => s
      | some f => match f.kind with
        | .copy pieces lanes d ctr _ =>
          s.engineRun k id (fun f => (s.core k).engineReady f && f.held.isNone) (fun _ => copySources pieces)
            (fun s f => s.copyPieces k f pieces) fun s f => s.copyDone k f pieces lanes d ctr
        | _ => s
    | .belvedere => match s.belv.flight.find? (·.id == id) with
      | none => s
      | some f => match f.kind with
        | .copy pieces _ _ _ sub =>
          (s.engineRun belvedere id (fun _ => true) (fun _ => copySources pieces)
            (fun s f => s.copyPieces belvedere f pieces) fun s f => s.belvCopyDone f pieces sub).closeOf sub
        | _ => s)

/-! ## Launch bundles (R410 to R413) -/

/-- A sub-launch slot. -/
structure SubSlot where
  w0 : Nat
  w1 : DWord
  w2 : DWord
deriving DecidableEq, Repr

/-- Slot `i` of a bundle. -/
def slotAt (b : List Byte) (i : Nat) : SubSlot where
  w0 := field b (0x20 + 24 * i)
  w1 := BitVec.ofNat 64 (field b (0x28 + 24 * i))
  w2 := BitVec.ofNat 64 (field b (0x30 + 24 * i))

/-- The type of a slot. -/
def SubSlot.type (x : SubSlot) : Nat := x.w0 % 256

/-- The cref of a slot: 7 for none where the type has no such field. -/
def SubSlot.cref (x : SubSlot) : Nat := if x.type = 2 ∨ x.type = 3 then bits x.w0 10 8 else 7

/-- What makes a slot below nsub malformed (R411, R412): `inits` says which slots are counter inits. -/
def SubSlot.bad (x : SubSlot) (inits : List Bool) : Bool :=
  let c := x.cref
  (x.type == 0 || 5 ≤ x.type) || (c != 7 && !(c < 4 && inits.getD c false)) ||
    match x.type with
    | 1 => bits x.w0 10 8 != 0 || 95 < bits x.w0 17 11 || bits x.w0 31 19 != 0 || bits x.w0 63 48 != 0 ||
        x.w1.toNat % 64 != 0 || x.w2 != 0
    | 2 => 383 < bits x.w0 19 11 || bits x.w0 31 20 != 0 || bits x.w0 63 48 != 0
    | 3 => bits x.w0 31 11 != 0
    | _ => bits x.w0 10 8 != 0 || 95 < bits x.w0 17 11 || bits x.w0 31 19 != 0 || x.w1.toNat % 16 != 0

/-- What makes a bundle malformed (R412). -/
def bundleBad (b : List Byte) : Bool :=
  let n := bits (field b 0) 10 8
  let slots := (List.range 4).map (slotAt b)
  let inits := slots.mapIdx fun i x => i < n && x.type == 4
  n == 0 || 4 < n || bits (field b 0) 15 11 != 0 || bits (field b 0) 31 17 != 0 || field b 0x18 != 0 ||
    field b 8 % 32 != 0 || field b 0x10 % 16 != 0 || (slots.take n).any (·.bad inits) ||
    (slots.drop n).any fun x => x.w0 != 0 || x.w1 != 0 || x.w2 != 0

/-- A bundle's command as it starts; none of the slots of a refused one has started (R412, R415). -/
def bundleCommand (b : List Byte) (index clk : Nat) (cpc : DWord) : Command :=
  let n := bits (field b 0) 10 8
  let slots := (List.range n).map (slotAt b)
  let left := fun (x : SubSlot) => if x.type = 1 then bits x.w0 47 32 + 1 else if x.type = 4 then 0 else 1
  { index := index, wait := false, lseq := BitVec.ofNat 32 (field b 0 / 2 ^ 32),
    crec := BitVec.ofNat 64 (field b 8), ctr := BitVec.ofNat 64 (field b 0x10), irq := bit (field b 0) 16,
    refused := bundleBad b, start := clk, cpc := cpc,
    subs := if bundleBad b then List.replicate (min n 4) { type := 0, left := 0, code := 3, cref := 7, closed := true }
      else slots.map fun x => { type := x.type, left := left x, code := 0, cref := x.cref, closed := false },
    cond := 0, width := 0, addr := 0, value := 0, vmask := 0, deadline := none, ctrs := slots.map (·.w1), todo := [] }

/-- Phase 1: a counter init writes its whole record (R411, R413). -/
def State.initCounter (s : State) (t : Nat) (x : SubSlot) : State :=
  s.belvWrite t [4, t] x.w1 (leBytes 4 (x.w0 / 2 ^ 32) ++ leBytes 4 (bits x.w0 17 11 + if bit x.w0 18 then 128 else 0) ++
    leBytes 8 x.w2.toNat)

/-- The page parts of a range as a party of a space and a tenant finds them: physical address and length, or nothing if any page
fails. -/
def State.lookParts (s : State) (space : Nat) (tenant : BitVec 16) (want : Want) : List (Nat × Nat) → State × Option (List (Nat × Nat))
  | [] => (s, some [])
  | p :: ps =>
    let r := s.look space tenant want (BitVec.ofNat 64 p.1)
    let t := r.1.lookParts space tenant want ps
    (t.1, r.2.bind fun pa => t.2.map fun ps => (pa, p.2) :: ps)

/-- The page parts of a range for a thread. -/
def State.belvRange (s : State) (t : Nat) (want : Want) (va : DWord) (len : Nat) : State × Option (List (Nat × Nat)) :=
  s.lookParts (s.belvSpace t) (s.thread t).tenant want (partsOf va.toNat len)

/-- Source and destination parts matched into pieces; the first argument bounds them. -/
def zipParts : Nat → List (Nat × Nat) → List (Nat × Nat) → List CopyPiece
  | n + 1, (a, la) :: as, (b, lb) :: bs =>
    let m := min la lb
    (.phys a, .phys b, m) :: zipParts n (if m = la then as else (a + m, la - m) :: as)
      (if m = lb then bs else (b + m, lb - m) :: bs)
  | _, _, _ => []

/-- An operation of no group, for a bundle. -/
def bundleFlight (id : Nat) (c : Command) (tenant : BitVec 16) (kind : FlightKind) : Flight :=
  { Flight.blank id kind with origin := { tenant := tenant, lseq := c.lseq, cpc := c.cpc, sub := none } }

/-- A sub-launch refused at issue (R406, R414). -/
def State.refuseSub (s : State) (r : SubRef) : State :=
  (s.modSub r fun b => { b with left := 0, code := 2 }).modThread r.1 (·.refusal 2)

/-- Phase 2: a copy is issued (R413). -/
def State.startCopy (s : State) (t : Nat) (c : Command) (i : Nat) (x : SubSlot) : State :=
  let len := x.w0 / 2 ^ 32
  let src := s.belvRange t .read x.w1 len
  let dst := src.1.belvRange t .write x.w2 len
  let s := dst.1
  match src.2, dst.2 with
  | some a, some b =>
    let f := { bundleFlight s.nextId c (s.thread t).tenant
      (.copy (zipParts (a.length + b.length) a b) [] none 0 (some (t, c.index, i))) with space := s.belvSpace t }
    { s with nextId := s.nextId + 1, belv := { s.belv with flight := s.belv.flight ++ [f] } }
  | _, _ => s.refuseSub (t, c.index, i)

/-- The physical parts of a residency's source for a load on a core, if R84 lets them be read. -/
def State.loadRange (s : State) (k : Nat) (tenant : BitVec 16) (e : ResEntry) (src : DWord) (len : Nat) :
    State × Option (List (Nat × Nat)) :=
  let r := s.lookParts ((s.core k).regs.space.toNat % 2 ^ 16) tenant .read (partsOf src.toNat len)
  (r.1, r.2.filter fun ps => src.toNat % 128 == 0 && ps.all fun p => match region (paLocal p.1) with
    | .hbm _ => true
    | .tier _ => !e.split
    | _ => false)

/-- Phase 2: a residency load is issued on its core, or refused (R413, R414). Its reads come after every access that the core has
issued by then, which the faulting word of R394 may have behind it. -/
def State.startLoad (s : State) (t : Nat) (c : Command) (i : Nat) (x : SubSlot) : State :=
  let k := bits x.w0 19 11
  let handle := BitVec.ofNat 64 (bits x.w0 47 32)
  let tenant := (s.thread t).tenant
  let ent := descEntry handle
  let e := (s.core k).entry ent
  let len := x.w2.toNat
  let r := s.loadRange k tenant e x.w1 len
  let s := r.1
  match r.2 with
  | some ps =>
    if !(s.core k).names handle tenant ∨ len ≠ e.sourceLen then s.refuseSub (t, c.index, i)
    else
      let w := (s.core k).loadWaits ent
      let f := { bundleFlight s.nextId c tenant (.resLoad ent e.gen x.w1 len ps none 0 w false (some (t, c.index, i))) with
        seen := s.nextId, space := (s.core k).regs.space.toNat % 2 ^ 16 }
      ({ s with nextId := s.nextId + 1 }.modCore k fun y => { y with flight := y.flight ++ [f] }).modCore k
        (·.beginLoad s.nextId ent x.w1 ps)
  | none => s.refuseSub (t, c.index, i)

/-- The records that a bundle's task sets push: in slot order and, within a set, in address order (R413). -/
def setRecords (slots : List SubSlot) : List (Nat × DWord × Nat) :=
  slots.zipIdx.flatMap fun x =>
    let quad := bits x.1.w0 17 11
    if x.1.type = 1 then (List.range (bits x.1.w0 47 32 + 1)).map fun j =>
      (x.2, x.1.w1 + BitVec.ofNat 64 (64 * j), if bit x.1.w0 18 then (quad + j) % 96 else quad)
    else []

/-- What a command has still to push. -/
def State.setTodo (s : State) (t i : Nat) (xs : List (Nat × DWord × Nat)) : State :=
  s.modThread t fun b => { b with inflight := b.inflight.map fun c => if c.index = i then { c with todo := xs } else c }

/-- Phase 3: records are pushed one after another, each with the priority that its record holds then; a push that waits holds
back those behind it (R138, R139, R413). -/
def State.pushSets (t : Nat) (c : Command) : List (Nat × DWord × Nat) → State → State
  | [], s => s.setTodo t c.index []
  | x :: xs, s =>
    let stay := s.setTodo t c.index (x :: xs)
    let p := s.belvParty t [4, t] c.lseq c.cpc
    let r := s.readRecord p x.2.1
    if s.belvPushes t then stay
    else if r.1.issue.asked then stay.keepAsks r.1
    else
      let e := RqEntry.of x.2.1 ((r.2.map (·.prio)).getD 0) { p.origin with sub := some (t, c.index, x.1) }
      State.pushSets t c xs ((r.1.dropAsks [4, t]).push x.2.2 e none)

/-- A thread starts a command: its number, QPC and engine-time start (R406, R408). -/
def State.begin (s : State) (t : Nat) (c : Command) : State :=
  { s.modThread t (fun b => ({ b with started := b.started + 1, qpc := c.cpc, inflight := b.inflight ++ [c] }).setStat) with
    choice := s.choice + 1 }

/-- The first two phases of a bundle, each over its slots in order (R413); a counter init has then completed. -/
def State.startBundle (s : State) (t : Nat) (c : Command) (slots : List SubSlot) : State :=
  let s := slots.foldl (fun s x => if x.type = 4 then s.initCounter t x else s) s
  slots.zipIdx.foldl (fun s x =>
    if x.1.type = 2 then s.startLoad t c x.2 x.1 else if x.1.type = 3 then s.startCopy t c x.2 x.1 else s) s

/-- The sub-launches that complete at once do (R414): counter inits, and what was refused at issue. -/
def State.completeNow (s : State) (t : Nat) (c : Command) : State :=
  (List.range c.subs.length).foldl (fun s i => s.complete (t, c.index, i)) s

/-- LAUNCH_BUNDLE (R413): a bundle whose task sets are not pushed yet goes on with them; otherwise the next one starts. A
malformed bundle is refused and retired at once (R412). -/
def execLaunchBundle (t : Nat) (s : State) : Result :=
  .next (match (s.thread t).inflight.find? (!·.todo.isEmpty) with
    | some c => State.pushSets t c c.todo s
    | none =>
      if !s.mayStart t ∨ !(s.thread t).bundleRoom then s
      else
        let rd := s.nextCommand t
        match rd.2 with
        | none => s.settle [4, t] rd.1
        | some b =>
          if field b 0 % 256 ≠ 1 then s
          else
            let c := bundleCommand b (s.thread t).started s.clk s.threadPc
            let slots := (List.range (bits (field b 0) 10 8)).map (slotAt b)
            let u := rd.1.begin t c
            if c.refused then (((u.dropAsks [4, t]).modThread t (·.refusal 3)).completeNow t c).retireIfDone t c.index
            else
              let v := u.startBundle t c slots
              if v.issue.asked then s.keepAsks v
              else ((State.pushSets t c (setRecords slots) (v.dropAsks [4, t])).completeNow t c).retireIfDone t c.index)

/-! ## Wait packets and unknown commands (R406, R409) -/

/-- A wait packet's command as it starts. -/
def waitCommand (b : List Byte) (index clk : Nat) (cpc : DWord) : Command :=
  let w := field b 0
  let timeout := field b 4 % 2 ^ 32
  { index := index, wait := true, lseq := 0, crec := BitVec.ofNat 64 (field b 0x20), ctr := 0, irq := false, refused := false, start := clk,
    cpc := cpc, subs := [{ type := if bit w 24 then 1 else 0, left := 0, code := 0, cref := 7, closed := false }],
    cond := bits w 15 8, width := if bits w 23 16 = 1 then 8 else 4,
    addr := BitVec.ofNat 64 (field b 8 - field b 8 % if bits w 23 16 = 1 then 8 else 4),
    value := BitVec.ofNat 64 (field b 0x10), vmask := BitVec.ofNat 64 (field b 0x18),
    deadline := if timeout = 0 then none else some (clk + timeout), ctrs := [],
    todo := [] }

/-- Whether a wait packet asks for the earlier commands to have retired. -/
def Command.drain (c : Command) : Bool := c.subs.any (·.type == 1)

/-- The test of a wait packet (R409), before its deadline; a word that cannot be read does not meet it. -/
def State.waitTest (s : State) (t : Nat) (c : Command) : State × Bool :=
  let drained := !c.drain || !(s.thread t).inflight.any (·.index != c.index)
  if !drained ∨ c.deadline.any (· < s.clk) then (s, false)
  else
    let r := s.belvRead t [4, t, c.index] c.addr c.width
    (r.1, match r.2 with
      | none => false
      | some bs =>
        let w := leNat bs &&& c.vmask.toNat % 2 ^ (8 * c.width)
        let v := (c.value.toNat &&& c.vmask.toNat) % 2 ^ (8 * c.width)
        match c.cond with
        | 0 => w == v
        | 1 => w != v
        | 2 => v ≤ w
        | _ => w < v)

/-- A wait packet is over, with a code, and retires (R409). -/
def State.endPacket (s : State) (t : Nat) (c : Command) (code : Nat) : State :=
  (s.modSub (t, c.index, 0) fun b => { b with closed := true, code := code }).retireIfDone t c.index

/-- A wait packet tests its word, and retires if the test holds. -/
def State.testPacket (s : State) (t : Nat) (c : Command) : State :=
  let r := s.waitTest t c
  let u := s.settle [4, t, c.index] r.1
  if r.2 then u.endPacket t c 0 else u

/-- WAIT_PACKET (R409): the packet starts and tests its word. -/
def execWaitPacket (t : Nat) (s : State) : Result :=
  .next (
    if !s.mayStart t then s
    else
      let rd := s.nextCommand t
      match rd.2 with
      | none => s.settle [4, t] rd.1
      | some b =>
        if !waitKind b then s
        else
          let c := waitCommand b (s.thread t).started s.clk s.threadPc
          ((rd.1.dropAsks [4, t]).begin t c).testPacket t c)

/-- The wait packet of a thread. -/
def State.packet (s : State) (t : Nat) : Option Command := (s.thread t).inflight.find? (·.wait)

/-- Whether a wait packet is over, so that only its retirement is left. -/
def Command.over (c : Command) : Bool := c.subs.all (·.closed)

/-- WAIT_PACKET_TEST (R409): the packet tests again and retires when the test holds. -/
def execWaitPacketTest (t : Nat) (s : State) : Result :=
  .next (match s.packet t with
    | none => s
    | some c => if c.over then s.retireIfDone t c.index else s.testPacket t c)

/-- WAIT_PACKET_TIMEOUT (R409): the packet retires with code 6. -/
def execWaitPacketTimeout (t : Nat) (s : State) : Result :=
  .next (match s.packet t with
    | none => s
    | some c => if c.over ∨ !c.deadline.any (· ≤ s.clk) then s else s.endPacket t c 6)

/-- UNKNOWN_COMMAND (R406): the thread halts with code 0xFC and retires nothing. -/
def execUnknownCommand (t : Nat) (s : State) : Result :=
  .next (
    if !s.mayStart t then s
    else
      let rd := s.nextCommand t
      match rd.2 with
      | none => s.settle [4, t] rd.1
      | some b =>
        if field b 0 % 256 = 1 ∨ waitKind b then s
        else (rd.1.dropAsks [4, t]).modThread t fun b => { b.halt 0xFC with qstat := (b.halt 0xFC).qstat ||| 4 })

/-- DOORBELL (R406, R407): QTAIL advances, or the thread halts with code 0xFD when it passes QHEAD by more than the ring. The
host reaches only blocks whose host bit is set, and only while its link is up (R396, R445). -/
def execDoorbell (w : Writer) (t : Nat) (v : BitVec 64) (s : State) : Result :=
  let b := s.thread t
  let ok := w == .arbour || (s.host.up && b.qctl.getLsbD 9)
  .next (if !ok then s
    else s.modThread t fun b =>
      let b := { b with qtail := v }
      if 2 ^ (b.qctl.toNat % 32) < (v - b.qhead).toNat then b.halt 0xFD else b)

/-- BELVEDERE_MISMATCH (R464): all threads halt with code 0xFE, MCSTAT.bel is set, and no command starts until package
reset. -/
def execBelvedereMismatch (s : State) : Result :=
  .next { s with
    belv := { s.belv with dead := true, threads := s.belv.threads.map (·.halt 0xFE) }
    rel := { s.rel with mcstat := s.rel.mcstat ||| 1 } }

end Sys2Proof.Machine
end

