-- ==== Sys2Proof/Machine/Link.lean ====
section
/-! DEFINITION. Drukofold: what a message does at its home (R450), replies (R450, R453), pod barriers (R350, R454, R455), and
port training (R456). -/

namespace Sys2Proof.Machine

/-! ## Messages at their home (R450) -/

/-- The first message of a port, if it has one of the ops. -/
def State.head (s : State) (p op : Nat) : Option Message :=
  (s.port p).inbox.head?.filter (·.op == op)

/-- The first message of a port taken. -/
def State.pop (s : State) (p : Nat) : State := s.modPort p fun q => { q with inbox := q.inbox.drop 1 }

/-- The reply to a message, on the port that brought it (DESIGN CHOICE, assumption 29). -/
def State.reply (s : State) (p : Nat) (m : Message) (status : Nat) (data : List Byte) : State :=
  s.post p { op := 5, src := s.node, dst := m.src, tag := m.tag, len := data.length, sub := 0, status := status,
             aop := 0, pa := m.pa, data := data }

/-- Whether this package can perform an access for another one: its own node, a place that R421 backs, not window 0. -/
def State.serves (s : State) (pa : Nat) : Bool :=
  paNode pa == s.node && backed (paLocal pa) && region (paLocal pa) != .window

/-- An access of another package to this one's host goes on to the host as it is (R445, R450): the status and the data of the reply,
once the host has answered. -/
def State.hostPart (s : State) (who : List Nat) (m : Message) : State × Option (Nat × List Byte) :=
  s.ask belvedere who m.op m.sub m.aop m.pa m.len m.data

/-- A message performed at its home, with its reply: `f` gives the status and the data in this package. A message for the host
stays at the head of its port until the host has answered. -/
def State.handle (s : State) (p op : Nat) (f : State → Message → State × Nat × List Byte) : Result :=
  .next (match s.head p op with
    | none => s
    | some m =>
      let who := [10, p, m.tag, m.src]
      let r :=
        if !s.serves m.pa then (s, some (2, []))
        else if region (paLocal m.pa) = .host then s.hostPart who m
        else
          let t := f s m
          (t.1, some t.2)
      s.settle who (match r.2 with
        | none => r.1
        | some a => (r.1.pop p).reply p m (min a.1 2) a.2))

/-- FABRIC_READ (R450). -/
def execFabricRead (p : Nat) (s : State) : Result :=
  s.handle p 1 fun s m =>
    let t := (s.recordErrors 2 [(.phys m.pa, m.len)]).recordWeak [(.phys m.pa, m.len)]
    if s.badAt m.pa m.len then (t, 1, []) else (t, 0, s.readPa m.pa m.len)

/-- FABRIC_WRITE (R450). -/
def execFabricWrite (p : Nat) (s : State) : Result :=
  s.handle p 2 fun s m => match s.storePa m.pa m.data with
    | (t, false) => (t, 0, [])
    | (t, true) => (t.recordErrors 6 [(.phys m.pa, m.len)], 1, [])

/-- FABRIC_MASKED_WRITE (R450). -/
def execFabricMaskedWrite (p : Nat) (s : State) : Result :=
  s.handle p 3 fun s m =>
    let d := maskedData m.len m.data
    match s.storeMasked m.pa d.1 d.2 with
      | (t, false) => (t, 0, [])
      | (t, true) => (t.recordErrors 6 [(.phys m.pa, m.len)], 1, [])

/-- FABRIC_ATOMIC (R450): the old value goes back with the reply. -/
def execFabricAtomic (p : Nat) (s : State) : Result :=
  s.handle p 4 fun s m => match Rmw.ofMessage m.aop m.sub m.data with
    | none => (s, 2, [])
    | some r =>
      let t := s.performRmw 0 { lane := 0, va := 0, loc := .phys m.pa, global := true } r
      if t.2.2 = 0 then (t.1.recordWeak [(.phys m.pa, r.span)], 0, leBytes r.span t.2.1)
      else (t.1.recordErrors 2 [(.phys m.pa, r.span)], t.2.2, [])

/-! ## Pod barriers (R350, R454, R455) -/

/-- The root node of pod barrier `n`. -/
def State.rootOf (s : State) (n : Nat) : Nat := (s.fabric.podroot.getD n 0).toNat % 1024

/-- A barrier message to a node: kept until it is answered, and sent on a port where one is usable. -/
def State.keepMessage (s : State) (n : Nat) (m : Message) : State :=
  let p := s.portFor m.dst 0
  let k : Kept := { num := n, msg := m, port := p, deadline := s.clk + s.dtimeout }
  let s := { s with fabric := { s.fabric with kept := s.fabric.kept ++ [k] } }
  match p with
  | some p => s.post p m
  | none => s

/-- A barrier message with a count of four bytes (DESIGN CHOICE, assumption 29). -/
def State.barMessage (s : State) (op dst tag n : Nat) (count : Nat) : Message where
  op := op
  src := s.node
  dst := dst
  tag := tag
  len := 4
  sub := n
  status := 0
  aop := 0
  pa := 0
  data := leBytes 4 count

/-- The completion of a pod barrier at its root goes to every other package that arrived in the phase. -/
def State.announce (s : State) (n : Nat) : State :=
  let count := (s.podBars.getD n Barrier.reset).completions
  let dsts := (s.fabric.phase.getD n []).filter (· != s.node)
  let s := { s with fabric := { s.fabric with phase := s.fabric.phase.set n [] } }
  dsts.foldl (fun s dst =>
    let tag := s.fabric.newTag
    let s := { s with fabric := { s.fabric with nextTag := (tag + 1) % tagSpace } }
    s.keepMessage n (s.barMessage 7 dst tag n count.toNat)) s

/-- A package has delivered an arrival to the current phase. -/
def State.enrol (s : State) (n src : Nat) : State :=
  let l := s.fabric.phase.getD n []
  { s with fabric := { s.fabric with phase := s.fabric.phase.set n (if l.contains src then l else l ++ [src]) } }

/-- What the root owes after an arrival that may have completed the barrier. -/
def State.afterArrival (s : State) (n : Nat) (before : Word) : State :=
  if (s.podBars.getD n Barrier.reset).completions = before then s else s.announce n

/-- How many of a package's latest arrivals may be unanswered, and how many the root keeps in mind of each package (DESIGN CHOICE,
assumption 70). -/
def arrivalWindow : Nat := 8192

/-- Whether the next arrival has to wait: one so many before it is not answered yet. -/
def State.arrivalsFull (s : State) : Bool :=
  s.fabric.requests.any fun r => r.op == 6 && arrivalWindow ≤ (s.fabric.nextArrival + 2 * tagSpace - r.tag) % tagSpace

/-- An arrival of this package goes to the root of its pod barrier, under a tag that numbers it; a request of op 6 stands for it
until the root has answered (R454, R455). -/
def State.sendArrival (s : State) (k : Nat) (f : Flight) (n count : Nat) : State :=
  let m := s.barMessage 6 (s.rootOf n) (tagSpace + s.fabric.nextArrival) n count
  let r : Request := {
    tag := m.tag, core := k, flight := f.id, part := 0, host := false, op := 6, sub := n, aop := 0, pa := 0, len := 4,
    data := m.data, sent := s.clk, port := none, asker := none, answer := none, laid := [], space := 0, relaxed := true }
  State.keepMessage { s with fabric := { s.fabric with
    requests := s.fabric.requests ++ [r], nextArrival := (s.fabric.nextArrival + 1) % tagSpace } } n m

/-- BARRIER_DELIVERY (R350): an arrival is delivered once the accesses before it are performed at the scope; the groups of a
quiescent core stand still (R168). -/
def execBarrierDelivery (k id : Nat) (s : State) : Result :=
  .next (match (s.core k).op id with
    | none => s
    | some f => match f.kind with
      | .arrive scope num count dest =>
        if (s.core k).arrivalHeld f scope.toNat ∨ s.awaits k id ∨ (s.core k).quiescent then s
        else if scope ≠ 6 then s.deliverArrival k f scope.toNat num.toNat count dest
        else if s.rootOf num.toNat ≠ s.node then (if s.arrivalsFull then s else s.sendArrival k f num.toNat count)
        else
          let b := s.podBars.getD num.toNat Barrier.reset
          let t := s.deliverArrival k f 6 num.toNat count dest
          (if (b.arrive count).isSome then t.enrol num.toNat s.node else t).afterArrival num.toNat b.completions
      | _ => s)

/-- The package's copy of a remote barrier's completion count takes a newer count, and waits that it ends are over. -/
def State.learn (s : State) (n : Nat) (count : Word) : State :=
  let b := s.podBars.getD n Barrier.reset
  let newer := count != b.completions && (count - b.completions).toNat < 2 ^ 31
  (if newer then { s with podBars := s.podBars.set n { b with completions := count } } else s).endWaits 0 6 n

/-- The arrivals that the root keeps in mind beside a new one: of the same package only the latest (R455). -/
def Message.keeps (m : Message) (c : Nat × Nat × Nat × Word) : Bool :=
  let d := (m.tag + tagSpace - c.2.1) % tagSpace
  c.1 != m.src || d < arrivalWindow || tagSpace - arrivalWindow < d

/-- BARRIER_ARRIVAL_MESSAGE (R454, R455): the root counts an arrival once, by its src and tag, and answers with the
completion count that it found. -/
def execBarrierArrivalMessage (p : Nat) (s : State) : Result :=
  .next (match s.head p 6 with
    | none => s
    | some m =>
      let s := s.pop p
      let n := m.sub
      match s.fabric.counted.find? fun c => c.1 == m.src && c.2.1 == m.tag with
      | some c => s.reply p m c.2.2.1 (leBytes 4 c.2.2.2.toNat)
      | none =>
        let b := s.podBars.getD n Barrier.reset
        let root := (s.fabric.podroot.getD n 0).getLsbD 15 && s.rootOf n == s.node
        let r := if root then b.arrive (leNat (m.data.take 4)) else none
        let status := if r.isSome then 0 else 2
        let s := { s with fabric := { s.fabric with
          counted := (m.src, m.tag, status, b.completions) :: s.fabric.counted.filter m.keeps } }
        let s := s.reply p m status (leBytes 4 b.completions.toNat)
        match r with
        | none => s
        | some b' => (({ s with podBars := s.podBars.set n b' }.enrol n m.src).endWaits 0 6 n).afterArrival n b.completions)

/-- BARRIER_COMPLETION_MESSAGE (R454, R455): the package applies a completion count once. -/
def execBarrierCompletionMessage (p : Nat) (s : State) : Result :=
  .next (match s.head p 7 with
    | none => s
    | some m => ((s.pop p).reply p m 0 []).learn m.sub (BitVec.ofNat 32 (leNat (m.data.take 4))))

/-- Kept messages that no port carries any longer, or yet, go out on a usable port (R455). -/
def State.resend (s : State) : State :=
  let ks := s.fabric.kept
  let s := { s with fabric := { s.fabric with kept := ks.map fun k =>
    if k.port.isSome then k else { k with port := s.portFor k.msg.dst 0 } } }
  ks.foldl (fun s k => match k.port, s.portFor k.msg.dst 0 with
    | none, some p => s.post p k.msg
    | _, _ => s) s

/-- A group that waits at a pod barrier stops and reports remote-error at its word, behind which it resumes (R455). -/
def Group.giveUp (g : Group) (n tick : Nat) : Group :=
  match g.barWait with
  | none => g
  | some w => if w.scope ≠ 6 ∨ w.num.toNat ≠ n then g
      else { g with barWait := none, errors := g.errors ++ [lateReport .remoteError w.pc w.mask false tick] }

/-- The groups of the package that wait at a pod barrier stop: those that are present at once, or once the bundle that they are
issuing has issued whole, the others when they are returned (R162, R455). -/
def State.giveUp (s : State) (n : Nat) : State :=
  (List.range s.cores.length).foldl (fun s k =>
    let waits := fun (g : Group) => g.barWait.any fun w => w.scope == 6 && w.num.toNat == n
    let c := s.core k
    let js := (List.range 32).filter fun j =>
      !s.midBundle k j && (c.group j).any fun g => waits g && g.phase == .running && g.report.isNone
    let s := s.modCore k fun c => { c with
      groups := c.groups.map (Option.map (·.giveUp n s.tick))
      saved := c.saved.map fun t => { t with groups := t.groups.map fun g => (g.1, g.2.giveUp n s.tick) } }
    js.foldl (fun s j => match ((s.core k).group j).bind (·.errors.getLast?) with
      | none => s
      | some e => (s.modGroup k j fun g => { g with errors := g.errors.dropLast }).stopImprecise k j e) s) s

/-- POD_BARRIER_TIMEOUT (R455): no usable port has carried a kept message of the barrier within DTIMEOUT. The arrivals
that waited for the root's answer are gone. -/
def execPodBarrierTimeout (n : Nat) (s : State) : Result :=
  let dead := fun (k : Kept) => k.num == n && k.port.isNone && k.deadline ≤ s.clk
  .next (if !s.fabric.kept.any dead then s
    else
      let tags := (s.fabric.kept.filter dead).map (·.msg.tag)
      let rs := s.fabric.requests.filter fun r => tags.contains r.tag
      let t := { s with fabric := { s.fabric with
        kept := s.fabric.kept.filter fun k => !dead k
        requests := s.fabric.requests.filter fun r => !tags.contains r.tag } }
      (rs.foldl (fun t r => t.modCore r.core (·.dropOp r.flight)) t).giveUp n)

/-- The root's answer to an arrival (R350, R454). -/
def State.answerArrival (s : State) (k : Nat) (f : Flight) (m : Message) : State :=
  match f.kind with
  | .arrive _ num _ dest =>
    if m.status ≠ 0 then s.refuseArrival k f dest
    else
      let count := BitVec.ofNat 32 (leNat (m.data.take 4))
      ((s.giveToken k f dest count).modCore k (·.dropOp f.id)).learn num.toNat count
  | _ => s

/-- A reply to a request: the root's answer to an arrival (R454), or what the home of an access gives back (R161). -/
def State.replied (s : State) (r : Request) (m : Message) : State :=
  if r.op = 6 then
    let t := s.dropRequest r.tag
    match (t.core r.core).op r.flight with
    | none => t
    | some f => t.answerArrival r.core f m
  else (s.answered r (min m.status 2) m.data).afterAnswer r.core

/-- FABRIC_REPLY (R450): a request is answered. -/
def execFabricReply (p : Nat) (s : State) : Result :=
  .next (match s.head p 5 with
    | none => s
    | some m =>
      let s := s.pop p
      let s := { s with fabric := { s.fabric with kept := s.fabric.kept.filter fun k => !(k.msg.tag == m.tag && k.msg.dst == m.src) } }
      match s.fabric.requests.find? fun r => r.tag == m.tag && !r.host && r.answer.isNone with
      | none => s
      | some r => s.replied r m)

/-! ## Ports (R448, R450, R455, R456) -/

/-- FLIT_RECEIVE (R450). A package forwards nothing: a message for another node is dropped. -/
def execFlitReceive (p : Nat) (flit : List Byte) (s : State) : Result :=
  .next (s.modPort p fun q =>
    if !q.up then q
    else
      let r := q.receive flit
      { r with inbox := r.inbox.filter (·.dst == s.node) })

/-- What a port's going down means for what it carried: kept barrier messages look for another port (R455); its other
requests stay unanswered until DTIMEOUT. -/
def State.lostPort (s : State) (p : Nat) : State :=
  let lose := fun (k : Kept) => if k.port == some p then { k with port := none, deadline := s.clk + s.dtimeout } else k
  State.resend { s with fabric := { s.fabric with kept := s.fabric.kept.map lose } }

/-- PORT_DOWN (R450): after 8 replays that make no progress. -/
def execPortDown (p : Nat) (s : State) : Result :=
  .next (if (s.port p).up ∧ 8 ≤ (s.port p).stuck then ((s.modPort p (·.down)).lostPort p).retryRequests else s)

/-- What training gives a port (R451, R456): up, unless it did not align or its partner is a package that reports this
package's own node. -/
def Port.train (q : Port) (node : Nat) (t : Training) : Port :=
  if t.aligned ∧ (t.isSwitch ∨ t.partner.toNat ≠ node) then
    { q.down with stat := BitVec.ofNat 64 (bits q.stat.toNat 63 48 * 2 ^ 48 + t.partner.toNat * 2 ^ 32 +
        (if t.isSwitch then 256 else 0) + 2) }
  else q.down

/-- Whether a port trains: PORTSTAT reads 1 (R451). -/
def Port.training (q : Port) : Bool := q.stat.toNat % 4 == 1

/-- A port that is not up begins to train, anew if it has not aligned since it began: that happens to every port every 100 ms of 1.5
GHz (R456; at multiples of 100 ms: DESIGN CHOICE, assumption 80). -/
def Port.retry (q : Port) (clk : Nat) : Port :=
  if q.up ∨ clk % 150000000 ≠ 0 then q else { q with stat := (q.stat &&& ~~~3) ||| 1 }

/-- PORT_RETRAIN (R456): what the training of a port gives. -/
def execPortRetrain (p : Nat) (t : Training) (s : State) : Result :=
  .next (if !(s.port p).training then s else ((s.modPort p (·.train s.node t)).resend).retryRequests)

end Sys2Proof.Machine
end

