-- ==== Sys2Proof/Machine/Boards.lean ====
section
/-! DEFINITION. Memory window 0: the writes of its registers (R396, R401 to R406, R417, R430, R451, R465, R468 to R470) and
what they start (R429 to R432), attestation (R460), Function Level Reset and the host link (R444 to R446), and the
storage port (R447). -/

namespace Sys2Proof.Machine

/-- The bits `hi` down to `lo` of a written value, in place: reserved bits read zero. -/
def keep (v : DWord) (hi lo : Nat) : DWord := BitVec.ofNat 64 (bits v.toNat hi lo * 2 ^ lo)

/-! ## Invalidation and stale marks (R429, R432) -/

/-- Whether an operation in flight was translated for a page of the range: its lane accesses are compared, an engine
operation counts whole. -/
def FlightKind.within (k : FlightKind) (va pages : Nat) : Bool :=
  match k with
  | .arrive _ _ _ _ => false
  | .push _ _ _ _ => false
  | .load _ _ => pages == 0 || k.accesses.any fun x => x.global && va ≤ x.va.toNat && x.va.toNat < va + 4096 * pages
  | .store _ => pages == 0 || k.accesses.any fun x => x.global && va ≤ x.va.toNat && x.va.toNat < va + 4096 * pages
  | .rmw _ _ _ => pages == 0 || k.accesses.any fun x => x.global && va ≤ x.va.toNat && x.va.toNat < va + 4096 * pages
  | _ => true

/-- What a started invalidation waits for: the operations whose addresses were translated under the space, by core and number;
those of the Belvedere stand as core 384, and what words and events ask beyond the package counts whole (R429). -/
def State.translated (s : State) (space va pages : Nat) : List (Nat × Nat) :=
  let hit := fun (f : Flight) => f.space == space && f.kind.within va pages
  ((List.range s.cores.length).flatMap fun k => ((s.core k).allOps.filter hit).map fun f => (k, f.id)) ++
    (s.belv.flight.filter (·.space == space)).map (fun f => (belvedere, f.id)) ++
    (s.fabric.requests.filter fun r => r.asker.isSome && (r.core == belvedere || r.space == space)).map fun r => (r.core, r.flight)

/-- INVCMD written (R429): an invalidation of a space begins. No entry is cached in this model (assumption 6); what
remains is to wait for the accesses that were translated before. -/
def State.invalidate (s : State) (v : DWord) : State :=
  let m := s.mc
  if m.mstat.toNat % 4 = 1 then s
  else if v.toNat % 4 = 1 then
    { s with mc := { m with
      invcmd := keep v 63 16 ||| 1
      mstat := (m.mstat &&& ~~~3) ||| 1
      invWait := s.translated (v.toNat / 2 ^ 48) m.invva.toNat (bits v.toNat 47 16) } }
  else { s with mc := { m with invcmd := keep v 63 16 } }

/-- INVALIDATE (R429). -/
def execInvalidate (v : BitVec 64) (s : State) : Result := .next (s.invalidate v)

/-- INVALIDATION_DONE (R429): every access that was translated with a dropped entry has been performed. -/
def execInvalidationDone (s : State) : Result :=
  let busy := s.mc.invWait.any fun w =>
    (s.opOf w.1 w.2).isSome || (s.core w.1).allOps.any (·.id == w.2) ||
      s.fabric.requests.any fun r => r.core == w.1 && r.flight == w.2 && r.answer.isNone
  .next (if s.mc.mstat.toNat % 4 ≠ 1 ∨ busy then s
    else { s with mc := { s.mc with mstat := (s.mc.mstat &&& ~~~3) ||| 2, invWait := [] } })

/-- Residencies that watch a byte of a physical range become stale, or will be so once the load that watches it has begun, and
their pending migrations are abandoned (R87, R88, R103, R432). -/
def State.markStale (s : State) (pa n : Nat) : State :=
  (List.range s.cores.length).foldl (fun s k =>
    if (s.core k).res.any (·.watches pa n) then
      (s.modCore k fun c => { c with res := c.res.map (·.touch pa n) }).abandon k
    else s) s

/-- STALECMD written (R432): the stale bits of the residencies that watch the named pages are set; MSTAT.stale reads busy
until it is known that all are. -/
def State.staleMark (s : State) (v : DWord) : State :=
  let n := v.toNat % 2 ^ 32
  let t := { s with mc := { s.mc with stalecmd := keep v 31 0 } }
  if n = 0 then t
  else
    let u := t.markStale s.mc.stalepa.toNat (4096 * n)
    { u with mc := { u.mc with mstat := (u.mc.mstat &&& ~~~0xC) ||| 4 } }

/-- STALE_MARK (R432). -/
def execStaleMark (v : BitVec 64) (s : State) : Result := .next (s.staleMark v)

/-- STALE_MARK_DONE (R432). -/
def execStaleMarkDone (s : State) : Result :=
  .next (if bits s.mc.mstat.toNat 3 2 ≠ 1 then s
    else { s with mc := { s.mc with mstat := (s.mc.mstat &&& ~~~0xC) ||| 8 } })

/-- KLOCK written (R431): once set it stays set until reset. -/
def State.klockSet (s : State) (v : DWord) : State :=
  if v.getLsbD 0 then { s with mc := { s.mc with klock := 1 } } else s

/-- KLOCK_SET (R431). -/
def execKlockSet (v : BitVec 64) (s : State) : Result := .next (s.klockSet v)

/-! ## Registers with a rule of their own -/

/-- PLIMIT written, clamped (R465); power windows read it when they end (R471). -/
def State.plimitWrite (s : State) (v : DWord) : State :=
  { s with rel := { s.rel with plimit := BitVec.ofNat 64 (max 1000 (min 3850 (v.toNat % 65536))) } }

/-- PLIMIT_WRITE (R465). -/
def execPlimitWrite (v : BitVec 64) (s : State) : Result := .next (s.plimitWrite v)

/-- SFAULT written: zero clears it (R451). -/
def State.sfaultClear (s : State) (v : DWord) : State :=
  if v = 0 then { s with fabric := { s.fabric with sfault := 0 } } else s

/-- SFAULT_CLEAR (R451). -/
def execSfaultClear (v : BitVec 64) (s : State) : Result := .next (s.sfaultClear v)

/-- A core's telemetry counter written: zero clears it (R468). -/
def State.counterClear (s : State) (k i : Nat) (v : DWord) : State :=
  if v = 0 then s.modCore k fun c => { c with regs := { c.regs with counters := c.regs.counters.set i 0 } } else s

/-- TELEMETRY_COUNTER_CLEAR (R468). -/
def execTelemetryCounterClear (k i : Nat) (v : BitVec 64) (s : State) : Result := .next (s.counterClear k i v)

/-- Quads whose every core is offline pass their tasks on (R141). -/
def State.forwardAll (s : State) : State := (List.range 96).foldl State.forward s

/-- MCOFF i written: a 1 sets its bit, a 0 is ignored (R465). -/
def State.mcoffWrite (s : State) (i : Nat) (v : DWord) : State :=
  State.forwardAll { s with rel := { s.rel with mcoff := s.rel.mcoff.modify i (· ||| v) } }

/-- MCOFF_WRITE (R465). -/
def execMcoffWrite (i : Nat) (v : BitVec 64) (s : State) : Result := .next (s.mcoffWrite i v)

/-! ## Attestation (R460) -/

/-- Exactly `n` bytes that the spec names and does not compute: a digest, a key or a signature. -/
def secret (what : Nat) (bs : List Byte) (n : Nat) : List Byte :=
  let r := Config.crypto what bs n
  (List.range n).map fun i => r.getD i 0

/-- The report: its header, every log entry, and the signature over them (R460). -/
def State.report (s : State) : List Byte :=
  let head := leBytes 4 0x54415954 ++ leBytes 4 s.host.log.length ++
    (s.host.nonce.take 4).flatMap (fun w => leBytes 8 w.toNat) ++ leBytes 8 s.tick ++ leBytes 16 0
  let body := head ++ s.host.log.flatten
  body ++ secret 2 body 17088

/-- The mailbox word that starts a report: 1 while no request is busy, and while the host link is up. The report is composed
then (DESIGN CHOICE, assumption 30). -/
def State.attestRequest (s : State) (v : DWord) : State :=
  if s.host.up ∧ s.host.attest ≠ 1 ∧ v = 1 then { s with host := { s.host with attest := 1, report := s.report } } else s

/-- ATTESTATION_REQUEST (R460). -/
def execAttestationRequest (v : BitVec 64) (s : State) : Result := .next (s.attestRequest v)

/-- Bytes cut into writes of at most 512 bytes (R444). -/
def cutWrites : Nat → Nat → List Byte → List (Nat × List Byte)
  | 0, _, _ => []
  | n + 1, pa, bs => if bs = [] then [] else (pa, bs.take 512) :: cutWrites n (pa + 512) (bs.drop 512)

/-- Writes under a name, one after another: the highest code, or nothing while an answer is awaited. -/
def State.writeAll (s : State) (who : List Nat) : List (Nat × List Byte) → State × Option Nat
  | [] => (s, some 0)
  | w :: ws => match s.writeAt belvedere 0 who true w.1 w.2 with
    | (t, none) => (t, none)
    | (t, some c) =>
      let r := t.writeAll who ws
      (r.1, r.2.map (max c ·))

/-- ATTESTATION_DONE (R460): the report is written to the host, or a write raises remote-error and the request fails. -/
def execAttestationDone (s : State) : Result :=
  let a := s.host.reportAddr.toNat
  let bs := s.host.report
  let done := fun (t : State) (v : DWord) => { t with host := { t.host with attest := v } }
  .next (if s.host.attest ≠ 1 then s
    else if 0x40000000000 < a + bs.length then done s 3
    else
      let r := s.writeAll [11] (cutWrites (bs.length / 512 + 1) (s.localPa (0xC0000000000 + a)) bs)
      s.settle [11] (match r.2 with
        | none => r.1
        | some 0 => done r.1 2
        | some _ => done r.1 3))

/-! ## The host link and Function Level Reset (R444 to R446) -/

/-- A host queue loses enable (R446). -/
def BThread.disable (b : BThread) : BThread :=
  if b.qctl.getLsbD 9 then { b with qctl := b.qctl &&& ~~~0x100 } else b

/-- FUNCTION_LEVEL_RESET (R446): host queues lose enable; their commands have 100 ms to retire. -/
def execFunctionLevelReset (s : State) : Result :=
  .next { s with
    belv := { s.belv with threads := s.belv.threads.map (·.disable) }
    host := { s.host with flr := some (s.clk + 150000000) } }

/-- FLR_DRAIN_END (R446): the commands of host queues have retired or 100 ms have passed; an attestation request in
progress is aborted, and the mailbox reads idle (DESIGN CHOICE, assumption 30). -/
def execFlrDrainEnd (s : State) : Result :=
  .next (match s.host.flr with
    | none => s
    | some d =>
      if s.clk < d ∧ s.belv.threads.any (fun b => b.qctl.getLsbD 9 && b.inflight != []) then s
      else
        let t := s.dropAsks [11]
        { t with host := { t.host with flr := none, attest := if t.host.attest = 1 then 0 else t.host.attest } })

/-- HOST_LINK_DOWN (R445). -/
def execHostLinkDown (s : State) : Result := .next (State.loseHost { s with host := { s.host with up := false } })

/-- HOST_LINK_UP (R445): the link trains again, at a rate and width that are not zero. The capability record keeps what it
was published with (R399). -/
def execHostLinkUp (rate width : BitVec 32) (s : State) : Result :=
  .next (if rate = 0 ∨ width = 0 then s else { s with host := { s.host with up := true } })

/-- HOST_ATOMICOP (R444): completed as Unsupported Request. -/
def execHostAtomicop (off : Nat) (s : State) : Result := .next { s with out := s.out ++ [.unsupported off] }

/-! ## The storage port (R447) -/

/-- The tenant that PSPACE 64's entry names: the storage port has no other (DESIGN CHOICE, assumption 30). -/
def State.storageTenant (s : State) : BitVec 16 :=
  let space := (s.mc.pspace.getD 64 0).toNat % 2 ^ 16
  BitVec.ofNat 16 (s.wordPa (s.localPa (bits s.mc.stbase.toNat 43 12 * 4096 + 16 * space) + 8) 8 / 2 ^ 16)

/-- The physical parts of a DMA, or `none` where a page fails translation; and how many malformed entries were met. -/
def State.dmaParts (s : State) (want : Want) (va len : Nat) : Option (List (Nat × Nat)) × Nat :=
  let space := (s.mc.pspace.getD 64 0).toNat % 2 ^ 16
  let ts := (partsOf va len).map fun p => (s.translate space s.storageTenant want p.1, p.2)
  (ts.mapM fun t => match t.1.1 with
    | .ok pa _ _ => some (pa, t.2)
    | .fail _ => none, (ts.filter (·.1.2)).length)

/-- What a DMA answers: bytes, or no success. -/
def State.dmaAnswer (s : State) (a : Option (List Byte)) : State := { s with out := s.out ++ [.dma a] }

/-- A DMA that fails translation: SFAULT advances, and nothing is answered. -/
def State.dmaFail (s : State) : State :=
  { s with fabric := { s.fabric with sfault := s.fabric.sfault + 1 } }.dmaAnswer none

/-- Reads under a name, one after another: the highest code and the bytes, or nothing while an answer is awaited. -/
def State.readAll (s : State) (who : List Nat) : List (Nat × Nat) → State × Option (Nat × List Byte)
  | [] => (s, some (0, []))
  | p :: ps => match s.readAt belvedere 0 who p.1 p.2 with
    | (t, none) => (t, none)
    | (t, some a) =>
      let r := t.readAll who ps
      (r.1, r.2.map fun b => (max a.1 b.1, a.2 ++ b.2))

/-- Bytes cut along the parts of their range. -/
def cutBytes : List Byte → List (Nat × Nat) → List (Nat × List Byte)
  | _, [] => []
  | bs, p :: ps => (p.1, bs.take p.2) :: cutBytes (bs.drop p.2) ps

/-- The name that a DMA asks under. -/
def dmaName : Dma → List Nat
  | .read va len => [8, 0, va, len]
  | .write va bs => [8, 1, va, bs.length]

/-- A DMA waits for answers from beyond the package, or is over; one whose like is in progress joins it (DESIGN CHOICE,
assumption 30). -/
def State.dmaStep (s : State) (d : Dma) (r : State × Option (Option (List Byte))) : State :=
  match r.2 with
  | none =>
    let t := s.keepAsks r.1
    { t with fabric := { t.fabric with dmas := if t.fabric.dmas.contains d then t.fabric.dmas else t.fabric.dmas ++ [d] } }
  | some a =>
    let t := r.1.dropAsks (dmaName d)
    { t with fabric := { t.fabric with dmas := t.fabric.dmas.erase d } }.dmaAnswer a

/-- STORAGE_DMA (R447): the accesses go where R420 sends them. A read that fails at its home gives no data (DESIGN CHOICE,
assumption 30). -/
def execStorageDma (d : Dma) (s : State) : Result :=
  let cut := fun (ps : List (Nat × Nat)) => ps.flatMap fun p => chunksOf p.1 p.2
  .next (match d with
    | .read va len => match s.dmaParts .read va len with
      | (none, m) => (s.noteMalformed m).dmaFail
      | (some ps, m) =>
        let r := (s.noteMalformed m).readAll (dmaName d) (cut ps)
        s.dmaStep d (r.1, r.2.map fun a => if a.1 = 0 then some a.2 else none)
    | .write va bs => match s.dmaParts .write va bs.length with
      | (none, m) => (s.noteMalformed m).dmaFail
      | (some ps, m) =>
        let r := (s.noteMalformed m).writeAll (dmaName d) (cutBytes bs (cut ps))
        s.dmaStep d (r.1, r.2.map fun _ => some []))

/-! ## Register writes by region (R396) -/

/-- A register of a Belvedere queue control block (R406). The host writes only blocks with the host bit, while its link is
up; QETIME takes a zero from Arbour alone; QHEAD, QPC and QSTAT are the device's. -/
def State.writeQueue (s : State) (w : Writer) (t reg : Nat) (v : DWord) : State :=
  let b := s.thread t
  if w = .host ∧ !(s.host.up && b.qctl.getLsbD 9) then s
  else match reg with
    | 0x00 => s.modThread t fun b => { b with qbase := v }
    | 0x08 => (s.dropAsks [4, t]).modThread t fun b => { b with qctl := keep v 63 32 ||| keep v 10 8 ||| keep v 4 0 }
    | 0x10 => match execDoorbell w t v s with
      | .next u => u
      | _ => s
    | 0x20 => if w = .arbour ∧ v = 0 then s.modThread t fun b => { b with qetime := 0 } else s
    | _ => s

/-- Half a word replaced, the upper half where `hi`. -/
def setHalf (w : DWord) (hi : Bool) (v : DWord) : DWord :=
  if hi then (w &&& 0xFFFFFFFF) ||| keep (v <<< 32) 63 32 else (w &&& ~~~0xFFFFFFFF) ||| keep v 31 0

/-- An MSI-X table word written: a vector that is unmasked while its pending bit is set is raised
(PRESUMED: PCIe, assumption 54). -/
def State.writeMsix (s : State) (i : Nat) (v : DWord) : State :=
  let s := { s with host := { s.host with msix := s.host.msix.set i v } }
  let n := i / 2
  if i % 2 = 1 ∧ !v.getLsbD 32 ∧ s.host.pba.getLsbD n then
    { s with host := { s.host with pba := s.host.pba &&& ~~~(1#64 <<< n) }, out := s.out ++ [.msix n] }
  else s

/-- The MSI-X table takes aligned writes of 4 and 8 bytes (R396). -/
def State.msixWrite (s : State) (o bytes : Nat) (v : DWord) : State :=
  let i := o / 8
  if bytes = 8 then s.writeMsix i v
  else if bytes = 4 then s.writeMsix i (setHalf (s.host.msix.getD i 0) (o % 8 == 4) v)
  else s

/-- A register of a quad's ring (R404): a change of RQBASE or lcap loses what the ring holds. -/
def State.writeRing (s : State) (q reg : Nat) (v : DWord) : State :=
  let lose := fun (r : Quad) => { r with head := r.tail, ringOrigins := [] }
  s.modQuad q fun r => match reg with
    | 0x00 =>
      let r' := { r with base := keep v 43 3 }
      if r'.base = r.base then r' else lose r'
    | 0x08 =>
      let r' := { r with ctl := keep v 8 8 ||| keep v 4 0 }
      if r'.ctl.toNat % 32 = r.ctl.toNat % 32 then r' else lose r'
    | _ => r

/-- A word of a pair changed. -/
def setPair (p : DWord × DWord) (hi : Bool) (v : DWord) : DWord × DWord := if hi then (p.1, v) else (v, p.2)

/-- The memory-control registers (R430). -/
def State.writeMemCtl (s : State) (o : Nat) (v : DWord) : State :=
  let put := fun (m : MemCtl) => { s with mc := m }
  if 0x040 ≤ o ∧ o < 0x0C0 then
    if s.mc.klock = 1 then s
    else put { s.mc with krange := s.mc.krange.modify ((o - 0x040) / 16) (setPair · (o % 16 == 8) (keep v 43 12)) }
  else if 0x100 ≤ o ∧ o < 0x308 then put { s.mc with pspace := s.mc.pspace.set ((o - 0x100) / 8) (keep v 15 0) }
  else if 0x500 ≤ o ∧ o < 0x5C0 then put { s.mc with alertx := s.mc.alertx.set ((o - 0x500) / 8) (keep v 31 0) }
  else match o with
    | 0x000 => put { s.mc with stbase := keep v 43 12 }
    | 0x008 => put { s.mc with stlen := keep v 16 0 }
    | 0x010 => put { s.mc with invva := keep v 55 12 }
    | 0x018 => s.invalidate v
    | 0x020 => put { s.mc with stalepa := keep v 53 12 }
    | 0x028 => s.staleMark v
    | 0x038 => s.klockSet v
    | 0x400 => put { s.mc with faqbase := keep v 43 4 }
    | 0x408 => put { s.mc with faqctl := keep v 8 8 ||| keep v 4 0 }
    | 0x418 => put { s.mc with faqhead := v }
    | 0x420 => put { s.mc with faqdrop := v }
    | 0x428 => put { s.mc with malform := v }
    | 0x600 => put { s.mc with sridle := keep v 19 0 }
    | _ => s

/-- The fabric registers (R451): a change of routes makes requests and barrier messages look again for a port (R452,
R455). -/
def State.writeFabric (s : State) (o : Nat) (v : DWord) : State :=
  let put := fun (f : Fabric) => { s with fabric := f }
  if 0x010 ≤ o ∧ o < 0x030 then
    put { s.fabric with podroot := s.fabric.podroot.set ((o - 0x010) / 8) (keep v 15 15 ||| keep v 9 0) }
  else if 0x1000 ≤ o ∧ o < 0x3000 then
    ((put { s.fabric with route := s.fabric.route.set ((o - 0x1000) / 8) v }).resend).retryRequests
  else match o with
    | 0x008 => put { s.fabric with dtimeout := keep v 31 0 }
    | 0x030 => s.sfaultClear v
    | _ => s

/-- The registers of R465, R469 and R470. -/
def State.writeRel (s : State) (o : Nat) (v : DWord) : State :=
  let put := fun (r : Rel) => { s with rel := r }
  if 0x040 ≤ o ∧ o < 0x070 then s.mcoffWrite ((o - 0x040) / 8) v
  else if 0x100 ≤ o ∧ o < 0x1C0 then
    let reg := o % 0x40 / 8
    let w := match reg with
      | 0 => some (keep v 43 5)
      | 1 => some (keep v 20 16 ||| keep v 8 8 ||| keep v 4 0)
      | 3 => some v
      | 4 => some v
      | _ => none
    match w with
    | some w => put { s.rel with samples := s.rel.samples.modify ((o - 0x100) / 0x40) (·.set reg w) }
    | none => s
  else if 0x400 ≤ o ∧ o < 0x510 then
    let w := if o % 16 = 0 then keep v 31 15 else v
    put { s.rel with etime := s.rel.etime.modify ((o - 0x400) / 16) (setPair · (o % 16 == 8) w) }
  else match o with
    | 0x000 => s.plimitWrite v
    | 0x018 => put { s.rel with scrub := keep v 7 0 }
    | _ => s

/-- A core command written (R402): it starts unless one is busy; a value that names no command is refused (DESIGN CHOICE,
assumption 30). -/
def CoreRegs.command (r : CoreRegs) (v : DWord) : CoreRegs :=
  let n := v.toNat % 256
  if r.cstat = 1 then r else { r with ccmd := keep v 39 0, cstat := if 1 ≤ n ∧ n ≤ 4 then 1 else 3 }

/-- The registers of a core's control block (R401, R468). -/
def State.writeCore (s : State) (k o : Nat) (v : DWord) : State :=
  let put := fun (f : CoreRegs → CoreRegs) => s.modCore k fun c => { c with regs := f c.regs }
  if 0x40 ≤ o ∧ o < 0x80 then put fun r => { r with quota := r.quota.set ((o - 0x40) / 8) (keep v 31 15 ||| keep v 6 0) }
  else if 0x80 ≤ o ∧ o < 0xB0 then s.counterClear k ((o - 0x80) / 8) v
  else match o with
    | 0x00 => put fun r => { r with cctl := keep v 7 4 ||| keep v 2 0 }
    | 0x08 => put fun r => { r with brefill := BitVec.ofNat 64 (min 65536 (v.toNat % 2 ^ 17)) }
    | 0x10 => put fun r => { r with space := keep v 15 0 }
    | 0x18 => put (·.command v)
    | 0x20 => put fun r => { r with carg := v }
    | 0x30 => put fun r => { r with fsave := keep v 43 12 }
    | _ => s

/-- The fault queue's registers (R417). -/
def State.writeFaultQueue (s : State) (o : Nat) (v : DWord) : State :=
  match o with
  | 0x00 => { s with fq := { s.fq with base := keep v 63 6 } }
  | 0x08 => { s with fq := { s.fq with ctl := keep v 9 8 ||| keep v 4 0 } }
  | 0x18 => { s with fq := { s.fq with head := v } }
  | 0x20 => { s with fq := { s.fq with waits := v } }
  | _ => s

/-- The attestation mailbox (R460): the host alone, while no request is busy. -/
def State.writeMailbox (s : State) (o : Nat) (v : DWord) : State :=
  if !s.host.up ∨ s.host.attest = 1 then s
  else if o < 0x20 then { s with host := { s.host with nonce := s.host.nonce.set (o / 8) v } }
  else if o = 0x20 then { s with host := { s.host with reportAddr := v } }
  else if o = 0x28 then s.attestRequest v
  else s

/-- What Arbour alone writes (R396). -/
def State.writeArbour (s : State) (o : Nat) (v : DWord) : State :=
  if 0x20000 ≤ o ∧ o < 0x20100 then s.writeFaultQueue (o - 0x20000) v
  else if 0x20100 ≤ o ∧ o < 0x20140 then
    { s with barTenants := s.barTenants.set ((o - 0x20100) / 8) (keep v 31 15) }
  else if 0x22000 ≤ o ∧ o < 0x22C00 then s.writeRing ((o - 0x22000) / 0x20) (o % 0x20) v
  else if 0x30000 ≤ o ∧ o < 0x30800 then s.writeMemCtl (o - 0x30000) v
  else if 0x40000 ≤ o ∧ o < 0x44000 then s.writeFabric (o - 0x40000) v
  else if 0x50000 ≤ o ∧ o < 0x50800 then s.writeRel (o - 0x50000) v
  else if 0x100000 ≤ o ∧ o < 0x118000 then s.writeCore ((o - 0x100000) / 0x100) (o % 0x100) v
  else s

/-- REGISTER_WRITE (R396): an aligned write at a window offset. A narrower write than 8 bytes writes nothing, but for the MSI-X
table's. What a writer does not reach it does not change. -/
def execRegisterWrite (w : Writer) (o : Nat) (d : WriteData) (s : State) : Result :=
  let bytes := d.bytes
  let v := d.value
  let reaches := w == .arbour || s.host.up
  .next (if o % bytes ≠ 0 then s
    else if 0x21000 ≤ o ∧ o < 0x21400 then (if reaches then s.msixWrite (o - 0x21000) bytes v else s)
    else if bytes ≠ 8 then s
    else if 0x10000 ≤ o ∧ o < 0x10800 then s.writeQueue w ((o - 0x10000) / 0x40) (o % 0x40) v
    else match w with
      | .arbour => s.writeArbour o v
      | .host => if reaches ∧ 0xF000 ≤ o ∧ o < 0xF030 then s.writeMailbox (o - 0xF000) v else s)

/-! ## What a read of window 0 returns (R396, R398, R399, R430, R465) -/

/-- A word of the device information region. -/
def State.infoWord (s : State) (o : Nat) : DWord :=
  if o = 0 then s.host.bootStatus
  else if o = 8 then s.host.capHead
  else if 0xF000 ≤ o ∧ o < 0xF020 then s.host.nonce.getD ((o - 0xF000) / 8) 0
  else if o = 0xF020 then s.host.reportAddr
  else if o = 0xF030 then s.host.attest
  else BitVec.ofNat 64 (leNat (s.host.info.bytes o 8))

/-- A register of a queue control block (R406). -/
def BThread.word (b : BThread) (reg : Nat) : DWord :=
  [b.qbase, b.qctl, b.qtail, b.qhead, b.qetime, b.qpc, b.qstat].getD (reg / 8) 0

/-- A fault-queue register (R417). -/
def FaultQueue.word (q : FaultQueue) (o : Nat) : DWord := [q.base, q.ctl, q.tail, q.head, q.waits].getD (o / 8) 0

/-- A ready-queue ring register (R404). -/
def Quad.word (q : Quad) (reg : Nat) : DWord := [q.base, q.ctl, q.tail, q.head].getD (reg / 8) 0

/-- A word of a pair. -/
def pairWord (p : DWord × DWord) (hi : Bool) : DWord := if hi then p.2 else p.1

/-- A memory-control register (R430). -/
def MemCtl.word (m : MemCtl) (o : Nat) : DWord :=
  if o < 0x40 then [m.stbase, m.stlen, m.invva, m.invcmd, m.stalepa, m.stalecmd, m.mstat, m.klock].getD (o / 8) 0
  else if o < 0xC0 then pairWord (m.krange.getD ((o - 0x40) / 16) (0, 0)) (o % 16 == 8)
  else if 0x100 ≤ o ∧ o < 0x308 then m.pspace.getD ((o - 0x100) / 8) 0
  else if 0x400 ≤ o ∧ o < 0x430 then
    [m.faqbase, m.faqctl, m.faqtail, m.faqhead, m.faqdrop, m.malform].getD ((o - 0x400) / 8) 0
  else if 0x500 ≤ o ∧ o < 0x5C0 then m.alertx.getD ((o - 0x500) / 8) 0
  else if o = 0x600 then m.sridle
  else 0

/-- A fabric register (R451). -/
def Fabric.word (f : Fabric) (o : Nat) : DWord :=
  if o = 0 then f.fnode.setWidth 64
  else if o = 8 then f.dtimeout
  else if 0x10 ≤ o ∧ o < 0x30 then f.podroot.getD ((o - 0x10) / 8) 0
  else if o = 0x30 then f.sfault
  else if 0x800 ≤ o ∧ o < 0xA00 then (f.ports.getD ((o - 0x800) / 8) Port.reset).stat
  else if 0x1000 ≤ o ∧ o < 0x3000 then f.route.getD ((o - 0x1000) / 8) 0
  else 0

/-- A register of R465, R469 or R470. -/
def Rel.word (r : Rel) (o : Nat) : DWord :=
  if o < 0x28 then [r.plimit, r.pstat, r.pthrot, r.scrub, r.mcstat].getD (o / 8) 0
  else if 0x40 ≤ o ∧ o < 0x70 then r.mcoff.getD ((o - 0x40) / 8) 0
  else if 0x100 ≤ o ∧ o < 0x1C0 then (r.samples.getD ((o - 0x100) / 0x40) []).getD (o % 0x40 / 8) 0
  else if 0x400 ≤ o ∧ o < 0x510 then pairWord (r.etime.getD ((o - 0x400) / 16) (0, 0)) (o % 16 == 8)
  else 0

/-- A register of a core's control block (R401, R468). -/
def CoreRegs.word (r : CoreRegs) (o : Nat) : DWord :=
  if o < 0x38 then [r.cctl, r.brefill, r.space, r.ccmd, r.carg, r.cstat, r.fsave].getD (o / 8) 0
  else if 0x40 ≤ o ∧ o < 0x80 then r.quota.getD ((o - 0x40) / 8) 0
  else if 0x80 ≤ o ∧ o < 0xB0 then r.counters.getD ((o - 0x80) / 8) 0
  else 0

/-- The aligned word at a window offset as it stands there: Arbour reads it so. -/
def State.windowWord (s : State) (o : Nat) : DWord :=
  if o < 0x10000 then s.infoWord o
  else if o < 0x10800 then (s.thread ((o - 0x10000) / 0x40)).word (o % 0x40)
  else if 0x20000 ≤ o ∧ o < 0x20100 then s.fq.word (o - 0x20000)
  else if 0x20100 ≤ o ∧ o < 0x20140 then s.barTenants.getD ((o - 0x20100) / 8) 0
  else if 0x21000 ≤ o ∧ o < 0x21400 then s.host.msix.getD ((o - 0x21000) / 8) 0
  else if o = 0x21800 then s.host.pba
  else if 0x22000 ≤ o ∧ o < 0x22C00 then (s.quad ((o - 0x22000) / 0x20)).word (o % 0x20)
  else if 0x30000 ≤ o ∧ o < 0x30800 then s.mc.word (o - 0x30000)
  else if 0x40000 ≤ o ∧ o < 0x44000 then s.fabric.word (o - 0x40000)
  else if 0x50000 ≤ o ∧ o < 0x50800 then s.rel.word (o - 0x50000)
  else if 0x100000 ≤ o ∧ o < 0x118000 then (s.core ((o - 0x100000) / 0x100)).regs.word (o % 0x100)
  else 0

/-- Whether the host reaches a window offset: the device information region, the queue control blocks whose host bit is set, the
MSI-X table and its pending bits (R396). -/
def State.hostReaches (s : State) (o : Nat) : Bool :=
  o < 0x10000 || (0x10000 ≤ o && o < 0x10800 && (s.thread ((o - 0x10000) / 0x40)).qctl.getLsbD 9) ||
    (0x21000 ≤ o && o < 0x21400) || (0x21800 ≤ o && o < 0x21808)

/-- What a read of `bytes` bytes at a window offset returns (R396, R444): an aligned word, zero to the host elsewhere, and zero for
a narrower read but for the 4-byte reads of the MSI-X table and its pending bits. -/
def State.windowRead (s : State) (w : Writer) (o bytes : Nat) : DWord :=
  let msix := (0x21000 ≤ o && o < 0x21400) || (0x21800 ≤ o && o < 0x21808)
  let word := s.windowWord (o / 8 * 8)
  if w = .host ∧ !s.hostReaches o then 0
  else if o % 8 = 0 ∧ bytes = 8 then word
  else if msix ∧ o % 4 = 0 ∧ bytes = 4 then (if o % 8 = 4 then word >>> 32 else word &&& 0xFFFFFFFF)
  else 0

/-- What the endpoint does not implement (R444). -/
inductive Absent where
  | otherBar
  | expansionRom
  | srIov
  | ats
  | pasid
deriving DecidableEq, Repr

/-- The configuration registers of those read zero (R444). -/
def configWord (_ : Absent) : DWord := 0

end Sys2Proof.Machine
end

