-- ==== Sys2Proof/Machine/Float.lean ====
section
/-! DEFINITION. Float arithmetic and approximate functions (R212, R238 to R249). -/

namespace Sys2Proof.Machine

/-! ## Single precision (R239) -/

/-- A rounded f32 result of A and B with its flags. -/
def round32 (rm : Nat) (x : Val) (ops : List Val) : Word × Nat :=
  let r := f32.result rm x ops
  (BitVec.ofNat 32 r.1, r.2)

/-- vD ← round(f(a, b, old d)) in f32. -/
def State.fop (s : State) (u : Bool) (d a b : Nat) (x : Bool) (f : Val → Val → Val → Word × Nat) : Result :=
  s.checked (s.vOk d && s.vOk a && s.bOk b x)
    (s.putF u d fun l => f (decF (s.A a l)) (decF (s.B b x l)) (decF (s.A d l)))

/-- vD ← f(A) with flags. -/
def State.fop1 (s : State) (u : Bool) (d a : Nat) (f : Word → Word × Nat) : Result :=
  s.checked (s.vOk d && s.vOk a) (s.putF u d fun l => f (s.A a l))

/-- `fadd` (R239). -/
def execFadd (_c u : Bool) (d a b : BitVec 7) (x : Bool) (s : State) : Result :=
  s.fop u d.toNat a.toNat b.toNat x fun a b _ => round32 s.rm (a.add b) [a, b]

/-- `fsub` (R239). -/
def execFsub (_c u : Bool) (d a b : BitVec 7) (x : Bool) (s : State) : Result :=
  s.fop u d.toNat a.toNat b.toNat x fun a b _ => round32 s.rm (a.add b.negate) [a, b]

/-- `fmul` (R239). -/
def execFmul (_c u : Bool) (d a b : BitVec 7) (x : Bool) (s : State) : Result :=
  s.fop u d.toNat a.toNat b.toNat x fun a b _ => round32 s.rm (a.mul b) [a, b]

/-- `ffma` (R239): one rounding. -/
def execFfma (_c u : Bool) (d a b : BitVec 7) (x : Bool) (s : State) : Result :=
  s.fop u d.toNat a.toNat b.toNat x fun a b old => round32 s.rm ((a.mul b).add old) [a, b, old]

/-- `fmin` (R240). -/
def execFmin (_c u : Bool) (d a b : BitVec 7) (x : Bool) (s : State) : Result :=
  s.alu u d.toNat a.toNat b.toNat x fun A B => BitVec.ofNat 32 (f32.minMax false A.toNat B.toNat)

/-- `fmax` (R240). -/
def execFmax (_c u : Bool) (d a b : BitVec 7) (x : Bool) (s : State) : Result :=
  s.alu u d.toNat a.toNat b.toNat x fun A B => BitVec.ofNat 32 (f32.minMax true A.toNat B.toNat)

/-- `fcmp` (R241). -/
def execFcmp (_c u : Bool) (k : BitVec 4) (p : BitVec 3) (a b : BitVec 7) (x : Bool) (s : State) : Result :=
  s.cmp u p.toNat a.toNat b.toNat x (k.toNat < 8) fun A B => fcond k.toNat (decF A) (decF B)

/-- `frcp` (R243). -/
def execFrcp (_c u : Bool) (d a : BitVec 7) (s : State) : Result := s.fop1 u d.toNat a.toNat approxRcp

/-- `frsq` (R243). -/
def execFrsq (_c u : Bool) (d a : BitVec 7) (s : State) : Result := s.fop1 u d.toNat a.toNat approxRsq

/-- `fsqrt` (R239). -/
def execFsqrt (_c u : Bool) (d a : BitVec 7) (s : State) : Result :=
  s.fop1 u d.toNat a.toNat fun A => round32 s.rm (decF A).sqrt [decF A]

/-- `fdiv` (R239). -/
def execFdiv (_c u : Bool) (d a b : BitVec 7) (x : Bool) (s : State) : Result :=
  s.fop u d.toNat a.toNat b.toNat x fun a b _ =>
    ((round32 s.rm (a.div b) [a, b]).1, (round32 s.rm (a.div b) [a, b]).2 ||| dzOf a b)

/-- `fexp2` (R243). -/
def execFexp2 (_c u : Bool) (d a : BitVec 7) (s : State) : Result := s.fop1 u d.toNat a.toNat approxExp2

/-- `flog2` (R243). -/
def execFlog2 (_c u : Bool) (d a : BitVec 7) (s : State) : Result := s.fop1 u d.toNat a.toNat approxLog2

/-- `fsin` (R243). -/
def execFsin (_c u : Bool) (d a : BitVec 7) (s : State) : Result := s.fop1 u d.toNat a.toNat (approxTrig false)

/-- `fcos` (R243). -/
def execFcos (_c u : Bool) (d a : BitVec 7) (s : State) : Result := s.fop1 u d.toNat a.toNat (approxTrig true)

/-- An f32 pattern rounded to an integral value (R244): a zero result keeps the sign of its source. -/
def integral (mode : Nat) (a : Word) : Word :=
  match decF a with
  | .nan => 0x7FC00000
  | .inf _ => a
  | .num n m e =>
    match (Val.num n m e).toInt mode with
    | some (i, _) => rne32 (.num n i.natAbs 0)
    | none => a

/-- `frnd` (R244). -/
def execFrnd (_c u : Bool) (d a : BitVec 7) (m : BitVec 3) (s : State) : Result :=
  s.checked (m.toNat < 5 && s.vOk d.toNat && s.vOk a.toNat)
    (s.putV u d.toNat fun l => integral (if m = 4 then s.rm else m.toNat) (s.A a.toNat l))

/-- `fclass` (R242). -/
def execFclass (_c u : Bool) (d a : BitVec 7) (s : State) : Result := s.alu1 u d.toNat a.toNat classOf

/-- `fscale` (R245). Powers beyond ±400 act as ±400: every f32 has left the range by then, and rounds alike. -/
def execFscale (_c u : Bool) (d a b : BitVec 7) (x : Bool) (s : State) : Result :=
  s.checked (s.vOk d.toNat && s.vOk a.toNat && s.bOk b.toNat x)
    (s.putF u d.toNat fun l =>
      let a := decF (s.A a.toNat l)
      round32 s.rm (a.mul (.pow2 (max (-400) (min 400 (s.B b.toNat x l).toInt)))) [a])

/-! ## Double precision (R246, R247) -/

/-- The f64 use of b in lane `l`: a literal is read as f32 and widened exactly (R197, R246). -/
def State.BD (s : State) (b : Nat) (x : Bool) (l : Nat) : DWord :=
  if x && b == 48 then rne64 (decF s.issue.lit) else s.B2 b x l

/-- A pair read as f64. -/
def decD (w : DWord) : Val := f64.dec w.toNat

/-- vD:vD+1 ← the f64 rounding of what `f` makes of a, b and old d, beside the operands it used. -/
def State.dop (s : State) (u : Bool) (d a b : Nat) (x : Bool) (f : Val → Val → Val → Val × List Val) : Result :=
  s.checked (s.v2Ok d && s.v2Ok a && s.b2Ok b x)
    (s.putF2 u d fun l =>
      let v := f (decD (s.A2 a l)) (decD (s.BD b x l)) (decD (s.A2 d l))
      let r := f64.result s.rm v.1 v.2
      (BitVec.ofNat 64 r.1, r.2))

/-- `dadd` (R247). -/
def execDadd (_c u sub : Bool) (d : BitVec 6) (a b : BitVec 7) (x : Bool) (s : State) : Result :=
  s.dop u d.toNat a.toNat b.toNat x fun a b _ => (a.add (if sub then b.negate else b), [a, b])

/-- `dmul` (R247). -/
def execDmul (_c u : Bool) (d : BitVec 6) (a b : BitVec 7) (x : Bool) (s : State) : Result :=
  s.dop u d.toNat a.toNat b.toNat x fun a b _ => (a.mul b, [a, b])

/-- `dfma` (R247). -/
def execDfma (_c u : Bool) (d : BitVec 6) (a b : BitVec 7) (x : Bool) (s : State) : Result :=
  s.dop u d.toNat a.toNat b.toNat x fun a b old => ((a.mul b).add old, [a, b, old])

/-- `dminmax` (R240, R247). -/
def execDminmax (_c u max : Bool) (d : BitVec 6) (a b : BitVec 7) (x : Bool) (s : State) : Result :=
  s.checked (s.v2Ok d.toNat && s.v2Ok a.toNat && s.b2Ok b.toNat x)
    (s.putV2 u d.toNat fun l =>
      BitVec.ofNat 64 (f64.minMax max (s.A2 a.toNat l).toNat (s.BD b.toNat x l).toNat))

/-- `dcmp` (R241, R247). -/
def execDcmp (_c u : Bool) (k : BitVec 4) (p : BitVec 3) (a b : BitVec 7) (x : Bool) (s : State) : Result :=
  s.checked (k.toNat < 8 && s.v2Ok a.toNat && s.b2Ok b.toNat x)
    (s.putP u p.toNat fun l => fcond k.toNat (decD (s.A2 a.toNat l)) (decD (s.BD b.toNat x l)))

/-! ## Packed 16-bit arithmetic and the dot product (R248, R249) -/

/-- Element `e` of a word of two. -/
def half (w : Word) (e : Nat) : Nat := w.toNat / 2 ^ (16 * e) % 2 ^ 16

/-- Two elements computed from the elements of A, B and old d. -/
def State.pairOp (s : State) (u : Bool) (f : Fmt) (d a b : Nat) (x : Bool) (op : Val → Val → Val → Val × List Val) :
    Result :=
  s.checked (s.vOk d && s.vOk a && s.bOk b x)
    (s.putF u d fun l =>
      let one := fun e =>
        let r := op (f.dec (half (s.A a l) e)) (f.dec (half (s.B b x l) e)) (f.dec (half (s.A d l) e))
        f.result s.rm r.1 r.2
      (BitVec.ofNat 32 ((one 0).1 + (one 1).1 * 2 ^ 16), (one 0).2 ||| (one 1).2))

/-- `hadd2` (R248). -/
def execHadd2 (_c u : Bool) (d a b : BitVec 7) (x : Bool) (s : State) : Result :=
  s.pairOp u f16 d.toNat a.toNat b.toNat x fun a b _ => (a.add b, [a, b])

/-- `hmul2` (R248). -/
def execHmul2 (_c u : Bool) (d a b : BitVec 7) (x : Bool) (s : State) : Result :=
  s.pairOp u f16 d.toNat a.toNat b.toNat x fun a b _ => (a.mul b, [a, b])

/-- `hfma2` (R248). -/
def execHfma2 (_c u : Bool) (d a b : BitVec 7) (x : Bool) (s : State) : Result :=
  s.pairOp u f16 d.toNat a.toNat b.toNat x fun a b old => ((a.mul b).add old, [a, b, old])

/-- `bfma2` (R248). -/
def execBfma2 (_c u : Bool) (d a b : BitVec 7) (x : Bool) (s : State) : Result :=
  s.pairOp u bf16 d.toNat a.toNat b.toNat x fun a b old => ((a.mul b).add old, [a, b, old])

/-- `fdot2` (R249). -/
def execFdot2 (_c u t : Bool) (d : BitVec 6) (a b : BitVec 7) (x : Bool) (s : State) : Result :=
  let f := if t then bf16 else f16
  s.checked (s.vOk d.toNat && s.vOk a.toNat && s.bOk b.toNat x)
    (s.putF u d.toNat fun l =>
      let p := fun e => f.dec (half (s.A a.toNat l) e)
      let q := fun e => f.dec (half (s.B b.toNat x l) e)
      let old := decF (s.A d.toNat l)
      round32 s.rm (Val.sum [(p 0).mul (q 0), (p 1).mul (q 1), old]) [p 0, q 0, p 1, q 1, old])

/-! ## The F class (R212): nearest even, no flag -/

/-- The f32 whose top 20 bits the word holds. -/
def imm20 (imm : BitVec 20) : Val := decF (imm ++ (0 : BitVec 12))

/-- `faddi` (R212). -/
def execFaddi (_c u : Bool) (d : BitVec 7) (imm : BitVec 20) (s : State) : Result :=
  s.checked (s.vOk d.toNat) (s.putV u d.toNat fun l => rne32 ((decF (s.A d.toNat l)).add (imm20 imm)))

/-- `fmuli` (R212). -/
def execFmuli (_c u : Bool) (d : BitVec 7) (imm : BitVec 20) (s : State) : Result :=
  s.checked (s.vOk d.toNat) (s.putV u d.toNat fun l => rne32 ((decF (s.A d.toNat l)).mul (imm20 imm)))

end Sys2Proof.Machine
end

