-- ==== Sys2Proof/Machine/Convert.lean ====
section
/-! DEFINITION. Conversions (R250 to R256), lane movement, reductions, scans and the cell key (R257 to R261). -/

namespace Sys2Proof.Machine

/-! ## One element (R250, R251) -/

/-- The source value of `cvt` in lane `l`. -/
def State.cvtSource (s : State) (st a l : Nat) : Val :=
  match st with
  | 13 => Val.ofInt (s.A a l).toInt
  | 14 => Val.ofInt (s.A a l).toNat
  | 15 => decD (s.A2 a l)
  | _ => decElem st (s.A a l).toNat

/-- A value converted to an integer type of width `w`: the pattern, nv for a NaN or a clamp, nx for an inexact rounding
(R251). -/
def toIntType (dt w mode : Nat) (x : Val) : Nat × Nat :=
  match x with
  | .nan => (0, fNv)
  | .inf neg => (intBits w (if neg then (intRange dt).1 else (intRange dt).2), fNv)
  | .num _ _ _ =>
    match x.toInt mode with
    | none => (0, 0)
    | some (i, inexact) =>
      (intBits w (clampInt dt i), (if clampInt dt i = i then 0 else fNv) ||| if inexact then fNx else 0)

/-- The pattern and flags of a converted value (R251). -/
def convert (dt mode : Nat) (x : Val) : Nat × Nat :=
  match dt with
  | 13 => toIntType 13 32 mode x
  | 14 => toIntType 14 32 mode x
  | 15 => f64.round mode x
  | _ => match fmtOf dt with
    | some f => f.round mode x
    | none => toIntType dt (elemBits dt) mode x

/-- `cvt` (R250, R251). -/
def execCvt (_c u : Bool) (t st : BitVec 4) (m : BitVec 2) (d a : BitVec 6) (s : State) : Result :=
  let r := fun l => convert t.toNat m.toNat (s.cvtSource st.toNat a.toNat l)
  s.checked ((if t = 15 then s.v2Ok d.toNat else s.vOk d.toNat) && if st = 15 then s.v2Ok a.toNat else s.vOk a.toNat)
    (if t = 15 then s.putF2 u d.toNat fun l => (BitVec.ofNat 64 (r l).1, (r l).2)
     else s.putF u d.toNat fun l => (BitVec.ofNat 32 (r l).1, (r l).2))

/-! ## Packed vectors (R252 to R256) -/

/-- Elements and words that a packing word covers (R253). -/
def packShape (fmt : Nat) : Nat × Nat :=
  match elemBits fmt with
  | 16 => (2, 1)
  | 8 => (4, 1)
  | 6 => (16, 3)
  | _ => (8, 1)

/-- The codes of bq4 and bq4w with a special value: every e2m1 value but −0, and S with code 0b1000 (R255). -/
def specialSet (special : Nat) : List (Nat × Val) :=
  ((List.range 16).filter (· != 8)).map (fun c => (c, e2m1.dec c)) ++ [(8, e4m3.dec special)]

/-- The entry of a set with the largest value not above `x`; of equal values the first: where S equals an e2m1 value, that value's
e2m1 code is taken and 0b1000 is not (R255; DESIGN CHOICE, assumption 84). -/
def floorOf (vs : List (Nat × Val)) (x : Val) : Option (Nat × Val) :=
  vs.foldl (fun b v => if x.lt v.2 then b else match b with
    | none => some v
    | some w => if w.2.lt v.2 then some v else b) none

/-- The entry of a set with the smallest value not below `x`; of equal values the first. -/
def ceilOf (vs : List (Nat × Val)) (x : Val) : Option (Nat × Val) :=
  vs.foldl (fun b v => if v.2.lt x then b else match b with
    | none => some v
    | some w => if v.2.lt w.2 then some v else b) none

/-- A finite value rounded within a set (R255), with of and nx. -/
def roundInSet (vs : List (Nat × Val)) (mode : Nat) (x : Val) : Nat × Nat :=
  match floorOf vs x, ceilOf vs x with
  | some lo, none => (lo.1, fOf + fNx)
  | none, some hi => (hi.1, fOf + fNx)
  | none, none => (0, 0)
  | some lo, some hi =>
    if lo.2.eq hi.2 then (lo.1, 0)
    else
      let up := match mode with
        | 0 =>
          let dl := x.add lo.2.negate
          let dh := hi.2.add x.negate
          if dl.lt dh then false else if dh.lt dl then true
          else if lo.1 = 8 then true else if hi.1 = 8 then false else hi.1 % 2 == 0
        | 1 => x.neg
        | 2 => false
        | _ => true
      ((if up then hi else lo).1, fNx)

/-- One element packed (R255): its code and flags. -/
def packElem (fmt mode scale special : Nat) (w : Word) : Nat × Nat :=
  match fmtOf fmt with
  | none =>
    let q := clampInt fmt w.toInt
    (intBits (elemBits fmt) q, if q = w.toInt then 0 else fNv)
  | some f =>
    let x := decF w
    let sg := if isBlock fmt then decScale fmt scale else .pow2 0
    if sg.isNan || sg.isZero then (0, fNv)
    else
      let v := x.div sg
      if hasSpecial fmt && special != 0 && !(e4m3.dec special).isNan then
        let vs := specialSet special
        match v with
        | .nan => (0, fNv)
        | .inf n => ((roundInSet vs 1 (.num n 1 20)).1, fOf + fNx)
        | .num _ _ _ => roundInSet vs mode v
      else
        let r := f.round mode v
        let big := !v.isInf && bit r.2 6
        (if big then f.pattern v.neg f.maxCode else r.1, r.2 &&& (fNv + fOf + fNx))

/-- The words of a packed stream of element codes (R182). -/
def packWords (fmt : Nat) (codes : List Nat) : Nat :=
  codes.foldr (fun c acc => c + acc * 2 ^ elemBits fmt) 0

/-- Registers vD, vD+1, … written in every executing lane from the words of a number. -/
def State.putWords (s : State) (u : Bool) (d n : Nat) (f : Nat → Nat) : State :=
  (List.range n).foldl (fun t k => t.putV u (d + k) fun l => BitVec.ofNat 32 (f l / 2 ^ (32 * k))) s

/-- Whether fmt names a format that the packing words take, with its registers within the allotment (R252, R253). -/
def State.packOk (s : State) (fmt a b : Nat) (x : Bool) : Bool :=
  2 ≤ fmt && fmt < 20 && a + (packShape fmt).1 ≤ s.issue.src.v.length && s.bOk b x

/-- `cvtpk` (R252 to R255). -/
def execCvtpk (_c u : Bool) (f : BitVec 5) (m : BitVec 2) (a b : BitVec 7) (x : Bool) (s : State) : Result :=
  let fmt := f.toNat
  let one := fun l j =>
    packElem fmt m.toNat ((s.B b.toNat x l).toNat % 256) ((s.B b.toNat x l).toNat / 256 % 256) (s.A (a.toNat + j) l)
  let js := List.range (packShape fmt).1
  s.checked (s.packOk fmt a.toNat b.toNat x)
    ((s.putWords u a.toNat (packShape fmt).2 fun l => packWords fmt (js.map fun j => (one l j).1)).setFlags
      (flagsOf (s.doers u) fun l => flagsOf js fun j => (one l j).2))

/-- One element expanded (R256): the register value and its flags. -/
def unpackElem (fmt scale special e : Nat) : Word × Nat :=
  if isIntFmt fmt then (BitVec.ofInt 32 (intOf (elemBits fmt) (fmt == 9 || fmt == 11) e), 0)
  else
    let r := f32.round 0 (blockVal fmt e scale special)
    (BitVec.ofNat 32 r.1, r.2 &&& (fOf + fNx))

/-- `cvtupk` (R252 to R254, R256). -/
def execCvtupk (_c u : Bool) (f : BitVec 5) (a b : BitVec 7) (x : Bool) (s : State) : Result :=
  let fmt := f.toNat
  let ws := fun l => (List.range (packShape fmt).2).map fun k => s.A (a.toNat + k) l
  let one := fun l j => unpackElem fmt ((s.B b.toNat x l).toNat % 256) ((s.B b.toNat x l).toNat / 256 % 256)
    (packed (ws l) (elemBits fmt) j)
  let js := List.range (packShape fmt).1
  s.checked (s.packOk fmt a.toNat b.toNat x)
    ((js.foldl (fun t j => t.putV u (a.toNat + j) fun l => (one l j).1) s).setFlags
      (flagsOf (s.doers u) fun l => flagsOf js fun j => (one l j).2))

/-! ## Moving values between lanes (R257, R258); the U bit changes nothing (R37) -/

/-- `shfl` (R257). -/
def execShfl (_c _u : Bool) (d a b : BitVec 7) (x : Bool) (s : State) : Result :=
  s.checked (s.vOk d.toNat && s.vOk a.toNat && s.bOk b.toNat x)
    (s.putV false d.toNat fun l => s.A a.toNat ((s.B b.toNat x l).toNat % 32))

/-- `bcast` (R258). -/
def execBcast (_c _u : Bool) (d a : BitVec 7) (p : BitVec 3) (s : State) : Result :=
  let m := s.ballot p.toNat
  s.checked (s.vOk d.toNat && s.vOk a.toNat)
    (if m = 0 then s else s.putV false d.toNat fun _ => s.A a.toNat (lowest m))

/-! ## Reductions and scans (R259, R260) -/

/-- The identity of an operation. -/
def reduceIdentity (op : Nat) : Word :=
  match op with
  | 1 => 0x7FFFFFFF
  | 2 => 0x80000000
  | 3 => 0xFFFFFFFF
  | 5 => 0xFFFFFFFF
  | 9 => 0x7F800000
  | 10 => 0xFF800000
  | _ => 0

/-- One step of an operation, with its flags. -/
def reduceStep (op rm : Nat) (acc v : Word) : Word × Nat :=
  match op with
  | 0 => (acc + v, 0)
  | 1 => (if v.slt acc then v else acc, 0)
  | 2 => (if acc.slt v then v else acc, 0)
  | 3 => (if v.ult acc then v else acc, 0)
  | 4 => (if acc.ult v then v else acc, 0)
  | 5 => (acc &&& v, 0)
  | 6 => (acc ||| v, 0)
  | 7 => (acc ^^^ v, 0)
  | 8 => round32 rm ((decF acc).add (decF v)) [decF acc, decF v]
  | 9 => (BitVec.ofNat 32 (f32.minMax false acc.toNat v.toNat), 0)
  | _ => (BitVec.ofNat 32 (f32.minMax true acc.toNat v.toNat), 0)

/-- The lanes' values combined in order: for each lane the value before and after its step, and all flags. -/
def reduceAll (op rm : Nat) (v : Nat → Word) : List Nat → Word → List (Nat × Word × Word) × Word × Nat
  | [], acc => ([], acc, 0)
  | l :: ls, acc =>
    let r := reduceStep op rm acc (v l)
    let t := reduceAll op rm v ls r.1
    ((l, acc, r.1) :: t.1, t.2.1, r.2 ||| t.2.2)

/-- The combination over the executing lanes. -/
def State.reduce (s : State) (op a : Nat) : List (Nat × Word × Word) × Word × Nat :=
  reduceAll op s.rm (s.A a) (lanesOf s.issue.exec) (reduceIdentity op)

/-- `lred` (R260). -/
def execLred (_c _u : Bool) (d a : BitVec 7) (o : BitVec 4) (s : State) : Result :=
  let r := s.reduce o.toNat a.toNat
  s.checked (o.toNat < 11 && s.vOk d.toNat && s.vOk a.toNat)
    ((s.putV false d.toNat fun _ => r.2.1).setFlags r.2.2)

/-- `lscan` (R260). -/
def execLscan (_c _u : Bool) (d a : BitVec 7) (o : BitVec 4) (e : Bool) (s : State) : Result :=
  let r := s.reduce o.toNat a.toNat
  s.checked (o.toNat < 11 && s.vOk d.toNat && s.vOk a.toNat)
    ((s.putV false d.toNat fun l => match r.1.find? (·.1 == l) with
      | some x => if e then x.2.1 else x.2.2
      | none => 0).setFlags r.2.2)

/-! ## The cell key (R261) -/

/-- A coordinate's cell and whether it was clipped. -/
def cellOf (c h : Val) : Nat × Bool :=
  match c.mul h with
  | .nan => (0, true)
  | .inf n => (if n then 0 else 1023, true)
  | .num n m e =>
    match (Val.num n m e).toInt 2 with
    | none => (0, true)
    | some (i, _) => if i < 0 then (0, true) else if 1023 < i then (1023, true) else (i.toNat, false)

/-- The key of a particle. -/
def cellKey (x y z h : Word) : Word :=
  let cx := cellOf (decF x) (decF h)
  let cy := cellOf (decF y) (decF h)
  let cz := cellOf (decF z) (decF h)
  maskOf fun i =>
    if i = 31 then cx.2 || cy.2 || cz.2
    else if i = 30 then false
    else bit (match i % 3 with | 0 => cx.1 | 1 => cy.1 | _ => cz.1) (i / 3)

/-- `cellkey` (R261). -/
def execCellkey (_c u : Bool) (d a b : BitVec 7) (x : Bool) (s : State) : Result :=
  s.checked (s.vOk d.toNat && s.vOk (a.toNat + 2) && s.bOk b.toNat x)
    (s.putV u d.toNat fun l =>
      cellKey (s.A a.toNat l) (s.A (a.toNat + 1) l) (s.A (a.toNat + 2) l) (s.B b.toNat x l))

end Sys2Proof.Machine
end

