-- ==== Sys2Proof/Machine/IntAlu.lean ====
section
/-! DEFINITION. Integer and logic instructions (R216 to R226, R319). -/

namespace Sys2Proof.Machine

/-! ## Values (R220) -/

/-- Bits 63:32 of the product, unsigned or signed. -/
def mulHigh (g : Bool) (a b : Word) : Word :=
  if g then ((a.signExtend 64 * b.signExtend 64) >>> 32).setWidth 32
  else ((a.setWidth 64 * b.setWidth 64) >>> 32).setWidth 32

/-- |sext(A)| modulo 2^32. -/
def absWord (a : Word) : Word := if a.msb then -a else a

/-- The smaller of two words, unsigned or signed. -/
def minWord (g : Bool) (a b : Word) : Word := if (if g then a.slt b else a.ult b) then a else b

/-- The larger of two words, unsigned or signed. -/
def maxWord (g : Bool) (a b : Word) : Word := if (if g then b.slt a else b.ult a) then a else b

/-- A shift to the left by a whole word's amount. -/
def shiftLeft (a b : Word) : Word := if b.toNat < 32 then a <<< b.toNat else 0

/-- A shift to the right, unsigned or signed. -/
def shiftRight (g : Bool) (a b : Word) : Word :=
  if g then a.sshiftRight (min b.toNat 31) else if b.toNat < 32 then a >>> b.toNat else 0

/-- A rotation to the left by B mod 32. -/
def rotate (a b : Word) : Word := a.rotateLeft (b.toNat % 32)

/-- Leading zero bits, 0 to 32. -/
def leadingZeros (a : Word) : Word := BitVec.ofNat 32 (if a = 0 then 32 else 31 - a.toNat.log2)

/-- One bits. -/
def onesCount (a : Word) : Word :=
  BitVec.ofNat 32 ((List.range 32).foldl (fun n i => if a.getLsbD i then n + 1 else n) 0)

/-- Bits in reverse order. -/
def reverseBits (a : Word) : Word := maskOf fun i => a.getLsbD (31 - i)

/-- Position and width of the field that B names (R220, the bit-field rule). -/
def fieldOf (b : Word) : Nat × Nat :=
  let pos := b.toNat % 32
  (pos, min (min (bits b.toNat 13 8) 32) (32 - pos))

/-- `bfx`. -/
def bitExtract (g : Bool) (a b : Word) : Word :=
  let (pos, w) := fieldOf b
  let f := a.toNat / 2 ^ pos % 2 ^ w
  if g && w != 0 && bit f (w - 1) then BitVec.ofNat 32 (f + 2 ^ 32 - 2 ^ w) else BitVec.ofNat 32 f

/-- `bfi`. -/
def bitInsert (old a b : Word) : Word :=
  let (pos, w) := fieldOf b
  let m := BitVec.ofNat 32 ((2 ^ w - 1) * 2 ^ pos)
  (old &&& ~~~m) ||| ((a <<< pos) &&& m)

/-! ## Meanings, in the order of the table -/

/-- `iadd` (R220). -/
def execIadd (_c u : Bool) (d a b : BitVec 7) (x : Bool) (s : State) : Result :=
  s.alu u d.toNat a.toNat b.toNat x fun A B => A + B

/-- `isub` (R220). -/
def execIsub (_c u : Bool) (d a b : BitVec 7) (x : Bool) (s : State) : Result :=
  s.alu u d.toNat a.toNat b.toNat x fun A B => A - B

/-- `imul` (R220). -/
def execImul (_c u : Bool) (d a b : BitVec 7) (x : Bool) (s : State) : Result :=
  s.alu u d.toNat a.toNat b.toNat x fun A B => A * B

/-- `imulh` (R217, R220). -/
def execImulh (_c u g : Bool) (d : BitVec 6) (a b : BitVec 7) (x : Bool) (s : State) : Result :=
  s.alu u d.toNat a.toNat b.toNat x (mulHigh g)

/-- `imad` (R220). -/
def execImad (_c u : Bool) (d a b : BitVec 7) (x : Bool) (s : State) : Result :=
  s.alu3 u d.toNat a.toNat b.toNat x fun old A B => A * B + old

/-- `iabs` (R220). -/
def execIabs (_c u : Bool) (d a : BitVec 7) (s : State) : Result := s.alu1 u d.toNat a.toNat absWord

/-- `imin` (R217, R220). -/
def execImin (_c u g : Bool) (d : BitVec 6) (a b : BitVec 7) (x : Bool) (s : State) : Result :=
  s.alu u d.toNat a.toNat b.toNat x (minWord g)

/-- `imax` (R217, R220). -/
def execImax (_c u g : Bool) (d : BitVec 6) (a b : BitVec 7) (x : Bool) (s : State) : Result :=
  s.alu u d.toNat a.toNat b.toNat x (maxWord g)

/-- `ishl` (R220). -/
def execIshl (_c u : Bool) (d a b : BitVec 7) (x : Bool) (s : State) : Result :=
  s.alu u d.toNat a.toNat b.toNat x shiftLeft

/-- `ishr` (R217, R220). -/
def execIshr (_c u g : Bool) (d : BitVec 6) (a b : BitVec 7) (x : Bool) (s : State) : Result :=
  s.alu u d.toNat a.toNat b.toNat x (shiftRight g)

/-- `irot` (R220). -/
def execIrot (_c u : Bool) (d a b : BitVec 7) (x : Bool) (s : State) : Result :=
  s.alu u d.toNat a.toNat b.toNat x rotate

/-- `and` (R220). -/
def execAnd (_c u : Bool) (d a b : BitVec 7) (x : Bool) (s : State) : Result :=
  s.alu u d.toNat a.toNat b.toNat x fun A B => A &&& B

/-- `or` (R220). -/
def execOr (_c u : Bool) (d a b : BitVec 7) (x : Bool) (s : State) : Result :=
  s.alu u d.toNat a.toNat b.toNat x fun A B => A ||| B

/-- `xor` (R220). -/
def execXor (_c u : Bool) (d a b : BitVec 7) (x : Bool) (s : State) : Result :=
  s.alu u d.toNat a.toNat b.toNat x fun A B => A ^^^ B

/-- `andn` (R220). -/
def execAndn (_c u : Bool) (d a b : BitVec 7) (x : Bool) (s : State) : Result :=
  s.alu u d.toNat a.toNat b.toNat x fun A B => A &&& ~~~B

/-- `clz` (R220). -/
def execClz (_c u : Bool) (d a : BitVec 7) (s : State) : Result := s.alu1 u d.toNat a.toNat leadingZeros

/-- `popc` (R220). -/
def execPopc (_c u : Bool) (d a : BitVec 7) (s : State) : Result := s.alu1 u d.toNat a.toNat onesCount

/-- `brev` (R220). -/
def execBrev (_c u : Bool) (d a : BitVec 7) (s : State) : Result := s.alu1 u d.toNat a.toNat reverseBits

/-- `bfx` (R217, R220). -/
def execBfx (_c u g : Bool) (d : BitVec 6) (a b : BitVec 7) (x : Bool) (s : State) : Result :=
  s.alu u d.toNat a.toNat b.toNat x (bitExtract g)

/-- `bfi` (R220). -/
def execBfi (_c u : Bool) (d a b : BitVec 7) (x : Bool) (s : State) : Result :=
  s.alu3 u d.toNat a.toNat b.toNat x bitInsert

/-- The conditions of `icmp` and `cmp64` (R223, R226). -/
def condition (k : Nat) (a b : BitVec w) : Bool :=
  match k with
  | 0 => a == b
  | 1 => a != b
  | 2 => a.slt b
  | 3 => a.sle b
  | 4 => b.slt a
  | 5 => b.sle a
  | 6 => a.ult b
  | 7 => a.ule b
  | 8 => b.ult a
  | _ => b.ule a

/-- `icmp` (R223). -/
def execIcmp (_c u : Bool) (k : BitVec 4) (p : BitVec 3) (a b : BitVec 7) (x : Bool) (s : State) : Result :=
  s.cmp u p.toNat a.toNat b.toNat x (k.toNat < 10) (condition k.toNat)

/-- `plog` (R224). -/
def execPlog (_c u : Bool) (lut : BitVec 4) (d a b : BitVec 3) (s : State) : Result :=
  .next (s.putP u d.toNat fun l =>
    lut.getLsbD (2 * (s.issue.src.rp a.toNat l).toNat + (s.issue.src.rp b.toNat l).toNat))

/-- `mov.w32` (R221). -/
def execMovW32 (_c u : Bool) (d b : BitVec 7) (x : Bool) (s : State) : Result :=
  s.checked (s.vOk d.toNat && s.bOk b.toNat x) (s.putV u d.toNat fun l => s.B b.toNat x l)

/-- `mov.w64` (R221). -/
def execMovW64 (_c u : Bool) (d b : BitVec 7) (x : Bool) (s : State) : Result :=
  s.checked (s.v2Ok d.toNat && s.b2Ok b.toNat x) (s.putV2 u d.toNat fun l => s.B2 b.toNat x l)

/-- `mov.s` (R221): with x = 0, b names one vector register of the lowest executing lane. -/
def execMovS (_c _u : Bool) (d b : BitVec 7) (x : Bool) (s : State) : Result :=
  let l := lowest s.issue.exec
  s.checked (d.toNat < 64 && if x then s.b2Ok b.toNat x else s.vOk b.toNat)
    (s.putS d.toNat (if x then s.B2 b.toNat x l else (s.A b.toNat l).setWidth 64))

/-- `movi` (R222). -/
def execMovi (_c u : Bool) (d : BitVec 7) (imm : BitVec 15) (s : State) : Result :=
  s.checked (s.vOk d.toNat) (s.putV u d.toNat fun _ => imm.signExtend 32)

/-- `movhi` (R222). -/
def execMovhi (_c u : Bool) (d : BitVec 7) (imm : BitVec 15) (s : State) : Result :=
  s.checked (s.vOk d.toNat) (s.putV u d.toNat fun _ => imm ++ (0 : BitVec 17))

/-! ## 64-bit arithmetic (R225, R226) -/

/-- A 64-bit operation on vector pairs of every executing lane, or on scalars once. -/
def State.wide (s : State) (u : Bool) (d : Nat) (k : Bool) (a b : Nat) (x : Bool) (f : DWord → DWord → DWord) : Result :=
  if k then
    s.checked (s.b2Ok b x) (s.putS d (f (s.issue.src.rs a) (s.B2 b x (lowest s.issue.exec))))
  else
    s.checked (s.v2Ok d && s.v2Ok a && s.b2Ok b x) (s.putV2 u d fun l => f (s.A2 a l) (s.B2 b x l))

/-- `add64` (R226). -/
def execAdd64 (_c u : Bool) (d : BitVec 6) (k : Bool) (a : BitVec 6) (b : BitVec 7) (x : Bool) (s : State) : Result :=
  s.wide u d.toNat k a.toNat b.toNat x fun A B => A + B

/-- `sub64` (R226). -/
def execSub64 (_c u : Bool) (d : BitVec 6) (k : Bool) (a : BitVec 6) (b : BitVec 7) (x : Bool) (s : State) : Result :=
  s.wide u d.toNat k a.toNat b.toNat x fun A B => A - B

/-- `mul64` (R226). -/
def execMul64 (_c u : Bool) (d : BitVec 6) (k : Bool) (a : BitVec 6) (b : BitVec 7) (x : Bool) (s : State) : Result :=
  s.wide u d.toNat k a.toNat b.toNat x fun A B => A * B

/-- `shl64` (R226). -/
def execShl64 (_c u : Bool) (d : BitVec 6) (k : Bool) (a : BitVec 6) (b : BitVec 7) (x : Bool) (s : State) : Result :=
  s.wide u d.toNat k a.toNat b.toNat x fun A B => if B.toNat < 64 then A <<< B.toNat else 0

/-- `shr64` (R226). -/
def execShr64 (_c u g : Bool) (d : BitVec 6) (k : Bool) (a : BitVec 6) (b : BitVec 7) (x : Bool) (s : State) : Result :=
  s.wide u d.toNat k a.toNat b.toNat x fun A B =>
    if g then A.sshiftRight (min B.toNat 63) else if B.toNat < 64 then A >>> B.toNat else 0

/-- `cmp64` (R225, R226): in the scalar kind the one result goes to the predicate of every executing lane. -/
def execCmp64 (_c u : Bool) (n : BitVec 4) (p : BitVec 3) (k : Bool) (a : BitVec 6) (b : BitVec 7) (x : Bool)
    (s : State) : Result :=
  if k then
    s.checked (n.toNat < 10 && s.b2Ok b.toNat x)
      (s.putP true p.toNat fun l => condition n.toNat (s.issue.src.rs a.toNat) (s.B2 b.toNat x l))
  else
    s.checked (n.toNat < 10 && s.v2Ok a.toNat && s.b2Ok b.toNat x)
      (s.putP u p.toNat fun l => condition n.toNat (s.A2 a.toNat l) (s.B2 b.toNat x l))

end Sys2Proof.Machine
end

