-- ==== Sys2Proof/Machine/Packet.lean ====
section
/-! DEFINITION. The packet-control words (R204 to R211). -/

namespace Sys2Proof.Machine

/-- `clause` (R204, R205): waits until every selected flag reads zero, then gives the group its set flags. -/
def execClause (w : BitVec 12) (a b : BitVec 4) (va vb : Bool) (s : State) : Result :=
  let waits := (List.range 12).any fun i => w.getLsbD i && s.grp.flags.getD i 0 != 0
  if (va && 12 ≤ a.toNat) || (vb && 12 ≤ b.toNat) then .next (s.raise .illegalOperand)
  else if waits then .next (s.wait .clauseWait)
  else .next (s.onGrp fun g => { g with
    seta := if va then some a.toNat else none
    setb := if vb then some b.toNat else none })

/-- `guard` (R209): it takes no pipe and changes nothing but `vpc`; the words it covers read its predicate when they
issue. A count of 0 or 3 is illegal; what depends on the packet is checked when the packet is decoded. -/
def execGuard (_p : BitVec 3) (_sense : Bool) (n : BitVec 2) (s : State) : Result :=
  s.checked (n.toNat == 1 || n.toNat == 2) s

/-- `nop` (R210): changes nothing but `vpc`. -/
def execNop (_c : Bool) (s : State) : Result := .next s

/-- `brk` (R211): raises debug-break for the executing lanes, with its code. -/
def execBrk (k : BitVec 22) (s : State) : Result :=
  .next (if s.issue.exec = 0 then s else s.takeFault .debugBreak s.issue.exec s.issue.exec 0 k [] [])

end Sys2Proof.Machine
end

