-- ==== Sys2Proof/Machine/Service.lean ====
section
/-! DEFINITION. Memory controllers (R434 to R440), scrubbing and mismatches (R462 to R464), stall samples (R169, R469), power and
heat (R471 to R473), the debug interface (R168), and bring-up and reset (R397 to R400, R442, R456 to R460). -/

namespace Sys2Proof.Machine

/-! ## Base dies (R434 to R436) -/

/-- The bytes of a request by length code (R434). -/
def hbmBytes (r : HbmReq) : Nat := 16 * 2 ^ r.len.toNat

/-- A base die's reply. -/
def State.hbmReply (s : State) (st : Nat) (r : HbmReq) (status : Nat) (bs : List Byte) : State :=
  { s with out := s.out ++ [.hbmReply st r.tag status bs] }

/-- A stack's controller changed. -/
def State.modStack (s : State) (st : Nat) (f : Stack → Stack) : State := { s with hbm := s.hbm.modify st f }

/-- A channel leaves self-refresh for a request (R440). Channel c carries pseudo-channels 2c and 2c + 1. -/
def Stack.wakeUp (t : Stack) (chan : Nat) : Stack := { t with asleep := t.asleep.filter (· != chan) }

/-- Whether a request is one that a compute die sends: an op of 0 to 3, the offset aligned to the length, the pseudo-channel that
of the offset (R434, R423). -/
def isSent (r : HbmReq) : Bool :=
  r.op.toNat < 4 && r.offset.toNat % hbmBytes r == 0 && r.pc.toNat == pseudoChannel r.offset.toNat

/-- Bytes of a reply that the spec gives no value: of a read that has met uncorrectable data, and of a grotto request. -/
def State.freeBytes (s : State) (n : Nat) : List Byte := (List.range n).map fun i => Config.freeByte (192 * s.choice + i)

/-- HBM_REQUEST (R434 to R436): a read, a write, or a masked write as a read-modify-write; a grotto request is answered, with
bytes that are free values (DESIGN CHOICE, assumption 31). What is never sent does nothing. -/
def execHbmRequest (st : Nat) (r : HbmReq) (s : State) : Result :=
  let n := hbmBytes r
  let pa := s.localPa (st * 0x1000000000 + r.offset.toNat)
  let data := (List.range n).map fun i => r.data.getD i 0
  let mask := (List.range n).foldl (fun m i => if r.mask.getD i false then m + 2 ^ i else m) 0
  let free := fun (t : State) status => { t.hbmReply st r status (t.freeBytes n) with choice := t.choice + 1 }
  let wrote := fun (x : State × Bool) =>
    if x.2 then (x.1.recordErrors 6 [(.phys pa, n)]).hbmReply st r 2 [] else x.1.hbmReply st r 0 []
  .next (if !isSent r then s
    else
      let s := s.modStack st (·.wakeUp (r.pc.toNat / 2))
      match r.op.toNat with
      | 0 =>
        let t := (s.recordErrors 2 [(.phys pa, n)]).recordWeak [(.phys pa, n)]
        if s.badAt pa n then free t 2
        else t.hbmReply st r (if s.weak.any fun w => overlap pa n w 16 then 1 else 0) (s.readPa pa n)
      | 1 => wrote (s.storePa pa data)
      | 2 => wrote (s.storeMasked pa mask data)
      | _ => free s 0)

/-! ## Refresh (R439, R440) -/

/-- The refreshes that a bank owes. -/
def Stack.owes (t : Stack) (pc bank : Nat) : Nat := ((t.owed.find? fun o => o.1 == pc && o.2.1 == bank).map (·.2.2)).getD 0

/-- The refreshes that a bank owes, set. -/
def Stack.setOwed (t : Stack) (pc bank n : Nat) : Stack :=
  let rest := t.owed.filter fun o => !(o.1 == pc && o.2.1 == bank)
  { t with owed := if n = 0 then rest else rest ++ [(pc, bank, n)] }

/-- REFRESH_DUE (R439): a refresh is issued, or postponed while the bank owes fewer than 8. -/
def execRefreshDue (st pc bank : Nat) (postpone : Bool) (s : State) : Result :=
  .next (s.modStack st fun t =>
    if postpone ∧ t.owes pc bank < 8 then t.setOwed pc bank (t.owes pc bank + 1) else { t with done := t.done + 1 })

/-- ACTIVATION_ALERT (R439): a bank that owes 8 refreshes has them issued, then the mitigation; a mitigation past the alert
window is counted and recorded. -/
def execActivationAlert (st pc bank : Nat) (late : Bool) (s : State) : Result :=
  let t := s.modStack st fun t =>
    if t.owes pc bank = 8 then { t.setOwed pc bank 0 with done := t.done + 9 } else { t with done := t.done + 1 }
  .next (if !late then t
    else State.faultAddress { t with mc := { t.mc with alertx := t.mc.alertx.modify st fun x => keep (x + 1) 31 0 } } 5 0
      (t.localPa (st * 0x1000000000)))

/-- SELF_REFRESH_ENTRY (R440): a request in the same cycle wins; SRIDLE 0 disables the timer. -/
def execSelfRefreshEntry (st chan : Nat) (request : Bool) (s : State) : Result :=
  .next (if request ∨ s.mc.sridle.toNat % 2 ^ 20 = 0 then s
    else s.modStack st fun t => { t.wakeUp chan with asleep := (t.wakeUp chan).asleep ++ [chan] })

/-! ## Scrubbing (R462) -/

/-- The pa field of a record of a core's store: die, core, structure index (R441). -/
def structurePa (k index : Nat) : Nat := k / 128 * 2 ^ 52 + k % 128 * 2 ^ 45 + index % 2 ^ 45

/-- One error of a scrub pass: kind 3 corrected or 4 uncorrectable. Uncorrectable data stay so where they lie; in a weight
store they set the stale bit of their residency. -/
def State.scrubError (s : State) (e : ScrubError) : State :=
  let kind := if e.double then 4 else 3
  if e.source = 4 then
    let t := s.faultAddress kind 4 (structurePa e.core (e.pa.toNat % 2 ^ 45))
    if e.double then (t.modCore e.core (·.modEntry e.entry fun x => { x with stale := true })).abandon e.core else t
  else if e.source = 5 then s.faultAddress kind 5 (structurePa e.core (e.pa.toNat % 2 ^ 45))
  else
    let t := s.faultAddress kind e.source.toNat (e.pa.toNat / 16 * 16)
    let w := e.pa.toNat / 32 * 32
    if e.double ∧ !t.bad.contains w then { t with bad := t.bad ++ [w] } else t

/-- SCRUB_PASS (R462). -/
def execScrubPass (errs : List ScrubError) (s : State) : Result := .next (errs.foldl State.scrubError s)

/-! ## Mismatches (R463, R464) -/

/-- A core stops: its groups stop as under command 4, their tasks end in error, and it takes no further task (R464). -/
def State.stopCore (s : State) (k : Nat) : State :=
  let t := s.killGroups k ((s.core k).named 0xFFFFFFFF)
  { t with rel := { t.rel with mcoff := t.rel.mcoff.modify (k / 64) (· ||| (1#64 <<< (k % 64))) } }

/-- ISSUE_CONTROL_MISMATCH (R463, R464). -/
def execIssueControlMismatch (k j : Nat) (s : State) : Result :=
  .next (((s.faultAddress 2 5 (structurePa k (0x300 + j))).stopCore k).forwardAll)

/-! ## Stall samples (R169, R469) -/

/-- What a stall sample reports of a slot: the reason, the waiting PC, the blamed PC (R169). A resident group's is what the
scoreboard has noted on the clk. -/
def Core.sample (c : Core) (j : Nat) : Nat × Word × Word :=
  match c.group j with
  | none =>
    match (c.saved.flatMap (·.groups)).find? (·.1 == j) with
    | some g => (11, g.2.firstPc, g.2.firstPc)
    | none => (13, 0xFFFFFFFF, 0xFFFFFFFF)
  | some g =>
    if g.phase = .switchedOut then (11, g.firstPc, g.firstPc)
    else if g.why.1 = 0 then g.why
    else if g.phase = .runAhead ∨ g.phase = .draining then (2, g.firstPc, g.firstPc)
    else g.why

/-- The 32 bytes of a sample record (R469). -/
def State.sampleRecord (s : State) (k j : Nat) : List Byte :=
  let c := s.core k
  let r := c.sample j
  let o := match (c.group j).bind fun g => c.team g.team with
    | some t => t.origin
    | none => Origin.zero
  leBytes 4 r.2.1.toNat ++ leBytes 4 r.2.2.toNat ++
    leBytes 8 (o.tenant.toNat + j * 2 ^ 16 + k % 128 * 2 ^ 21 + o.lseq.toNat * 2 ^ 32) ++ leBytes 8 o.cpc.toNat ++
    leBytes 8 (r.1 * 2 ^ 56 + s.tick % 2 ^ 56)

/-- One record enters a die's ring, or is dropped. -/
def State.putSample (s : State) (d : Nat) (bs : List Byte) : State :=
  let r := s.rel.samples.getD d []
  let q := fun i => r.getD i 0
  let n := (q 1).toNat % 32
  let set := fun (s : State) i v => { s with rel := { s.rel with samples := s.rel.samples.modify d (·.set i v) } }
  if n < 8 ∨ 24 < n ∨ 2 ^ n ≤ (q 2 - q 3).toNat then set s 4 (q 4 + 1)
  else set (s.deviceWrite (s.localPa (bits (q 0).toNat 43 5 * 32 + 32 * ((q 2).toNat % 2 ^ n))) bs) 2 (q 2 + 1)

/-- STALL_SAMPLE (R469): every core of the die samples one slot, and its slot number advances. -/
def execStallSample (d : Nat) (s : State) : Result :=
  .next (if !((s.rel.samples.getD d []).getD 1 0).getLsbD 8 then s
    else (List.range 128).foldl (fun s i =>
      let k := 128 * d + i
      (s.putSample d (s.sampleRecord k (s.core k).sampleSlot)).modCore k fun c =>
        { c with sampleSlot := (c.sampleSlot + 1) % 32 }) s)

/-! ## Power and heat (R471 to R473) -/

/-- PSCALE. -/
def Rel.pscale (r : Rel) : Nat := r.pstat.toNat % 512

/-- PSCALE after a window of P watts (R471). -/
def nextScale (p limit scale : Nat) : Nat :=
  if limit < p then max 32 (scale - 32) else if 20 * p < 19 * limit then min 256 (scale + 8) else scale

/-- POWER_WINDOW (R465, R471). -/
def execPowerWindow (watts : Nat) (s : State) : Result :=
  let r := s.rel
  let scale := nextScale watts r.plimit.toNat r.pscale
  .next { s with rel := { r with
    pstat := keep r.pstat 47 9 ||| BitVec.ofNat 64 (watts % 65536 * 2 ^ 48 + scale)
    pthrot := if scale < 256 then r.pthrot + 1 else r.pthrot } }

/-- DIE_OVER_105 (R473): the die's schedulers run at PSCALE 32. -/
def execDieOver105 (d : Nat) (s : State) : Result :=
  .next { s with rel := { s.rel with hot := s.rel.hot.set d true } }

/-- DIE_BELOW_100 (R473). -/
def execDieBelow100 (d : Nat) (s : State) : Result :=
  .next { s with rel := { s.rel with hot := s.rel.hot.set d false } }

/-- THERMAL_TRIP (R473): trip is set, every core and the Belvedere stop, and the package is held until reset. -/
def execThermalTrip (_d : Nat) (s : State) : Result :=
  let s := { s with rel := { s.rel with pstat := s.rel.pstat ||| 0x200, held := true } }
  let s := (List.range s.cores.length).foldl State.stopCore s
  .next { s with
    belv := { s.belv with dead := true, threads := s.belv.threads.map (·.halt 0xFE) }
    rel := { s.rel with mcstat := s.rel.mcstat ||| 1 } }

/-- The PSCALE that a die's schedulers run at (R472, R473). -/
def State.dieScale (s : State) (d : Nat) : Nat := if s.rel.hot.getD d false then 32 else s.rel.pscale

/-! ## The debug interface (R168) -/

/-- The groups that run ahead return to their checkpoints: their runs are over. -/
def Core.endRuns (c : Core) : Core := { c with runs := c.runs.map fun r => { r with ended := true } }

/-- DEBUG_HALT: issue stops on the core. -/
def execDebugHalt (k : Nat) (s : State) : Result := .next (s.modCore k fun c => { c.endRuns with halted := true })

/-- Whether an operation keeps a halted core from reporting quiescent: a load, a store, an atomic, an engine operation or a
matrix operation. -/
def FlightKind.busy (k : FlightKind) : Bool :=
  match k with
  | .arrive _ _ _ _ => false
  | .push _ _ _ _ => false
  | _ => true

/-- DEBUG_QUIESCENT: the groups that ran ahead are back at their checkpoints, no bundle has issued in part, and no operation is
outstanding. -/
def execDebugQuiescent (k : Nat) (s : State) : Result :=
  let c := s.core k
  let moving := c.flight.any (·.kind.busy) || c.runs != [] || (List.range c.groups.length).any (s.midBundle k)
  .next (if c.halted && !moving then s.modCore k fun c => { c with quiescent := true } else s)

/-- The answer of a debug read. -/
def State.debugData (s : State) (bs : List Byte) : State := { s with out := s.out ++ [.debugData bs] }

/-- A word of a tile written by the debug interface. -/
def Tile.poke (a : Tile) (row col : Nat) (v : Word) : Tile := { a with rows := a.rows.modify row (·.set col v) }

/-- A tag of a tile written by the debug interface, in the form of R419. -/
def Tile.pokeTag (a : Tile) (band col : Nat) (w : BitVec 16) : Tile :=
  { a with tags := a.tags.modify band (·.set col (if w.getLsbD 15 then some (w.setWidth 14) else none)) }

/-- Group state written by the debug interface at a place of the group's image (R168, R419): what the image holds is taken
from it, what it does not hold stays; where a lane's descriptor or watched address changes, its hidden state and place are looked
up anew. -/
def State.pokeGroup (s : State) (k j off : Nat) (bs : List Byte) : State :=
  match (s.core k).group j with
  | none => s
  | some g =>
    let team := ((s.core k).team g.team).getD Team.blank
    let old := g.image j team.origin.lseq false
    let b := (List.range old.length).map fun i => if off ≤ i && i < off + bs.length then bs.getD (i - off) 0 else old.getD i 0
    let h := { g.restore b with latch := g.latch }
    let h := { h with lanes := h.lanes.mapIdx fun l t => { t with win := (g.lane l).win } }
    let same := (List.range 32).all fun l =>
      (h.lane l).sd == (g.lane l).sd && (h.lane l).park.map (·.va) == (g.lane l).park.map (·.va)
    let r := if same then (s, h) else s.reload k j h
    r.1.modGroup k j fun _ => r.2

/-- A comparator set by Arbour through the debug interface (R170, R356); no slot of the core has set it. -/
def State.setWatch (s : State) (k n : Nat) (w : Comparator) : State :=
  s.modCore k fun c => { c with watch := c.watch.set n (if w.access = 0 then Comparator.reset else w) }

/-- DEBUG_ACCESS: a read or write of the scratchpad, a tile or group state of a quiescent core (R168), or a comparator that
Arbour sets (R170). -/
def execDebugAccess (k : Nat) (a : DebugAccess) (s : State) : Result :=
  let c := s.core k
  .next (match a with
    | .setWatch n access data tenant base len value mask =>
      s.setWatch k n { access := access, data := data, base := base, len := len, value := value, vmask := mask,
                       tenant := tenant, setter := 32, since := s.clk }
    | _ => if !c.quiescent then s else match a with
      | .setWatch _ _ _ _ _ _ _ _ => s
      | .readGroup j o n => s.debugData (((c.group j).elim [] fun (g : Group) =>
          g.image j ((c.team g.team).getD Team.blank).origin.lseq false).drop o |>.take n)
      | .writeGroup j o bs => s.pokeGroup k j o bs
      | .readSpad o n => s.debugData (c.spad.bytes o n)
      | .writeSpad o bs => s.modCore k fun c => { c with spad := c.spad.write o bs }
      | .readTile t r col => s.debugData (leBytes 4 ((((c.tiles.getD t Tile.reset).rows.getD r []).getD col 0)).toNat)
      | .writeTile t r col v => s.modCore k fun c => { c with tiles := c.tiles.modify t (·.poke r col v) }
      | .readTag t q col =>
        let tag := (((c.tiles.getD t Tile.reset).tags.getD q []).getD col none)
        s.debugData (leBytes 2 (tag.elim 0 fun f => 2 ^ 15 + f.toNat))
      | .writeTag t q col w => s.modCore k fun c => { c with tiles := c.tiles.modify t (·.pokeTag q col w) }
      | .readV j r l => s.debugData (leBytes 4 (((c.group j).map fun (g : Group) => g.rf.rv r l).getD 0).toNat)
      | .writeV j r l v => s.modGroup k j fun g => { g with rf := g.rf.setV r (BitVec.ofNat 32 (2 ^ l)) fun _ => v }
      | .readVpc j l => s.debugData (leBytes 4 (((c.group j).map fun (g : Group) => (g.lane l).vpc).getD 0).toNat)
      | .writeVpc j l v => s.modGroup k j (·.modLane l (·.goto v)))

/-- The waits at barriers that have completed while a core stood still are over (R168, R351). -/
def State.catchUp (s : State) (k : Nat) : State :=
  s.modCore k fun c => { c with groups := c.groups.map (Option.map fun g => match g.barWait with
    | some w => g.endWait w.scope.toNat w.num.toNat (s.barrier k w.scope.toNat w.num.toNat).completions s.nextId
    | none => g) }

/-- DEBUG_RELEASE: every group resumes at its issue address. -/
def execDebugRelease (k : Nat) (s : State) : Result :=
  .next ((s.modCore k fun c => { c with halted := false, quiescent := false }).catchUp k)

/-! ## Boot flash and fuses (R442, R457) -/

/-- The bad-page list as boot flash holds it: its header, its entries, zeros up to 64 KiB (R442). -/
def Boot.badPageRegion (b : Boot) : List Byte :=
  let es := b.badPages.take 4095
  let used := leBytes 4 0x4C474142 ++ leBytes 4 es.length ++ leBytes 8 0 ++
    es.flatMap fun e => leBytes 8 (e.1.toNat / 4096 * 4096 % 2 ^ 54) ++ leBytes 8 e.2.toNat
  used ++ leBytes (65536 - used.length) 0

/-- A page retired by Arbour: listed while the list has room (R442). -/
def Boot.retire (b : Boot) (page what : DWord) : Boot :=
  if b.badPages.length < 4095 then { b with badPages := b.badPages ++ [(keep page 53 12, what)] } else b

/-- The value of the security version counter: how many of its fuses are set (R457). -/
def Boot.version (b : Boot) : Nat := ((List.range 64).filter b.svn.getLsbD).length

/-- `n` more fuses of the counter set, the lowest that are clear. -/
def burn : Nat → DWord → DWord
  | 0, w => w
  | n + 1, w => burn n (w ||| (w + 1))

/-! ## Firmware images (R457 to R459) -/

/-- Whether the boot ROM accepts an image (R458). -/
def Boot.accepts (b : Boot) (img : List Byte) : Bool :=
  let q := fun o n => leNat ((img.drop o).take n)
  let slot := q 4 4 % 256
  let key := (img.drop 0x18).take 32
  let len := q 0x10 8
  q 0 4 == 0x46575954 && slot < 4 && !b.revoked.getD slot true && q 4 4 / 512 == 0 &&
    BitVec.ofNat 256 (leNat (sha256 key)) == b.keyHashes.getD slot 0 && b.version ≤ q 8 8 && len + 7856 == img.length &&
    Config.verifies key (img.take len) (img.drop len)

/-- An accepted image raises the fused counter to its version when its header asks for it (R458), as far as it has fuses. -/
def Boot.raise (b : Boot) (img : List Byte) : Boot :=
  let svn := leNat ((img.drop 8).take 8)
  if bit (leNat ((img.drop 4).take 4)) 8 then { b with svn := burn (min 64 svn - b.version) b.svn } else b

/-- An entry of the measurement log (R459). -/
def logEntry (kind index svn : Nat) (digest : List Byte) : List Byte :=
  leBytes 4 kind ++ leBytes 4 index ++ leBytes 8 svn ++ digest

/-! ## Capabilities (R399, R400) -/

/-- The payloads of the capability records (R400). -/
def State.capabilities (s : State) (t : BringUp) : List (Nat × List Byte) :=
  let code := "TYI-M24-1536-2304".toList.map fun c => BitVec.ofNat 8 c.toNat
  let mask := (List.range 64).foldl (fun m p => if (s.port p).up then m + 2 ^ p else m) 0
  [(1, (code ++ leBytes 24 0).take 24 ++ leBytes 4 0x100)] ++
    (if Config.tierPresent then [(2, leBytes 8 (s.localPa 0x40000000000) ++ leBytes 8 2304000000000 ++ leBytes 4 1)] else []) ++
    [(3, leBytes 4 s.node ++ leBytes 8 mask), (4, leBytes 4 t.rate.toNat ++ leBytes 4 t.width.toNat),
     (5, leBytes 4 t.nvme.toNat), (6, leBytes 4 32), (7, leBytes 4 4), (8, leBytes 4 1),
     (9, leBytes 8 s.host.logAt ++ leBytes 8 (48 * s.host.log.length))]

/-- The records laid out from a window offset on, each at a multiple of 8 (R399). -/
def layRecords : Nat → List (Nat × List Byte) → List Byte
  | _, [] => []
  | off, r :: rs =>
    let n := 16 + r.2.length
    let next := off + (n + 7) / 8 * 8
    padTo 8 (leBytes 4 (2 ^ 16 + r.1) ++ leBytes 4 n ++ leBytes 4 (if rs = [] then 0 else next) ++ leBytes 4 0 ++ r.2) ++
      layRecords next rs

/-- A certificate with its length in front (R460). -/
def certificate (what : Nat) (bs : List Byte) : List Byte :=
  let c := (Config.crypto what bs 0).take 0x3000
  leBytes 4 c.length ++ c

/-- An entry of bring-up appended to the measurement log, in memory too (R459). -/
def State.appendLog (s : State) (e : List Byte) : State :=
  let t := s.deviceWrite (s.host.logAt + 48 * s.host.log.length) e
  { t with host := { t.host with log := s.host.log ++ [e] } }

/-- The log of bring-up laid down where the firmware places it in the first gigabyte of HBM, a free value (DESIGN CHOICE,
assumption 38). -/
def State.placeLog (s : State) : State :=
  let at_ := s.localPa (leNat (s.freeBytes 4) % 2 ^ 30 / 64 * 64)
  let es := s.host.log
  es.foldl State.appendLog { s with choice := s.choice + 1, host := { s.host with logAt := at_, log := [] } }

/-- The frames that the boot firmware locks, and the lock (R431): where Arbour's text and the tables lie is its choice, free
values (DESIGN CHOICE, assumption 85). -/
def State.lockFrames (s : State) : State :=
  let word := fun i => keep (BitVec.ofNat 64 (leNat (((s.freeBytes 128).drop (8 * i)).take 8))) 43 12
  { s with choice := s.choice + 1, mc := { s.mc with klock := 1, krange := (List.range 8).map fun i => (word (2 * i), word (2 * i + 1)) } }

/-- Step 7 of R397: the capability list and the certificates stand in the device information region. -/
def State.publishInfo (s : State) (t : BringUp) : State :=
  let first := (s.host.log.headD []).drop 16
  let key := leBytes 32 s.boot.secret.toNat
  let info := Memory.write [] 0x100 (layRecords 0x100 (s.capabilities t))
  { s with
    host := { s.host with
      capHead := 0x100
      info := info.write 0x8000 (certificate 3 key ++ certificate 4 (key ++ first)) } }

/-! ## Reset and bring-up (R397, R398) -/

/-- Whether a memory cell lies outside the package: another node's or the host's memory, which a reset leaves alone. -/
def State.outside (s : State) (c : Host.Cell) : Bool := paNode c.1 != s.boot.node.toNat || region (paLocal c.1) == .host

/-- The package after a reset: every register at its reset value; flash, fuses and what lies outside it stay. -/
def State.rebooted (s : State) : State :=
  { State.reset with
    mem := s.mem.filter s.outside
    boot := s.boot
    out := s.out
    agenda := s.agenda
    choice := s.choice
    nextId := s.nextId }

/-- PACKAGE_RESET (R397): reset values; bring-up starts again with the POWER_GOOD that follows. -/
def execPackageReset (s : State) : Result := .next s.rebooted

/-- The boot status register (R398). -/
def bootStatus (stage error detail : Nat) (slotB ready : Bool) : DWord :=
  BitVec.ofNat 64 (stage * 2 ^ 24 + error * 2 ^ 16 + detail % 256 * 2 ^ 8 + (if slotB then 2 else 0) + if ready then 1 else 0)

/-- The boot status set. -/
def State.setBoot (s : State) (v : DWord) : State := { s with host := { s.host with bootStatus := v } }

/-- Bring-up stops: its error is recorded, and the cores, the Belvedere and the fabric stay in reset (R397). -/
def State.stopBoot (s : State) (v : DWord) : State := { s.setBoot v with rel := { s.rel with held := true } }

/-- Steps 5 to 7: the host link, the Drukofold ports in ascending order, the lock, the log, the capability list. -/
def State.bringLinks (s : State) (t : BringUp) (slotB : Bool) : State :=
  let s := { s with host := { s.host with up := t.rate != 0 && t.width != 0 },
                    fabric := { s.fabric with fnode := s.boot.node } }
  let s := t.ports.zipIdx.foldl (fun s x => s.modPort x.2 (·.train s.node x.1)) s
  (s.lockFrames.placeLog.publishInfo t).setBoot (bootStatus 7 0 0 slotB true)

/-- Steps 2 to 7 of R397. -/
def State.bringUp (s : State) (t : BringUp) : State :=
  let useB := !s.boot.accepts s.boot.slotA
  let img := if useB then s.boot.slotB else s.boot.slotA
  if !s.boot.accepts img then s.stopBoot (bootStatus 1 1 0 false false)
  else
    let q := fun o n => leNat ((img.drop o).take n)
    let dies := (List.range 24).map fun i => logEntry 2 i 0 (secret 5 (leBytes 4 i ++ img) 32)
    let s := { s with
      boot := s.boot.raise img
      host := { s.host with log := logEntry 1 0 (q 8 8) (sha256 img) :: dies } }
    match t.hbmFail, t.tierFail with
    | some n, _ => s.stopBoot (bootStatus 2 2 n useB false)
    | none, some n => if Config.tierPresent then s.stopBoot (bootStatus 3 3 n useB false) else s.bringLinks t useB
    | none, none => s.bringLinks t useB

/-- POWER_GOOD (R397). -/
def execPowerGood (t : BringUp) (s : State) : Result := .next (s.rebooted.bringUp t)

end Sys2Proof.Machine
end

