-- ==== Sys2Proof/Machine/Term.lean ====
section
/-! DEFINITION. The term and search words (R105 to R123, R322 to R340). A lane's word is a procedure over the machine as
it stands before the lane's own writes; its registers and term state change only when it completes (R326). Its reads are
made at issue, and its writes go out as stores of the lane, or are performed before its release where it holds a lock
(assumption 11). A word that has to wait for an answer from beyond the package is made again from its beginning, with the
answers that it has had (assumption 40). -/

namespace Sys2Proof.Machine

/-! ## One lane of a term word -/

/-- Why a lane stops before it completes: a fault, a wait, or a read that failed at its home (R161). -/
inductive TermStop where
  | fault (c : Cause) (va : DWord)
  | wait (r : Stall)
  | late (c : Cause)
deriving DecidableEq, Repr

/-- What a lane has done so far: its term state before and as it will be, the writes made, the registers, predicate and
branch of its completion, the number of the word's first operation, whether its descriptor is open, the lock that it
holds, the word that it adds 1 to after its release, and what its checks met. -/
structure TermRun where
  st : State
  lane : Nat
  was : LaneState
  t : LaneState
  writes : List (LaneAccess × List Byte)
  out : List (Nat × Word)
  pred : Option (Nat × Bool)
  goto : Option Word
  first : Nat
  opened : Option Bool
  lock : Option LaneAccess
  bump : Option LaneAccess
  sc : Bool
  malformed : Nat
  comps : List Nat

/-- Before the lane's first step, with its term state as the bundle found it (R200); `first` is the number that the word's
first operation has. -/
def TermRun.start (s : State) (first l : Nat) : TermRun where
  st := s
  lane := l
  was := s.issue.lane l
  t := s.issue.lane l
  writes := []
  out := []
  pred := none
  goto := none
  first := first
  opened := none
  lock := none
  bump := none
  sc := false
  malformed := 0
  comps := []

/-- A lane's procedure. -/
abbrev T := ExceptT TermStop (StateM TermRun)

/-- The lane faults. -/
def T.fault {α : Type} (c : Cause) (va : DWord) : T α := throw (.fault c va)

/-- A check of the lane. -/
def T.check (ok : Bool) (c : Cause) (va : DWord) : T Unit := if ok then pure () else T.fault c va

/-- The lane's term state. -/
def T.term : T LaneState := return (← get).t

/-- The lane's term state changed. -/
def T.setTerm (f : LaneState → LaneState) : T Unit := modify fun r => { r with t := f r.t }

/-- A pair register written when the lane completes (R322). -/
def T.putPair (n : Nat) (w : DWord) : T Unit :=
  modify fun r => { r with out := r.out ++ [(2 * n, w.setWidth 32), (2 * n + 1, (w >>> 32).setWidth 32)] }

/-- The lane's `vpc` when it completes. -/
def T.goto (a : Word) : T Unit := modify fun r => { r with goto := some a }

/-- A predicate written when the lane completes. -/
def T.setPred (p : Nat) (b : Bool) : T Unit := modify fun r => { r with pred := some (p, b) }

/-! ## Its accesses (R263, R325) -/

/-- Where an access of `n` bytes lies, once nothing keeps it back (R6, R284). -/
def T.locate (want : Want) (n : Nat) (va : DWord) : T LaneAccess := do
  let r ← get
  let x := r.st.tryGlobal want n r.lane va
  match x.fault with
  | none =>
    match r.st.roomWait n [x] with
    | some w => throw (.wait w)
    | none =>
      set { r with sc := r.sc || x.sc }
      pure x.access
  | some f =>
    set { r with malformed := r.malformed + if x.malformed then 1 else 0 }
    T.fault f.2.1 f.2.2

/-- The watchpoints of an access have their say (R170). -/
def T.watched (hits : List Nat) (va : DWord) : T Unit :=
  if hits = [] then pure ()
  else do
    modify fun r => { r with comps := (r.comps ++ hits).eraseDups }
    T.fault .watchpoint va

/-- What lies at an access as the lane sees it, with the code of the read: what a load of its core would read now, at its
home, under the lane's own writes of this word. -/
def T.peek (x : LaneAccess) (n : Nat) : T (Nat × List Byte) := do
  let r ← get
  match x.loc with
  | .spad _ => pure (0, [])
  | .phys pa =>
    let a := r.st.readAt r.st.issue.core r.st.nextId r.st.wordName pa n
    set { r with st := a.1 }
    match a.2 with
    | none => throw (.wait .translation)
    | some v => pure (v.1, r.writes.foldl (fun bs w => overlay x.loc bs w.1.loc w.2) v.2)

/-- Whether an access would pass an earlier atomic of its core, or with `all` any earlier access of it, that is not
performed yet (R60). -/
def TermRun.passes (r : TermRun) (all : Bool) (a : Loc) (n : Nat) : Bool :=
  !r.st.issue.ahead && r.st.cur.flight.any fun f => !f.performed && f.kind.locs.any (fun y => y.1.meets y.2 a n) &&
    match f.kind with
    | .rmw _ _ _ => true
    | _ => all

/-- A read of `n` bytes behind the checks of its access and one more (R324), and behind the loads and atomics of its lanes that
touch the same bytes (R60). -/
def T.readIf (ok : Bool) (c : Cause) (n : Nat) (va : DWord) : T Nat := do
  let x ← T.locate .read n va
  let v ← T.peek x n
  let r ← get
  T.watched (r.st.watchers false x n v.2 []) va
  T.check ok c 0
  if r.passes false x.loc n || r.st.overtakes x.loc n then throw (.wait .pipeBusy)
  else match v.1 with
    | 0 => pure (leNat v.2)
    | e => throw (.late (errCause e))

/-- A read of `n` bytes. -/
def T.read (n : Nat) (va : DWord) : T Nat := T.readIf true .stackLimit n va

/-- A read of a term word or another 64-bit field. -/
def T.read64 (va : DWord) : T DWord := return BitVec.ofNat 64 (← T.read 8 va)

/-- The checks of a write of `n` bytes, whose new value depends on the old one: what a comparator compares with is read first
(R170). -/
def T.toWrite (va : DWord) (n : Nat) (new : List Byte → List Byte) : T LaneAccess := do
  let x ← T.locate .write n va
  let r ← get
  let old ← if r.st.valueWatched true x n then T.peek x n else pure (0, [])
  T.watched (r.st.watchers true x n (new old.2) old.2) va
  pure x

/-- A write behind the checks of its access and one more (R324). -/
def T.writeIf (ok : Bool) (c : Cause) (va : DWord) (bs : List Byte) : T Unit := do
  let x ← T.toWrite va bs.length fun _ => bs
  T.check ok c 0
  modify fun r => { r with writes := r.writes ++ [(x, bs)] }

/-- A write. -/
def T.write (va : DWord) (bs : List Byte) : T Unit := T.writeIf true .stackLimit va bs

/-- A write of a 64-bit field. -/
def T.write64 (va w : DWord) : T Unit := T.write va (leBytes 8 w.toNat)

/-- Words written one after another from an address on. -/
def T.writeWords : DWord → List DWord → T Unit
  | _, [] => pure ()
  | va, w :: ws => do
    T.write64 va w
    T.writeWords (va + 8) ws

/-! ## Term words (R105 to R111) -/

/-- The tag of a term word. -/
def tagOf (w : DWord) : Nat := bits w.toNat 63 60

/-- The payload of a term word. -/
def payload (w : DWord) : Nat := w.toNat % 2 ^ 60

/-- A term word of a tag and a payload. -/
def termWord (tag p : Nat) : DWord := BitVec.ofNat 64 (tag * 2 ^ 60 + p % 2 ^ 60)

/-- The EMPTY word. -/
def emptyWord : DWord := 0x8000000000000000

/-- Whether R106 accepts a word that stands neither in a binding table nor at the target of an STR. -/
def termOk (w : DWord) : Bool :=
  match tagOf w with
  | 1 => bits w.toNat 59 48 == 0
  | 7 => bits w.toNat 59 32 == 0
  | 0 | 2 | 3 | 4 | 5 => true
  | _ => false

/-- Whether a word is a pointer (R107). -/
def isPointer (w : DWord) : Bool := tagOf w == 2 || tagOf w == 3 || tagOf w == 5

/-- A term word read or built (R106, R107, R324). A pointer's alignment is checked here; its bits 59:56 are checked where it
is followed, so that a pointer with both faults raises misaligned (DESIGN CHOICE, assumption 48). -/
def T.meet (w : DWord) : T Unit := do
  T.check (termOk w) .termTag 0
  T.check (!isPointer w || payload w % 8 == 0) .misaligned (BitVec.ofNat 64 (payload w))

/-- A pointer followed (R107); its word has been met before. -/
def T.pointer (w : DWord) : T DWord := do
  T.check (payload w / 2 ^ 56 == 0) .notPresent (BitVec.ofNat 64 (payload w))
  pure (BitVec.ofNat 64 (payload w))

/-- The address of the lane's binding-table entry `i`, and whether the table has it (R108 to R110); a lane without a table
makes no access. -/
def T.entry (i : Nat) : T (DWord × Bool) := do
  let bt := (← T.term).bt.toNat
  T.check (bits bt 63 58 != 0) .bindingRange 0
  pure (BitVec.ofNat 64 (bits bt 55 0 + 8 * i), i < 2 ^ bits bt 63 58)

/-- Entry `i` read (R110). -/
def T.readEntry (i : Nat) : T DWord := do
  let a ← T.entry i
  return BitVec.ofNat 64 (← T.readIf a.2 .bindingRange 8 a.1)

/-- Entry `i` written (R110). -/
def T.writeEntry (i : Nat) (w : DWord) : T Unit := do
  let a ← T.entry i
  T.writeIf a.2 .bindingRange a.1 (leBytes 8 w.toNat)

/-- The variable index of a VAR word. -/
def varOf (w : DWord) : Nat := w.toNat % 2 ^ 32

/-- A term word as the device writes it: bits 59:32 of a VAR word are zero (R105). -/
def written (w : DWord) : DWord := if tagOf w = 4 then termWord 4 (varOf w) else w

/-- `deref()` with the steps it may still take (R111): each word that it looks at is one. -/
def T.derefN : Nat → DWord → T DWord
  | 0, _ => T.fault .stackLimit 0
  | n + 1, w => do
    T.meet w
    if tagOf w = 5 then
      let a ← T.pointer w
      let x ← T.read64 a
      T.derefN n x
    else if tagOf w = 4 then
      let e ← T.readEntry (varOf w)
      if tagOf e = 8 then pure (written w) else T.derefN n e
    else pure w

/-- `deref()` (R111). -/
def T.deref (w : DWord) : T DWord := T.derefN 4096 w

/-- The FUNC word at the target of an STR (R106). -/
def T.func (a : DWord) : T DWord := do
  let f ← T.read64 a
  T.check (tagOf f == 6) .termTag 0
  pure f

/-- The arity of a FUNC word. -/
def arity (f : DWord) : Nat := f.toNat % 4096

/-! ## The choice stack and the trail (R114, R117 to R119) -/

/-- The address after the top choice point (R335). -/
def T.top : T Nat := do
  let t ← T.term
  if t.cp = 0 then pure t.cbase.toNat
  else
    let f ← T.read 4 (t.cp + 4)
    pure (t.cp.toNat + 40 + 8 * bits f 12 8)

/-! ## The search descriptor's lock (R121, R122) -/

/-- The lock exchanged for the lane's value until it is had: a lock that lies in the package is tried again with the word,
another one as soon as the previous answer is there; the first argument bounds the answers that have come. -/
def T.tryLock (x : LaneAccess) (pa val : Nat) (why : Stall) : Nat → T Unit
  | 0 => throw (.wait why)
  | n + 1 => do
    let r ← get
    let a := r.st.swapAt r.st.issue.core r.first r.st.wordName pa 4 0 val
    set { r with st := a.1 }
    match a.2 with
    | none => throw (.wait why)
    | some (0, 0) => modify fun r => { r with lock := some x }
    | some (0, _) => if (r.st.beyond x.loc).isSome then T.tryLock x pa val why n else throw (.wait why)
    | some (e, _) => throw (.late (errCause e))

/-- Whether the accesses of the lanes before the word are performed at pod scope, as its release asks (R66, R325). -/
def TermRun.settled (r : TermRun) : Bool :=
  !(r.st.mine.any fun f => f.id < r.first && (f.mask &&& r.st.issue.exec) != 0 && f.open_) &&
    !r.st.cur.flight.any fun f => f.id < r.first && f.id < r.st.grp.seen && f.open_

/-- The lock of a descriptor taken with a value (R121, R122): while it is held, or while earlier accesses of the lanes are not
performed, the word waits. A run-ahead only probes. -/
def T.takeLock (sd : DWord) (val : Nat) (why : Stall) : T Unit := do
  let x ← T.toWrite sd 4 fun _ => leBytes 4 val
  let r ← get
  if r.st.issue.ahead then set { r with lock := some x }
  else if !r.settled then throw (.wait .pipeBusy)
  else match x.loc with
    | .phys pa => T.tryLock x pa val why (r.st.fabric.requests.length + 1)
    | .spad _ => pure ()

/-- The lane's own lock is taken if its descriptor is open and it does not hold it yet (R122). -/
def T.enterLock : T Unit := do
  let r ← get
  if r.lock.isSome ∨ r.opened = some false then pure ()
  else
    let f ← T.read 4 (r.t.sd + 4)
    modify fun r => { r with opened := some (bit f 0) }
    if bit f 0 then T.takeLock r.t.sd 2 .pipeBusy

/-- A lane that holds its lock leaves `%cp` and `%tp` in the descriptor (R116, R122). -/
def T.leaveLock : T Unit := do
  let r ← get
  if r.lock.isSome then
    T.write64 (r.t.sd + 8) r.t.cp
    T.write64 (r.t.sd + 0x10) r.t.tp

/-- A word of the descriptor's owner: while the descriptor is open it works under the lock (R116, R122). -/
def T.owner (body : T Unit) : T Unit := do
  T.enterLock
  body
  T.leaveLock

/-- A binding of variable `i`, under the lock while the descriptor is open, trailed where R118 asks for it; `spill` bytes of
the spill area are in use (R114, R122). The trail's entry is written before the table's, so that it stays where the table's then
faults (DESIGN CHOICE, assumption 74). -/
def T.bindTo (i : Nat) (w : DWord) (spill : Nat) : T Unit := do
  T.enterLock
  let t ← T.term
  if t.cp ≠ 0 then
    let mark ← T.read 4 (t.cp + 0x18)
    if i < mark then
      let top ← T.top
      T.writeIf (top + spill + 8 ≤ t.tp.toNat) .stackLimit (t.tp - 8) (leBytes 8 i)
      T.setTerm fun t => { t with tp := t.tp - 8 }
  T.writeEntry i (written w)

/-! ## Backtracking (R119, R336) -/

/-- How many choice points a walk may visit (R119). -/
def chainLimit (clen : Nat) : Nat := clen * 4096 / 40

/-- The newest choice point from `c` on that is not given, or 0 (R119). -/
def T.notGiven : Nat → DWord → T DWord
  | n, c =>
    if c = 0 then pure 0
    else match n with
      | 0 => T.fault .stackLimit 0
      | n + 1 => do
        let f ← T.read 4 (c + 4)
        if bit f 1 then
          let p ← T.read64 (c + 0x20)
          T.notGiven n p
        else pure c

/-- Whether `v` is a choice point of the chain from `c` on (R119). -/
def T.inChain (v : DWord) : Nat → DWord → T Bool
  | n, c =>
    if c = 0 then pure false
    else match n with
      | 0 => T.fault .stackLimit 0
      | n + 1 => if c = v then pure true else do
        let p ← T.read64 (c + 0x20)
        T.inChain v n p

/-- The oldest choice point from `c` on with given and entered clear, or `best` (R121 step 3). -/
def T.oldest (best : DWord) : Nat → DWord → T DWord
  | n, c =>
    if c = 0 then pure best
    else match n with
      | 0 => T.fault .stackLimit 0
      | n + 1 => do
        let f ← T.read 4 (c + 4)
        let p ← T.read64 (c + 0x20)
        T.oldest (if bit f 1 || bit f 2 then best else c) n p

/-- Trail entries undone, lowest first: each entry's variable is emptied (R119, R336). -/
def T.untrail : Nat → T Unit
  | 0 => pure ()
  | n + 1 => do
    let tp := (← T.term).tp
    let i ← T.read64 tp
    T.writeEntry (varOf i) emptyWord
    T.setTerm fun t => { t with tp := t.tp + 8 }
    T.untrail n

/-- How many trail entries lie from `tp` up to `trail`. -/
def trailLen (tp trail : DWord) : Nat := (trail.toNat - tp.toNat + 7) / 8

/-- Argument pairs restored from a record, from pair `i` on (R117, R119). A pair beyond the lane's allotment is read and dropped
(DESIGN CHOICE, assumption 75). -/
def T.restoreArgs (c : DWord) : Nat → Nat → T Unit
  | _, 0 => pure ()
  | i, n + 1 => do
    let w ← T.read64 (c + BitVec.ofNat 64 (0x28 + 8 * i))
    T.putPair i w
    T.restoreArgs c (i + 1) n

/-- The backtracking of `fail` (R119, R336). -/
def T.fail : T Unit := do
  let t ← T.term
  let c ← T.notGiven (chainLimit t.clen.toNat) t.cp
  if c = 0 then
    T.setTerm fun t => { t with cp := 0 }
    T.goto (← get).st.issue.fx
  else
    let trail ← T.read64 (c + 8)
    T.untrail (trailLen t.tp trail)
    if (← get).lock.isSome then
      let floor ← T.read64 (t.sd + 0x38)
      T.setTerm fun t => { t with floor := floor }
    let heap ← T.read64 (c + 0x10)
    let mark ← T.read 4 (c + 0x18)
    let f ← T.read 4 (c + 4)
    T.restoreArgs c 0 (bits f 12 8)
    T.write (c + 4) (leBytes 4 (f ||| 4))
    T.setTerm fun t => { t with
      hp := if heap.toNat < t.floor.toNat then t.floor else heap
      vc := BitVec.ofNat 32 mark
      cp := c }
    let alt ← T.read 4 c
    T.goto (BitVec.ofNat 32 alt)

/-! ## Unification (R120, R333) -/

/-- A pair that the walk still has to compare: two words, or the addresses of two arguments. -/
inductive WalkItem where
  | words (x y : DWord)
  | args (x y : DWord)
deriving DecidableEq, Repr

/-- The two words of a pair. -/
def T.item : WalkItem → T (DWord × DWord)
  | .words x y => pure (x, y)
  | .args a b => do
    let x ← T.read64 a
    let y ← T.read64 b
    pure (x, y)

/-- Bytes of the spill area that a walk stack of `n` pairs uses: 16 for each pair beyond 64 (R114, R120). -/
def spillBytes (n : Nat) : Nat := 16 * (n - 64)

/-- A free 64-bit value, eight free bytes. -/
def T.freeWord : T DWord := do
  let r ← get
  set { r with st := { r.st with choice := r.st.choice + 1 } }
  pure (BitVec.ofNat 64 (leNat ((List.range 8).map fun i => Config.freeByte (8 * r.st.choice + i))))

/-- Pairs on the stack beyond the 64 on chip spill: the device writes 16 bytes each, of no fixed contents, and the stack
must stay below the trail (R114). -/
def T.spill (old new : Nat) : T Unit := do
  let top ← T.top
  let tp := (← T.term).tp.toNat
  for k in List.range (spillBytes new / 8 - spillBytes old / 8) do
    let w ← T.freeWord
    let a := top + spillBytes old + 8 * k
    T.writeIf (a + 8 ≤ tp) .stackLimit (BitVec.ofNat 64 a) (leBytes 8 w.toNat)

/-- One pair after dereferencing (R120): none for failure, or the pairs to compare next. -/
def T.decide (x y : DWord) (spill : Nat) : T (Option (List WalkItem)) := do
  if tagOf x = 4 ∧ tagOf y = 4 then
    if varOf x = varOf y then pure (some [])
    else
      T.bindTo (max (varOf x) (varOf y)) (termWord 4 (min (varOf x) (varOf y))) spill
      pure (some [])
  else if tagOf x = 4 then
    T.bindTo (varOf x) y spill
    pure (some [])
  else if tagOf y = 4 then
    T.bindTo (varOf y) x spill
    pure (some [])
  else if tagOf x ≠ tagOf y then pure none
  else if tagOf x = 2 then
    let a ← T.pointer x
    let b ← T.pointer y
    let f ← T.func a
    let g ← T.func b
    if payload f = payload g then
      pure (some ((List.range (arity f)).map fun i =>
        .args (a + BitVec.ofNat 64 (8 + 8 * i)) (b + BitVec.ofNat 64 (8 + 8 * i))))
    else pure none
  else if tagOf x = 3 then
    let a ← T.pointer x
    let b ← T.pointer y
    pure (some [.args a b, .args (a + 8) (b + 8)])
  else pure (if payload x = payload y then some [] else none)

/-- One pair of the walk, depth-first from left to right (R120): its answer, or the pairs still to compare. -/
def T.walkStep : List WalkItem → T (Bool ⊕ List WalkItem)
  | [] => pure (.inl true)
  | p :: rest => do
    let w ← T.item p
    let x ← T.deref w.1
    let y ← T.deref w.2
    let next ← T.decide x y (spillBytes rest.length)
    match next with
    | none => pure (.inl false)
    | some more => do
      if 64 < more.length + rest.length then T.spill rest.length (more.length + rest.length)
      pure (.inr (more ++ rest))

/-- The walk over 2^`n` pairs, unless it ends before. -/
def T.walkRun : Nat → List WalkItem → T (Bool ⊕ List WalkItem)
  | 0, ps => T.walkStep ps
  | n + 1, ps => do
    match ← T.walkRun n ps with
    | .inl b => pure (.inl b)
    | .inr qs => T.walkRun n qs

/-- The walk over 2^`n` pairs, then over twice as many, and so on, as many times as the first argument says: a walk that has
not ended then compares more pairs than terms in memory can make, and its group waits (assumption 23). -/
def T.walkUp : Nat → Nat → List WalkItem → T Bool
  | 0, _, _ => throw (.wait .registerPending)
  | f + 1, n, ps => do
    match ← T.walkRun n ps with
    | .inl b => pure b
    | .inr qs => T.walkUp f (n + 1) qs

/-- `unify` of two words (R120): both are checked before the first access (R324). -/
def T.unify (x y : DWord) : T Bool := do
  T.meet x
  T.meet y
  T.walkUp (2 ^ 70) 0 [.words x y]

/-! ## The word -/

/-- An error that the lanes of `m` report later, by code: a group stops for it before its next issue (R161, R162). -/
def State.failLater (s : State) (m : Word) (code : Nat) : State := if code = 0 then s else s.noteError (errCause code) m

/-- A write of a word that began at number `first`, performed at its home before the word goes on. -/
def State.writeNow (s : State) (first : Nat) (m : Word) (relaxed : Bool) (w : LaneAccess × List Byte) : State :=
  match w.1.loc with
  | .spad _ => s
  | .phys pa =>
    let t := s.writeAt s.issue.core first s.wordName relaxed pa w.2
    t.1.failLater m (t.2.getD 0)

/-- 1 added to a word at its home (R116). -/
def State.bump (s : State) (m : Word) (x : LaneAccess) : State :=
  match x.loc with
  | .spad _ => s
  | .phys pa =>
    if (s.beyond x.loc).isSome then
      let w := Want1.rmw (.add 4 1)
      let t := s.ask s.issue.core s.wordName w.op w.sub w.aop pa w.len w.data
      t.1.failLater m (t.2.elim 0 (·.1))
    else
      let t := s.performRmw s.issue.core x (.add 4 1)
      t.1.failLater m t.2.2

/-- A lane that holds a lock performs its writes and releases it, the release being one of pod scope (R445); then it adds 1 to the
publish word (R116, R121, R122). Hold windows over what it writes come first (R72, R360). A run-ahead writes nothing. -/
def TermRun.release (r : TermRun) (s : State) (m : Word) (ws : List (LaneAccess × List Byte)) : State :=
  match r.lock with
  | none => s
  | some x =>
    let free := (x, leBytes 4 0)
    let spans := ((ws ++ [free]).flatMap fun w => w.1.span w.2.length) ++ r.bump.elim [] (·.span 4)
    if s.issue.ahead then s
    else match s.holdFor spans with
      | some h => s.wait h
      | none =>
        let t := (ws.foldl (fun s w => s.writeNow r.first m true w) s).writeNow r.first m false free
        match r.bump with
        | some y => t.bump m y
        | none => t

/-- A lane's writes sent as stores of the lane, each behind the one before (R325). -/
def State.sendOrdered (s : State) (m : Word) (sc : Bool) (ws : List (LaneAccess × List Byte)) : State :=
  let n := s.cur.flight.length
  (s.dispatchAll none false sc (ws.map fun w => (m, s.heldUntil (w.1.span w.2.length), .store [w]))).onCore fun c =>
    { c with flight := c.flight.take n ++ (c.flight.drop n).map fun f => { f with ordered := true } }

/-- A lane's writes leave it: performed before the release of its lock, otherwise sent as stores of the lane. A run-ahead
writes nothing. -/
def TermRun.send (r : TermRun) (s : State) (m : Word) : State :=
  if s.issue.ahead then s
  else if r.lock.isSome then r.release s m r.writes
  else if r.writes = [] then s
  else s.sendOrdered m r.sc r.writes

/-- What a term word changes of a lane, over what the bundle has changed meanwhile. -/
def LaneState.merge (now was new : LaneState) : LaneState :=
  { now with
    hp := if new.hp = was.hp then now.hp else new.hp
    tp := if new.tp = was.tp then now.tp else new.tp
    cp := if new.cp = was.cp then now.cp else new.cp
    vc := if new.vc = was.vc then now.vc else new.vc
    floor := if new.floor = was.floor then now.floor else new.floor }

/-- A lane completes: its registers, predicate, term state and `vpc` change (R326). -/
def TermRun.commit (r : TermRun) (s : State) (m : Word) : State :=
  let s := s.onGrp fun g => { g.modLane r.lane (·.merge r.was r.t) with
    rf := let rf := r.out.foldl (fun rf o => rf.setV o.1 m fun _ => o.2) g.rf
          match r.pred with
          | some p => rf.setP p.1 m fun _ => p.2
          | none => rf }
  match r.goto with
  | some a => s.branch false m fun _ => a
  | none => s

/-- What the lanes of a term word have done so far. -/
structure TermWord where
  st : State
  faults : List LaneFault
  malformed : Nat
  comps : List Nat
  locked : Bool
  wait : Option Stall

/-- Before the first lane. -/
def TermWord.start (s : State) : TermWord :=
  { st := s, faults := [], malformed := 0, comps := [], locked := false, wait := none }

/-- One lane's turn; `first` is the number of the word's first operation. With `undo`, a fault undoes the lane's own writes
(R120, R337). A lock that is held is released however the lane ends. -/
def TermWord.lane (w : TermWord) (u undo : Bool) (first l : Nat) (body : T Unit) : TermWord :=
  let m := if u then w.st.issue.exec else BitVec.ofNat 32 (2 ^ l)
  let x := body.run.run (TermRun.start w.st first l)
  let r := x.2
  let w := { w with
    malformed := w.malformed + r.malformed, comps := (w.comps ++ r.comps).eraseDups, locked := w.locked || r.lock.isSome }
  let close := fun (s t : State) => if s.issue.stall.isSome then
      { w with st := s, wait := w.wait.orElse fun _ => s.issue.stall } else { w with st := t }
  match x.1 with
  | .ok _ =>
    let s := r.send r.st m
    close s (r.commit s m)
  | .error (.fault c va) =>
    let r := { r with bump := none }
    let s := if undo then r.release r.st m [] else r.send r.st m
    { close s s with faults := w.faults ++ [(l, c, va)] }
  | .error (.wait k) => { w with st := r.st, wait := w.wait.orElse fun _ => some k }
  | .error (.late c) =>
    let r := { r with bump := none }
    let s := if undo then r.release r.st m [] else r.send r.st m
    close s (s.noteError c m)

/-- The lanes of a term word act in ascending order, each on its own account (R324, R326, R57). -/
def State.termLanes (s : State) (u undo : Bool) (body : Nat → T Unit) : TermWord :=
  (s.doers u).foldl (fun (w : TermWord) l => w.lane u undo s.nextId l (body l)) (TermWord.start s)

/-- A term word: where one of its lanes must wait, the word waits, and a run-ahead keeps the pages that it has missed (R156). A
lock taken is an acquire (R121, R325). -/
def State.terms (s : State) (u undo : Bool) (body : Nat → T Unit) : State :=
  let w := s.termLanes u undo body
  let t := (w.st.noteMalformed w.malformed).raiseLanes u false w.faults w.comps
  match w.wait with
  | some r => (if s.issue.ahead then t else w.st).wait r
  | none => if w.locked then t.acquired else t

/-- What a term word waits for before its lanes act: a descriptor still being read (R113), an acquire or an SC access (R270,
R71). -/
def State.termWait (s : State) : Option Stall :=
  if s.issue.exec = 0 ∨ s.issue.ahead then none else if s.searchPending then some .registerPending else s.memHeld

/-- A term word behind its operand checks and its waits. -/
def State.termWord (s : State) (u undo ok : Bool) (body : Nat → T Unit) : Result :=
  s.checked ok (s.after s.termWait (s.terms u undo body))

/-- A body that needs a search descriptor (R113, R324). `%sd` is a register of each lane: the lanes in which it is zero fault
and the others go on (DESIGN CHOICE, assumption 50: R476 names a special register as a value of word extent). -/
def T.search (body : T Unit) : T Unit := do
  T.check ((← T.term).sd != 0) .illegalOperand 0
  body

/-- Whether pair `n` lies within the allotment (R322). -/
def State.pairOk (s : State) (n : Nat) : Bool := s.vOk (2 * n + 1)

/-- Pair `n` in a lane, as it stood before the bundle. -/
def State.pair (s : State) (n l : Nat) : DWord := s.A2 (2 * n) l

/-! ## Building and reading terms (R327 to R332) -/

/-- `tag` (R327). -/
def execTag (_c u : Bool) (d a : BitVec 6) (s : State) : Result :=
  s.checked (s.vOk (2 * d.toNat) && s.pairOk a.toNat)
    (s.terms u false fun l => do
      let w := s.pair a.toNat l
      T.meet w
      modify fun r => { r with out := [(2 * d.toNat, BitVec.ofNat 32 (tagOf w))] })

/-- The word that `mkt` builds (R328). -/
def mktWord (t : Nat) (b : DWord) : DWord := termWord t (if t = 4 then b.toNat % 2 ^ 32 else b.toNat % 2 ^ 60)

/-- `mkt` (R328). -/
def execMkt (_c u : Bool) (d t : BitVec 6) (b : BitVec 7) (x : Bool) (s : State) : Result :=
  s.termWord u false (s.pairOk d.toNat && s.b2Ok b.toNat x && (t.toNat < 9 && t != 6)) fun l => T.search do
    let w := mktWord t.toNat (s.B2 b.toNat x l)
    if t = 8 then pure () else T.meet w
    T.putPair d.toNat w

/-- `mkvar` (R110, R329). -/
def execMkvar (_c : Bool) (d : BitVec 6) (s : State) : Result :=
  s.termWord false false (s.pairOk d.toNat) fun _ => T.search (T.owner do
    let i := (← T.term).vc
    T.writeEntry i.toNat emptyWord
    T.setTerm fun t => { t with vc := t.vc + 1 }
    T.putPair d.toNat (termWord 4 i.toNat))

/-- Words written one after another on the heap, which ends at `limit` (R114, R330). -/
def T.heapWords (limit : Nat) : DWord → List DWord → T Unit
  | _, [] => pure ()
  | va, w :: ws => do
    T.writeIf (va.toNat + 8 ≤ limit) .stackLimit va (leBytes 8 w.toNat)
    T.heapWords limit (va + 8) ws

/-- A term of these words written at the heap top, with a pointer of tag `tag` to it (R114, R330). -/
def T.build (tag d : Nat) (ws : List DWord) : T Unit := do
  let t ← T.term
  T.heapWords (t.hbase.toNat + t.hlen.toNat * 65536) t.hp (ws.map written)
  T.setTerm fun t => { t with hp := t.hp + BitVec.ofNat 64 (8 * ws.length) }
  T.putPair d (termWord tag t.hp.toNat)

/-- Term words that a word reads from registers, checked one after another (R106, R107, R324). -/
def T.meetAll : List DWord → T Unit
  | [] => pure ()
  | w :: ws => do
    T.meet w
    T.meetAll ws

/-- `mkstr` (R330). -/
def execMkstr (_c : Bool) (d : BitVec 6) (m : BitVec 2) (a : BitVec 6) (b : BitVec 7) (x : Bool) (s : State) : Result :=
  let ok := m.toNat < 3 && s.pairOk d.toNat && s.pairOk a.toNat &&
    (if m = 1 then s.pairOk (a.toNat + 1) else s.b2Ok b.toNat x)
  s.termWord false false ok fun l => T.search do
    let func := termWord 6 (s.B2 b.toNat x l).toNat
    let n := arity func
    if m = 1 then
      let ws := [s.pair a.toNat l, s.pair (a.toNat + 1) l]
      T.meetAll ws
      T.build 3 d.toNat ws
    else if m = 0 then
      T.check (n == 0 || (n ≤ 16 && a.toNat + n ≤ 64 && s.pairOk (a.toNat + n - 1))) .illegalOperand 0
      let ws := (List.range n).map fun i => s.pair (a.toNat + i) l
      T.meetAll ws
      T.build 2 d.toNat (func :: ws)
    else T.build 2 d.toNat (func :: List.replicate n 0)

/-- A word that `arg.i` returns (R106, R331). -/
def T.argAt (d : Nat) (a : DWord) : T Unit := do
  let w ← T.read64 a
  T.meet w
  T.putPair d (written w)

/-- `arg` (R331). -/
def execArg (_c u : Bool) (d : BitVec 6) (m : BitVec 2) (a : BitVec 6) (b : BitVec 7) (x : Bool) (s : State) : Result :=
  let ok := m.toNat < 3 && s.pairOk d.toNat && s.pairOk a.toNat && (m != 0 || s.bOk b.toNat x)
  s.termWord u false ok fun l => T.search do
    let t ← T.deref (s.pair a.toNat l)
    let i := (s.B b.toNat x l).toNat
    if tagOf t = 2 then
      let p ← T.pointer t
      let f ← T.func p
      if m = 0 then
        T.check (i < arity f) .illegalOperand 0
        T.argAt d.toNat (p + BitVec.ofNat 64 (8 + 8 * i))
      else T.putPair d.toNat (if m = 1 then termWord 1 (bits f.toNat 59 12) else termWord 0 (arity f))
    else if tagOf t = 3 ∧ m ≠ 1 then
      if m = 0 then
        T.check (i < 2) .illegalOperand 0
        let p ← T.pointer t
        T.argAt d.toNat (p + BitVec.ofNat 64 (8 * i))
      else T.putPair d.toNat (termWord 0 2)
    else if tagOf t = 1 ∧ m ≠ 0 then T.putPair d.toNat (if m = 1 then t else termWord 0 0)
    else T.fault .illegalOperand 0

/-- `deref` (R332). -/
def execDeref (_c u : Bool) (d a : BitVec 6) (s : State) : Result :=
  s.termWord u false (s.pairOk d.toNat && s.pairOk a.toNat) fun l => do
    let w ← T.deref (s.pair a.toNat l)
    T.putPair d.toNat w

/-! ## Unification and binding (R333, R334) -/

/-- `unify.p` (R333). -/
def execUnifyP (_c : Bool) (p : BitVec 3) (a : BitVec 6) (b : BitVec 7) (x : Bool) (s : State) : Result :=
  s.termWord false true (s.pairOk a.toNat && s.b2Ok b.toNat x) fun l => T.search do
    let ok ← T.unify (s.pair a.toNat l) (s.B2 b.toNat x l)
    T.leaveLock
    T.setPred p.toNat ok

/-- `unify.f` (R333). -/
def execUnifyF (_c : Bool) (a : BitVec 6) (b : BitVec 7) (x : Bool) (s : State) : Result :=
  s.termWord false true (s.pairOk a.toNat && s.b2Ok b.toNat x) fun l => T.search do
    let ok ← T.unify (s.pair a.toNat l) (s.B2 b.toNat x l)
    if ok then T.leaveLock else T.owner T.fail

/-- `bind` (R334). -/
def execBind (_c : Bool) (a : BitVec 6) (b : BitVec 7) (x : Bool) (s : State) : Result :=
  s.termWord false false (s.pairOk a.toNat && s.b2Ok b.toNat x) fun l => T.search do
    let v := s.B2 b.toNat x l
    T.meet (s.pair a.toNat l)
    T.meet v
    T.owner do
      let w ← T.deref (s.pair a.toNat l)
      T.check (tagOf w == 4) .illegalOperand 0
      T.bindTo (varOf w) v 0

/-! ## The choice stack (R335, R336) -/

/-- `choice` (R335). -/
def execChoice (_c : Bool) (n : BitVec 6) (b : BitVec 7) (x : Bool) (s : State) : Result :=
  let k := n.toNat
  s.termWord false false (k ≤ 16 && (k == 0 || s.pairOk (k - 1)) && s.bOk b.toNat x) fun l => T.search (T.owner do
    let t ← T.term
    let c ← T.top
    T.writeIf (c + 40 + 8 * k ≤ t.tp.toNat) .stackLimit (BitVec.ofNat 64 c)
      (leBytes 8 ((s.B b.toNat x l).toNat + k * 2 ^ 40))
    T.writeWords (BitVec.ofNat 64 (c + 8))
      ([t.tp, t.hp, t.vc.setWidth 64, t.cp] ++ (List.range k).map fun i => s.pair i l)
    T.setTerm fun t => { t with cp := BitVec.ofNat 64 c })

/-- A body over the top choice point and its flag word: there is one, and it is not given (R119). The lanes in which there is
none fault and the others go on (DESIGN CHOICE, assumption 51: R476 names a special register as a value of word extent). -/
def T.topPoint (body : DWord → Nat → T Unit) : T Unit := do
  T.check ((← T.term).cp != 0) .illegalOperand 0
  T.owner do
    let c := (← T.term).cp
    let f ← T.read 4 (c + 4)
    T.check (!bit f 1) .illegalOperand 0
    body c f

/-- `retry` (R119). -/
def execRetry (_c : Bool) (b : BitVec 7) (x : Bool) (s : State) : Result :=
  s.termWord false false (s.bOk b.toNat x) fun l => T.search (T.topPoint fun c f => do
    T.write c (leBytes 4 (s.B b.toNat x l).toNat)
    T.write (c + 4) (leBytes 4 (f - if bit f 2 then 4 else 0)))

/-- `trust` (R119). -/
def execTrust (_c : Bool) (s : State) : Result :=
  s.termWord false false true fun _ => T.search (T.topPoint fun c _ => do
    let p ← T.read64 (c + 0x20)
    T.setTerm fun t => { t with cp := p })

/-- `fail` (R119, R336). -/
def execFail (_c : Bool) (s : State) : Result := s.termWord false false true fun _ => T.search (T.owner T.fail)

/-- Whether a value may become `%cp`: 0, or a choice point of the chain (R119). -/
def T.cutTo (v : DWord) : T Unit := do
  let t ← T.term
  let ok ← if v = 0 then pure true else T.inChain v (chainLimit t.clen.toNat) t.cp
  T.check ok .illegalOperand 0

/-- `cut` (R119, R335): a scalar that fails in one lane fails the whole word (R476), so that every lane is checked before
the first one acts. -/
def execCut (_c : Bool) (b : BitVec 7) (x : Bool) (s : State) : Result :=
  let v := s.B2 b.toNat x
  let w := if x then s.termLanes false false fun l => do
      if (← T.term).sd = 0 then pure () else T.cutTo (v l) else TermWord.start s
  s.checked (if x then 64 ≤ b.toNat else s.v2Ok b.toNat) (s.after s.termWait (match w.wait with
    | some r => w.st.wait r
    | none =>
      if w.faults.any (·.2.1 == .illegalOperand) then s.raise .illegalOperand
      else w.st.terms false false fun l => T.search (T.owner do
        T.cutTo (v l)
        T.setTerm fun t => { t with cp := v l })))

/-! ## Adoption and publication (R337, R338) -/

/-- Words copied, one after another (R121 step 6). -/
def T.copyWords : Nat → DWord → DWord → T Unit
  | 0, _, _ => pure ()
  | n + 1, src, dst => do
    let w ← T.read64 src
    T.write64 dst w
    T.copyWords n (src + 8) (dst + 8)

/-- Table entries copied by the copy engine (R121 step 6, R123): no comparator compares its accesses (R170). -/
def T.copyTable : Nat → DWord → DWord → T Unit
  | 0, _, _ => pure ()
  | n + 1, src, dst => do
    let x ← T.locate .read 8 src
    let v ← T.peek x 8
    if v.1 ≠ 0 then throw (.late (errCause v.1))
    let y ← T.locate .write 8 dst
    modify fun r => { r with writes := r.writes ++ [(y, v.2)] }
    T.copyTable n (src + 8) (dst + 8)

/-- The entries of a donor's trail emptied in the lane's own table (R121 step 6). -/
def T.emptyTrail : Nat → DWord → T Unit
  | 0, _ => pure ()
  | n + 1, a => do
    let i ← T.read64 a
    T.writeEntry (varOf i) emptyWord
    T.emptyTrail n (a + 8)

/-- Steps 4 to 8 of R121 with choice point `c` of the descriptor at `d`. -/
def T.adoptPoint (d c : DWord) (p : Nat) : T Unit := do
  let t ← T.term
  let f ← T.read 4 (c + 4)
  let mark ← T.read 4 (c + 0x18)
  let len := bits t.bt.toNat 63 58
  T.check (mark ≤ if len = 0 then 0 else 2 ^ len) .bindingRange 0
  let n := bits f 12 8
  let floor ← T.read64 (d + 0x38)
  let heap ← T.read64 (c + 0x10)
  let alt ← T.read 4 c
  let trail ← T.read64 (c + 8)
  T.write (c + 4) (leBytes 4 (f ||| 3))
  T.write64 (d + 0x38) (if floor.toNat < heap.toNat then heap else floor)
  T.writeIf (40 + 8 * n ≤ t.clen.toNat * 4096) .stackLimit t.cbase (leBytes 8 (alt + (f - f % 8 + 4) * 2 ^ 32))
  T.writeWords (t.cbase + 8) [trail, heap, BitVec.ofNat 64 mark, 0]
  T.copyWords n (c + 0x28) (t.cbase + 0x28)
  let bt ← T.read64 (d + 0x20)
  T.copyTable mark (BitVec.ofNat 64 (bits bt.toNat 55 0)) (BitVec.ofNat 64 (bits t.bt.toNat 55 0))
  let tp ← T.read64 (d + 0x10)
  T.emptyTrail (trailLen tp trail) tp
  T.restoreArgs t.cbase 0 n
  T.setTerm fun t => { t with
    cp := t.cbase
    tp := t.cbase + BitVec.ofNat 64 (t.clen.toNat * 4096)
    hp := t.hbase
    vc := BitVec.ofNat 32 mark }
  T.setPred p true
  T.goto (BitVec.ofNat 32 alt)

/-- `adopt` (R121, R337): a fault releases the lock and leaves the donor as it was. An adopter whose own descriptor is open
takes no lock of its own and writes nothing there: R122 does not list `adopt` (DESIGN CHOICE, assumption 52). -/
def execAdopt (_c : Bool) (p : BitVec 3) (a : BitVec 6) (s : State) : Result :=
  s.termWord false true (s.pairOk a.toNat) fun l => T.search do
    let d := s.pair a.toNat l
    let t ← T.term
    T.check (t.cp == 0 && d != t.sd) .illegalOperand 0
    T.check (d.toNat % 64 == 0) .misaligned d
    T.takeLock d 1 .registerPending
    let q ← T.read64 (d + 0x18)
    T.check (bits q.toNat 63 48 != 0 && bits q.toNat 47 32 != 0) .illegalOperand 0
    let f ← T.read 4 (d + 4)
    if bit f 0 then
      let cp ← T.read64 (d + 8)
      let c ← T.oldest 0 (chainLimit (bits q.toNat 47 32)) cp
      if c = 0 then T.setPred p.toNat false else T.adoptPoint d c p.toNat
    else T.setPred p.toNat false

/-- `publish` (R116, R338): `body` writes the descriptor under its lock; after the release the publish word gains 1. -/
def State.publish (s : State) (b : BitVec 7) (x : Bool) (body : DWord → T Unit) : Result :=
  s.termWord false false (x && 64 ≤ b.toNat) fun l => T.search do
    let a := s.B2 b.toNat x l
    T.check (a.toNat % 4 == 0) .misaligned a
    let sd := (← T.term).sd
    T.takeLock sd 2 .pipeBusy
    body sd
    let y ← T.toWrite a 4 fun old => leBytes 4 (leNat old + 1)
    if (← get).passes true y.loc 4 then throw (.wait .pipeBusy)
    else modify fun r => { r with bump := some y }

/-- `publish.open` (R116, R338). -/
def execPublishOpen (_c : Bool) (b : BitVec 7) (x : Bool) (s : State) : Result :=
  s.publish b x fun sd => do
    let t ← T.term
    T.write64 (sd + 8) t.cp
    T.write64 (sd + 0x10) t.tp
    T.write (sd + 0x18) (leBytes 4 t.vc.toNat)
    T.write64 (sd + 0x20) t.bt
    let f ← T.read 4 (sd + 4)
    T.write (sd + 4) (leBytes 4 (f ||| 1))

/-- `publish.close` (R116, R338). -/
def execPublishClose (_c : Bool) (b : BitVec 7) (x : Bool) (s : State) : Result :=
  s.publish b x fun sd => do
    let f ← T.read 4 (sd + 4)
    T.write (sd + 4) (leBytes 4 (f - f % 2))

/-- `btld` (R339). -/
def execBtld (_c u : Bool) (d : BitVec 6) (p : BitVec 3) (b : BitVec 7) (x : Bool) (s : State) : Result :=
  s.termWord u false (s.pairOk d.toNat && s.bOk b.toNat x) fun l => do
    let e ← T.readEntry (s.B b.toNat x l).toNat
    T.putPair d.toNat e
    T.setPred p.toNat (tagOf e != 8)

end Sys2Proof.Machine
end

