-- ==== Sys2Proof/Machine/Dispatch.lean ====
section
/-! DEFINITION. One arm for every constructor of Instr. -/

namespace Sys2Proof.Machine

/-- The meaning of every instruction and event. -/
def exec (i : Instr) (s : State) : Host.Outcome State Fault Refusal :=
  match i with
  | .clause fw fa fb fv fx => Sys2Proof.Machine.execClause fw fa fb fv fx s
  | .guard fp fs fn => Sys2Proof.Machine.execGuard fp fs fn s
  | .nop fc => Sys2Proof.Machine.execNop fc s
  | .brk fk => Sys2Proof.Machine.execBrk fk s
  | .iadd fc fu fd fa fb fx => Sys2Proof.Machine.execIadd fc fu fd fa fb fx s
  | .isub fc fu fd fa fb fx => Sys2Proof.Machine.execIsub fc fu fd fa fb fx s
  | .imul fc fu fd fa fb fx => Sys2Proof.Machine.execImul fc fu fd fa fb fx s
  | .imulh fc fu fg fd fa fb fx => Sys2Proof.Machine.execImulh fc fu fg fd fa fb fx s
  | .imad fc fu fd fa fb fx => Sys2Proof.Machine.execImad fc fu fd fa fb fx s
  | .iabs fc fu fd fa => Sys2Proof.Machine.execIabs fc fu fd fa s
  | .imin fc fu fg fd fa fb fx => Sys2Proof.Machine.execImin fc fu fg fd fa fb fx s
  | .imax fc fu fg fd fa fb fx => Sys2Proof.Machine.execImax fc fu fg fd fa fb fx s
  | .ishl fc fu fd fa fb fx => Sys2Proof.Machine.execIshl fc fu fd fa fb fx s
  | .ishr fc fu fg fd fa fb fx => Sys2Proof.Machine.execIshr fc fu fg fd fa fb fx s
  | .irot fc fu fd fa fb fx => Sys2Proof.Machine.execIrot fc fu fd fa fb fx s
  | .and fc fu fd fa fb fx => Sys2Proof.Machine.execAnd fc fu fd fa fb fx s
  | .or fc fu fd fa fb fx => Sys2Proof.Machine.execOr fc fu fd fa fb fx s
  | .xor fc fu fd fa fb fx => Sys2Proof.Machine.execXor fc fu fd fa fb fx s
  | .andn fc fu fd fa fb fx => Sys2Proof.Machine.execAndn fc fu fd fa fb fx s
  | .clz fc fu fd fa => Sys2Proof.Machine.execClz fc fu fd fa s
  | .popc fc fu fd fa => Sys2Proof.Machine.execPopc fc fu fd fa s
  | .brev fc fu fd fa => Sys2Proof.Machine.execBrev fc fu fd fa s
  | .bfx fc fu fg fd fa fb fx => Sys2Proof.Machine.execBfx fc fu fg fd fa fb fx s
  | .bfi fc fu fd fa fb fx => Sys2Proof.Machine.execBfi fc fu fd fa fb fx s
  | .icmp fc fu fk fp fa fb fx => Sys2Proof.Machine.execIcmp fc fu fk fp fa fb fx s
  | .plog fc fu fl fd fa fb => Sys2Proof.Machine.execPlog fc fu fl fd fa fb s
  | .movW32 fc fu fd fb fx => Sys2Proof.Machine.execMovW32 fc fu fd fb fx s
  | .movW64 fc fu fd fb fx => Sys2Proof.Machine.execMovW64 fc fu fd fb fx s
  | .movS fc fu fd fb fx => Sys2Proof.Machine.execMovS fc fu fd fb fx s
  | .movi fc fu fd fi => Sys2Proof.Machine.execMovi fc fu fd fi s
  | .movhi fc fu fd fi => Sys2Proof.Machine.execMovhi fc fu fd fi s
  | .add64 fc fu fd fk fa fb fx => Sys2Proof.Machine.execAdd64 fc fu fd fk fa fb fx s
  | .sub64 fc fu fd fk fa fb fx => Sys2Proof.Machine.execSub64 fc fu fd fk fa fb fx s
  | .mul64 fc fu fd fk fa fb fx => Sys2Proof.Machine.execMul64 fc fu fd fk fa fb fx s
  | .shl64 fc fu fd fk fa fb fx => Sys2Proof.Machine.execShl64 fc fu fd fk fa fb fx s
  | .shr64 fc fu fg fd fk fa fb fx => Sys2Proof.Machine.execShr64 fc fu fg fd fk fa fb fx s
  | .cmp64 fc fu fn fp fk fa fb fx => Sys2Proof.Machine.execCmp64 fc fu fn fp fk fa fb fx s
  | .bra fc fu fp fs fo => Sys2Proof.Machine.execBra fc fu fp fs fo s
  | .jmp fc fu fi => Sys2Proof.Machine.execJmp fc fu fi s
  | .call fc fu fi => Sys2Proof.Machine.execCall fc fu fi s
  | .ret fc fu fa => Sys2Proof.Machine.execRet fc fu fa s
  | .exit fc fu => Sys2Proof.Machine.execExit fc fu s
  | .brx fc fu fa fb fx => Sys2Proof.Machine.execBrx fc fu fa fb fx s
  | .vote fc fu fd ff fp => Sys2Proof.Machine.execVote fc fu fd ff fp s
  | .rdsr fc fu fd fk fm => Sys2Proof.Machine.execRdsr fc fu fd fk fm s
  | .wrsr fc fu fk fa fm => Sys2Proof.Machine.execWrsr fc fu fk fa fm s
  | .taskSpawn fc fu fl ff fa fb fx => Sys2Proof.Machine.execTaskSpawn fc fu fl ff fa fb fx s
  | .taskDone fc => Sys2Proof.Machine.execTaskDone fc s
  | .ctrAdd fc fu fd fa fb fx => Sys2Proof.Machine.execCtrAdd fc fu fd fa fb fx s
  | .wqPop fc fu fd fa fw => Sys2Proof.Machine.execWqPop fc fu fd fa fw s
  | .wqPush fc fu fd fa fb fx => Sys2Proof.Machine.execWqPush fc fu fd fa fb fx s
  | .bar fc fu fa fs fn => Sys2Proof.Machine.execBar fc fu fa fs fn s
  | .barArrive fc fu fd fa fs fn => Sys2Proof.Machine.execBarArrive fc fu fd fa fs fn s
  | .barWait fc fu fa fs fn => Sys2Proof.Machine.execBarWait fc fu fa fs fn s
  | .roleGive fc fu fn => Sys2Proof.Machine.execRoleGive fc fu fn s
  | .roleClaim fc fu fn => Sys2Proof.Machine.execRoleClaim fc fu fn s
  | .park fc fu fd fa fb fx => Sys2Proof.Machine.execPark fc fu fd fa fb fx s
  | .trap fk => Sys2Proof.Machine.execTrap fk s
  | .sysret fc ff fa => Sys2Proof.Machine.execSysret fc ff fa s
  | .watch fc fu fn fe ft fa => Sys2Proof.Machine.execWatch fc fu fn fe ft fa s
  | .clock fc fu fd fs fm => Sys2Proof.Machine.execClock fc fu fd fs fm s
  | .pmark fc fi => Sys2Proof.Machine.execPmark fc fi s
  | .hold fc fu fd fa => Sys2Proof.Machine.execHold fc fu fd fa s
  | .cap fc fu fd fb fx => Sys2Proof.Machine.execCap fc fu fd fb fx s
  | .sleep fc fu fn => Sys2Proof.Machine.execSleep fc fu fn s
  | .fadd fc fu fd fa fb fx => Sys2Proof.Machine.execFadd fc fu fd fa fb fx s
  | .fsub fc fu fd fa fb fx => Sys2Proof.Machine.execFsub fc fu fd fa fb fx s
  | .fmul fc fu fd fa fb fx => Sys2Proof.Machine.execFmul fc fu fd fa fb fx s
  | .ffma fc fu fd fa fb fx => Sys2Proof.Machine.execFfma fc fu fd fa fb fx s
  | .fmin fc fu fd fa fb fx => Sys2Proof.Machine.execFmin fc fu fd fa fb fx s
  | .fmax fc fu fd fa fb fx => Sys2Proof.Machine.execFmax fc fu fd fa fb fx s
  | .fcmp fc fu fk fp fa fb fx => Sys2Proof.Machine.execFcmp fc fu fk fp fa fb fx s
  | .frcp fc fu fd fa => Sys2Proof.Machine.execFrcp fc fu fd fa s
  | .frsq fc fu fd fa => Sys2Proof.Machine.execFrsq fc fu fd fa s
  | .fsqrt fc fu fd fa => Sys2Proof.Machine.execFsqrt fc fu fd fa s
  | .fdiv fc fu fd fa fb fx => Sys2Proof.Machine.execFdiv fc fu fd fa fb fx s
  | .fexp2 fc fu fd fa => Sys2Proof.Machine.execFexp2 fc fu fd fa s
  | .flog2 fc fu fd fa => Sys2Proof.Machine.execFlog2 fc fu fd fa s
  | .fsin fc fu fd fa => Sys2Proof.Machine.execFsin fc fu fd fa s
  | .fcos fc fu fd fa => Sys2Proof.Machine.execFcos fc fu fd fa s
  | .frnd fc fu fd fa fm => Sys2Proof.Machine.execFrnd fc fu fd fa fm s
  | .fclass fc fu fd fa => Sys2Proof.Machine.execFclass fc fu fd fa s
  | .fscale fc fu fd fa fb fx => Sys2Proof.Machine.execFscale fc fu fd fa fb fx s
  | .dadd fc fu ff fd fa fb fx => Sys2Proof.Machine.execDadd fc fu ff fd fa fb fx s
  | .dmul fc fu fd fa fb fx => Sys2Proof.Machine.execDmul fc fu fd fa fb fx s
  | .dfma fc fu fd fa fb fx => Sys2Proof.Machine.execDfma fc fu fd fa fb fx s
  | .dminmax fc fu ff fd fa fb fx => Sys2Proof.Machine.execDminmax fc fu ff fd fa fb fx s
  | .dcmp fc fu fk fp fa fb fx => Sys2Proof.Machine.execDcmp fc fu fk fp fa fb fx s
  | .hadd2 fc fu fd fa fb fx => Sys2Proof.Machine.execHadd2 fc fu fd fa fb fx s
  | .hmul2 fc fu fd fa fb fx => Sys2Proof.Machine.execHmul2 fc fu fd fa fb fx s
  | .hfma2 fc fu fd fa fb fx => Sys2Proof.Machine.execHfma2 fc fu fd fa fb fx s
  | .bfma2 fc fu fd fa fb fx => Sys2Proof.Machine.execBfma2 fc fu fd fa fb fx s
  | .cvt fc fu ft fs fm fd fa => Sys2Proof.Machine.execCvt fc fu ft fs fm fd fa s
  | .cvtpk fc fu ff fm fa fb fx => Sys2Proof.Machine.execCvtpk fc fu ff fm fa fb fx s
  | .cvtupk fc fu ff fa fb fx => Sys2Proof.Machine.execCvtupk fc fu ff fa fb fx s
  | .shfl fc fu fd fa fb fx => Sys2Proof.Machine.execShfl fc fu fd fa fb fx s
  | .bcast fc fu fd fa fp => Sys2Proof.Machine.execBcast fc fu fd fa fp s
  | .lred fc fu fd fa fo => Sys2Proof.Machine.execLred fc fu fd fa fo s
  | .lscan fc fu fd fa fo fe => Sys2Proof.Machine.execLscan fc fu fd fa fo fe s
  | .cellkey fc fu fd fa fb fx => Sys2Proof.Machine.execCellkey fc fu fd fa fb fx s
  | .fdot2 fc fu ft fd fa fb fx => Sys2Proof.Machine.execFdot2 fc fu ft fd fa fb fx s
  | .ldg fc fu fd fa fs fo => Sys2Proof.Machine.execLdg fc fu fd fa fs fo s
  | .stg fc fu fd fa fs fo => Sys2Proof.Machine.execStg fc fu fd fa fs fo s
  | .lds fc fu fd fa fs fw fo => Sys2Proof.Machine.execLds fc fu fd fa fs fw fo s
  | .sts fc fu fd fa fs fw fo => Sys2Proof.Machine.execSts fc fu fd fa fs fw fo s
  | .ldp fc fu fd fa fs fo => Sys2Proof.Machine.execLdp fc fu fd fa fs fo s
  | .stp fc fu fd fa fs fo => Sys2Proof.Machine.execStp fc fu fd fa fs fo s
  | .ldacq fc fu fd fa fs fz => Sys2Proof.Machine.execLdacq fc fu fd fa fs fz s
  | .strel fc fu fd fa fs fz => Sys2Proof.Machine.execStrel fc fu fd fa fs fz s
  | .atadd fc fu fd fa fs fo fw fv => Sys2Proof.Machine.execAtadd fc fu fd fa fs fo fw fv s
  | .atminmax fc fu fd fa fs fo fw fv => Sys2Proof.Machine.execAtminmax fc fu fd fa fs fo fw fv s
  | .atlogic fc fu fd fa fs fo fw fv => Sys2Proof.Machine.execAtlogic fc fu fd fa fs fo fw fv s
  | .atxchg fc fu fd fa fs fo fw => Sys2Proof.Machine.execAtxchg fc fu fd fa fs fo fw s
  | .atcas fc fu fd fa fs fo fw => Sys2Proof.Machine.execAtcas fc fu fd fa fs fo fw s
  | .bankAdd fc fu fd fa ft => Sys2Proof.Machine.execBankAdd fc fu fd fa ft s
  | .bankFx fc fu fd fa ft => Sys2Proof.Machine.execBankFx fc fu fd fa ft s
  | .bankFxread fc fu fd fa ft => Sys2Proof.Machine.execBankFxread fc fu fd fa ft s
  | .bankApp fc fu fd fa ft => Sys2Proof.Machine.execBankApp fc fu fd fa ft s
  | .bankAxpy fc fu fd fa ft ff => Sys2Proof.Machine.execBankAxpy fc fu fd fa ft ff s
  | .bankRed fc fu fd fa ft ff => Sys2Proof.Machine.execBankRed fc fu fd fa ft ff s
  | .fence fc fu fs fk => Sys2Proof.Machine.execFence fc fu fs fk s
  | .fenceRng fc fu fs fk fa fb => Sys2Proof.Machine.execFenceRng fc fu fs fk fa fb s
  | .cpyL fc fu fd fz fa fb ff fn => Sys2Proof.Machine.execCpyL fc fu fd fz fa fb ff fn s
  | .cpyT fc fu fd fa fw fi ff => Sys2Proof.Machine.execCpyT fc fu fd fa fw fi ff s
  | .trywait fc fu fp ff fn => Sys2Proof.Machine.execTrywait fc fu fp ff fn s
  | .pref fc fu ft fa fs fo => Sys2Proof.Machine.execPref fc fu ft fa fs fo s
  | .ldk fc fu fa => Sys2Proof.Machine.execLdk fc fu fa s
  | .stkCtx fc fu fd fa fb => Sys2Proof.Machine.execStkCtx fc fu fd fa fb s
  | .flushl1 fc fu => Sys2Proof.Machine.execFlushl1 fc fu s
  | .mma fc ft fa fh fr fz fm => Sys2Proof.Machine.execMma fc ft fa fh fr fz fm s
  | .accLd fc ft fs fa fg fn ff => Sys2Proof.Machine.execAccLd fc ft fs fa fg fn ff s
  | .accSt fc ft fs fa fg fn ff => Sys2Proof.Machine.execAccSt fc ft fs fa fg fn ff s
  | .accStrows fc ft fp fa ff => Sys2Proof.Machine.execAccStrows fc ft fp fa ff s
  | .accZero fc ft fp => Sys2Proof.Machine.execAccZero fc ft fp s
  | .resAlloc fc fu fd fa => Sys2Proof.Machine.execResAlloc fc fu fd fa s
  | .resLoad fc fu fd fa ff => Sys2Proof.Machine.execResLoad fc fu fd fa ff s
  | .resPin fc fu fa fs => Sys2Proof.Machine.execResPin fc fu fa fs s
  | .resFree fc fu fa => Sys2Proof.Machine.execResFree fc fu fa s
  | .resQuery fc fu fd fa => Sys2Proof.Machine.execResQuery fc fu fd fa s
  | .resHeat fc fu fd fa fb => Sys2Proof.Machine.execResHeat fc fu fd fa fb s
  | .resAge fc fu fa => Sys2Proof.Machine.execResAge fc fu fa s
  | .resMigrate fc fu fd fa fb ff => Sys2Proof.Machine.execResMigrate fc fu fd fa fb ff s
  | .mfmt fc fu fd fa fb fs fi => Sys2Proof.Machine.execMfmt fc fu fd fa fb fs fi s
  | .fireSet fc fu fg fa => Sys2Proof.Machine.execFireSet fc fu fg fa s
  | .budgetRd fc fu fd fs => Sys2Proof.Machine.execBudgetRd fc fu fd fs s
  | .tag fc fu fd fa => Sys2Proof.Machine.execTag fc fu fd fa s
  | .mkt fc fu fd ft fb fx => Sys2Proof.Machine.execMkt fc fu fd ft fb fx s
  | .mkvar fc fd => Sys2Proof.Machine.execMkvar fc fd s
  | .mkstr fc fd fm fa fb fx => Sys2Proof.Machine.execMkstr fc fd fm fa fb fx s
  | .arg fc fu fd fm fa fb fx => Sys2Proof.Machine.execArg fc fu fd fm fa fb fx s
  | .deref fc fu fd fa => Sys2Proof.Machine.execDeref fc fu fd fa s
  | .unifyP fc fp fa fb fx => Sys2Proof.Machine.execUnifyP fc fp fa fb fx s
  | .unifyF fc fa fb fx => Sys2Proof.Machine.execUnifyF fc fa fb fx s
  | .bind fc fa fb fx => Sys2Proof.Machine.execBind fc fa fb fx s
  | .choice fc fn fb fx => Sys2Proof.Machine.execChoice fc fn fb fx s
  | .retry fc fb fx => Sys2Proof.Machine.execRetry fc fb fx s
  | .trust fc => Sys2Proof.Machine.execTrust fc s
  | .fail fc => Sys2Proof.Machine.execFail fc s
  | .cut fc fb fx => Sys2Proof.Machine.execCut fc fb fx s
  | .adopt fc fp fa => Sys2Proof.Machine.execAdopt fc fp fa s
  | .publishOpen fc fb fx => Sys2Proof.Machine.execPublishOpen fc fb fx s
  | .publishClose fc fb fx => Sys2Proof.Machine.execPublishClose fc fb fx s
  | .btld fc fu fd fp fb fx => Sys2Proof.Machine.execBtld fc fu fd fp fb fx s
  | .faddi fc fu fd fi => Sys2Proof.Machine.execFaddi fc fu fd fi s
  | .fmuli fc fu fd fi => Sys2Proof.Machine.execFmuli fc fu fd fi s
  | .groupAged fcore fslot => Sys2Proof.Machine.execGroupAged fcore fslot s
  | .loadDataReturn fcore fid => Sys2Proof.Machine.execLoadDataReturn fcore fid s
  | .storeAck fcore fid => Sys2Proof.Machine.execStoreAck fcore fid s
  | .homeWrite fw => Sys2Proof.Machine.execHomeWrite fw s
  | .holdRelease fcore fid => Sys2Proof.Machine.execHoldRelease fcore fid s
  | .slotReclaim fcore fslot => Sys2Proof.Machine.execSlotReclaim fcore fslot s
  | .taskDoneDecrement fcore fteam => Sys2Proof.Machine.execTaskDoneDecrement fcore fteam s
  | .readyPushAccept fquad => Sys2Proof.Machine.execReadyPushAccept fquad s
  | .taskStart fquad => Sys2Proof.Machine.execTaskStart fquad s
  | .parkRecheck fcore fpa => Sys2Proof.Machine.execParkRecheck fcore fpa s
  | .parkTimeout fcore fslot flane => Sys2Proof.Machine.execParkTimeout fcore fslot flane s
  | .wqRefillDone fcore fslot flane => Sys2Proof.Machine.execWqRefillDone fcore fslot flane s
  | .barrierDelivery fcore fid => Sys2Proof.Machine.execBarrierDelivery fcore fid s
  | .sleepEnd fcore fslot => Sys2Proof.Machine.execSleepEnd fcore fslot s
  | .trywaitTimeout fcore fslot => Sys2Proof.Machine.execTrywaitTimeout fcore fslot s
  | .runAheadEnd fcore fslot => Sys2Proof.Machine.execRunAheadEnd fcore fslot s
  | .faultRecordWrite => Sys2Proof.Machine.execFaultRecordWrite s
  | .matrixPassDone fcore fid => Sys2Proof.Machine.execMatrixPassDone fcore fid s
  | .grottoRequest fcore fid => Sys2Proof.Machine.execGrottoRequest fcore fid s
  | .grottoResult fcore fid => Sys2Proof.Machine.execGrottoResult fcore fid s
  | .migrationComplete fcore fid => Sys2Proof.Machine.execMigrationComplete fcore fid s
  | .resLoadProceed fcore fid => Sys2Proof.Machine.execResLoadProceed fcore fid s
  | .resLoadComplete fcore fid => Sys2Proof.Machine.execResLoadComplete fcore fid s
  | .copyComplete fp fid => Sys2Proof.Machine.execCopyComplete fp fid s
  | .bankStreamComplete fcore fid => Sys2Proof.Machine.execBankStreamComplete fcore fid s
  | .contextImageComplete fcore fid => Sys2Proof.Machine.execContextImageComplete fcore fid s
  | .saveTeam fcore fmask => Sys2Proof.Machine.execSaveTeam fcore fmask s
  | .restoreTeam fcore => Sys2Proof.Machine.execRestoreTeam fcore s
  | .teamReturn fcore => Sys2Proof.Machine.execTeamReturn fcore s
  | .returnGroup fcore fmask => Sys2Proof.Machine.execReturnGroup fcore fmask s
  | .terminate fcore fmask => Sys2Proof.Machine.execTerminate fcore fmask s
  | .launchBundle fthread => Sys2Proof.Machine.execLaunchBundle fthread s
  | .waitPacket fthread => Sys2Proof.Machine.execWaitPacket fthread s
  | .waitPacketTest fthread => Sys2Proof.Machine.execWaitPacketTest fthread s
  | .waitPacketTimeout fthread => Sys2Proof.Machine.execWaitPacketTimeout fthread s
  | .unknownCommand fthread => Sys2Proof.Machine.execUnknownCommand fthread s
  | .subLaunchComplete fthread fcmd fsub => Sys2Proof.Machine.execSubLaunchComplete fthread fcmd fsub s
  | .mcoffWrite fi fvalue => Sys2Proof.Machine.execMcoffWrite fi fvalue s
  | .invalidate fvalue => Sys2Proof.Machine.execInvalidate fvalue s
  | .invalidationDone => Sys2Proof.Machine.execInvalidationDone s
  | .staleMark fvalue => Sys2Proof.Machine.execStaleMark fvalue s
  | .staleMarkDone => Sys2Proof.Machine.execStaleMarkDone s
  | .klockSet fvalue => Sys2Proof.Machine.execKlockSet fvalue s
  | .plimitWrite fvalue => Sys2Proof.Machine.execPlimitWrite fvalue s
  | .sfaultClear fvalue => Sys2Proof.Machine.execSfaultClear fvalue s
  | .telemetryCounterClear fcore freg fvalue => Sys2Proof.Machine.execTelemetryCounterClear fcore freg fvalue s
  | .attestationRequest fvalue => Sys2Proof.Machine.execAttestationRequest fvalue s
  | .attestationDone => Sys2Proof.Machine.execAttestationDone s
  | .flrDrainEnd => Sys2Proof.Machine.execFlrDrainEnd s
  | .hostCompletion fcore fid ferr => Sys2Proof.Machine.execHostCompletion fcore fid ferr s
  | .remoteTimeout fcore fid => Sys2Proof.Machine.execRemoteTimeout fcore fid s
  | .portDown fport => Sys2Proof.Machine.execPortDown fport s
  | .fabricRead fport => Sys2Proof.Machine.execFabricRead fport s
  | .fabricWrite fport => Sys2Proof.Machine.execFabricWrite fport s
  | .fabricMaskedWrite fport => Sys2Proof.Machine.execFabricMaskedWrite fport s
  | .fabricAtomic fport => Sys2Proof.Machine.execFabricAtomic fport s
  | .fabricReply fport => Sys2Proof.Machine.execFabricReply fport s
  | .barrierArrivalMessage fport => Sys2Proof.Machine.execBarrierArrivalMessage fport s
  | .barrierCompletionMessage fport => Sys2Proof.Machine.execBarrierCompletionMessage fport s
  | .podBarrierTimeout fnum => Sys2Proof.Machine.execPodBarrierTimeout fnum s
  | .stallSample fdie => Sys2Proof.Machine.execStallSample fdie s
  | .debugQuiescent fcore => Sys2Proof.Machine.execDebugQuiescent fcore s
  | .notAnInstruction fw => Sys2Proof.Machine.execNotAnInstruction fw s
  | .literalLanding => Sys2Proof.Machine.execLiteralLanding s
  | .instructionFetchFault fc => Sys2Proof.Machine.execInstructionFetchFault fc s
  | .prefetchFill fcore fline => Sys2Proof.Machine.execPrefetchFill fcore fline s
  | .registerWrite fby foff fvalue => Sys2Proof.Machine.execRegisterWrite fby foff fvalue s
  | .doorbell fby fthread fvalue => Sys2Proof.Machine.execDoorbell fby fthread fvalue s
  | .belvedereMismatch => Sys2Proof.Machine.execBelvedereMismatch s
  | .issueControlMismatch fcore fsched => Sys2Proof.Machine.execIssueControlMismatch fcore fsched s
  | .functionLevelReset => Sys2Proof.Machine.execFunctionLevelReset s
  | .hostLinkDown => Sys2Proof.Machine.execHostLinkDown s
  | .storageDma fd => Sys2Proof.Machine.execStorageDma fd s
  | .flitReceive fport fflit => Sys2Proof.Machine.execFlitReceive fport fflit s
  | .portRetrain fport ft => Sys2Proof.Machine.execPortRetrain fport ft s
  | .hbmRequest fstack fr => Sys2Proof.Machine.execHbmRequest fstack fr s
  | .activationAlert fstack fpc fbank flate => Sys2Proof.Machine.execActivationAlert fstack fpc fbank flate s
  | .selfRefreshEntry fstack fchan frequest => Sys2Proof.Machine.execSelfRefreshEntry fstack fchan frequest s
  | .scrubPass ferrs => Sys2Proof.Machine.execScrubPass ferrs s
  | .powerWindow fwatts => Sys2Proof.Machine.execPowerWindow fwatts s
  | .dieOver105 fdie => Sys2Proof.Machine.execDieOver105 fdie s
  | .dieBelow100 fdie => Sys2Proof.Machine.execDieBelow100 fdie s
  | .thermalTrip fdie => Sys2Proof.Machine.execThermalTrip fdie s
  | .debugHalt fcore => Sys2Proof.Machine.execDebugHalt fcore s
  | .debugAccess fcore fa => Sys2Proof.Machine.execDebugAccess fcore fa s
  | .debugRelease fcore => Sys2Proof.Machine.execDebugRelease fcore s
  | .powerGood ft => Sys2Proof.Machine.execPowerGood ft s
  | .packageReset => Sys2Proof.Machine.execPackageReset s
  | .hostLinkUp frate fwidth => Sys2Proof.Machine.execHostLinkUp frate fwidth s
  | .hostAtomicop foff => Sys2Proof.Machine.execHostAtomicop foff s
  | .refreshDue fstack fpc fbank fpostpone => Sys2Proof.Machine.execRefreshDue fstack fpc fbank fpostpone s

end Sys2Proof.Machine
end

