-- ==== Sys2Proof/Machine/Info.lean ====
section
/-! DEFINITION. What the issue logic knows of an instruction word: its pipe (R214), the registers that it reads and
writes (R39, R199, R201 to R203), and how run-ahead treats it (R156, R157). -/

namespace Sys2Proof.Machine

/-- The pipes of a core (R27, R214). -/
inductive Pipe where
  | i
  | f
  | b
  | m
  | x
  | t
deriving DecidableEq, Repr

/-- How run-ahead treats a word (R156, R157). -/
inductive Ahead where
  /-- Computed lane by lane. -/
  | plain
  /-- Computed across lanes: one poisoned source lane poisons every result. -/
  | across
  /-- A branch: a poisoned condition or target ends the run-ahead. -/
  | branch
  /-- A load: its addresses are probed. -/
  | load
  /-- Another access: its addresses are probed, its results are poisoned. -/
  | probe
  /-- Skipped; its results are poisoned. -/
  | skip
  /-- The run-ahead ends here. -/
  | stop
deriving DecidableEq, Repr

/-- What is known of a word: its pipe; the sources that its result or its address depends on; its other sources; its
destinations; its way in run-ahead. -/
structure Info where
  pipe : Option Pipe
  srcs : List Reg
  data : List Reg
  dests : List Reg
  ahead : Ahead
deriving DecidableEq, Repr

/-- An event names no register. -/
def Info.event : Info := ⟨none, [], [], [], .stop⟩

/-- Consecutive vector registers. -/
def rv (n k : Nat) : List Reg := (List.range k).map fun i => .v (n + i)

/-- The pair that a 6-bit term field names (R203). -/
def rp (n : Nat) : List Reg := rv (2 * n) 2

/-- Four consecutive scalars. -/
def rs4 (n : Nat) : List Reg := (List.range 4).map fun i => .s (n + i)

/-- The base of global addresses (R262). -/
def rs0 : List Reg := [.s 0]

/-- What the 32-bit use of b reads (R202). -/
def rb (b : Nat) (x : Bool) : List Reg :=
  if !x then rv b 1 else if b < 48 then [.bank] else if b < 64 then [] else [.s (b - 64)]

/-- What the 64-bit use of b reads (R202). -/
def rb2 (b : Nat) (x : Bool) : List Reg := if !x then rv b 2 else rb b x

/-- The term registers that a search moves: `%hp`, `%tp`, `%cp` and `%vc` (R119 to R121). -/
def srTermAll : List Reg := [.sr 0x12, .sr 0x13, .sr 0x14, .sr 0x15]

/-- The registers of a size code (R203). -/
def szRegs (sz : Nat) : Nat := if sz = 5 then 2 else if sz = 6 then 4 else 1

/-- What is known of each word. `fail`, `adopt` and `unify.f` count as writing v0 to v31, whatever count the record in memory has
(R199; DESIGN CHOICE, assumption 83). -/
def infoOf (i : Instr) : Info :=
  match i with
  | .clause _ _ _ _ _ => ⟨(some .b), [], [], [], .stop⟩
  | .guard _ _ _ => ⟨none, [], [], [], .plain⟩
  | .nop _ => ⟨none, [], [], [], .plain⟩
  | .brk _ => ⟨(some .b), [], [], [], .stop⟩
  | .iadd _ _ d a b x => ⟨(some .i), (rv a.toNat 1 ++ rb b.toNat x), [], (rv d.toNat 1), .plain⟩
  | .isub _ _ d a b x => ⟨(some .i), (rv a.toNat 1 ++ rb b.toNat x), [], (rv d.toNat 1), .plain⟩
  | .imul _ _ d a b x => ⟨(some .i), (rv a.toNat 1 ++ rb b.toNat x), [], (rv d.toNat 1), .plain⟩
  | .imulh _ _ _ d a b x => ⟨(some .i), (rv a.toNat 1 ++ rb b.toNat x), [], (rv d.toNat 1), .plain⟩
  | .imad _ _ d a b x => ⟨(some .i), (rv d.toNat 1 ++ rv a.toNat 1 ++ rb b.toNat x), [], (rv d.toNat 1), .plain⟩
  | .iabs _ _ d a => ⟨(some .i), (rv a.toNat 1), [], (rv d.toNat 1), .plain⟩
  | .imin _ _ _ d a b x => ⟨(some .i), (rv a.toNat 1 ++ rb b.toNat x), [], (rv d.toNat 1), .plain⟩
  | .imax _ _ _ d a b x => ⟨(some .i), (rv a.toNat 1 ++ rb b.toNat x), [], (rv d.toNat 1), .plain⟩
  | .ishl _ _ d a b x => ⟨(some .i), (rv a.toNat 1 ++ rb b.toNat x), [], (rv d.toNat 1), .plain⟩
  | .ishr _ _ _ d a b x => ⟨(some .i), (rv a.toNat 1 ++ rb b.toNat x), [], (rv d.toNat 1), .plain⟩
  | .irot _ _ d a b x => ⟨(some .i), (rv a.toNat 1 ++ rb b.toNat x), [], (rv d.toNat 1), .plain⟩
  | .and _ _ d a b x => ⟨(some .i), (rv a.toNat 1 ++ rb b.toNat x), [], (rv d.toNat 1), .plain⟩
  | .or _ _ d a b x => ⟨(some .i), (rv a.toNat 1 ++ rb b.toNat x), [], (rv d.toNat 1), .plain⟩
  | .xor _ _ d a b x => ⟨(some .i), (rv a.toNat 1 ++ rb b.toNat x), [], (rv d.toNat 1), .plain⟩
  | .andn _ _ d a b x => ⟨(some .i), (rv a.toNat 1 ++ rb b.toNat x), [], (rv d.toNat 1), .plain⟩
  | .clz _ _ d a => ⟨(some .i), (rv a.toNat 1), [], (rv d.toNat 1), .plain⟩
  | .popc _ _ d a => ⟨(some .i), (rv a.toNat 1), [], (rv d.toNat 1), .plain⟩
  | .brev _ _ d a => ⟨(some .i), (rv a.toNat 1), [], (rv d.toNat 1), .plain⟩
  | .bfx _ _ _ d a b x => ⟨(some .i), (rv a.toNat 1 ++ rb b.toNat x), [], (rv d.toNat 1), .plain⟩
  | .bfi _ _ d a b x => ⟨(some .i), (rv d.toNat 1 ++ rv a.toNat 1 ++ rb b.toNat x), [], (rv d.toNat 1), .plain⟩
  | .icmp _ _ _ p a b x => ⟨(some .i), (rv a.toNat 1 ++ rb b.toNat x), [], [.p p.toNat], .plain⟩
  | .plog _ _ _ d a b => ⟨(some .i), [.p a.toNat, .p b.toNat], [], [.p d.toNat], .plain⟩
  | .movW32 _ _ d b x => ⟨(some .i), (rb b.toNat x), [], (rv d.toNat 1), .plain⟩
  | .movW64 _ _ d b x => ⟨(some .i), (rb2 b.toNat x), [], (rv d.toNat 2), .plain⟩
  | .movS _ _ d b x => ⟨(some .i), (if x then rb2 b.toNat x else rb b.toNat x), [], [.s d.toNat], .plain⟩
  | .movi _ _ d _ => ⟨(some .i), [], [], (rv d.toNat 1), .plain⟩
  | .movhi _ _ d _ => ⟨(some .i), [], [], (rv d.toNat 1), .plain⟩
  | .add64 _ _ d k a b x => ⟨(some .i), ((if k then [Reg.s a.toNat] else rv a.toNat 2) ++ rb2 b.toNat x), [], (if k then [.s d.toNat] else rv d.toNat 2), .plain⟩
  | .sub64 _ _ d k a b x => ⟨(some .i), ((if k then [Reg.s a.toNat] else rv a.toNat 2) ++ rb2 b.toNat x), [], (if k then [.s d.toNat] else rv d.toNat 2), .plain⟩
  | .mul64 _ _ d k a b x => ⟨(some .i), ((if k then [Reg.s a.toNat] else rv a.toNat 2) ++ rb2 b.toNat x), [], (if k then [.s d.toNat] else rv d.toNat 2), .plain⟩
  | .shl64 _ _ d k a b x => ⟨(some .i), ((if k then [Reg.s a.toNat] else rv a.toNat 2) ++ rb2 b.toNat x), [], (if k then [.s d.toNat] else rv d.toNat 2), .plain⟩
  | .shr64 _ _ _ d k a b x => ⟨(some .i), ((if k then [Reg.s a.toNat] else rv a.toNat 2) ++ rb2 b.toNat x), [], (if k then [.s d.toNat] else rv d.toNat 2), .plain⟩
  | .cmp64 _ _ _ p k a b x => ⟨(some .i), ((if k then [Reg.s a.toNat] else rv a.toNat 2) ++ rb2 b.toNat x), [], [.p p.toNat], .plain⟩
  | .bra _ _ p _ _ => ⟨(some .b), [.p p.toNat], [], [], .branch⟩
  | .jmp _ _ _ => ⟨(some .b), [], [], [], .branch⟩
  | .call _ _ _ => ⟨(some .b), [], [], (rv 0 1), .branch⟩
  | .ret _ _ a => ⟨(some .b), (rv a.toNat 1), [], [], .branch⟩
  | .exit _ _ => ⟨(some .b), [], [], [], .stop⟩
  | .brx _ _ a b x => ⟨(some .b), (rv a.toNat 1 ++ rb b.toNat x), [], [], .branch⟩
  | .vote _ _ d f p => ⟨(some .b), [.p p.toNat], [], (if f.toNat < 2 then [.p d.toNat] else rv d.toNat 1), .across⟩
  | .rdsr _ _ d k m => ⟨(some .b), [.sr m.toNat], [], (if k = 1 then [.s d.toNat] else rv d.toNat (if srWide m.toNat then 2 else 1)), .plain⟩
  | .wrsr _ _ k a m =>
    let src := if k = 1 then [Reg.s a.toNat] else rv a.toNat (if srWide m.toNat then 2 else 1)
    if m = 0x18 then ⟨(some .b), src, [], [.sr 0x18, .sr 0x12, .sr 0x13, .sr 0x14], .load⟩
    else ⟨(some .b), src, [], [.sr m.toNat], if srTerm m.toNat then .plain else .across⟩
  | .taskSpawn _ _ l _ a b x => ⟨(some .m), (rv a.toNat 2 ++ (if l then rb b.toNat x else [])), [], [], .skip⟩
  | .taskDone _ => ⟨(some .b), [], [], [], .stop⟩
  | .ctrAdd _ _ d a b x => ⟨(some .m), (rv a.toNat 2 ++ rb b.toNat x), [], (rv d.toNat 1), .skip⟩
  | .wqPop _ _ d a w => ⟨(some .m), (rv a.toNat 2), [], (rv d.toNat 2), if w then .stop else .skip⟩
  | .wqPush _ _ d a b x => ⟨(some .m), (rv a.toNat 2 ++ rb2 b.toNat x), [], (rv d.toNat 1), .skip⟩
  | .bar _ _ a _ _ => ⟨(some .b), [.s a.toNat], [], [], .stop⟩
  | .barArrive _ _ d a _ _ => ⟨(some .b), [.s a.toNat], [], [.s d.toNat], .skip⟩
  | .barWait _ _ a _ _ => ⟨(some .b), [.s a.toNat], [], [], .stop⟩
  | .roleGive _ _ _ => ⟨(some .b), [], [], [], .skip⟩
  | .roleClaim _ _ _ => ⟨(some .b), [], [], [], .skip⟩
  | .park _ _ d a b x => ⟨(some .m), (rv a.toNat 2 ++ rb b.toNat x), [], (rv d.toNat 1), .stop⟩
  | .trap _ => ⟨(some .b), [], [], [], .stop⟩
  | .sysret _ _ a => ⟨(some .b), (rv a.toNat 1), [], [], .skip⟩
  | .watch _ _ _ _ _ a => ⟨(some .b), (rs4 a.toNat), [], [], .skip⟩
  | .clock _ _ d _ _ => ⟨(some .b), [], [], [.s d.toNat], .skip⟩
  | .pmark _ _ => ⟨(some .b), [], [], [], .skip⟩
  | .hold _ _ d a => ⟨(some .b), (rs4 a.toNat), [], (rv d.toNat 1), .skip⟩
  | .cap _ _ d b x => ⟨(some .b), (rb b.toNat x), [], (rv d.toNat 2), .skip⟩
  | .sleep _ _ _ => ⟨(some .b), [], [], [], .skip⟩
  | .fadd _ _ d a b x => ⟨(some .f), (rv a.toNat 1 ++ rb b.toNat x), [], (rv d.toNat 1), .plain⟩
  | .fsub _ _ d a b x => ⟨(some .f), (rv a.toNat 1 ++ rb b.toNat x), [], (rv d.toNat 1), .plain⟩
  | .fmul _ _ d a b x => ⟨(some .f), (rv a.toNat 1 ++ rb b.toNat x), [], (rv d.toNat 1), .plain⟩
  | .ffma _ _ d a b x => ⟨(some .f), (rv d.toNat 1 ++ rv a.toNat 1 ++ rb b.toNat x), [], (rv d.toNat 1), .plain⟩
  | .fmin _ _ d a b x => ⟨(some .f), (rv a.toNat 1 ++ rb b.toNat x), [], (rv d.toNat 1), .plain⟩
  | .fmax _ _ d a b x => ⟨(some .f), (rv a.toNat 1 ++ rb b.toNat x), [], (rv d.toNat 1), .plain⟩
  | .fcmp _ _ _ p a b x => ⟨(some .f), (rv a.toNat 1 ++ rb b.toNat x), [], [.p p.toNat], .plain⟩
  | .frcp _ _ d a => ⟨(some .f), (rv a.toNat 1), [], (rv d.toNat 1), .plain⟩
  | .frsq _ _ d a => ⟨(some .f), (rv a.toNat 1), [], (rv d.toNat 1), .plain⟩
  | .fsqrt _ _ d a => ⟨(some .f), (rv a.toNat 1), [], (rv d.toNat 1), .plain⟩
  | .fdiv _ _ d a b x => ⟨(some .f), (rv a.toNat 1 ++ rb b.toNat x), [], (rv d.toNat 1), .plain⟩
  | .fexp2 _ _ d a => ⟨(some .f), (rv a.toNat 1), [], (rv d.toNat 1), .plain⟩
  | .flog2 _ _ d a => ⟨(some .f), (rv a.toNat 1), [], (rv d.toNat 1), .plain⟩
  | .fsin _ _ d a => ⟨(some .f), (rv a.toNat 1), [], (rv d.toNat 1), .plain⟩
  | .fcos _ _ d a => ⟨(some .f), (rv a.toNat 1), [], (rv d.toNat 1), .plain⟩
  | .frnd _ _ d a _ => ⟨(some .f), (rv a.toNat 1), [], (rv d.toNat 1), .plain⟩
  | .fclass _ _ d a => ⟨(some .f), (rv a.toNat 1), [], (rv d.toNat 1), .plain⟩
  | .fscale _ _ d a b x => ⟨(some .f), (rv a.toNat 1 ++ rb b.toNat x), [], (rv d.toNat 1), .plain⟩
  | .dadd _ _ _ d a b x => ⟨(some .f), (rv a.toNat 2 ++ rb2 b.toNat x), [], (rv d.toNat 2), .plain⟩
  | .dmul _ _ d a b x => ⟨(some .f), (rv a.toNat 2 ++ rb2 b.toNat x), [], (rv d.toNat 2), .plain⟩
  | .dfma _ _ d a b x => ⟨(some .f), (rv d.toNat 2 ++ rv a.toNat 2 ++ rb2 b.toNat x), [], (rv d.toNat 2), .plain⟩
  | .dminmax _ _ _ d a b x => ⟨(some .f), (rv a.toNat 2 ++ rb2 b.toNat x), [], (rv d.toNat 2), .plain⟩
  | .dcmp _ _ _ p a b x => ⟨(some .f), (rv a.toNat 2 ++ rb2 b.toNat x), [], [.p p.toNat], .plain⟩
  | .hadd2 _ _ d a b x => ⟨(some .f), (rv a.toNat 1 ++ rb b.toNat x), [], (rv d.toNat 1), .plain⟩
  | .hmul2 _ _ d a b x => ⟨(some .f), (rv a.toNat 1 ++ rb b.toNat x), [], (rv d.toNat 1), .plain⟩
  | .hfma2 _ _ d a b x => ⟨(some .f), (rv d.toNat 1 ++ rv a.toNat 1 ++ rb b.toNat x), [], (rv d.toNat 1), .plain⟩
  | .bfma2 _ _ d a b x => ⟨(some .f), (rv d.toNat 1 ++ rv a.toNat 1 ++ rb b.toNat x), [], (rv d.toNat 1), .plain⟩
  | .cvt _ _ t s _ d a => ⟨(some .f), (rv a.toNat (if s.toNat = 15 then 2 else 1)), [], (rv d.toNat (if t.toNat = 15 then 2 else 1)), .plain⟩
  | .cvtpk _ _ f _ a b x => ⟨(some .f), (rv a.toNat (packShape f.toNat).1 ++ rb b.toNat x), [], (rv a.toNat (packShape f.toNat).2), .plain⟩
  | .cvtupk _ _ f a b x => ⟨(some .f), (rv a.toNat (packShape f.toNat).2 ++ rb b.toNat x), [], (rv a.toNat (packShape f.toNat).1), .plain⟩
  | .shfl _ _ d a b x => ⟨(some .i), (rv a.toNat 1 ++ rb b.toNat x), [], (rv d.toNat 1), .across⟩
  | .bcast _ _ d a p => ⟨(some .i), (rv a.toNat 1 ++ [.p p.toNat]), [], (rv d.toNat 1), .across⟩
  | .lred _ _ d a _ => ⟨(some .i), (rv a.toNat 1), [], (rv d.toNat 1), .across⟩
  | .lscan _ _ d a _ _ => ⟨(some .i), (rv a.toNat 1), [], (rv d.toNat 1), .across⟩
  | .cellkey _ _ d a b x => ⟨(some .i), (rv a.toNat 3 ++ rb b.toNat x), [], (rv d.toNat 1), .plain⟩
  | .fdot2 _ _ _ d a b x => ⟨(some .f), (rv d.toNat 1 ++ rv a.toNat 1 ++ rb b.toNat x), [], (rv d.toNat 1), .plain⟩
  | .ldg _ _ d a s _ => ⟨(some .m), (rs0 ++ rv a.toNat 1), [], (rv d.toNat (szRegs s.toNat)), .load⟩
  | .stg _ _ d a s _ => ⟨(some .m), (rs0 ++ rv a.toNat 1), (rv d.toNat (szRegs s.toNat)), [], .probe⟩
  | .lds _ _ d a s _ _ => ⟨(some .m), (rv a.toNat 1), [], (rv d.toNat (szRegs s.toNat)), .load⟩
  | .sts _ _ d a s _ _ => ⟨(some .m), (rv a.toNat 1), (rv d.toNat (szRegs s.toNat)), [], .probe⟩
  | .ldp _ _ d a s _ => ⟨(some .m), (rv a.toNat 1), [], (rv d.toNat (szRegs s.toNat)), .load⟩
  | .stp _ _ d a s _ => ⟨(some .m), (rv a.toNat 1), (rv d.toNat (szRegs s.toNat)), [], .probe⟩
  | .ldacq _ _ d a _ z => ⟨(some .m), (rs0 ++ rv a.toNat 1), [], (rv d.toNat (szRegs z.toNat)), .load⟩
  | .strel _ _ d a _ z => ⟨(some .m), (rs0 ++ rv a.toNat 1), (rv d.toNat (szRegs z.toNat)), [], .probe⟩
  | .atadd _ _ d a _ _ w _ => ⟨(some .m), (rs0 ++ rv a.toNat 1), (rv d.toNat (if w then 2 else 1)), (rv d.toNat (if w then 2 else 1)), .probe⟩
  | .atminmax _ _ d a _ _ w _ => ⟨(some .m), (rs0 ++ rv a.toNat 1), (rv d.toNat (if w then 2 else 1)), (rv d.toNat (if w then 2 else 1)), .probe⟩
  | .atlogic _ _ d a _ _ w _ => ⟨(some .m), (rs0 ++ rv a.toNat 1), (rv d.toNat (if w then 2 else 1)), (rv d.toNat (if w then 2 else 1)), .probe⟩
  | .atxchg _ _ d a _ _ w => ⟨(some .m), (rs0 ++ rv a.toNat 1), (rv d.toNat (if w then 2 else 1)), (rv d.toNat (if w then 2 else 1)), .probe⟩
  | .atcas _ _ d a _ _ w => ⟨(some .m), (rs0 ++ rv a.toNat 1), (rv d.toNat (2 * (if w then 2 else 1))), (rv d.toNat (if w then 2 else 1)), .probe⟩
  | .bankAdd _ _ d a t => ⟨(some .m), (rv a.toNat 1), (rv d.toNat (if t = 1 then 2 else 1)), [], .skip⟩
  | .bankFx _ _ d a t => ⟨(some .m), (rv a.toNat 1), (rv d.toNat (if t = 1 then 2 else 1)), [], .skip⟩
  | .bankFxread _ _ d a _ => ⟨(some .m), (rv a.toNat 1), [], (rv d.toNat 4), .skip⟩
  | .bankApp _ _ d a t => ⟨(some .m), (rv a.toNat 1), (rv d.toNat (if t = 1 then 2 else 1)), (rv d.toNat 1), .skip⟩
  | .bankAxpy _ _ d a _ _ => ⟨(some .m), (rs4 a.toNat), [], (rv d.toNat 1), .skip⟩
  | .bankRed _ _ d a _ _ => ⟨(some .m), (rs4 a.toNat), [], (rv d.toNat 1), .skip⟩
  | .fence _ _ _ _ => ⟨(some .m), [], [], [], .skip⟩
  | .fenceRng _ _ _ _ a b => ⟨(some .m), [.s a.toNat, .s b.toNat], [], [], .skip⟩
  | .cpyL _ _ d _ a b _ n => ⟨(some .m), (rs0 ++ rv a.toNat 1 ++ rv b.toNat 1), (if n then rv d.toNat 2 else []), (rv d.toNat 1), .probe⟩
  | .cpyT _ _ d a _ _ _ => ⟨(some .m), (rs4 a.toNat), [], (rv d.toNat 1), .probe⟩
  | .trywait _ _ p _ _ => ⟨(some .b), [], [], [.p p.toNat], .skip⟩
  | .pref _ _ _ a _ _ => ⟨(some .m), (rs0 ++ rv a.toNat 1), [], [], .skip⟩
  | .ldk _ _ a => ⟨(some .m), [.s a.toNat], [], [.bank], .load⟩
  | .stkCtx _ _ d a _ => ⟨(some .m), [.s a.toNat], [], (rv d.toNat 1), .probe⟩
  | .flushl1 _ _ => ⟨(some .m), [], [], [], .skip⟩
  | .mma _ t a h _ _ m => ⟨(some .x), (rv a.toNat 1 ++ [.s h.toNat]), [], (if m = 1 then [.acc t.toNat, .acc (t.toNat + 1)] else [.acc t.toNat]), .skip⟩
  | .accLd _ t s a _ _ _ => ⟨(some .x), ((if s then [] else rs0) ++ rv a.toNat 1), [], [.acc t.toNat], .probe⟩
  | .accSt _ t s a _ _ _ => ⟨(some .x), ((if s then [] else rs0) ++ rv a.toNat 1), [.acc t.toNat], [], .probe⟩
  | .accStrows _ t p a _ => ⟨(some .x), [.s a.toNat, .s (a.toNat + 1)], (if p then [.acc t.toNat, .acc (t.toNat + 1)] else [.acc t.toNat]), [], .probe⟩
  | .accZero _ t p => ⟨(some .x), [], [], (if p then [.acc t.toNat, .acc (t.toNat + 1)] else [.acc t.toNat]), .skip⟩
  | .resAlloc _ _ d a => ⟨(some .x), [.s a.toNat], [], [.s d.toNat, .s (d.toNat + 1)], .skip⟩
  | .resLoad _ _ d a _ => ⟨(some .x), (rs4 a.toNat), [], (rv d.toNat 1), .probe⟩
  | .resPin _ _ a _ => ⟨(some .x), [.s a.toNat], [], [], .skip⟩
  | .resFree _ _ a => ⟨(some .x), [.s a.toNat], [], [], .skip⟩
  | .resQuery _ _ d a => ⟨(some .x), [.s a.toNat], [], [.s d.toNat], .plain⟩
  | .resHeat _ _ d a b => ⟨(some .x), ([.s a.toNat] ++ rv b.toNat 1), [], (rv d.toNat 1), .plain⟩
  | .resAge _ _ a => ⟨(some .x), [.s a.toNat], [], [], .skip⟩
  | .resMigrate _ _ d a b _ => ⟨(some .x), ([.s a.toNat] ++ rv b.toNat 1), [], (rv d.toNat 1), .skip⟩
  | .mfmt _ _ d _ _ _ _ => ⟨(some .i), [], [], (rv d.toNat 1), .plain⟩
  | .fireSet _ _ _ a => ⟨(some .x), (rv a.toNat 1), [], [], .plain⟩
  | .budgetRd _ _ d _ => ⟨(some .b), [], [], [.s d.toNat], .plain⟩
  | .tag _ _ d a => ⟨(some .i), (rp a.toNat), [], (rv (2 * d.toNat) 1), .plain⟩
  | .mkt _ _ d _ b x => ⟨(some .i), (rb2 b.toNat x), [], (rp d.toNat), .plain⟩
  | .mkvar _ d => ⟨(some .t), [.sr 0x15, .sr 0x16], [], (rp d.toNat ++ [.sr 0x15]), .plain⟩
  | .mkstr _ d m a b x => ⟨(some .t), ((if m = 0 then rv (2 * a.toNat) 32 else rp a.toNat ++ rp (a.toNat + 1)) ++ rb2 b.toNat x ++ [.sr 0x12]), [], (rp d.toNat ++ [.sr 0x12]), .plain⟩
  | .arg _ _ d m a b x => ⟨(some .t), (rp a.toNat ++ (if m = 0 then rb b.toNat x else []) ++ [.sr 0x16]), [], (rp d.toNat), .plain⟩
  | .deref _ _ d a => ⟨(some .t), (rp a.toNat ++ [.sr 0x16]), [], (rp d.toNat), .plain⟩
  | .unifyP _ p a b x => ⟨(some .t), (rp a.toNat ++ rb2 b.toNat x ++ srTermAll), [], [.p p.toNat, .sr 0x13], .plain⟩
  | .unifyF _ a b x => ⟨(some .t), (rp a.toNat ++ rb2 b.toNat x ++ srTermAll), [], (rv 0 32 ++ srTermAll), .plain⟩
  | .bind _ a b x => ⟨(some .t), (rp a.toNat ++ rb2 b.toNat x ++ srTermAll), [], [.sr 0x13], .plain⟩
  | .choice _ n b x => ⟨(some .t), (rv 0 (2 * n.toNat) ++ rb b.toNat x ++ srTermAll), [], [.sr 0x14], .plain⟩
  | .retry _ b x => ⟨(some .t), (rb b.toNat x ++ [.sr 0x14]), [], [], .plain⟩
  | .trust _ => ⟨(some .t), [.sr 0x14], [], [.sr 0x14], .plain⟩
  | .fail _ => ⟨(some .t), srTermAll, [], (rv 0 32 ++ srTermAll), .plain⟩
  | .cut _ b x => ⟨(some .t), (rb2 b.toNat x ++ [.sr 0x14]), [], [.sr 0x14], .plain⟩
  | .adopt _ p a => ⟨(some .t), (rp a.toNat ++ srTermAll), [], (rv 0 32 ++ [.p p.toNat] ++ srTermAll), .plain⟩
  | .publishOpen _ b x => ⟨(some .t), (rb2 b.toNat x), [], [], .plain⟩
  | .publishClose _ b x => ⟨(some .t), (rb2 b.toNat x), [], [], .plain⟩
  | .btld _ _ d p b x => ⟨(some .t), (rb b.toNat x ++ [.sr 0x16]), [], (rp d.toNat ++ [.p p.toNat]), .plain⟩
  | .faddi _ _ d _ => ⟨(some .f), (rv d.toNat 1), [], (rv d.toNat 1), .plain⟩
  | .fmuli _ _ d _ => ⟨(some .f), (rv d.toNat 1), [], (rv d.toNat 1), .plain⟩
  | .groupAged _ _ => Info.event
  | .loadDataReturn _ _ => Info.event
  | .storeAck _ _ => Info.event
  | .homeWrite _ => Info.event
  | .holdRelease _ _ => Info.event
  | .slotReclaim _ _ => Info.event
  | .taskDoneDecrement _ _ => Info.event
  | .readyPushAccept _ => Info.event
  | .taskStart _ => Info.event
  | .parkRecheck _ _ => Info.event
  | .parkTimeout _ _ _ => Info.event
  | .wqRefillDone _ _ _ => Info.event
  | .barrierDelivery _ _ => Info.event
  | .sleepEnd _ _ => Info.event
  | .trywaitTimeout _ _ => Info.event
  | .runAheadEnd _ _ => Info.event
  | .faultRecordWrite => Info.event
  | .matrixPassDone _ _ => Info.event
  | .grottoRequest _ _ => Info.event
  | .grottoResult _ _ => Info.event
  | .migrationComplete _ _ => Info.event
  | .resLoadProceed _ _ => Info.event
  | .resLoadComplete _ _ => Info.event
  | .copyComplete _ _ => Info.event
  | .bankStreamComplete _ _ => Info.event
  | .contextImageComplete _ _ => Info.event
  | .saveTeam _ _ => Info.event
  | .restoreTeam _ => Info.event
  | .teamReturn _ => Info.event
  | .returnGroup _ _ => Info.event
  | .terminate _ _ => Info.event
  | .launchBundle _ => Info.event
  | .waitPacket _ => Info.event
  | .waitPacketTest _ => Info.event
  | .waitPacketTimeout _ => Info.event
  | .unknownCommand _ => Info.event
  | .subLaunchComplete _ _ _ => Info.event
  | .mcoffWrite _ _ => Info.event
  | .invalidate _ => Info.event
  | .invalidationDone => Info.event
  | .staleMark _ => Info.event
  | .staleMarkDone => Info.event
  | .klockSet _ => Info.event
  | .plimitWrite _ => Info.event
  | .sfaultClear _ => Info.event
  | .telemetryCounterClear _ _ _ => Info.event
  | .attestationRequest _ => Info.event
  | .attestationDone => Info.event
  | .flrDrainEnd => Info.event
  | .hostCompletion _ _ _ => Info.event
  | .remoteTimeout _ _ => Info.event
  | .portDown _ => Info.event
  | .fabricRead _ => Info.event
  | .fabricWrite _ => Info.event
  | .fabricMaskedWrite _ => Info.event
  | .fabricAtomic _ => Info.event
  | .fabricReply _ => Info.event
  | .barrierArrivalMessage _ => Info.event
  | .barrierCompletionMessage _ => Info.event
  | .podBarrierTimeout _ => Info.event
  | .stallSample _ => Info.event
  | .debugQuiescent _ => Info.event
  | .notAnInstruction _ => Info.event
  | .literalLanding => Info.event
  | .instructionFetchFault _ => Info.event
  | .prefetchFill _ _ => Info.event
  | .registerWrite _ _ _ => Info.event
  | .doorbell _ _ _ => Info.event
  | .belvedereMismatch => Info.event
  | .issueControlMismatch _ _ => Info.event
  | .functionLevelReset => Info.event
  | .hostLinkDown => Info.event
  | .storageDma _ => Info.event
  | .flitReceive _ _ => Info.event
  | .portRetrain _ _ => Info.event
  | .hbmRequest _ _ => Info.event
  | .activationAlert _ _ _ _ => Info.event
  | .selfRefreshEntry _ _ _ => Info.event
  | .scrubPass _ => Info.event
  | .powerWindow _ => Info.event
  | .dieOver105 _ => Info.event
  | .dieBelow100 _ => Info.event
  | .thermalTrip _ => Info.event
  | .debugHalt _ => Info.event
  | .debugAccess _ _ => Info.event
  | .debugRelease _ => Info.event
  | .powerGood _ => Info.event
  | .packageReset => Info.event
  | .hostLinkUp _ _ => Info.event
  | .hostAtomicop _ => Info.event
  | .refreshDue _ _ _ _ => Info.event

/-- Whether a word sets flags of `%fpm` (R237). -/
def setsFlags (i : Instr) : Bool :=
  match i with
  | .fmin .. | .fmax .. | .fcmp .. | .frnd .. | .fclass .. | .dminmax .. | .dcmp .. | .faddi .. | .fmuli .. => false
  | .lred _ _ _ _ o => 8 ≤ o.toNat
  | .lscan _ _ _ _ o _ => 8 ≤ o.toNat
  | i => (infoOf i).pipe == some .f

/-- Whether a word rounds as `%fpm`.rm says (R237). -/
def readsRm (i : Instr) : Bool :=
  match i with
  | .fadd .. | .fsub .. | .fmul .. | .ffma .. | .fsqrt .. | .fdiv .. | .fscale .. | .dadd .. | .dmul .. | .dfma .. | .hadd2 ..
  | .hmul2 .. | .hfma2 .. | .bfma2 .. | .fdot2 .. => true
  | .frnd _ _ m _ _ => m == 4
  | .lred _ _ _ _ o => o == 8
  | .lscan _ _ _ _ o _ => o == 8
  | _ => false

/-- The clk for which a word holds its pipe, and the clk from its issue until a word that reads its result may issue, as far
as R214 and R340 fix them; 0 for what they do not. The memory reads of a term word add nothing here (assumption 3). -/
def timing (i : Instr) : Nat × Nat :=
  match i with
  | .guard .. | .nop .. | .mma .. | .accLd .. | .accSt .. | .accStrows .. | .groupAged .. | .loadDataReturn ..
  | .storeAck .. | .homeWrite .. | .holdRelease .. | .slotReclaim .. | .taskDoneDecrement ..
  | .readyPushAccept .. | .taskStart .. | .parkRecheck .. | .parkTimeout .. | .wqRefillDone ..
  | .barrierDelivery .. | .sleepEnd .. | .trywaitTimeout .. | .runAheadEnd .. | .faultRecordWrite ..
  | .matrixPassDone .. | .grottoRequest .. | .grottoResult .. | .migrationComplete .. | .resLoadProceed ..
  | .resLoadComplete .. | .copyComplete .. | .bankStreamComplete .. | .contextImageComplete .. | .saveTeam ..
  | .restoreTeam .. | .teamReturn .. | .returnGroup .. | .terminate .. | .launchBundle .. | .waitPacket ..
  | .waitPacketTest .. | .waitPacketTimeout .. | .unknownCommand .. | .subLaunchComplete .. | .mcoffWrite ..
  | .invalidate .. | .invalidationDone .. | .staleMark .. | .staleMarkDone .. | .klockSet .. | .plimitWrite ..
  | .sfaultClear .. | .telemetryCounterClear .. | .attestationRequest .. | .attestationDone ..
  | .flrDrainEnd .. | .hostCompletion .. | .remoteTimeout .. | .portDown .. | .fabricRead .. | .fabricWrite ..
  | .fabricMaskedWrite .. | .fabricAtomic .. | .fabricReply .. | .barrierArrivalMessage ..
  | .barrierCompletionMessage .. | .podBarrierTimeout .. | .stallSample .. | .debugQuiescent ..
  | .notAnInstruction .. | .literalLanding .. | .instructionFetchFault .. | .prefetchFill ..
  | .registerWrite .. | .doorbell .. | .belvedereMismatch .. | .issueControlMismatch ..
  | .functionLevelReset .. | .hostLinkDown .. | .storageDma .. | .flitReceive .. | .portRetrain ..
  | .hbmRequest .. | .activationAlert .. | .selfRefreshEntry .. | .scrubPass .. | .powerWindow ..
  | .dieOver105 .. | .dieBelow100 .. | .thermalTrip .. | .debugHalt .. | .debugAccess .. | .debugRelease ..
  | .powerGood .. | .packageReset .. | .hostLinkUp .. | .hostAtomicop .. | .refreshDue .. => (0, 0)
  | .clause .. | .brk .. | .taskSpawn .. | .taskDone .. | .ctrAdd .. | .wqPop .. | .wqPush .. | .bar ..
  | .barArrive .. | .barWait .. | .roleGive .. | .roleClaim .. | .park .. | .trap .. | .sysret .. | .pmark ..
  | .sleep .. | .ldg .. | .stg .. | .lds .. | .sts .. | .ldp .. | .stp .. | .ldacq .. | .strel .. | .atadd ..
  | .atminmax .. | .atlogic .. | .atxchg .. | .atcas .. | .bankAdd .. | .bankFx .. | .bankFxread ..
  | .bankApp .. | .bankAxpy .. | .bankRed .. | .fence .. | .fenceRng .. | .cpyL .. | .cpyT .. | .trywait ..
  | .pref .. | .ldk .. | .stkCtx .. | .flushl1 .. | .resAlloc .. | .resLoad .. | .resPin .. | .resFree ..
  | .resQuery .. | .resHeat .. | .resAge .. | .resMigrate .. | .fireSet .. => (1, 0)
  | .bra .. | .jmp .. | .call .. | .ret .. | .exit .. | .brx .. | .vote .. => (1, 2)
  | .rdsr .. | .wrsr .. | .clock .. | .budgetRd .. | .unifyP .. | .unifyF .. => (1, 4)
  | .mkvar .. | .mkstr .. | .arg .. | .deref .. | .choice .. | .retry .. | .trust .. | .cut .. | .btld .. => (1, 6)
  | .watch .. | .hold .. | .cap .. | .bind .. | .fail .. | .publishOpen .. | .publishClose .. => (1, 8)
  | .adopt .. => (1, 40)
  | .iadd .. | .isub .. | .iabs .. | .imin .. | .imax .. | .ishl .. | .ishr .. | .irot .. | .and .. | .or ..
  | .xor .. | .andn .. | .clz .. | .popc .. | .brev .. | .bfx .. | .bfi .. | .icmp .. | .plog .. | .movW32 ..
  | .movW64 .. | .movS .. | .movi .. | .movhi .. | .fadd .. | .fsub .. | .fmul .. | .ffma .. | .fmin ..
  | .fmax .. | .fcmp .. | .frnd .. | .fclass .. | .fscale .. | .hadd2 .. | .hmul2 .. | .hfma2 .. | .bfma2 ..
  | .fdot2 .. | .accZero .. | .mfmt .. | .tag .. | .mkt .. | .faddi .. | .fmuli .. => (2, 4)
  | .imul .. | .imulh .. | .imad .. | .cvt .. | .cvtpk .. | .cvtupk .. | .shfl .. | .bcast .. | .cellkey .. => (2, 6)
  | .add64 .. | .sub64 .. | .shl64 .. | .shr64 .. | .cmp64 .. => (4, 6)
  | .lred .. | .lscan .. => (4, 12)
  | .dadd .. | .dmul .. | .dfma .. | .dminmax .. | .dcmp .. => (8, 10)
  | .mul64 .. => (8, 12)
  | .frcp .. | .frsq .. | .fsqrt .. | .fexp2 .. | .flog2 .. | .fsin .. | .fcos .. => (8, 16)
  | .fdiv .. => (16, 24)

end Sys2Proof.Machine
end

