-- ==== Sys2Proof/Machine/Pipes.lean ====
section
/-! DEFINITION. The pipes of a core and the results of fixed latency: how long a word holds its pipe (R27, R214, R268, R302,
R304, R306, R307), what is not yet ready to be read (R214, R215, R340), and the gap after a branch (R215). Latencies and
holds that the spec leaves variable end with the events of the operations themselves. -/

namespace Sys2Proof.Machine

/-- The place of a pipe in `Core.busy`: I, F and B of the scheduler of a slot, or a pipe that the core shares (R27). -/
def Pipe.place (p : Pipe) (slot : Nat) : Nat :=
  match p with
  | .i => 3 * (slot % 4)
  | .f => 3 * (slot % 4) + 1
  | .b => 3 * (slot % 4) + 2
  | .m => 12
  | .x => 13
  | .t => 14

/-- The clk of array time that a format's rate class takes at a dense K of 96 (R187, R304). -/
def rateTime (code : Nat) : Nat :=
  if code = 0 then 64 else if code = 1 then 32
  else match elemBits code with
    | 16 => 16
    | 8 => 8
    | _ => 4

/-- The array time of a pass (R186, R304). -/
def arrayTime (afmt bfmt : Nat) : Nat := max (rateTime afmt) (rateTime bfmt) * if elemBits bfmt < 8 then 2 else 1

/-- The passes that one scratchpad access of a word takes: the most distinct words that one of the 32 banks serves (R268). -/
def bankPasses (ops : List Flight) : Nat :=
  let words := (ops.flatMap fun f => f.kind.locs.flatMap fun x => match x.1 with
    | .spad o => (List.range ((x.2 + 3) / 4)).map fun i => o / 4 + i
    | .phys _ => []).eraseDups
  ((List.range 32).map fun b => (words.filter (· % 32 == b)).length).foldl max 1

/-- The array times of the passes of a word (R302, R304). -/
def passTimes (c : Core) (ops : List Flight) : Nat :=
  (ops.map fun f => match f.kind with
    | .pass ent _ _ bs _ _ _ => arrayTime (afmtOf ((bs.headD (0, [])).2.headD 0)) (c.entry ent).bfmt
    | _ => 0).sum

/-- The most words that one lane of a word stores. -/
def laneStores (ops : List Flight) : Nat :=
  let ls := ops.flatMap fun f => match f.kind with
    | .store xs => xs.map (·.1.lane)
    | _ => []
  ((List.range 32).map fun l => (ls.filter (· == l)).length).foldl max 0

/-- Whether an `mma` joins the slot select that the X pipe holds: one of the same residency, block and mode, whatever the fields of
its descriptor that only `res.alloc` reads (R76, R302). -/
def Core.fuses (c : Core) (clk : Nat) (d : DWord) (m : BitVec 3) : Bool :=
  c.select.any fun x => bits x.1.toNat 27 0 == bits d.toNat 27 0 && x.2.1 == m && clk < x.2.2

/-- The operations that a word of the bundle has dispatched. -/
def State.wordOps (s : State) (pc : Word) : List Flight := s.mine.filter fun f => s.issue.first ≤ f.id && f.pc == pc

/-- The clk for which a word has taken its pipe (R214, R268, R302, R306, R307). -/
def State.holdOf (s : State) (i : Instr) (pc : Word) : Nat :=
  let ops := s.wordOps pc
  match i with
  | .mma _ _ _ h _ _ m =>
    let n := passTimes s.cur ops
    if n = 0 ∨ s.cur.fuses s.clk (s.issue.src.rs h.toNat) m then n else 4 + n
  | .accLd _ _ _ _ _ n _ => 2 * accGroups n.toNat
  | .accSt _ _ _ _ _ n _ => 2 * accGroups n.toNat
  | .accStrows _ _ _ _ _ => (laneStores ops + 15) / 16
  | .lds _ _ _ _ _ _ _ => bankPasses ops
  | .sts _ _ _ _ _ _ _ => bankPasses ops
  | i => (timing i).1

/-- Whether a word touches the term state, which is held on the scoreboard as a whole (R340). -/
def touchesTerm (i : Instr) : Bool :=
  match i with
  | .rdsr _ _ _ _ m => 0x12 ≤ m.toNat && m.toNat ≤ 0x15
  | .wrsr _ _ _ _ m => 0x12 ≤ m.toNat && m.toNat ≤ 0x18 && m.toNat != 0x17
  | i => (infoOf i).pipe == some .t

/-- Whether a word is a `unify`, whose walk the whole group waits for (R333). -/
def walks (i : Instr) : Bool :=
  match i with
  | .unifyP .. => true
  | .unifyF .. => true
  | _ => false

/-- The results of a word that may not be read before its latency has passed (R214, R237, R333, R340). -/
def lateOf (i : Instr) (pc : Word) (clk : Nat) : List (Reg × Word × Nat) :=
  if (timing i).2 = 0 then []
  else ((infoOf i).dests ++ (if (infoOf i).pipe = some Pipe.t then [Reg.term] else []) ++
    (if setsFlags i then [Reg.sr 0x19] else []) ++ if walks i then [Reg.walk] else []).map fun r => (r, pc, clk + (timing i).2)

/-- Whether a word is a branch, call, return or exit (R215, R355). -/
def isBranch (i : Instr) : Bool :=
  match i with
  | .bra _ _ _ _ _ => true
  | .jmp _ _ _ => true
  | .call _ _ _ => true
  | .ret _ _ _ => true
  | .exit _ _ => true
  | .brx _ _ _ _ _ => true
  | .sysret _ _ _ => true
  | _ => false

/-- A word has issued: its pipe is held, its results are late, and a branch keeps the group's next bundle back (R214,
R215). -/
def State.occupy (s : State) (i : Instr) (pc : Word) : State :=
  let stop := s.clk + s.holdOf i pc
  let hold := fun (c : Core) => match (infoOf i).pipe with
    | none => c
    | some p => { c with busy := c.busy.modify (p.place s.issue.slot) fun t => max t s.clk + (stop - s.clk) }
  let select := fun (c : Core) => match i with
    | .mma _ _ _ h _ _ m =>
      let d := s.issue.src.rs h.toNat
      if passTimes c (s.wordOps pc) = 0 ∨ c.fuses s.clk d m then c else { c with select := some (d, m, s.clk + 4) }
    | _ => c
  (s.onCore fun c => select (hold c)).onGrp fun g => { g with
    late := g.late.filter (s.clk < ·.2.2) ++ lateOf i pc s.clk
    holding := g.holding.filter (s.clk < ·.2.2) ++ if stop = s.clk then [] else [(pc, s.clk, stop)]
    nextAt := if isBranch i then max g.nextAt (s.clk + 2) else g.nextAt }

/-- Whether the pipe of a word is held by an earlier word; a pass that joins a slot select finds it free (R39, R302). -/
def State.pipeHeld (s : State) (i : Instr) : Bool :=
  match (infoOf i).pipe with
  | none => false
  | some p => s.clk < s.cur.busy.getD (p.place s.issue.slot) 0 && match i with
    | .mma _ _ _ h _ _ m => !s.cur.fuses s.clk (s.issue.src.rs h.toNat) m
    | _ => true

end Sys2Proof.Machine
end

