-- ==== Sys2Proof/Machine/Issue.lean ====
section
/-! DEFINITION. Issuing a bundle: the packet's guards and chains (R196 to R200, R209), the causes found at decode (R155,
R213), the scoreboard (R39, R169, R215), the words of the bundle in order, the advance of the lanes (R31), and run-ahead
(R156, R157). -/

namespace Sys2Proof.Machine

/-! ## Packets: guards, chains, bundles -/

/-- The role of a position of a packet. -/
def roleOf (rs : List Role) (i : Nat) : Role := rs.getD i .literal

/-- The instruction words behind position `i` (R199, R209). -/
def wordsAfter (rs : List Role) (i : Nat) : List Nat :=
  (List.range 3).filter fun j => decide (i < j) && roleOf rs j != .literal

/-- The words that the guard at a position covers (R209). -/
def covered (rs : List Role) (g : Nat) : List Nat :=
  match roleOf rs g with
  | .instr (.guard _ _ n) => (wordsAfter rs g).take n.toNat
  | _ => []

/-- The predicate and sense of the guard that covers a word: the nearest, since a guard that covers a guard is illegal and
can only stand behind a branch's landing (R209). -/
def guardOf (rs : List Role) (i : Nat) : Option (Nat × Bool) :=
  (List.range i).reverse.findSome? fun g => match roleOf rs g with
    | .instr (.guard p sense _) => if (covered rs g).contains i then some (p.toNat, sense) else none
    | _ => none

/-- Whether a position holds a guard. -/
def isGuard (r : Role) : Bool :=
  match r with
  | .instr (.guard _ _ _) => true
  | _ => false

/-- Whether a position holds a `clause`. -/
def isClause (r : Role) : Bool :=
  match r with
  | .instr (.clause _ _ _ _ _) => true
  | _ => false

/-- The word that position `i` chains to (R199): nothing where the chain is broken. -/
def chainNext (ws : List Nat) (rs : List Role) (i : Nat) : Option Nat :=
  if bit (ws.getD i 0) 31 then
    (wordsAfter rs i).head?.filter fun j => !(isGuard (roleOf rs j) || isClause (roleOf rs j))
  else none

/-- Whether position `i` has a C bit that breaks R199: no instruction word behind it, or a `clause` or a guard. -/
def chainBroken (ws : List Nat) (rs : List Role) (i : Nat) : Bool :=
  bit (ws.getD i 0) 31 && (chainNext ws rs i).isNone

/-- The words chained from a bundle head on; `n` words at most (R199). -/
def chainFrom (ws : List Nat) (rs : List Role) : Nat → Nat → List Nat
  | 0, _ => []
  | n + 1, i => match chainNext ws rs i with
    | some j => i :: chainFrom ws rs n j
    | none => [i]

/-- The words that issue together from position `i`: a guard with the bundle of its first covered word (R28, R209). -/
def bundleAt (ws : List Nat) (rs : List Role) (i : Nat) : List Nat :=
  if isGuard (roleOf rs i) then
    match (wordsAfter rs i).head? with
    | some j => i :: chainFrom ws rs 3 j
    | none => [i]
  else chainFrom ws rs 3 i

/-- The words that a role takes, its literal among them. -/
def roleSize (r : Role) : Nat :=
  match r with
  | .instr i => if needsLiteral i then 2 else 1
  | _ => 1

/-- What is known of a word of a packet. -/
def roleInfo (r : Role) : Info :=
  match r with
  | .instr i => infoOf i
  | _ => Info.event

/-- The roles of a bundle's packet. -/
def Bundle.roles (b : Bundle) : List Role := Machine.roles b.ws

/-- The role of a word of the bundle. -/
def Bundle.role (b : Bundle) (i : Nat) : Role := roleOf b.roles i

/-- The PC of a position. -/
def Bundle.pcOf (b : Bundle) (i : Nat) : Word := BitVec.ofNat 32 (packetOf b.pc + i)

/-- The word address after the bundle's first word and its literal (R160). -/
def Bundle.after (b : Bundle) : Word :=
  match b.at_ with
  | [] => b.pc + 1
  | i :: _ => b.pcOf (i + roleSize (b.role i))

/-- The word address after the bundle and its literals (R31). -/
def Bundle.next (b : Bundle) : Word :=
  let last := b.at_.getLastD 0
  BitVec.ofNat 32 (packetOf b.pc + last + roleSize (b.role last))

/-! ## Causes found in the packet (R199, R204, R209, R213) -/

/-- The causes that the packet gives a word. -/
def Bundle.packetCauses (b : Bundle) (i : Nat) : List Cause :=
  match b.role i with
  | .instr x =>
    (if needsLiteral x && i == 2 then [.illegalOperand] else []) ++
    (if isClause (.instr x) && i != 0 then [.clausePosition] else []) ++
    match x with
      | .guard _ _ n =>
        if (covered b.roles i).length < n.toNat || (covered b.roles i).any (fun j => isGuard (b.role j)) then
          [.illegalOperand] else []
      | _ => []
  | _ => []

/-- Whether the chain breaks R199. -/
def Bundle.chainConflict (b : Bundle) : Bool :=
  let pipes := b.at_.filterMap fun i => (roleInfo (b.role i)).pipe
  let dests := b.at_.flatMap fun i => (roleInfo (b.role i)).dests.eraseDups
  b.at_.any (chainBroken b.ws b.roles) || pipes.eraseDups.length != pipes.length || dests.eraseDups.length != dests.length

/-! ## Words of a bundle -/

/-- The live lanes that stand at the group's lowest word address (R30). -/
def Group.active (g : Group) : Word := maskOf fun l => (g.lane l).park.isNone && (g.lane l).vpc == g.firstPc

/-- Whether a group has a live lane (R30). -/
def Group.alive (g : Group) : Bool := g.firstPc != 0xFFFFFFFF

/-- The issue register at the head of a bundle (R30, R200); the watchpoints pass over the lanes of `noWatch` once. -/
def State.openBundle (s : State) (k slot : Nat) (b : Bundle) : State :=
  let g := ((s.core k).group slot).getD Group.blank
  let i : Issue :=
    { core := k, slot := slot, pc := b.pc, lit := 0, after := b.after, nextPc := b.next, exec := b.act, act := b.act,
      src := g.rf, lanes := g.lanes, fx := g.fx, fire := g.fire, flags := g.flags, bucket := (s.core k).bucket
      charged := (g.charged, g.lastCharge), first := s.nextId, asked := false, ahead := false, fpFlags := 0, moved := 0
      unfin := 0, stall := none, operand := false, noWatch := g.noWatch &&& b.act, release := none }
  { s with issue := i }.onGrp fun g => { g with noWatch := g.noWatch &&& ~~~b.act }

/-- The lanes that execute a word: the active lanes that are not unfinished and that its guard passes (R30, R155, R209). -/
def State.execLanes (s : State) (b : Bundle) (i : Nat) : Word :=
  let m := s.issue.act &&& ~~~s.issue.unfin
  match guardOf b.roles i with
  | none => m
  | some (p, sense) => m &&& maskOf fun l => s.issue.src.rp p l == !sense

/-- The issue register at a word of the bundle. -/
def State.openWord (s : State) (b : Bundle) (i : Nat) : State :=
  { s with issue := { s.issue with
      pc := b.pcOf i
      lit := if roleSize (b.role i) = 2 then BitVec.ofNat 32 (b.ws.getD (i + 1) 0) else 0
      after := b.pcOf (i + roleSize (b.role i))
      exec := s.execLanes b i
      noWatch := if b.pcOf i = b.pc ∨ s.issue.ahead then s.issue.noWatch else 0 } }

/-- The state that an outcome leads to. -/
def State.of (s : State) (r : Result) : State :=
  match r with
  | .next t => t
  | .fault _ => s
  | .refused _ => s

/-- The meaning of a role (R213). -/
def Role.run (r : Role) (w : Nat) (s : State) : State :=
  match r with
  | .instr i => s.of (exec i s)
  | .broken _ => s.of (exec (.notAnInstruction (BitVec.ofNat 32 w)) s)
  | .literal => s.of (exec .literalLanding s)

/-- One word of the bundle. -/
def State.runWord (s : State) (b : Bundle) (i : Nat) : State := (b.role i).run (b.ws.getD i 0) (s.openWord b i)

/-- The state behind a word that has been carried out: a later word's hold window is its own (R72). -/
def State.wordDone (s : State) : State := { s with issue := { s.issue with release := none } }

/-- The words of the bundle in order, until one must wait: the state before that word, and then what its attempt gives, with the
reason and the words that are left. -/
def State.runWords (s : State) (b : Bundle) : List Nat → State × Option (State × Stall × List Nat)
  | [] => (s, none)
  | i :: is =>
    let t := s.runWord b i
    match t.issue.stall with
    | some w => (s, some (t, w, i :: is))
    | none => t.wordDone.runWords b is

/-! ## Causes raised before a bundle executes (R155, R213) -/

/-- The lowest of several causes. -/
def lowestOf : List Cause → Option Cause
  | [] => none
  | c :: cs => match lowestOf cs with
    | none => some c
    | some d => if c.code ≤ d.code then some c else some d

/-- A cause raised before the bundle executes: its lanes, and the lanes that it keeps from executing (R154, R155). -/
structure Early where
  cause : Cause
  mask : Word
  stop : Word
deriving DecidableEq, Repr

/-- The causes 0x01 to 0x06 of a word: those of the packet and those of the pattern, for all its executing lanes, and the
illegal-operand that the word by itself raises, which may be that of some lanes only (R476). -/
def State.earlyCauses (s : State) (b : Bundle) (i : Nat) : List Early :=
  let m := (s.openWord b i).issue.exec
  let whole := fun (c : Cause) => ({ cause := c, mask := m, stop := 0xFFFFFFFF } : Early)
  let own : List Early := match b.role i with
    | .broken r => [whole (Reject.cause r)]
    | _ =>
      let t := s.runWord b i
      match t.grp.report with
      | some r => if r.cause.code ≤ 6 then
          [{ cause := r.cause, mask := r.mask, stop := if t.issue.unfin = m then 0xFFFFFFFF else r.mask }] else []
      | none => []
  if m = 0 then [] else (b.packetCauses i).map whole ++ own

/-- Whether a role is a packet-control word, which has no effect of its own in a lane (R206, R209). -/
def Role.isControl (r : Role) : Bool :=
  match r with
  | .instr (.clause _ _ _ _ _) => true
  | .instr (.guard _ _ _) => true
  | _ => false

/-- The lanes that execute a word of the bundle beside its packet-control words. -/
def State.bundleLanes (s : State) (b : Bundle) : Word :=
  b.at_.foldl (fun m i => if (b.role i).isControl then m else m ||| (s.openWord b i).issue.exec) 0

/-- The cause that the bundle raises before any of its words executes: of the causes found the lowest, with the lanes that
have it; no lane that one of them stops executes. A single word without a cause of its packet raises its own when it runs. -/
def State.decodeCause (s : State) (b : Bundle) : Option Early :=
  if b.at_.length = 1 ∧ b.at_.flatMap b.packetCauses = [] ∧ !b.chainConflict then none
  else
    let m := s.bundleLanes b
    let chain : List Early := if b.chainConflict && m != 0 then [⟨.chainConflict, m, 0xFFFFFFFF⟩] else []
    let all := b.at_.flatMap (s.earlyCauses b) ++ chain
    (lowestOf (all.map (·.cause))).map fun c =>
      let mask := all.foldl (fun m x => if x.cause = c then m ||| x.mask else m) 0
      { cause := c, mask := mask, stop := (all.foldl (fun m x => m ||| x.stop) 0 &&& s.bundleLanes b) ||| mask }

/-! ## The scoreboard (R39, R169) -/

/-- The blocks of an `mma` take more registers than its A field names (R297). -/
def State.blockRegs (s : State) (r : Role) : List Reg :=
  match r with
  | .instr (.mma _ _ a h reuse _ _) =>
    let e := s.cur.entry (descEntry (s.issue.src.rs h.toNat))
    let n := (lanesOf s.issue.exec).foldl (fun n l =>
      max n ((s.blockOf a.toNat (logicalK e.bfmt e.sp) reuse l).elim 0 List.length)) 0
    rv a.toNat n
  | _ => []

/-- The registers that a word reads or writes. -/
def State.regsOf (s : State) (r : Role) : List Reg :=
  let i := roleInfo r
  i.srcs ++ i.data ++ i.dests ++ s.blockRegs r

/-- Whether the scoreboard tracks the register for its own readers: tiles and term state have waits of their own. -/
def Reg.plain (r : Reg) : Bool :=
  match r with
  | .acc _ => false
  | .term => false
  | _ => true

/-- The results of fixed latency that may not be read yet (R215). -/
def State.lateNow (s : State) : List (Reg × Word × Nat) := s.grp.late.filter (s.clk < ·.2.2)

/-- Whether a word waits for a late result: its registers, a term word for the term state, every word for the walk of a `unify`
(R215, R333, R340). -/
def State.waitsLate (s : State) (r : Role) (x : Reg) : Bool :=
  let term := match r with
    | .instr i => touchesTerm i
    | _ => false
  x == .walk || (s.regsOf r).contains x || term && x == .term

/-- The word whose late result a word of the bundle waits for: its PC, and the producer's (R215). -/
def State.lateFor (s : State) (b : Bundle) : Option (Word × Word) :=
  b.at_.findSome? fun i => (s.lateNow.find? fun p => (s.openWord b i).waitsLate (b.role i) p.1).map fun p => (b.pcOf i, p.2.1)

/-- The word whose result a word of the bundle still waits for: its PC, and the producer's (R39, R215, R340). -/
def State.pendingFor (s : State) (b : Bundle) : Option (Word × Word) :=
  (b.at_.findSome? fun i =>
    let rs := ((s.openWord b i).regsOf (b.role i)).filter Reg.plain
    (s.pendingRegs.find? fun p => rs.contains p.1).map fun p => (b.pcOf i, p.2)).orElse fun _ => s.lateFor b

/-- Whether a pipe that the bundle needs is still held (R39, R215). -/
def State.pipesHeld (s : State) (b : Bundle) : Bool :=
  b.at_.any fun i => match b.role i with
    | .instr x => s.pipeHeld x
    | _ => false

/-- Whether a pipe that the bundle needs is still held, or a branch keeps the bundle back (R39, R215; that the wait behind a
branch is reported as pipe-busy is a DESIGN CHOICE, assumption 53). -/
def State.mustWait (s : State) (b : Bundle) : Bool := s.clk < s.grp.nextAt || s.pipesHeld b

/-- What a bundle that has issued leaves behind: pipes held, results that are late (R214). -/
def State.occupied (s : State) (b : Bundle) : State :=
  b.at_.foldl (fun s i => match b.role i with
    | .instr x => s.occupy x (b.pcOf i)
    | _ => s) s

/-- The tiles whose joins a word waits for, and those whose loads (R98, R295): a row-split pass waits for no join of its second
tile. -/
def waitedTiles (r : Role) : List Nat × List Nat :=
  let all := ((roleInfo r).dests ++ (roleInfo r).data).filterMap fun x => match x with
    | .acc t => some t
    | _ => none
  match r with
  | .instr (.mma _ _ _ _ _ _ _) => (all.take 1, all)
  | _ => (all, all)

/-- The residency entry that a word names by a handle, where it may wait for a load of it (R79). -/
def State.namedEntry (s : State) (r : Role) : Option Nat :=
  match r with
  | .instr (.mma _ _ _ h _ _ _) => some (descEntry (s.issue.src.rs h.toNat))
  | .instr (.resMigrate _ _ _ a _ _) => some (descEntry (s.issue.src.rs a.toNat))
  | _ => none

/-- The producers of the registers at or beyond `n` that are pending or late, and of every register that is (R352, R288). -/
def State.owedBy (s : State) (p : Reg → Bool) : List Word :=
  ((s.pendingRegs.filter fun x => p x.1).map (·.2)) ++ (s.lateNow.filter fun x => p x.1).map (·.2.1)

/-- The producers of what a waiting word waits for, the oldest first (R71, R79, R98, R169, R205, R235, R270, R288, R295,
R352). -/
def State.producers (s : State) (r : Role) (w : Stall) : List Word :=
  let tiles := waitedTiles r
  let pcs := fun (p : Flight → Bool) (fs : List Flight) => (fs.filter p).map (·.pc)
  match w with
  | .clauseWait => pcs (fun f => match r, f.flag with
      | .instr (.clause m _ _ _ _), some i => m.getLsbD i
      | _, some i => 63 ≤ s.grp.flags.getD i 0
      | _, none => false) s.mine
  | .accumulatorPending =>
    pcs (fun f => match f.kind with
      | .grotto _ t _ _ _ _ _ _ => tiles.1.contains t
      | _ => false) s.cur.flight ++
    pcs (fun f => match f.kind with
      | .load (.tile t _ _) _ => tiles.2.contains t && (f.mask &&& s.issue.exec) != 0
      | _ => false) s.cur.flight
  | .registerPending => match r with
    | .instr (.roleGive _ _ n) => s.owedBy fun x => match x with
        | .v i => s.issue.src.v.length - 8 * n.toNat ≤ i
        | _ => false
    | .instr (.stkCtx _ _ _ _ _) => s.owedBy fun _ => true
    | _ => match s.namedEntry r with
      | some e => pcs (fun f => match f.kind with
          | .resLoad n _ _ _ _ _ _ _ _ _ => n == e
          | _ => false) s.cur.flight
      | none => if (match r with | .instr i => touchesTerm i | _ => false) && s.searchPending then
            pcs (·.pending.contains .term) s.mine
          else pcs (fun f => f.acq && f.reading && (f.mask &&& s.issue.exec) != 0) s.mine
  | .behind pc => [pc]
  | _ => []

/-- The producer that a waiting word is blamed on, or the word itself (R169). -/
def State.blame (s : State) (r : Role) (w : Stall) : Word := (s.producers r w).headD s.issue.pc

/-! ## The end of a bundle (R31, R35, R41, R131, R237) -/

/-- Whether every lane of a group has exited (R32). -/
def Group.done (g : Group) : Bool := g.lanes.all (·.vpc == 0xFFFFFFFF)

/-- A group after the bundle at `pc`: the active lanes that no word left unfinished and no branch placed move past it; the
flags of the bundle are ORed into `%fpm`. -/
def Group.closeBundle (g : Group) (i : Issue) (pc : Word) : Group :=
  let g := g.place (i.act &&& ~~~i.unfin &&& ~~~i.moved) fun _ => i.nextPc
  { g with rf := { g.rf with fpm := g.rf.fpm ||| i.fpFlags }, age := 0, aged := false, why := (0, pc, pc)
           part := none }

/-- A group whose lanes have all exited has done its part of its task (R131). -/
def Core.noteExit (c : Core) (slot : Nat) : Core :=
  match c.group slot with
  | some g => if g.done then c.partDone slot else c
  | none => c

/-! ## The start of a run-ahead (R156) -/

/-- The registers that operations in flight owe a group, in every lane. -/
def Core.owed (c : Core) (slot team : Nat) : List (Reg × Word) :=
  (c.flight.filter fun f => f.slot == slot && f.team == team).flatMap fun f => f.pending.map fun r => (r, 0xFFFFFFFF)

/-- A group checkpoints and runs ahead: what its loads in flight have not returned is poisoned. -/
def State.startAhead (s : State) (k slot : Nat) : State :=
  match (s.core k).group slot with
  | none => s
  | some g0 =>
    let s := s.drainLoads k slot g0.team
    match (s.core k).group slot with
    | none => s
    | some g =>
      let r : RunAhead := { slot := slot, spec := g, count := 0, poison := (s.core k).owed slot g.team, pages := [],
                            ended := false }
      (s.modCore k fun c => { c with runs := c.runs ++ [r] }).modGroup k slot fun g => { g with phase := .runAhead }

/-- What a report does once its bundle has issued (R156): not-present runs ahead, any other cause switches out. -/
def State.afterReport (s : State) (k slot : Nat) : State :=
  match ((s.core k).group slot).bind (·.report) with
  | none => s
  | some r => if r.cause = .notPresent then s.startAhead k slot else s.switchOut k slot

/-- The bundle at `pc` is over: what it asked beyond the package is done with, its requests leave, and what it met is
reported. -/
def State.closeBundle (s : State) (k slot : Nat) (pc : Word) : State :=
  let i := s.issue
  let s := (s.modGroup k slot fun g => (g.closeBundle i pc).allParked (s.parkChanged k)).dropAsks [0, k, slot]
  (((s.modCore k (·.noteExit slot)).sendRequests k).afterReport k slot).reportNoted k slot

/-! ## Issuing -/

/-- What stands at a group's issue address. -/
inductive Front where
  /-- No live lane, or the group does not run. -/
  | idle
  /-- The words of the packet have not come yet. -/
  | awaited
  /-- The word cannot be fetched (R213). -/
  | unfetched (pc act : Word) (c : FetchCause)
  /-- The words lie at `pas`, and their read has met an error at its home. -/
  | failed (pc act : Word) (pas : List Nat) (code : Nat)
  /-- A literal word (R198). -/
  | literal (pc act : Word)
  | bundle (b : Bundle)
deriving DecidableEq, Repr

/-- The fetch cause of a translation that fails. -/
def fetchCause (c : Cause) : FetchCause :=
  match c with
  | .permission => .permission
  | .kernelFrame => .kernelFrame
  | _ => .notPresent

/-- The space of a core and the tenant of a group, under which its code is fetched (R127, R428). -/
def Core.codeSpace (c : Core) (g : Group) : Nat × BitVec 16 :=
  (c.regs.space.toNat % 2 ^ 16, ((c.team g.team).getD Team.blank).origin.tenant)

/-- What stands at the issue address of a group under its core's space and its team's tenant (R30, R196, R213). -/
def State.front (s : State) (k : Nat) (g : Group) : Front :=
  let sp := (s.core k).codeSpace g
  if !g.alive then .idle
  else match s.codeSpots sp.1 sp.2 g.firstPc with
    | .error e => .unfetched g.firstPc g.active (fetchCause e.1)
    | .ok pas => match s.codeOf g pas with
      | none => .awaited
      | some x =>
        let rs := roles x.1
        let i := g.firstPc.toNat % 3
        if x.2 ≠ 0 then .failed g.firstPc g.active pas x.2
        else if roleOf rs i = .literal then .literal g.firstPc g.active
        else .bundle { pc := g.firstPc, act := g.active, ws := x.1, at_ := bundleAt x.1 rs i }

/-- A bundle without words, to stand for what cannot issue. -/
def Bundle.bare (pc act : Word) : Bundle := { pc := pc, act := act, ws := [], at_ := [] }

/-- Whether the bundle's clause waits for its flags, the first of the reasons (R169, R205). -/
def State.clauseWaits (s : State) (b : Bundle) : Bool :=
  match b.at_ with
  | i :: _ => isClause (b.role i) && (s.runWord b i).issue.stall == some .clauseWait
  | [] => false

/-- The state in which the words of a bundle run, behind what it raises before any of them, and those of its words that run: none
where no lane is left. -/
def State.decoded (s : State) (b : Bundle) : State × List Nat :=
  match s.decodeCause b with
  | none => (s, b.at_)
  | some e => (s.takeFault e.cause e.mask e.stop 0 0 [] [], if s.bundleLanes b &&& ~~~e.stop = 0 then [] else b.at_)

/-- A word of the bundle that has asked beyond the package and waits for the answer: nothing else of what was tried has happened
(R39, R150, assumption 40). -/
def State.askOnly (s u : State) (k slot : Nat) : State :=
  (s.keepAsks u).modGroup k slot fun g => { g with why := (2, u.issue.pc, u.issue.pc) }

/-- Words of a bundle have issued and a later one waits for what they have dispatched, or for its hold window to pass: the group
keeps the rest of the bundle, and the words that have issued hold their pipes (R72, R200, R360; DESIGN CHOICE, assumption
69). -/
def State.keepPart (s : State) (k slot : Nat) (b : Bundle) (done rest : List Nat) (release : Option Nat) : State :=
  let p : Part := { bundle := b, rest := rest, issue := { s.issue with asked := false, stall := none, release := release } }
  ((s.occupied { b with at_ := done }).modGroup k slot fun g =>
    { g with part := some p, age := 0, aged := false, why := (0, b.pc, b.pc) }).sendRequests k

/-- Whether a word would not wait if it stood alone: what it waits for is then what its bundle has dispatched. -/
def State.standsAlone (s : State) (b : Bundle) (i : Nat) : Bool :=
  let t := s.runWord b i
  match t.issue.stall with
  | none => true
  | some (.hold _) => true
  | some _ => t.fabric.nextTag != s.fabric.nextTag

/-- What comes of the words `todo` of a bundle from the state `t`, of a bundle that has begun or not, where `busy` says that a pipe
keeps it back: the state with what has issued, or why the group must wait: reason, waiting PC, blamed PC. -/
def State.tryWords (s t : State) (k slot : Nat) (b : Bundle) (todo : List Nat) (begun busy : Bool) :
    State ⊕ (Nat × Word × Word) :=
  let r := t.runWords b todo
  let hold : State ⊕ (Nat × Word × Word) := .inr (6, b.pc, b.pc)
  match r.2 with
  | none => if busy then hold else .inl ((r.1.occupied { b with at_ := todo }).closeBundle k slot b.pc)
  | some (u, w, rest) =>
    let done := todo.take (todo.length - rest.length)
    let i := rest.headD 0
    let wait : State ⊕ (Nat × Word × Word) := .inr (w.number, u.issue.pc, u.blame (b.role i) w)
    if u.fabric.nextTag ≠ s.fabric.nextTag then .inl (s.askOnly u k slot)
    else match w with
      | .hold n => if busy then hold else .inl (r.1.keepPart k slot b done rest (some (s.clk + n)))
      | _ =>
        if done = [] ∨ !(begun ∨ t.standsAlone b i) then if busy ∧ 6 < w.number then hold else wait
        else if busy then hold else .inl (r.1.keepPart k slot b done rest none)

/-- The state with a group's next issue carried out, or why the group must wait: reason, waiting PC, blamed PC. -/
def State.issueBundle (s : State) (k slot : Nat) (b : Bundle) : State ⊕ (Nat × Word × Word) :=
  let t := s.openBundle k slot b
  match t.pendingFor b with
  | some w => if t.clauseWaits b then .inr (3, b.pc, t.blame (b.role (b.pc.toNat % 3)) .clauseWait) else .inr (4, w)
  | none =>
    let x := t.decoded b
    s.tryWords x.1 k slot b x.2 false (t.mustWait b)

/-- The rest of a bundle that a group has begun to issue, once its hold window has passed and its pipes are free (R72, R200). -/
def State.issueRest (s : State) (k slot : Nat) (p : Part) : State ⊕ (Nat × Word × Word) :=
  let b := p.bundle
  let t := { s with issue := p.issue }
  let pc := b.pcOf (p.rest.headD 0)
  if p.issue.release.any (s.clk < ·) then .inr (6, pc, pc)
  else s.tryWords t k slot b p.rest true (t.pipesHeld { b with at_ := p.rest })

/-- What cannot be fetched, or a literal word, raises its cause for the active lanes. -/
def State.issueFault (s : State) (k slot : Nat) (pc act : Word) (i : Instr) : State :=
  let t := s.openBundle k slot (.bare pc act)
  (t.of (exec i t)).closeBundle k slot pc

/-- Code that cannot be read at its home: the error is recorded and reported as an imprecise one is, at the PC that was to issue
(R161, R162, R441; DESIGN CHOICE, assumption 73). -/
def State.issueFailed (s : State) (k slot : Nat) (pc act : Word) (pas : List Nat) (code : Nat) : State :=
  (s.recordErrors 2 (pas.map fun pa => (.phys pa, 4))).stopImprecise k slot
    (lateReport (errCause code) pc act false s.tick)

/-- Why a group does not issue on this clk whatever stands at its issue address: the stall reason, the waiting PC and the blamed
PC, of several reasons the lowest (R39, R45, R46, R150, R167, R289, R347, R362). A `trywait` is blamed on the oldest word
counted on its flag. -/
def Core.held (c : Core) (clk slot : Nat) (g : Group) : Option (Nat × Word × Word) :=
  let same := fun (n : Nat) (pc : Word) => some (n, pc, pc)
  let blocks := fun (f : Flight) => f.slot == slot && f.team == g.team && match f.kind with
    | .push _ b _ _ => b
    | .resLoad _ _ _ _ _ _ _ w _ _ => w == 2
    | _ => false
  let counted := fun (i : Nat) => c.flight.find? fun f => f.slot == slot && f.team == g.team && f.flag == some i
  if g.phase = .switchedOut then same 11 g.firstPc
  else if g.phase = .draining then same 2 g.firstPc
  else if g.done || g.partDone && !g.alive then same 12 g.heldPc
  else if g.claim.isSome then same 4 g.heldPc
  else match g.lanes.findSome? (·.win.waiting) with
    | some p => same 4 p.pc
    | none =>
      if g.sleepUntil.any (clk < ·) then same 6 g.heldPc
      else match c.flight.find? blocks with
        | some f => same 6 f.pc
        | none =>
          if g.barWait.isSome then same 8 g.heldPc
          else g.tryUntil.map fun t => (9, g.heldPc, (counted t.1).elim g.heldPc (·.pc))

/-- Whether the next packet of a group is not in the instruction cache (R169). -/
def Group.unfetched (g : Group) : Bool := g.alive && g.fetched.map (·.1) != some g.packet

/-! ## Run-ahead (R156, R157) -/

/-- The lanes in which a register is poisoned. -/
def poisonOf (ps : List (Reg × Word)) (r : Reg) : Word := (ps.filter (·.1 == r)).foldl (fun m p => m ||| p.2) 0

/-- Whether each lane has a register of its own under the name. -/
def Reg.perLane (r : Reg) : Bool :=
  match r with
  | .v _ => true
  | .p _ => true
  | .term => true
  | .sr n => n != 0x17 && n != 0x19
  | _ => false

/-- The lanes in which one of several registers is poisoned: one that the lanes share poisons every lane. -/
def poisonIn (ps : List (Reg × Word)) (rs : List Reg) : Word :=
  rs.foldl (fun m r =>
    let bad := poisonOf ps r
    m ||| if r.perLane || bad = 0 then bad else 0xFFFFFFFF) 0

/-- Registers poisoned in the lanes of `bad` and clean in the other lanes of `m`; one that the lanes share is written as a
whole. -/
def setPoison (ps : List (Reg × Word)) (rs : List Reg) (m bad : Word) : List (Reg × Word) :=
  (ps.map fun p => if rs.contains p.1 then (p.1, if p.1.perLane then p.2 &&& ~~~m else 0) else p) ++
    if bad = 0 then [] else rs.map fun r => (r, bad)

/-- The report under which a group runs ahead: what its words raise is not reported, only missing pages are kept. -/
def aheadReport : Report where
  cause := .notPresent
  pc := 0
  mask := 0
  unfin := 0
  va := 0
  code := 0
  imprecise := false
  exited := false
  pages := []
  comps := []
  after := 0
  tick := 0

/-- The group of a run-ahead before its next word: nothing reported, nothing missed. -/
def Group.forAhead (g : Group) : Group :=
  { g with phase := .running, report := some aheadReport, missed := [], unfin := 0, barWait := none, claim := none,
           sleepUntil := none, tryUntil := none, flags := List.replicate 12 0 }

/-- The lanes whose guard cannot be known. -/
def guardPoison (ps : List (Reg × Word)) (b : Bundle) (i : Nat) (act : Word) : Word :=
  match guardOf b.roles i with
  | none => 0
  | some (p, _) => if p = 7 then 0 else act &&& poisonOf ps (.p p)

/-- The loads that a probed word has made are carried out on the scratch state, so that its results are known. -/
def State.deliverAhead (s : State) (k first : Nat) : State :=
  (s.core k).flight.foldl (fun s f => match f.kind with
    | .load dest ls => if first ≤ f.id then s.deliver k f dest ls else s
    | _ => s) s

/-- Whether an operation dispatched since `first` loads from another package (R157). -/
def State.remoteSince (s : State) (k first : Nat) : Bool :=
  (s.core k).flight.any fun f => decide (first ≤ f.id) && match f.kind with
    | .load _ ls => ls.any fun x => s.beyond x.loc == some false
    | _ => false

/-- The advisory pages with those that a probe has found, 16 at most, and whether a 17th was found (R157). -/
def addPages (old new : List Nat) : List Nat × Bool :=
  let all := (old ++ new).eraseDups
  (all.take 16, decide (16 < all.length))

/-- What a word's results depend on in run-ahead: its registers, the lane's hidden term state of a term word, the rounding mode
(R156, R237). -/
def aheadSrcs (r : Role) : List Reg :=
  match r with
  | .instr i => (infoOf i).srcs ++ (if (infoOf i).pipe = some Pipe.t then [.term] else []) ++ if readsRm i then [.rm] else []
  | _ => []

/-- What a word writes in run-ahead; a `wrsr` of `%fpm` sets the rounding mode too. -/
def aheadDests (r : Role) : List Reg :=
  match r with
  | .instr i => (infoOf i).dests ++ (if (infoOf i).pipe = some Pipe.t then [.term] else []) ++
      if (infoOf i).dests.contains (.sr 0x19) then [.rm] else []
  | _ => []

/-- The poison behind a word that writes in the lanes of `m`, poisoned in those of `bad`: the flags of `%fpm` gather, so that a
poisoned word's poison them and a clean one's leave them (R156, R237). -/
def aheadPoison (ps : List (Reg × Word)) (r : Role) (m bad : Word) : List (Reg × Word) :=
  let flags := match r with
    | .instr i => setsFlags i
    | _ => false
  setPoison ps (aheadDests r) m bad ++ if flags && bad != 0 then [(.sr 0x19, 0xFFFFFFFF)] else []

/-- One word of a run-ahead on the scratch state `s`, whose slot holds the group as it runs ahead; `known` are the pages
recorded as true, `fault` the PC of the faulting word, whose unfinished lanes' results are poisoned (R156, R157). The 256th word
behind the faulting one is itself run before the run-ahead ends, and a guard is a word (DESIGN CHOICE, assumption 81). What a
word waits for keeps none of its probes back, but its results are not known. -/
def State.aheadWord (s : State) (b : Bundle) (known : List Nat) (fault : Word) (r : RunAhead) (i : Nat) : State × RunAhead :=
  let t := s.openWord b i
  let role := b.role i
  let info := roleInfo role
  let m := t.issue.exec
  let unsure := guardPoison r.poison b i t.issue.act
  let uniform := bit (b.ws.getD i 0) 30
  let srcs := poisonIn r.poison (aheadSrcs role) &&& m
  let mixed := if info.ahead = .across then srcs != 0 else uniform && srcs.getLsbD (lowest m)
  let first := r.count = 0 ∧ t.issue.pc = fault
  let bad := (if first then m else if mixed then m else if uniform then 0 else srcs) ||| unsure
  let r' := { r with count := r.count + 1, ended := decide (256 ≤ r.count) }
  let skip := fun lanes : Word => (s, { r' with poison := aheadPoison r.poison role lanes lanes })
  if m = 0 ∧ unsure = 0 then (s, r')
  else match info.ahead with
    | .stop => (s, { r' with ended := true })
    | .skip => skip (m ||| unsure)
    | a =>
      if a = .branch ∧ bad ≠ 0 then (s, { r' with ended := true })
      else if m &&& ~~~bad = 0 then skip (m ||| unsure)
      else
        let k := s.issue.core
        let go := { t with issue := { t.issue with exec := m &&& ~~~bad } }
        let u := role.run (b.ws.getD i 0) go
        let pages := addPages r.pages (u.grp.missed.filter fun p => !known.contains p)
        let r' := { r' with pages := pages.1, ended := r'.ended || pages.2 }
        if u.remoteSince k s.nextId then (s, { r' with ended := true })
        else if u.issue.stall.isSome then (s, { r' with poison := aheadPoison r.poison role (m ||| unsure) (m ||| unsure) })
        else
          let v := if a = .load then u.deliverAhead k s.nextId else u
          let g := v.grp.forAhead
          let lost := bad ||| (u.issue.unfin &&& m) ||| if a = .probe then m else 0
          ({ s with issue := { s.issue with moved := u.issue.moved, fpFlags := u.issue.fpFlags } }.onGrp fun _ => g,
           { r' with poison := aheadPoison r.poison role (m ||| unsure) lost })

/-- The words of a run-ahead's bundle, until it ends. -/
def State.aheadWords (s : State) (b : Bundle) (known : List Nat) (fault : Word) : List Nat → RunAhead → State × RunAhead
  | [], r => (s, r)
  | i :: is, r =>
    let x := s.aheadWord b known fault r i
    if x.2.ended then x else x.1.aheadWords b known fault is x.2

/-- The pages that a group's report records as true (R157). -/
def Group.truePages (g : Group) : List Nat := g.missed ++ g.report.elim [] fun r => (r.pages.filter (·.2)).map (·.1)

/-- The scratch state of a run-ahead at the head of a bundle: its slot holds the group as it runs ahead, and no comparator is
consulted. -/
def State.openAhead (s : State) (k slot : Nat) (r : RunAhead) (b : Bundle) : State :=
  let t := (s.modGroup k slot fun _ => r.spec.forAhead).openBundle k slot b
  { t with issue := { t.issue with ahead := true, noWatch := 0xFFFFFFFF } }

/-- What the next bundle of a run-ahead leaves: its record, and the pipes of the core that the bundle holds; everything else is
discarded (R156). What cannot issue ends the run-ahead. -/
def State.aheadStep (s : State) (k slot : Nat) (r : RunAhead) : RunAhead × Core :=
  match s.front k r.spec with
  | .bundle b =>
    let g := ((s.core k).group slot).getD Group.blank
    let t := s.openAhead k slot r b
    if (t.decodeCause b).isSome then ({ r with ended := true }, s.core k)
    else
      let x := t.aheadWords b g.truePages (g.report.elim 0 (·.pc)) b.at_ r
      let u := x.1.occupied b
      let h := u.grp.closeBundle u.issue b.pc
      ({ x.2 with spec := h, ended := x.2.ended || !h.alive }, { s.core k with busy := u.cur.busy, select := u.cur.select })
  | _ => ({ r with ended := true }, s.core k)

/-- Whether the next bundle of a run-ahead must wait: for its words, for a pipe, or for a late result (R39, R156). -/
def State.aheadWaits (s : State) (k slot : Nat) (r : RunAhead) : Bool :=
  r.ended || r.spec.unfetched || match s.front k r.spec with
    | .awaited => true
    | .bundle b =>
      let t := s.openAhead k slot r b
      t.mustWait b || (t.lateFor b).isSome
    | _ => false

/-- A group that runs ahead issues its next bundle, which resets its ageing (R41, R156). -/
def State.issueAhead (s : State) (k slot : Nat) : State :=
  match (s.core k).runs.find? (·.slot == slot) with
  | none => s
  | some r =>
    if s.aheadWaits k slot r then s
    else
      let x := s.aheadStep k slot r
      (s.modCore k fun c => { c with
        busy := x.2.busy, select := x.2.select
        runs := c.runs.map fun y => if y.slot = slot then x.1 else y }).modGroup k slot fun g => { g with age := 0, aged := false }

/-- What an issue or a wait leaves of a group. -/
def State.took (s : State) (k slot : Nat) (r : State ⊕ (Nat × Word × Word)) : State :=
  match r with
  | .inl t => t
  | .inr w => s.modGroup k slot fun g => { g with why := w }

/-- A selected group issues (R28, R162): the rest of a bundle that it has begun; else, unless an imprecise error that waits stops
it first, what stands at its issue address. A group that must wait after all stays as it is. -/
def State.issueGroup (s : State) (k slot : Nat) : State :=
  match (s.core k).group slot with
  | none => s
  | some g =>
    if g.phase = .runAhead then s.issueAhead k slot
    else match g.part with
      | some p => s.took k slot (s.issueRest k slot p)
      | none =>
        if ((s.core k).held s.clk slot g).isSome then s
        else if g.errors ≠ [] ∧ !s.askedBy [0, k, slot] then s.reportNoted k slot
        else match s.front k g with
          | .idle => s
          | .awaited => s
          | .unfetched pc act c => s.issueFault k slot pc act (.instructionFetchFault c)
          | .failed pc act pas code => s.issueFailed k slot pc act pas code
          | .literal pc act => s.issueFault k slot pc act .literalLanding
          | .bundle b => s.took k slot (s.issueBundle k slot b)

end Sys2Proof.Machine
end

