-- ==== Sys2Proof/Machine/Clock.lean ====
section
/-! DEFINITION. The clock: which groups are ready and which issue (R28, R39 to R42, R303, R472), the events that the
device can bring about next, and the placing of a word where the next step fetches it. -/

namespace Sys2Proof.Machine

/-! ## Readiness (R39) -/

/-- A ready group's next bundle: its slot and PC, the shared pipes that it needs, its toggle estimate, its age and role. -/
structure Bid where
  slot : Nat
  pc : Word
  pipes : List Pipe
  est : Nat
  aged : Bool
  role : Nat
deriving DecidableEq, Repr

/-- What the scoreboard says of a group: ready, or a stall reason with its PCs (R169). -/
abbrev Ready := Bid ⊕ (Nat × Word × Word)

/-- The toggle estimate of a word: the sum over its passes (R42, R303). -/
def State.estimate (s : State) (r : Role) : Nat :=
  match r with
  | .instr (.mma _ _ a h reuse _ _) =>
    let e := s.cur.entry (descEntry (s.issue.src.rs h.toNat))
    let bs := (lanesOf s.issue.exec).map fun l => (l, (s.blockOf a.toNat (logicalK e.bfmt e.sp) reuse l).getD [])
    let qs := ((List.range 4).map fun q => bs.filter (·.1 / 8 == q)).filter (· != [])
    (qs.map fun q => charge (q.map (·.2)) - 16).sum
  | _ => 0

/-- The pipes that the schedulers of a core share (R27). -/
def Pipe.shared (p : Pipe) : Bool := p == .m || p == .x || p == .t

/-- What the instruction cache comes to hold for a group whose words are to issue: the packet that it holds, or the one fetched now,
from its home if that lies beyond the package; nothing while that is awaited, while the fetch takes longer, or before a fetch
that fails has been reported as unfetched (R169, R213, R420; `shown` says that it has been). -/
def State.fetchFor (s : State) (k slot : Nat) (g : Group) (shown : Bool) : State × Option (Word × Option (List Nat × Nat)) :=
  let sp := (s.core k).codeSpace g
  let held := g.fetched.filter (·.1 == g.packet)
  let code := fun (x : Word × Option (List Nat × Nat)) => x.2.elim 0 (·.2)
  match s.codeSpots sp.1 sp.2 g.firstPc with
  | .error _ =>
    if held.any (code · == 3) then (s, held)
    else if !shown then (s, none)
    else (if g.phase = .running then s.noteMalformed (s.codeMalformed sp.1 sp.2 g.firstPc) else s, some (g.packet, some ([], 3)))
  | .ok pas =>
    let far := pas.any fun pa => (s.beyond (.phys pa)).isSome
    if held.any fun x => if far then x.2.isSome && code x < 3 else code x < 3 then (s, held)
    else if far then
      let r := { s with issue := { s.issue with asked := false, ahead := false } }.fetchWords k [7, k, slot] pas
      (s.settle [7, k, slot] r.1, r.2.map fun x => (g.packet, some x))
    else if Config.fetchWaits s.choice k slot then (s, none)
    else (s.recordWeak (pas.map fun pa => (.phys pa, 4)), some (g.packet, none))

/-- The fetch of one slot of core `k` on a clk: of its group, or of the group that runs ahead for it (R156, R169, R213). -/
def State.fetchSlot (s : State) (k slot : Nat) : State :=
  match (s.core k).group slot with
  | none => s
  | some g =>
    if g.phase = .running then
      if g.alive && g.part.isNone then
        let r := s.fetchFor k slot g (g.why.1 == 1 && g.why.2.1 == g.firstPc)
        r.1.modGroup k slot fun g => { g with fetched := r.2 }
      else s
    else match (s.core k).runs.find? fun r => r.slot == slot && !r.ended with
      | none => s.dropAsks [7, k, slot]
      | some x =>
        let r := s.fetchFor k slot x.spec true
        r.1.modCore k fun c => { c with
          runs := c.runs.map fun y => if y.slot = slot then { y with spec := { y.spec with fetched := r.2 } } else y }

/-- The instruction cache comes to hold the packets that the groups of core `k` wait for (R169, R213). -/
def State.fetchPackets (s : State) (k : Nat) : State :=
  (List.range (s.core k).groups.length).foldl (fun s j => s.fetchSlot k j) s

/-- A group's bid without shared pipes. -/
def Group.bid (g : Group) (slot : Nat) : Bid :=
  { slot := slot, pc := g.firstPc, pipes := [], est := 0, aged := g.aged || 48 ≤ g.age, role := g.role.toNat }

/-- A group's bid for words of a bundle, in the state that has opened it. -/
def State.bidFor (s : State) (g : Group) (slot : Nat) (b : Bundle) (todo : List Nat) : Bid :=
  { g.bid slot with
    pc := b.pc
    pipes := (todo.filterMap fun i => (roleInfo (b.role i)).pipe).filter Pipe.shared
    est := (todo.map fun i => (s.openWord b i).estimate (b.role i)).sum }

/-- Whether the next bundle of a run-ahead could issue on this clk; its passes are skipped (R39, R156). -/
def State.aheadReady (s : State) (k slot : Nat) (g : Group) (r : RunAhead) : Ready :=
  let pc := r.spec.firstPc
  if s.aheadWaits k slot r then .inr (2, pc, pc)
  else match s.front k r.spec with
    | .bundle b => .inl { (s.openAhead k slot r b).bidFor g slot b b.at_ with est := 0 }
    | _ => .inl { g.bid slot with pc := pc }

/-- Whether a group's next bundle, or the rest of the one that it has begun, could issue on this clk; of several reasons against it
the lowest (R39, R169). -/
def State.ready (s : State) (k slot : Nat) (g : Group) : Ready :=
  let missing : Ready := .inr (1, g.firstPc, g.firstPc)
  let bidOr := fun (r : State ⊕ (Nat × Word × Word)) (b : Bid) => match r with
    | .inr w => (.inr w : Ready)
    | .inl _ => .inl b
  if g.phase = .runAhead then
    match (s.core k).runs.find? (·.slot == slot) with
    | none => .inr (2, g.firstPc, g.firstPc)
    | some r => s.aheadReady k slot g r
  else match g.part, (s.core k).held s.clk slot g with
    | some p, _ =>
      bidOr (s.issueRest k slot p) ({ s with issue := p.issue }.bidFor g slot p.bundle p.rest)
    | none, some w => if g.unfetched && 2 < w.1 && w.1 < 11 then missing else .inr w
    | none, none =>
      if g.errors ≠ [] ∧ !s.askedBy [0, k, slot] then .inl (g.bid slot)
      else if g.unfetched then missing
      else match s.front k g with
        | .idle => .inr g.why
        | .awaited => missing
        | .unfetched _ _ _ => .inl (g.bid slot)
        | .failed _ _ _ _ => .inl (g.bid slot)
        | .literal _ _ => .inl (g.bid slot)
        | .bundle b => bidOr (s.issueBundle k slot b) ((s.openBundle k slot b).bidFor g slot b b.at_)

/-! ## Selection and arbitration (R40, R42) -/

/-- The lexicographic order of keys. -/
def lexLess : List Nat → List Nat → Bool
  | x :: xs, y :: ys => decide (x < y) || (x == y && lexLess xs ys)
  | _, _ => false

/-- The bid with the lowest key; of equal keys the first. -/
def best (key : Bid → List Nat) : List Bid → Option Bid
  | [] => none
  | b :: bs => match best key bs with
    | none => some b
    | some c => if lexLess (key c) (key b) then some c else some b

/-- The order of R40: aged groups by slot, then role class and slot. -/
def Bid.order (b : Bid) : List Nat := if b.aged then [0, 0, b.slot] else [1, b.role, b.slot]

/-- The order of R42 at a shared pipe whose rotation stands at `rot`. -/
def Bid.claim (p : Pipe) (rot : Nat) (b : Bid) : List Nat :=
  (if b.aged then 0 else 1) :: b.role :: if p = .x then [b.est, b.slot] else [(b.slot % 4 + 4 - rot % 4) % 4]

/-- The picks that remain when a pipe has taken its bundle. -/
def arbitrate (p : Pipe) (rot : Nat) (picks : List Bid) : List Bid :=
  match best (Bid.claim p rot) (picks.filter (·.pipes.contains p)) with
  | none => picks
  | some w => picks.filter fun b => !b.pipes.contains p || b == w

/-- The index of a pipe's rotation. -/
def Pipe.index (p : Pipe) : Nat := if p = .m then 0 else if p = .x then 1 else 2

/-- Whether each scheduler may issue on this clk, with its phase accumulator after it (R472). -/
def dutyStep (scale acc : Nat) : Bool × Nat := if 256 ≤ acc + scale then (true, acc + scale - 256) else (false, acc + scale)

/-- A group after a clk on which it was looked at: its stall reason, which is translation-suspend throughout a run-ahead, and its
ageing counter (R39 to R42, R156, R472). -/
def Group.tick (g : Group) (r : Ready) (picked won allowed : Bool) : Group :=
  match r with
  | .inr w => { g with why := w }
  | .inl b =>
    let why := if g.phase = .runAhead then 2 else if picked || !allowed then 6 else 10
    { g with
      why := if won && g.phase != .runAhead then g.why else (why, b.pc, b.pc)
      age := if won || !allowed then g.age else g.age + 1 }

/-- One clk of a core's schedulers: the groups looked at, the core after it, and the slots that issue. Of a bundle that needs
two shared pipes R42 does not say how the pipes' choices combine: M, X and T choose in this order, and a bundle that loses one
leaves the others unused (DESIGN CHOICE, assumption 46). -/
def Core.schedule (c : Core) (scale : Nat) (rs : List (Nat × Ready)) : Core × List Nat :=
  let duty := (List.range 4).map fun j => dutyStep scale (c.duty.getD j 0)
  let allowed := fun slot => (duty.getD (slot % 4) (false, 0)).1
  let bids := rs.filterMap fun r => match r.2 with
    | .inl b => some b
    | .inr _ => none
  let picks := (List.range 4).filterMap fun j => best Bid.order (bids.filter fun b => b.slot % 4 == j && allowed b.slot)
  let won := [Pipe.m, .x, .t].foldl (fun ps p => arbitrate p (c.rot.getD p.index 0) ps) picks
  let grants := fun (p : Pipe) => (won.filter (·.pipes.contains p)).length
  let has := fun (bs : List Bid) slot => bs.any (·.slot == slot)
  let tick := fun slot (g : Group) => match rs.find? (·.1 == slot) with
    | some r => g.tick r.2 (has picks slot) (has won slot) (allowed slot)
    | none => g
  ({ c with
     groups := c.groups.mapIdx fun slot o => o.map (tick slot)
     duty := duty.map (·.2)
     rot := [Pipe.m, .x, .t].map fun p => (c.rot.getD p.index 0 + grants p) % 4 }, won.map (·.slot))

/-- A core's bucket gains the refill rate, which PSCALE throttles (R303, R472); what was issued on the last clk is past. -/
def Core.newClk (c : Core) (scale : Nat) : Core :=
  let fresh := fun (g : Group) => if g.why.1 = 0 then { g with why := (10, g.why.2) } else g
  { c with
    bucket := min 65536 (c.bucket + c.refill * scale / 256)
    groups := c.groups.map (Option.map fresh) }

/-- One core's part of a new clk: a halted core completes the bundles that its groups have begun (R168). -/
def State.clockCore (s : State) (k : Nat) : State :=
  let c := s.core k
  if s.rel.held || c.groups.all Option.isNone then s
  else
    let s := if c.halted then s else s.fetchPackets k
    let c := s.core k
    let js := (List.range c.groups.length).filter fun j => !c.halted || s.midBundle k j
    let rs := js.filterMap fun j => (c.group j).map fun g => (j, s.ready k j g)
    let r := c.schedule (s.dieScale (k / 128)) rs
    { s.modCore k fun _ => r.1 with issueQ := s.issueQ ++ r.2.map fun j => (k, j) }

/-- The stall samples that are due on this clk (R469). -/
def State.samplesDue (s : State) : List Instr :=
  ((List.range 3).filter fun d =>
    let w := ((s.rel.samples.getD d []).getD 1 0).toNat
    let n := bits w 20 16
    bit w 8 && s.clk % 2 ^ (if 8 ≤ n ∧ n ≤ 24 then n else 24) == 0).map Instr.stallSample

/-- The teams of core `k` whose last operation has ended after their groups are gone (R133). -/
def State.endTeams (s : State) (k : Nat) : State := (s.core k).teams.foldl (fun s t => s.endTeam k t.id) s

/-- The next clk, behind the samples of the one that ends; ports retrain, requests that were held back look again, and decrements
that are owed are tried (R126, R452, R456, R469). -/
def State.newClk (s : State) : State :=
  let s := s.samplesDue.foldl (fun s i => s.of (exec i s)) s
  let s := { s with fabric := { s.fabric with ports := s.fabric.ports.map fun (q : Port) => q.retry (s.clk + 1) } }
  let s := (List.range s.cores.length).foldl State.endTeams s.retryRequests.payOwed
  let s := { s with clk := s.clk + 1, cores := s.cores.map fun c => c.newClk s.rel.pscale }
  (List.range s.cores.length).foldl State.clockCore s

/-! ## The events that can come next -/

/-- The events of an operation in flight. -/
def Flight.events (f : Flight) (k : Nat) : List Instr :=
  let held := if f.held.isSome then [Instr.holdRelease k f.id] else []
  let own : List Instr := match f.kind with
    | .load _ _ => [.loadDataReturn k f.id]
    | .store _ => if f.performed then [.storeAck k f.id] else [.homeWrite (.pending k f.id)]
    | .rmw _ _ _ => if f.performed then [.storeAck k f.id] else [.homeWrite (.pending k f.id)]
    | .copy _ _ _ _ _ => [.copyComplete (.core k) f.id]
    | .axpy _ _ _ _ _ _ _ => [.bankStreamComplete k f.id]
    | .red _ _ _ _ _ _ => [.bankStreamComplete k f.id]
    | .image _ _ _ => [.contextImageComplete k f.id]
    | .resLoad _ _ _ _ _ _ _ w _ _ => if w = 0 then [.resLoadComplete k f.id] else [.resLoadProceed k f.id]
    | .migrate _ _ _ _ => [.migrationComplete k f.id]
    | .pass _ _ _ _ _ _ _ => [.matrixPassDone k f.id]
    | .grotto _ _ _ _ _ _ _ rows => if rows.isNone then [.grottoRequest k f.id] else [.grottoResult k f.id]
    | .arrive _ _ _ _ => [.barrierDelivery k f.id]
    | .push _ _ _ _ => []
    | .pops => [.storeAck k f.id]
    | .flush => [.storeAck k f.id]
  held ++ own

/-- The events of a resident group. -/
def Group.events (g : Group) (clk k j : Nat) : List Instr :=
  (if 48 ≤ g.age ∧ !g.aged then [Instr.groupAged k j] else []) ++
  (if g.done then [Instr.slotReclaim k j] else []) ++
  (if g.sleepUntil.any (· ≤ clk) then [Instr.sleepEnd k j] else []) ++
  (if g.tryUntil.any (·.2.2.2 ≤ clk) then [Instr.trywaitTimeout k j] else []) ++
  (List.range g.lanes.length).flatMap fun l =>
    (if (g.lane l).park.any (·.deadline ≤ clk) then [Instr.parkTimeout k j l] else []) ++
    if (g.lane l).win.refill then [Instr.wqRefillDone k j l] else []

/-- The command that a core carries out (R401, R402). -/
def Core.command (c : Core) (k : Nat) : List Instr :=
  if c.regs.cstat ≠ 1 then []
  else
    let m := BitVec.ofNat 32 (bits c.regs.ccmd.toNat 39 8)
    match c.regs.ccmd.toNat % 256 with
    | 1 => [.saveTeam k m]
    | 2 => if c.saved.any (·.wanted) then [] else [.restoreTeam k]
    | 3 => [.returnGroup k m]
    | 4 => [.terminate k m]
    | _ => []

/-- The events of a core. The groups of a quiescent core stand still, and it takes no command (R168). -/
def Core.events (c : Core) (clk k : Nat) : List Instr :=
  c.flight.flatMap (·.events k) ++
  (((c.teams.map (·.id)) ++ c.saved.map (·.team.id)).filter c.doneDue).map (Instr.taskDoneDecrement k) ++
  (c.pref.filter (!·.2.2)).map (fun p => Instr.prefetchFill k p.1) ++
  if c.quiescent then []
  else
    ((List.range c.groups.length).flatMap fun j => (c.group j).elim [] fun g => g.events clk k j) ++
    (c.runs.filter (·.ended)).map (fun r => Instr.runAheadEnd k r.slot) ++
    c.command k ++
    (if c.saved.any (·.wanted) then [Instr.teamReturn k] else []) ++
    if c.halted then [Instr.debugQuiescent k] else []

/-- The watched words that a core may look at again: those that a store has changed, and at any time those beyond the package (R34,
R168). -/
def State.recheckEvents (s : State) (k : Nat) : List Instr :=
  let c := s.core k
  if c.quiescent then []
  else (((c.rechecks ++ c.watchers.map (·.pa)).eraseDups).filter (s.recheckDue k)).map (Instr.parkRecheck k)

/-- The events of a quad's ready queue. -/
def Quad.events (q : Quad) (n : Nat) : List Instr :=
  (if q.waiting = [] then [] else [Instr.readyPushAccept n]) ++ if q.chip = [] then [] else [Instr.taskStart n]

/-- The events of a Belvedere thread. -/
def State.threadEvents (s : State) (t : Nat) : List Instr :=
  let b := s.thread t
  (if s.mayStart t then [Instr.launchBundle t, .waitPacket t, .unknownCommand t]
    else if b.inflight.any (!·.todo.isEmpty) && !s.belvPushes t then [.launchBundle t] else []) ++
  (if b.inflight.any (·.wait) then [Instr.waitPacketTest t, .waitPacketTimeout t] else []) ++
  b.inflight.flatMap fun c => (List.range c.subs.length).filterMap fun i => match c.subs[i]? with
    | some u => if (u.left = 0 && !u.closed) || c.over then some (Instr.subLaunchComplete t c.index i) else none
    | none => none

/-- The events of a Drukofold port. -/
def Port.events (q : Port) (p : Nat) : List Instr :=
  (match q.inbox with
    | [] => []
    | m :: _ => match m.op with
      | 1 => [Instr.fabricRead p]
      | 2 => [.fabricWrite p]
      | 3 => [.fabricMaskedWrite p]
      | 4 => [.fabricAtomic p]
      | 5 => [.fabricReply p]
      | 6 => [.barrierArrivalMessage p]
      | _ => [.barrierCompletionMessage p]) ++
  if q.up && 8 ≤ q.stuck then [Instr.portDown p] else []

/-- Every event that the device itself can bring about next; each one's meaning looks at its own conditions again. -/
def State.enabled (s : State) : List Instr :=
  if s.rel.held then []
  else
    ((List.range s.cores.length).flatMap fun k => (s.core k).events s.clk k ++ s.recheckEvents k) ++
    ((List.range s.quads.length).flatMap fun q => (s.quad q).events q) ++
    ((List.range s.belv.threads.length).flatMap s.threadEvents) ++
    s.belv.flight.map (fun f => Instr.copyComplete .belvedere f.id) ++
    (if s.fq.pending = [] then [] else [Instr.faultRecordWrite]) ++
    (if s.mc.mstat.toNat % 4 = 1 then [Instr.invalidationDone] else []) ++
    (if bits s.mc.mstat.toNat 3 2 = 1 then [Instr.staleMarkDone] else []) ++
    s.fabric.dmas.map Instr.storageDma ++
    (if s.host.attest = 1 then [Instr.attestationDone] else []) ++
    (if s.host.flr.isSome then [Instr.flrDrainEnd] else []) ++
    ((s.fabric.requests.filter fun r => r.answer.isNone && r.sent + s.dtimeout ≤ s.clk).map fun r => Instr.remoteTimeout r.core r.flight) ++
    ((List.range s.fabric.ports.length).flatMap fun p => (s.port p).events p) ++
    ((s.fabric.kept.filter fun k => k.port.isNone && k.deadline ≤ s.clk).map fun k => Instr.podBarrierTimeout k.num)

/-- What happens while nothing waits to issue: one of the events that can come next, or the next clk (assumption 4). -/
def State.advance (s : State) : Result :=
  let t := { s with choice := s.choice + 1 }
  match s.enabled[Config.pick s.choice % (s.enabled.length + 1)]? with
  | some i => exec i t
  | none => .next t.newClk

/-- Whether an input is one that comes from outside the device, or that its clock has scheduled. -/
def isInput (i : Instr) : Bool :=
  match i with
  | .clause _ _ _ _ _ => false
  | .guard _ _ _ => false
  | .nop _ => false
  | .brk _ => false
  | .iadd _ _ _ _ _ _ => false
  | .isub _ _ _ _ _ _ => false
  | .imul _ _ _ _ _ _ => false
  | .imulh _ _ _ _ _ _ _ => false
  | .imad _ _ _ _ _ _ => false
  | .iabs _ _ _ _ => false
  | .imin _ _ _ _ _ _ _ => false
  | .imax _ _ _ _ _ _ _ => false
  | .ishl _ _ _ _ _ _ => false
  | .ishr _ _ _ _ _ _ _ => false
  | .irot _ _ _ _ _ _ => false
  | .and _ _ _ _ _ _ => false
  | .or _ _ _ _ _ _ => false
  | .xor _ _ _ _ _ _ => false
  | .andn _ _ _ _ _ _ => false
  | .clz _ _ _ _ => false
  | .popc _ _ _ _ => false
  | .brev _ _ _ _ => false
  | .bfx _ _ _ _ _ _ _ => false
  | .bfi _ _ _ _ _ _ => false
  | .icmp _ _ _ _ _ _ _ => false
  | .plog _ _ _ _ _ _ => false
  | .movW32 _ _ _ _ _ => false
  | .movW64 _ _ _ _ _ => false
  | .movS _ _ _ _ _ => false
  | .movi _ _ _ _ => false
  | .movhi _ _ _ _ => false
  | .add64 _ _ _ _ _ _ _ => false
  | .sub64 _ _ _ _ _ _ _ => false
  | .mul64 _ _ _ _ _ _ _ => false
  | .shl64 _ _ _ _ _ _ _ => false
  | .shr64 _ _ _ _ _ _ _ _ => false
  | .cmp64 _ _ _ _ _ _ _ _ => false
  | .bra _ _ _ _ _ => false
  | .jmp _ _ _ => false
  | .call _ _ _ => false
  | .ret _ _ _ => false
  | .exit _ _ => false
  | .brx _ _ _ _ _ => false
  | .vote _ _ _ _ _ => false
  | .rdsr _ _ _ _ _ => false
  | .wrsr _ _ _ _ _ => false
  | .taskSpawn _ _ _ _ _ _ _ => false
  | .taskDone _ => false
  | .ctrAdd _ _ _ _ _ _ => false
  | .wqPop _ _ _ _ _ => false
  | .wqPush _ _ _ _ _ _ => false
  | .bar _ _ _ _ _ => false
  | .barArrive _ _ _ _ _ _ => false
  | .barWait _ _ _ _ _ => false
  | .roleGive _ _ _ => false
  | .roleClaim _ _ _ => false
  | .park _ _ _ _ _ _ => false
  | .trap _ => false
  | .sysret _ _ _ => false
  | .watch _ _ _ _ _ _ => false
  | .clock _ _ _ _ _ => false
  | .pmark _ _ => false
  | .hold _ _ _ _ => false
  | .cap _ _ _ _ _ => false
  | .sleep _ _ _ => false
  | .fadd _ _ _ _ _ _ => false
  | .fsub _ _ _ _ _ _ => false
  | .fmul _ _ _ _ _ _ => false
  | .ffma _ _ _ _ _ _ => false
  | .fmin _ _ _ _ _ _ => false
  | .fmax _ _ _ _ _ _ => false
  | .fcmp _ _ _ _ _ _ _ => false
  | .frcp _ _ _ _ => false
  | .frsq _ _ _ _ => false
  | .fsqrt _ _ _ _ => false
  | .fdiv _ _ _ _ _ _ => false
  | .fexp2 _ _ _ _ => false
  | .flog2 _ _ _ _ => false
  | .fsin _ _ _ _ => false
  | .fcos _ _ _ _ => false
  | .frnd _ _ _ _ _ => false
  | .fclass _ _ _ _ => false
  | .fscale _ _ _ _ _ _ => false
  | .dadd _ _ _ _ _ _ _ => false
  | .dmul _ _ _ _ _ _ => false
  | .dfma _ _ _ _ _ _ => false
  | .dminmax _ _ _ _ _ _ _ => false
  | .dcmp _ _ _ _ _ _ _ => false
  | .hadd2 _ _ _ _ _ _ => false
  | .hmul2 _ _ _ _ _ _ => false
  | .hfma2 _ _ _ _ _ _ => false
  | .bfma2 _ _ _ _ _ _ => false
  | .cvt _ _ _ _ _ _ _ => false
  | .cvtpk _ _ _ _ _ _ _ => false
  | .cvtupk _ _ _ _ _ _ => false
  | .shfl _ _ _ _ _ _ => false
  | .bcast _ _ _ _ _ => false
  | .lred _ _ _ _ _ => false
  | .lscan _ _ _ _ _ _ => false
  | .cellkey _ _ _ _ _ _ => false
  | .fdot2 _ _ _ _ _ _ _ => false
  | .ldg _ _ _ _ _ _ => false
  | .stg _ _ _ _ _ _ => false
  | .lds _ _ _ _ _ _ _ => false
  | .sts _ _ _ _ _ _ _ => false
  | .ldp _ _ _ _ _ _ => false
  | .stp _ _ _ _ _ _ => false
  | .ldacq _ _ _ _ _ _ => false
  | .strel _ _ _ _ _ _ => false
  | .atadd _ _ _ _ _ _ _ _ => false
  | .atminmax _ _ _ _ _ _ _ _ => false
  | .atlogic _ _ _ _ _ _ _ _ => false
  | .atxchg _ _ _ _ _ _ _ => false
  | .atcas _ _ _ _ _ _ _ => false
  | .bankAdd _ _ _ _ _ => false
  | .bankFx _ _ _ _ _ => false
  | .bankFxread _ _ _ _ _ => false
  | .bankApp _ _ _ _ _ => false
  | .bankAxpy _ _ _ _ _ _ => false
  | .bankRed _ _ _ _ _ _ => false
  | .fence _ _ _ _ => false
  | .fenceRng _ _ _ _ _ _ => false
  | .cpyL _ _ _ _ _ _ _ _ => false
  | .cpyT _ _ _ _ _ _ _ => false
  | .trywait _ _ _ _ _ => false
  | .pref _ _ _ _ _ _ => false
  | .ldk _ _ _ => false
  | .stkCtx _ _ _ _ _ => false
  | .flushl1 _ _ => false
  | .mma _ _ _ _ _ _ _ => false
  | .accLd _ _ _ _ _ _ _ => false
  | .accSt _ _ _ _ _ _ _ => false
  | .accStrows _ _ _ _ _ => false
  | .accZero _ _ _ => false
  | .resAlloc _ _ _ _ => false
  | .resLoad _ _ _ _ _ => false
  | .resPin _ _ _ _ => false
  | .resFree _ _ _ => false
  | .resQuery _ _ _ _ => false
  | .resHeat _ _ _ _ _ => false
  | .resAge _ _ _ => false
  | .resMigrate _ _ _ _ _ _ => false
  | .mfmt _ _ _ _ _ _ _ => false
  | .fireSet _ _ _ _ => false
  | .budgetRd _ _ _ _ => false
  | .tag _ _ _ _ => false
  | .mkt _ _ _ _ _ _ => false
  | .mkvar _ _ => false
  | .mkstr _ _ _ _ _ _ => false
  | .arg _ _ _ _ _ _ _ => false
  | .deref _ _ _ _ => false
  | .unifyP _ _ _ _ _ => false
  | .unifyF _ _ _ _ => false
  | .bind _ _ _ _ => false
  | .choice _ _ _ _ => false
  | .retry _ _ _ => false
  | .trust _ => false
  | .fail _ => false
  | .cut _ _ _ => false
  | .adopt _ _ _ => false
  | .publishOpen _ _ _ => false
  | .publishClose _ _ _ => false
  | .btld _ _ _ _ _ _ => false
  | .faddi _ _ _ _ => false
  | .fmuli _ _ _ _ => false
  | .groupAged _ _ => false
  | .loadDataReturn _ _ => false
  | .storeAck _ _ => false
  | .homeWrite w => match w with
    | .outside _ _ => true
    | .pending _ _ => false
  | .holdRelease _ _ => false
  | .slotReclaim _ _ => false
  | .taskDoneDecrement _ _ => false
  | .readyPushAccept _ => false
  | .taskStart _ => false
  | .parkRecheck _ _ => false
  | .parkTimeout _ _ _ => false
  | .wqRefillDone _ _ _ => false
  | .barrierDelivery _ _ => false
  | .sleepEnd _ _ => false
  | .trywaitTimeout _ _ => false
  | .runAheadEnd _ _ => false
  | .faultRecordWrite => false
  | .matrixPassDone _ _ => false
  | .grottoRequest _ _ => false
  | .grottoResult _ _ => false
  | .migrationComplete _ _ => false
  | .resLoadProceed _ _ => false
  | .resLoadComplete _ _ => false
  | .copyComplete _ _ => false
  | .bankStreamComplete _ _ => false
  | .contextImageComplete _ _ => false
  | .saveTeam _ _ => false
  | .restoreTeam _ => false
  | .teamReturn _ => false
  | .returnGroup _ _ => false
  | .terminate _ _ => false
  | .launchBundle _ => false
  | .waitPacket _ => false
  | .waitPacketTest _ => false
  | .waitPacketTimeout _ => false
  | .unknownCommand _ => false
  | .subLaunchComplete _ _ _ => false
  | .mcoffWrite _ _ => true
  | .invalidate _ => true
  | .invalidationDone => false
  | .staleMark _ => true
  | .staleMarkDone => false
  | .klockSet _ => true
  | .plimitWrite _ => true
  | .sfaultClear _ => true
  | .telemetryCounterClear _ _ _ => true
  | .attestationRequest _ => true
  | .attestationDone => false
  | .flrDrainEnd => false
  | .hostCompletion _ _ _ => true
  | .remoteTimeout _ _ => false
  | .portDown _ => false
  | .fabricRead _ => false
  | .fabricWrite _ => false
  | .fabricMaskedWrite _ => false
  | .fabricAtomic _ => false
  | .fabricReply _ => false
  | .barrierArrivalMessage _ => false
  | .barrierCompletionMessage _ => false
  | .podBarrierTimeout _ => false
  | .stallSample _ => true
  | .debugQuiescent _ => false
  | .notAnInstruction _ => false
  | .literalLanding => false
  | .instructionFetchFault _ => false
  | .prefetchFill _ _ => false
  | .registerWrite _ _ _ => true
  | .doorbell _ _ _ => true
  | .belvedereMismatch => true
  | .issueControlMismatch _ _ => true
  | .functionLevelReset => true
  | .hostLinkDown => true
  | .storageDma _ => true
  | .flitReceive _ _ => true
  | .portRetrain _ _ => true
  | .hbmRequest _ _ => true
  | .activationAlert _ _ _ _ => true
  | .selfRefreshEntry _ _ _ => true
  | .scrubPass _ => true
  | .powerWindow _ => true
  | .dieOver105 _ => true
  | .dieBelow100 _ => true
  | .thermalTrip _ => true
  | .debugHalt _ => true
  | .debugAccess _ _ => true
  | .debugRelease _ => true
  | .powerGood _ => true
  | .packageReset => true
  | .hostLinkUp _ _ => true
  | .hostAtomicop _ => true
  | .refreshDue _ _ _ _ => true

/-- What waits on the agenda happens (assumption 8): a held package takes nothing but its reset (R473). -/
def State.input (s : State) (i : Instr) : Result :=
  let reset := match i with
    | .packageReset => true
    | .powerGood _ => true
    | _ => false
  if isInput i && i.wellFormed && (!s.rel.held || reset) then exec i s else .next s

/-! ## Placing a word where the next step fetches it -/

/-- A number of `n` bytes written to memory. -/
def State.poke (s : State) (pa n w : Nat) : State := { s with mem := s.mem.write pa (leBytes n w) }

/-- A team of one group without a task record. -/
def Team.lone : Team := { Team.blank with slots := [0], live := [0] }

/-- A program's first word can be fetched: space 1 maps page 0 to a frame of the package's own HBM, core 0
translates under it, and slot 0 holds a group whose lanes stand at word address 0 and which is selected to issue. -/
def State.withProgram (s : State) : State :=
  let node := s.localPa 0 / 2 ^ 44
  let at_ := fun a => s.localPa a
  let s := ((((((s.poke (at_ 0x1010) 8 0x2001).poke (at_ 0x1018) 8 0).poke (at_ 0x2000) 8 0x3001).poke (at_ 0x3000) 8
    0x4001).poke (at_ 0x4000) 8 0x5001).poke (at_ 0x5000) 8 0x6001).poke (at_ 0x6000) 8 (node * 2 ^ 54 + 0x1000F)
  let s := { s with mc := { s.mc with stbase := 0x1000, stlen := 2, krange := s.mc.krange.map fun _ => (0x1000, 0) }, agenda := [], issueQ := [(0, 0)] }
  s.modCore 0 fun c => { c with
    regs := { c.regs with space := 1 }
    groups := c.groups.set 0 (some (Group.launch 128 0 (List.replicate 48 0) 0 2 0))
    teams := [Team.lone]
    nextTeam := 1
    freeBlocks := 496
    flight := []
    runs := []
    busy := List.replicate 15 0
    halted := false }

/-- Where the next step fetches a word that is the first of its packet: the physical addresses of the word and of the
word behind it. -/
def State.fetchSpot (s : State) : Option (Nat × Nat) :=
  match s.agenda, s.issueQ with
  | [], (k, j) :: _ => ((s.core k).group j).bind fun g =>
    let c := s.core k
    let tenant := ((c.team g.team).getD Team.blank).origin.tenant
    let at_ := fun a => s.fetchAt (c.regs.space.toNat % 2 ^ 16) tenant a
    let waits := (c.held s.clk j g).isSome || s.clk < g.nextAt || c.busy.any (s.clk < ·) || g.late != []
    let own := fun a => (s.beyond (.phys a)).isNone
    if g.phase ≠ .running || waits || g.part.isSome || g.errors != [] || !g.alive || g.firstPc.toNat % 3 != 0 then none
    else match at_ g.firstPc.toNat, at_ (g.firstPc.toNat + 1), at_ (g.firstPc.toNat + 2) with
      | .ok a _ _, .ok b _ _, .ok d _ _ => if own a && own b && own d then some (a, b) else none
      | _, _, _ => none
  | _, _ => none

/-- The table's word `w` of `nbits` bits stands where the next step fetches, the word behind it zero; where the machine is
not about to fetch, a program is set up first (assumption 10). -/
def State.placeWord (s : State) (nbits w : Nat) : State :=
  let v := w % 2 ^ nbits
  match s.fetchSpot with
  | some p => (s.poke p.1 4 v).poke p.2 4 (v / 2 ^ 32)
  | none => (s.withProgram.poke (s.localPa 0x10000) 4 v).poke (s.localPa 0x10004) 4 (v / 2 ^ 32)

end Sys2Proof.Machine
end

