-- ==== Sys2Proof/Machine/Step.lean ====
section
/-! DEFINITION. One step of the machine: the first input that waits; else the next selected group issues its bundle; else
an event of the device or the next clk. -/

namespace Sys2Proof.Machine

/-- One step. -/
def step (s : State) : Host.Outcome State Fault Refusal :=
  match s.agenda, s.issueQ with
  | i :: is, _ => State.input { s with agenda := is } i
  | [], p :: ps => .next (State.issueGroup { s with issueQ := ps } p.1 p.2)
  | [], [] => s.advance

/-- The state with the table's word `w` of `nbits` bits where `step` fetches its next instruction. -/
def State.withFetchWord (s : State) (nbits w : Nat) : State := s.placeWord nbits w

end Sys2Proof.Machine
end

