-- ==== Sys2Proof/Safety.lean ====
section
/-! DEFINITION. What the claims say of the machine: the shape that states have, what a safe run is, and the relations
between the states before and after a word by which the claims state results and frames. -/

namespace Sys2Proof.Machine

/-! ## The shape of a state, and safe runs -/

/-- A group holds 32 lanes of every register, 64 scalars, 7 predicates, 32 lanes, 12 flags, a firing mask of 128 words and
a latch for every lane (R19, R29, R44, R95, R206, R301). -/
def Group.shaped (g : Group) : Bool :=
  g.rf.v.all (·.length == 32) && g.rf.s.length == 64 && g.rf.p.length == 7 && g.lanes.length == 32 &&
    g.flags.length == 12 && g.fire.length == 128 && g.latch.length == 32

/-- A group of full shape is in the slot whose word is being issued, and its allotment is the one that the bundle reads. -/
def State.issuing (s : State) : Bool :=
  ((s.core s.issue.core).group s.issue.slot).any fun g => g.shaped && g.rf.v.length == s.issue.src.v.length

/-- A safe run goes on for ever: no state of it stops with a fault or a refusal, and memory keeps its canonical form. -/
def SafeStep (s : State) : Prop := s.mem.wf → ∃ t, step s = .next t ∧ t.mem.wf

/-! ## Frames -/

/-- Every byte of memory reads as before. -/
def SameMemory (s t : State) : Prop := ∀ a, t.mem.read a = s.mem.read a

/-- Every byte of memory outside the `n` bytes from `pa` on reads as before. -/
def SameMemoryBut (s t : State) (pa n : Nat) : Prop :=
  ∀ a, ¬(pa ≤ a ∧ a < pa + n) → t.mem.read a = s.mem.read a

/-- The state with float flags added to those that the bundle leaves (R237). -/
def State.flagged (s : State) (fl : Nat) : State :=
  { s with issue := { s.issue with fpFlags := s.issue.fpFlags ||| BitVec.ofNat 32 fl } }

/-- A word that writes `n` vector registers from `d` on in the lanes of `m`, `f i l` being lane l of the i-th, and whose
float flags are `fl`. Every other register, every other lane, the predicates, the scalars, the constant bank, `%fpm`,
the flags, the rest of the machine and every byte of memory are as before. -/
structure Vectors (s t : State) (d n : Nat) (m : Word) (f : Nat → Nat → Word) (fl : Nat) : Prop where
  written : ∀ i l, i < n → l < 32 →
    t.grp.rf.rv (d + i) l = if m.getLsbD l then f i l else s.grp.rf.rv (d + i) l
  others : ∀ r l, r < d ∨ d + n ≤ r → t.grp.rf.rv r l = s.grp.rf.rv r l
  sizes : t.grp.rf.v.length = s.grp.rf.v.length
  frame : t = (s.onGrp fun g => { g with rf := { g.rf with v := t.grp.rf.v } }).flagged fl
  memory : SameMemory s t

/-- A word that answers a next state in which vector register `d` holds `f` of its source lane in every executing lane,
and nothing else differs (R29, R37). -/
def WritesV (s : State) (r : Result) (u : Bool) (d : Nat) (f : Nat → Word) : Prop :=
  ∃ t, r = .next t ∧ Vectors s t d 1 s.issue.exec (fun _ l => f (s.from u l)) 0

/-- Word `i` of a number. -/
def wordOf (w i : Nat) : Word := BitVec.ofNat 32 (w / 2 ^ (32 * i))

/-- A word that answers a next state in which the pair of `d` holds `f` of its source lane in every executing lane. -/
def WritesV2 (s : State) (r : Result) (u : Bool) (d : Nat) (f : Nat → DWord) : Prop :=
  ∃ t, r = .next t ∧ Vectors s t d 2 s.issue.exec (fun i l => wordOf (f (s.from u l)).toNat i) 0

/-- The flags that any lane that makes its own result sets: every executing lane, or the lowest alone in a uniform word
(R37, R237). -/
def State.anyFlags (s : State) (u : Bool) (f : Nat → Nat) : Nat :=
  if u then (if s.issue.exec = 0 then 0 else f (lowest s.issue.exec)) else flagsOf (lanesOf s.issue.exec) f

/-- A float word: results and flags of the lanes (R237). -/
def WritesF (s : State) (r : Result) (u : Bool) (d : Nat) (f : Nat → Word × Nat) : Prop :=
  ∃ t, r = .next t ∧
    Vectors s t d 1 s.issue.exec (fun _ l => (f (s.from u l)).1) (s.anyFlags u fun l => (f l).2)

/-- A float word with a pair for its result. -/
def WritesF2 (s : State) (r : Result) (u : Bool) (d : Nat) (f : Nat → DWord × Nat) : Prop :=
  ∃ t, r = .next t ∧
    Vectors s t d 2 s.issue.exec (fun i l => wordOf (f (s.from u l)).1.toNat i) (s.anyFlags u fun l => (f l).2)

/-- A word that writes predicate `p` in the executing lanes; p7 keeps reading 1 (R218). Nothing else differs. -/
structure Predicates (s t : State) (p : Nat) (f : Nat → Bool) : Prop where
  written : ∀ l, l < 32 → t.grp.rf.rp p l =
    if p = 7 then true else if s.issue.exec.getLsbD l then f l else s.grp.rf.rp p l
  others : ∀ q l, q ≠ p → t.grp.rf.rp q l = s.grp.rf.rp q l
  frame : t = s.onGrp fun g => { g with rf := { g.rf with p := t.grp.rf.p } }
  memory : SameMemory s t

/-- A word that answers a next state in which predicate `p` is `f` of its source lane in every executing lane. -/
def WritesP (s : State) (r : Result) (u : Bool) (p : Nat) (f : Nat → Bool) : Prop :=
  ∃ t, r = .next t ∧ Predicates s t p fun l => f (s.from u l)

/-- A word that writes scalars once, unless it has no executing lane (R37). Nothing else differs. -/
structure Scalars (s t : State) (ws : List (Nat × DWord)) : Prop where
  written : ∀ n, n < 64 → t.grp.rf.rs n =
    match ws.find? (·.1 == n) with
    | some w => if s.issue.exec = 0 then s.grp.rf.rs n else w.2
    | none => s.grp.rf.rs n
  frame : t = s.onGrp fun g => { g with rf := { g.rf with s := t.grp.rf.s } }
  memory : SameMemory s t

/-- A word that answers a next state with one scalar written. -/
def WritesS (s : State) (r : Result) (d : Nat) (w : DWord) : Prop := ∃ t, r = .next t ∧ Scalars s t [(d, w)]

/-- A branch: the lanes of `m` stand at their targets, and the bundle's end moves the other active lanes past it (R31,
R228); a branch by which a lane exits is the group's exit PC (R32, R169). No register, nothing else of the lanes, of the
machine or of memory differs. -/
structure Branched (s t : State) (m : Word) (target : Nat → Word) : Prop where
  placed : ∀ l, l < 32 →
    t.grp.lane l = { s.grp.lane l with vpc := if m.getLsbD l then target l else (s.grp.lane l).vpc }
  exits : t.grp.heldPc =
    if (lanesOf m).any fun l => target l == 0xFFFFFFFF then s.issue.pc else s.grp.heldPc
  frame : t = { s.onGrp (fun g => { g with lanes := t.grp.lanes, heldPc := t.grp.heldPc }) with
                issue := { s.issue with moved := s.issue.moved ||| m } }
  memory : SameMemory s t

/-- A word that answers a next state in which the lanes of `m` have branched. -/
def Branches (s : State) (r : Result) (m : Word) (target : Nat → Word) : Prop :=
  ∃ t, r = .next t ∧ Branched s t m target

/-- A change to the group being issued alone; every byte of memory reads as before. -/
def OnlyGroup (s t : State) (f : Group → Group) : Prop :=
  t = s.onGrp f ∧ SameMemory s t

/-- A change to the core being issued alone; every byte of memory reads as before. -/
def OnlyCore (s t : State) (f : Core → Core) : Prop :=
  t = s.onCore f ∧ SameMemory s t

/-- The conditions of R223 on words of any width: signed tests compare integers, unsigned ones compare naturals. -/
def meets {w : Nat} (k : Nat) (a b : BitVec w) : Bool :=
  [decide (a.toNat = b.toNat), decide (a.toNat ≠ b.toNat), decide (a.toInt < b.toInt), decide (a.toInt ≤ b.toInt),
   decide (b.toInt < a.toInt), decide (b.toInt ≤ a.toInt), decide (a.toNat < b.toNat), decide (a.toNat ≤ b.toNat),
   decide (b.toNat < a.toNat), decide (b.toNat ≤ a.toNat)].getD k false

/-! ## Operations in flight -/

/-- An operation that a word of the group being issued dispatches from a part (lanes, delay, what it does), as part of the word
whose first operation is `word` (R72, R161, R206, R445). -/
def State.newFlight (s : State) (word : Nat) (fs : Option Bool) (acq sc : Bool) (id : Nat) (p : Part1) : Flight :=
  { Flight.blank id p.2.2 with
    word := word
    slot := s.issue.slot
    team := s.grp.team
    pc := s.issue.pc
    mask := p.1
    flag := s.flag fs
    origin := s.curTeam.origin
    trec := s.curTeam.trec
    held := p.2.1
    acq := acq
    sc := sc
    seen := s.grp.seen
    born := s.clk
    space := s.space
    strict := p.2.2.writes && (s.grp.podFence &&& p.1) != 0 }

/-- The operations that a word dispatches: they share one number for the flag that they count on once (R206). -/
def State.newFlights (s : State) (fs : Option Bool) (acq sc : Bool) (ps : List Part1) : List Flight :=
  ps.mapIdx fun i p => s.newFlight s.nextId fs acq sc (s.nextId + i) p

/-- The lanes in which operations write. -/
def writing (fs : List Flight) : Word := fs.foldl (fun m f => if f.kind.writes then m ||| f.mask else m) 0

/-- Operations `fs` of one word are dispatched: they are the newest of their core, their flag counts one more (R206), a write
meets the pod fence of its lanes (R445), and no register, no lane, no other core and no byte of memory differs. What else may
differ on the core are the rechecks that a store owes its parked lanes (R34) and the prefetched lines that its accesses use
(R468). -/
structure Dispatched (s t : State) (fs : List Flight) : Prop where
  flight : t.cur.flight = s.cur.flight ++ fs
  number : t.nextId = s.nextId + fs.length
  flags : ∀ i, i < 12 → t.grp.flags.getD i 0 = s.grp.flags.getD i 0 + if fs.any (·.flag == some i) then 1 else 0
  group : t.grp = { s.grp with flags := t.grp.flags, podFence := s.grp.podFence &&& ~~~writing fs }
  core : t = { s.onCore (fun c => { c.modGroup s.issue.slot (fun _ => t.grp) with
                flight := t.cur.flight, rechecks := t.cur.rechecks, pref := t.cur.pref,
                regs := { c.regs with counters := t.cur.regs.counters } }) with nextId := t.nextId }
  memory : SameMemory s t

/-- A word that answers a next state in which its operations have been dispatched. -/
def DispatchesAll (s : State) (r : Result) (fs : Option Bool) (acq sc : Bool) (ps : List Part1) : Prop :=
  ∃ t, r = .next t ∧ Dispatched s t (s.newFlights fs acq sc ps)

/-- A word that answers a next state in which one operation has been dispatched. -/
def Dispatches (s : State) (r : Result) (fs : Option Bool) (mask : Word) (held : Option Nat) (acq sc : Bool)
    (kind : FlightKind) : Prop :=
  DispatchesAll s r fs acq sc [(mask, held, kind)]

/-- No comparator is set on a byte of the access (R52, R170, R355). -/
def State.unseen (s : State) (store : Bool) (x : LaneAccess) (n : Nat) : Bool :=
  s.issue.noWatch.getLsbD x.lane || !s.cur.watch.any fun w => s.watches { w with data := 0 } store x n [] []

/-- The lanes' accesses all pass their checks, and no watchpoint holds one back (R263, R170). -/
def State.allPass (s : State) (store : Bool) (n : Nat → Nat) (tries : List Try) : Bool :=
  tries != [] && tries.all fun t => t.fault.isNone && !t.malformed && s.unseen store t.access (n t.access.lane)

/-- A load of `n` bytes into `dest` may issue: its flag and its core have room, nothing before it holds it back, and every
lane passes (R6, R60, R71, R206, R263, R270). -/
def State.loadReady (s : State) (fs : Option Bool) (n : Nat) (tries : List Try) : Bool :=
  (s.accessWait fs n tries).isNone && !s.meetsAtomic tries n && s.allPass false (fun _ => n) tries

/-- A load is dispatched with the accesses of its lanes; one of 16 bytes is two of 8 (R56), and to SC pages each lane's is an
operation of its own (R71). -/
def Loads (s : State) (r : Result) (u : Bool) (fs : Option Bool) (acq : Bool) (dest : LoadDest) (tries : List Try) : Prop :=
  let sc := tries.any (·.sc)
  DispatchesAll s r fs acq sc (s.loadParts u sc dest (tries.map (·.access)))

/-- A store of `n` bytes may issue. -/
def State.storeReady (s : State) (fs : Bool) (n : Nat) (tries : List Try) : Bool :=
  (s.accessWait (some fs) n tries).isNone && s.allPass true (fun _ => n) tries

/-- A store is dispatched with the accesses of its lanes and each one's bytes, one of 16 bytes as two of 8 (R56), those that
hold windows delay alike together (R72, R360). -/
def Stores (s : State) (r : Result) (u fs : Bool) (data : Nat → List Byte) (tries : List Try) : Prop :=
  let sc := tries.any (·.sc)
  DispatchesAll s r (some fs) false sc (s.storeParts u sc ((tries.map (·.access)).map fun x => (x, data x.lane)))

/-- A read-modify-write may issue, and no comparator may match what a lane's operation writes (R170). -/
def State.rmwReady (s : State) (op : Nat → Rmw) (tries : List Try) : Bool :=
  (s.accessWait (some false) 32 tries).isNone && tries != [] && tries.all fun t =>
    t.fault.isNone && !t.malformed && !s.rmwWatched t.access (op t.access.lane)

/-- A read-modify-write is dispatched with the operation of each lane, those that hold windows delay alike together (R72,
R360). -/
def Rmws (s : State) (r : Result) (u acq : Bool) (op : Nat → Rmw) (dest : Option (Nat × Nat)) (tries : List Try) : Prop :=
  let sc := tries.any (·.sc)
  DispatchesAll s r (some false) acq sc (s.rmwParts u sc dest ((tries.map (·.access)).map fun x => (x, op x.lane)))

/-- An engine word may issue: it has an executing lane, its flag has room, nothing before it holds it back. -/
def State.engineReady (s : State) (fs : Bool) : Bool := s.issue.exec != 0 && (s.memWait (some fs)).isNone

/-- An operation owns its number: the word being issued is the newest of its core (R59). -/
def State.fresh (s : State) : Prop := ∀ f ∈ s.cur.flight, f.id < s.nextId ∧ f.word < s.nextId

/-- No core watches a byte of the range, and no byte of it is in an ECC word or a granule with an error: a write there is a write
to memory alone (R34, R87, R436, R441). -/
structure State.plain (s : State) (pa n : Nat) : Prop where
  unwatched : ∀ c ∈ s.cores, c.cares pa n = false
  bad : ∀ w ∈ s.bad, overlap pa n w 32 = false
  weak : ∀ w ∈ s.weak, overlap pa n w 16 = false

/-- No migration is pending, so that a write abandons none (R103). -/
def State.unmoved (s : State) : Prop := ∀ c ∈ s.cores, ∀ f ∈ c.flight, ∀ e w d o, f.kind ≠ .migrate e w d o

/-- A write of `bs` at `pa` and nothing else. -/
structure WritesAt (s t : State) (pa : Nat) (bs : List Byte) : Prop where
  written : ∀ i, i < bs.length → t.mem.read (pa + i) = bs.getD i 0
  others : SameMemoryBut s t pa bs.length
  frame : t = { s with mem := t.mem }

/-! ## The accesses of a term word (R325) -/

/-- What is being done waits for no answer from beyond the package, and is no run-ahead's (R156, R420). -/
def State.alone (s : State) : Prop := s.issue.asked = false ∧ s.issue.ahead = false

/-- No comparator compares the lane's accesses (R170, R355). -/
def State.unwatched (s : State) (l : Nat) : Prop := s.issue.noWatch.getLsbD l ∨ ∀ w ∈ s.cur.watch, w.access = 0

/-- A read of `n` bytes at `pa` meets no error there (R161, R422, R441). -/
structure State.sound (s : State) (pa n : Nat) : Prop where
  good : s.homeCode (.phys pa) n = 0
  strong : ∀ w ∈ s.weak, overlap pa n w 16 = false

/-- An access of `n` bytes by a lane passes its checks, lies at `pa`, and no acquire fence and no want of room holds it back (R6,
R263, R284). -/
structure Lies (s : State) (want : Want) (l n : Nat) (va : DWord) (pa : Nat) : Prop where
  passes : (s.tryGlobal want n l va).fault = none
  place : (s.tryGlobal want n l va).access.loc = .phys pa
  room : s.roomWait n [s.tryGlobal want n l va] = none

/-- A read of `n` bytes by a lane passes its checks, reaches `pa` in the package, meets no error there, and waits for no access
before it (R60, R161, R263, R441). -/
structure ReadsAt (s : State) (l n : Nat) (va : DWord) (pa : Nat) : Prop extends Lies s .read l n va pa, s.sound pa n where
  here : s.beyond (.phys pa) = none
  free : ∀ f ∈ s.cur.flight, ∀ ls d o, f.kind = .rmw ls d o → f.performed = true
  first : s.overtakes (.phys pa) n = false

/-- What a lane reads as an `n`-byte number. -/
def Reads (s : State) (l n : Nat) (va : DWord) (w : Nat) : Prop :=
  ∃ pa, ReadsAt s l n va pa ∧ leNat (s.coreRead s.issue.core s.nextId (.phys pa) n) = w

/-- A write of `n` bytes by a lane passes its checks and reaches `pa`. -/
def WritesTo (s : State) (l n : Nat) (va : DWord) (pa : Nat) : Prop := Lies s .write l n va pa

/-- A read or write of `n` bytes by a lane that passes its checks reaches `pa` in the package, where the data are sound (R161,
R263). -/
structure Reaches (s : State) (want : Want) (l n : Nat) (va : DWord) (pa : Nat) : Prop extends
    Lies s want l n va pa, s.sound pa n where
  here : s.beyond (.phys pa) = none

/-- The address of a lane's binding-table entry (R108, R109). -/
def LaneState.entryAt (t : LaneState) (i : Nat) (e : DWord) : Prop :=
  bits t.bt.toNat 63 58 ≠ 0 ∧ i < 2 ^ bits t.bt.toNat 63 58 ∧ e = BitVec.ofNat 64 (bits t.bt.toNat 55 0 + 8 * i)

/-- A term word that may be read or built: its tag is legal there, and a pointer is a multiple of 8 (R106, R107). -/
def MetOk (w : DWord) : Prop := termOk w ∧ (isPointer w → payload w % 8 = 0)

/-- `deref` of a word that looks at no more than `n` words (R105, R107, R111). -/
inductive Derefs (s : State) (l : Nat) : Nat → DWord → DWord → Prop
  | value {n : Nat} {w : DWord} : MetOk w → tagOf w ≠ 4 → tagOf w ≠ 5 → Derefs s l (n + 1) w w
  | unbound {n : Nat} {w e v : DWord} : MetOk w → tagOf w = 4 → (s.issue.lane l).entryAt (varOf w) e →
      Reads s l 8 e v.toNat → tagOf v = 8 → Derefs s l (n + 1) w (termWord 4 (varOf w))
  | bound {n : Nat} {w e v r : DWord} : MetOk w → tagOf w = 4 → (s.issue.lane l).entryAt (varOf w) e →
      Reads s l 8 e v.toNat → tagOf v ≠ 8 → Derefs s l n v r → Derefs s l (n + 1) w r
  | ref {n : Nat} {w v r : DWord} : MetOk w → tagOf w = 5 → payload w / 2 ^ 56 = 0 →
      Reads s l 8 (BitVec.ofNat 64 (payload w)) v.toNat → Derefs s l n v r → Derefs s l (n + 1) w r

/-- A term word may act in lane `l` alone: no descriptor is being read, nothing holds it back, and nothing is asked beyond
the package (R113, R270). -/
def State.termReady (s : State) (u : Bool) (l : Nat) : Prop :=
  s.doers u = [l] ∧ l < 32 ∧ s.searchPending = false ∧ s.memHeld = none ∧ s.unwatched l ∧ s.alone

/-- The descriptor of lane `l` is not open, so that its owner's words need no lock (R116, R122). -/
def State.owns (s : State) (l : Nat) : Prop :=
  (s.issue.lane l).sd ≠ 0 ∧ ∃ f, Reads s l 4 ((s.issue.lane l).sd + 4) f ∧ f % 2 = 0

/-- What a term word has done when its lane completes (R326): what it changed of the lane's term state, which the bundle
found as `s.issue.lane l` and which is now `new`, and the pairs, in the executing lanes; nothing else of the group
differs. -/
structure TermLane (s t : State) (l : Nat) (new : LaneState) (pairs : List (Nat × DWord)) : Prop where
  lanes : ∀ k, k < 32 → t.grp.lane k = if k = l then (s.grp.lane k).merge (s.issue.lane k) new else s.grp.lane k
  pairs : ∀ r k, k < 32 → t.grp.rf.rv r k =
    match pairs.find? (·.1 == r / 2) with
    | some p => if s.issue.exec.getLsbD k then wordOf p.2.toNat (r % 2) else s.grp.rf.rv r k
    | none => s.grp.rf.rv r k
  memory : SameMemory s t

/-- A lane of a term word completes, with these pairs written and these stores on their way, each behind the one before; nothing
else of the machine differs (R324 to R326). A hold window may delay a store (R72). -/
def Terms (s : State) (r : Result) (l : Nat) (new : LaneState) (pairs : List (Nat × DWord))
    (stores : List (DWord × List Byte)) : Prop :=
  let ws := stores.map fun x => ((s.tryGlobal .write x.2.length l x.1).access, x.2)
  ∃ p t, r = .next t ∧
    (stores = [] → p = s) ∧
    (stores ≠ [] → ∃ sc, Dispatched s p ((s.newFlights none false sc
      (ws.map fun w => (s.issue.exec, s.heldUntil (w.1.span w.2.length), .store [w]))).map fun f => { f with ordered := true })) ∧
    TermLane p t l new pairs ∧
    t = p.onGrp fun g => { g with lanes := t.grp.lanes, rf := { g.rf with v := t.grp.rf.v } }

/-! ## Events of operations in flight -/

/-- Operation `f` of core `k` belongs to group `g`, which stands in its slot and runs; no team of the core is away. -/
structure Owned (s : State) (k : Nat) (f : Flight) (g : Group) : Prop where
  here : (s.core k).group f.slot = some g
  team : g.team = f.team
  shaped : g.shaped
  running : g.phase = .running
  patient : g.tryUntil = none
  home : (s.core k).saved = []

/-- A group's flags when an operation that counts on `flag` is gone, where `last` says that it was the last of its word
(R206). -/
def Group.flagsAfter (g : Group) (flag : Option Nat) (last : Bool) : List Nat :=
  match flag with
  | some i => if last then g.flags.modify i (· - 1) else g.flags
  | none => g.flags

/-- Operation `f` of group `g` is gone, and its flag counts one less where it was the last of its word (R206); no other
part of the group, no other group and no byte of memory differs. -/
structure Gone (p t : State) (k : Nat) (f : Flight) (g : Group) (rf : RegFile) : Prop where
  flight : (t.core k).flight = (p.core k).flight.filter (·.id != f.id)
  group : (t.core k).group f.slot = some { g with
    rf := rf
    flags := g.flagsAfter f.flag ((p.core k).flight.all fun e => e.id == f.id || e.word != f.word) }
  others : ∀ j, j ≠ f.slot → (t.core k).group j = (p.core k).group j
  memory : t.mem = p.mem
  quads : t.quads = p.quads

/-- An engine operation ends with status `code`: bit 31 and the code in vD of its lanes (R282). -/
def Ends (p t : State) (k : Nat) (f : Flight) (g : Group) (d code : Nat) : Prop :=
  Gone p t k f g (g.rf.setV d f.mask fun _ => BitVec.ofNat 32 (2 ^ 31 + code))

/-- Every byte of a range of physical addresses has its home in this package (R420). -/
def State.near (s : State) (pa n : Nat) : Prop := ∀ i, i < n → s.beyond (.phys (pa + i)) = none

/-- Engine operation `f` of core `k` may run to its end at one step: it has not begun, the accesses before it are performed, no
hold delays it, nothing of it is asked beyond the package, and no word waits for an answer (R69, R72, R420). -/
structure Runs (s : State) (k : Nat) (f : Flight) : Prop where
  core : k < 384
  stage : f.stage = 0
  ready : (s.core k).engineReady f
  free : f.held = none
  sound : f.errs = []
  quiet : s.unanswered k f.id = false
  calm : s.issue.asked = false

/-- Nothing is due on a residency at an instant but what the event itself does (R82, R102). -/
def State.still (s : State) (k ent : Nat) (f : Flight) : Prop :=
  ((s.core k).entry ent).freeing = false ∧ ∀ m ∈ (s.core k).migrations ent, m.id = f.id

/-! ## Exceptions -/

/-- An exception is taken at the word being issued (R150 to R155): the group reports the cause with the word's PC, the
lanes `mask` and the address `va`, to be resumed in the cause's way; the lanes of `unfin` stand at the word and take no
part in the rest of the bundle. The registers, the rest of the lanes and of the machine and every byte of memory are as
before. -/
structure Taken (s t : State) (c : Cause) (mask unfin : Word) (va : DWord) (code : BitVec 22) : Prop where
  report : ∃ r, t.grp.report = some r ∧ r.cause = c ∧ r.pc = s.issue.pc ∧ r.mask = mask ∧ r.va = va ∧ r.code = code ∧
    r.after = s.issue.after ∧ r.imprecise = false ∧ r.tick = s.tick
  cause : t.grp.cause = BitVec.ofNat 8 c.code
  resume : t.grp.resume = c.resume
  unfinished : t.grp.unfin = s.grp.unfin ||| unfin
  placed : ∀ l, l < 32 →
    t.grp.lane l = { s.grp.lane l with vpc := if unfin.getLsbD l then s.issue.pc else (s.grp.lane l).vpc }
  registers : t.grp.rf = s.grp.rf
  frame : t = { s.onGrp (fun g => { g with lanes := t.grp.lanes, report := t.grp.report, cause := t.grp.cause,
                                            resume := t.grp.resume, unfin := t.grp.unfin }) with issue := t.issue }
  issue : t.issue = { s.issue with unfin := s.issue.unfin ||| unfin, operand := t.issue.operand }
  memory : SameMemory s t

/-- A word that answers a next state in which its executing lanes have taken an exception. -/
def Takes (s : State) (r : Result) (c : Cause) (code : BitVec 22) : Prop :=
  ∃ t, r = .next t ∧ Taken s t c s.issue.exec s.issue.exec 0 code

/-- A word that must wait answers a state in which nothing differs but that it waits, and why (R39, R169). -/
def Waits (s : State) (r : Result) (why : Stall) : Prop :=
  r = .next { s with issue := { s.issue with stall := some why } }

end Sys2Proof.Machine
end

