-- ==== Sys2Proof/Certificates/Slice0/Obligations.lean ====
section
/-! DEFINITION. The statements for the provers, each about the machine as the spec describes it. -/

open Sys2Proof Sys2Proof.Machine

/-! ## Integer words -/

/-- R220: `iadd`, `isub`, `imul`, `imulh`, `imad`, `iabs`, `imin`, `imax` complete on all operands within the allotment,
write vD in the executing lanes alone, and change nothing else. -/
def Obligations.IntegerArithmetic : Prop :=
  ∀ (s : State) (c u g x : Bool) (d a b : BitVec 7) (e : BitVec 6), s.issuing → s.vOk d.toNat → s.vOk e.toNat →
    s.vOk a.toNat → s.bOk b.toNat x →
    let A := s.A a.toNat
    let B := s.B b.toNat x
    WritesV s (exec (.iadd c u d a b x) s) u d.toNat (fun l => BitVec.ofNat 32 ((A l).toNat + (B l).toNat)) ∧
    WritesV s (exec (.isub c u d a b x) s) u d.toNat (fun l => BitVec.ofInt 32 ((A l).toInt - (B l).toInt)) ∧
    WritesV s (exec (.imul c u d a b x) s) u d.toNat (fun l => BitVec.ofNat 32 ((A l).toNat * (B l).toNat)) ∧
    WritesV s (exec (.imulh c u g e a b x) s) u e.toNat (fun l =>
      if g then BitVec.ofInt 32 ((A l).toInt * (B l).toInt / 2 ^ 32)
      else BitVec.ofNat 32 ((A l).toNat * (B l).toNat / 2 ^ 32)) ∧
    WritesV s (exec (.imad c u d a b x) s) u d.toNat (fun l =>
      BitVec.ofNat 32 ((A l).toNat * (B l).toNat + (s.A d.toNat l).toNat)) ∧
    WritesV s (exec (.iabs c u d a) s) u d.toNat (fun l => BitVec.ofNat 32 (A l).toInt.natAbs) ∧
    WritesV s (exec (.imin c u g e a b x) s) u e.toNat (fun l =>
      if g then BitVec.ofInt 32 (min (A l).toInt (B l).toInt) else BitVec.ofNat 32 (min (A l).toNat (B l).toNat)) ∧
    WritesV s (exec (.imax c u g e a b x) s) u e.toNat (fun l =>
      if g then BitVec.ofInt 32 (max (A l).toInt (B l).toInt) else BitVec.ofNat 32 (max (A l).toNat (B l).toNat))

/-- R220: the shifts, `irot` and the logic words: values by arithmetic and bit by bit, for every shift amount. -/
def Obligations.ShiftsAndLogic : Prop :=
  ∀ (s : State) (c u g x : Bool) (d a b : BitVec 7) (e : BitVec 6), s.issuing → s.vOk d.toNat → s.vOk e.toNat →
    s.vOk a.toNat → s.bOk b.toNat x →
    let A := s.A a.toNat
    let B := s.B b.toNat x
    WritesV s (exec (.ishl c u d a b x) s) u d.toNat (fun l =>
      if (B l).toNat < 32 then BitVec.ofNat 32 ((A l).toNat * 2 ^ (B l).toNat) else 0) ∧
    WritesV s (exec (.ishr c u g e a b x) s) u e.toNat (fun l =>
      if g then BitVec.ofInt 32 ((A l).toInt / 2 ^ min (B l).toNat 31)
      else if (B l).toNat < 32 then BitVec.ofNat 32 ((A l).toNat / 2 ^ (B l).toNat) else 0) ∧
    WritesV s (exec (.irot c u d a b x) s) u d.toNat (fun l =>
      maskOf fun i => (A l).getLsbD ((i + 32 - (B l).toNat % 32) % 32)) ∧
    WritesV s (exec (.and c u d a b x) s) u d.toNat (fun l => maskOf fun i => (A l).getLsbD i && (B l).getLsbD i) ∧
    WritesV s (exec (.or c u d a b x) s) u d.toNat (fun l => maskOf fun i => (A l).getLsbD i || (B l).getLsbD i) ∧
    WritesV s (exec (.xor c u d a b x) s) u d.toNat (fun l => maskOf fun i => (A l).getLsbD i != (B l).getLsbD i) ∧
    WritesV s (exec (.andn c u d a b x) s) u d.toNat (fun l => maskOf fun i => (A l).getLsbD i && !(B l).getLsbD i)

/-- R220 and its bit-field rule: `clz`, `popc`, `brev`, `bfx` and `bfi`, for every field, the empty one included. -/
def Obligations.BitWords : Prop :=
  ∀ (s : State) (c u g x : Bool) (d a b : BitVec 7) (e : BitVec 6), s.issuing → s.vOk d.toNat → s.vOk e.toNat →
    s.vOk a.toNat → s.bOk b.toNat x →
    let A := s.A a.toNat
    let B := s.B b.toNat x
    let pos := fun l => (B l).toNat % 32
    let w := fun l => min (min ((B l).toNat / 2 ^ 8 % 2 ^ 6) 32) (32 - pos l)
    WritesV s (exec (.clz c u d a) s) u d.toNat (fun l =>
      BitVec.ofNat 32 ((List.range 32).takeWhile fun i => !(A l).getLsbD (31 - i)).length) ∧
    WritesV s (exec (.popc c u d a) s) u d.toNat (fun l =>
      BitVec.ofNat 32 ((List.range 32).filter fun i => (A l).getLsbD i).length) ∧
    WritesV s (exec (.brev c u d a) s) u d.toNat (fun l => (A l).reverse) ∧
    WritesV s (exec (.bfx c u g e a b x) s) u e.toNat (fun l =>
      let f := (A l).toNat / 2 ^ pos l % 2 ^ w l
      if g then BitVec.ofInt 32 (Int.bmod f (2 ^ w l)) else BitVec.ofNat 32 f) ∧
    WritesV s (exec (.bfi c u d a b x) s) u d.toNat (fun l => maskOf fun i =>
      if pos l ≤ i ∧ i < pos l + w l then (A l).getLsbD (i - pos l) else (s.A d.toNat l).getLsbD i)

/-- R202, R221, R222, R319: `mov.w32`, `mov.w64`, `mov.s`, `movi`, `movhi`, `mfmt`. -/
def Obligations.Moves : Prop :=
  ∀ (s : State) (c u x i : Bool) (d b : BitVec 7) (imm : BitVec 15) (fa fb : BitVec 5) (sp : BitVec 2), s.issuing →
    (s.vOk d.toNat → s.bOk b.toNat x →
      WritesV s (exec (.movW32 c u d b x) s) u d.toNat (s.B b.toNat x)) ∧
    (s.v2Ok d.toNat → s.b2Ok b.toNat x →
      WritesV2 s (exec (.movW64 c u d b x) s) u d.toNat (s.B2 b.toNat x)) ∧
    (d.toNat < 64 → (if x then s.b2Ok b.toNat x else s.vOk b.toNat) →
      WritesS s (exec (.movS c u d b x) s) d.toNat
        (if x then s.B2 b.toNat x (lowest s.issue.exec)
         else BitVec.ofNat 64 (s.A b.toNat (lowest s.issue.exec)).toNat)) ∧
    (s.vOk d.toNat →
      WritesV s (exec (.movi c u d imm) s) u d.toNat (fun _ => BitVec.ofInt 32 imm.toInt) ∧
      WritesV s (exec (.movhi c u d imm) s) u d.toNat (fun _ => BitVec.ofNat 32 (imm.toNat * 2 ^ 17)) ∧
      (fa.toNat < 20 → fb.toNat < 20 →
        WritesV s (exec (.mfmt c u d fa fb sp i) s) u d.toNat (fun _ => (0 : BitVec 19) ++ BitVec.ofBool i ++ sp ++ fb ++ fa)))

/-- R225, R226: the 64-bit words on vector pairs, in every executing lane, and on scalars, once; `cmp64` of either kind
writes its predicate. -/
def Obligations.WideArithmetic : Prop :=
  ∀ (s : State) (c u g x : Bool) (d a : BitVec 6) (b : BitVec 7) (k : BitVec 4) (p : BitVec 3), s.issuing →
    s.b2Ok b.toNat x →
    let add := fun (A B : DWord) => BitVec.ofNat 64 (A.toNat + B.toNat)
    let sub := fun (A B : DWord) => BitVec.ofInt 64 (A.toInt - B.toInt)
    let mul := fun (A B : DWord) => BitVec.ofNat 64 (A.toNat * B.toNat)
    let shl := fun (A B : DWord) => if B.toNat < 64 then BitVec.ofNat 64 (A.toNat * 2 ^ B.toNat) else 0
    let shr := fun (A B : DWord) => if g then BitVec.ofInt 64 (A.toInt / 2 ^ min B.toNat 63)
      else if B.toNat < 64 then BitVec.ofNat 64 (A.toNat / 2 ^ B.toNat) else 0
    (s.v2Ok d.toNat → s.v2Ok a.toNat →
      let v := fun (f : DWord → DWord → DWord) l => f (s.A2 a.toNat l) (s.B2 b.toNat x l)
      WritesV2 s (exec (.add64 c u d false a b x) s) u d.toNat (v add) ∧
      WritesV2 s (exec (.sub64 c u d false a b x) s) u d.toNat (v sub) ∧
      WritesV2 s (exec (.mul64 c u d false a b x) s) u d.toNat (v mul) ∧
      WritesV2 s (exec (.shl64 c u d false a b x) s) u d.toNat (v shl) ∧
      WritesV2 s (exec (.shr64 c u g d false a b x) s) u d.toNat (v shr)) ∧
    (let w := fun (f : DWord → DWord → DWord) => f (s.issue.src.rs a.toNat) (s.B2 b.toNat x (lowest s.issue.exec))
     WritesS s (exec (.add64 c u d true a b x) s) d.toNat (w add) ∧
     WritesS s (exec (.sub64 c u d true a b x) s) d.toNat (w sub) ∧
     WritesS s (exec (.mul64 c u d true a b x) s) d.toNat (w mul) ∧
     WritesS s (exec (.shl64 c u d true a b x) s) d.toNat (w shl) ∧
     WritesS s (exec (.shr64 c u g d true a b x) s) d.toNat (w shr)) ∧
    (k.toNat < 10 →
      (s.v2Ok a.toNat → WritesP s (exec (.cmp64 c u k p false a b x) s) u p.toNat (fun l =>
        meets k.toNat (s.A2 a.toNat l) (s.B2 b.toNat x l))) ∧
      WritesP s (exec (.cmp64 c u k p true a b x) s) true p.toNat (fun l =>
        meets k.toNat (s.issue.src.rs a.toNat) (s.B2 b.toNat x l)))

/-- R218, R223, R224, R241, R247: `icmp`, `plog`, `fcmp` and `dcmp` write their predicate, unordered operands included;
a predicate destination of p7 is legal, its result is discarded, and p7 reads 1 in every lane. -/
def Obligations.Comparisons : Prop :=
  ∀ (s : State) (c u x : Bool) (k l : BitVec 4) (p pa pb : BitVec 3) (a b : BitVec 7), s.issuing →
    (k.toNat < 10 → s.vOk a.toNat → s.bOk b.toNat x →
      WritesP s (exec (.icmp c u k p a b x) s) u p.toNat (fun l => meets k.toNat (s.A a.toNat l) (s.B b.toNat x l))) ∧
    (k.toNat < 8 → s.vOk a.toNat → s.bOk b.toNat x →
      WritesP s (exec (.fcmp c u k p a b x) s) u p.toNat (fun l =>
        fcond k.toNat (decF (s.A a.toNat l)) (decF (s.B b.toNat x l)))) ∧
    (k.toNat < 8 → s.v2Ok a.toNat → s.b2Ok b.toNat x →
      WritesP s (exec (.dcmp c u k p a b x) s) u p.toNat (fun l =>
        fcond k.toNat (f64.dec (s.A2 a.toNat l).toNat) (f64.dec (s.BD b.toNat x l).toNat))) ∧
    (∀ i, i < 32 → s.grp.rf.rp 7 i ∧ s.issue.src.rp 7 i) ∧
    WritesP s (exec (.plog c u l p pa pb) s) u p.toNat (fun i =>
      l.getLsbD (2 * (s.issue.src.rp pa.toNat i).toNat + (s.issue.src.rp pb.toNat i).toNat))

/-! ## Control -/

/-- R228: every branch places the lanes that it takes at their targets and changes no register but `call`'s v0. -/
def Obligations.Branches : Prop :=
  ∀ (s : State) (c u sense x : Bool) (p : BitVec 3) (o : BitVec 18) (imm : BitVec 22) (a b : BitVec 7), s.issuing →
    Machine.Branches s (exec (.bra c u p sense o) s)
      (maskOf fun l => s.issue.exec.getLsbD l &&
        decide ((s.issue.src.rp p.toNat (s.from u l)).toNat = 1 - sense.toNat))
      (fun _ => BitVec.ofInt 32 (s.issue.pc.toNat + o.toInt)) ∧
    Machine.Branches s (exec (.jmp c u imm) s) s.issue.exec (fun _ => BitVec.ofInt 32 (s.issue.pc.toNat + imm.toInt)) ∧
    Machine.Branches s (exec (.exit c u) s) s.issue.exec (fun _ => 0xFFFFFFFF) ∧
    (s.vOk 0 → ∃ t r, exec (.call c u imm) s = .next r ∧
      Vectors s t 0 1 s.issue.exec (fun _ _ => s.issue.nextPc) 0 ∧
      Branched t r s.issue.exec (fun _ => BitVec.ofInt 32 (s.issue.pc.toNat + imm.toInt))) ∧
    (s.vOk a.toNat → Machine.Branches s (exec (.ret c u a) s) s.issue.exec (fun l => s.A a.toNat (s.from u l))) ∧
    (s.vOk a.toNat → s.bOk b.toNat x → Machine.Branches s (exec (.brx c u a b x) s) s.issue.exec (fun l =>
      BitVec.ofNat 32 ((s.A a.toNat (s.from u l)).toNat + (s.B b.toNat x (s.from u l)).toNat)))

/-- R231, R257, R258, R261: the four forms of `vote`, whose U bit changes nothing; `shfl`, which reads any lane, executing or
not; `bcast`, which writes nothing where its predicate is 1 in no executing lane; and `cellkey`. -/
def Obligations.LaneWords : Prop :=
  (∀ (s : State) (c u : Bool) (d : BitVec 7) (p : BitVec 3), s.issuing →
    let E := lanesOf s.issue.exec
    let yes := E.filter fun l => s.issue.src.rp p.toNat l
    (d.toNat < 8 →
      WritesP s (exec (.vote c u d 0 p) s) false d.toNat (fun _ => E.all fun l => s.issue.src.rp p.toNat l) ∧
      WritesP s (exec (.vote c u d 1 p) s) false d.toNat (fun _ => E.any fun l => s.issue.src.rp p.toNat l)) ∧
    (s.vOk d.toNat →
      WritesV s (exec (.vote c u d 2 p) s) false d.toNat (fun _ => maskOf fun l => yes.contains l) ∧
      WritesV s (exec (.vote c u d 3 p) s) false d.toNat (fun _ => BitVec.ofNat 32 yes.length))) ∧
  (∀ (s : State) (c u x : Bool) (d a b : BitVec 7) (p : BitVec 3), s.issuing → s.vOk d.toNat → s.vOk a.toNat →
    (s.bOk b.toNat x → WritesV s (exec (.shfl c u d a b x) s) false d.toNat (fun l =>
      s.A a.toNat ((s.B b.toNat x l).toNat % 32))) ∧
    (let yes := (lanesOf s.issue.exec).filter fun l => s.issue.src.rp p.toNat l
     (yes = [] → exec (.bcast c u d a p) s = .next s) ∧
     (∀ l ls, yes = l :: ls → WritesV s (exec (.bcast c u d a p) s) false d.toNat (fun _ => s.A a.toNat l))) ∧
    (s.vOk (a.toNat + 2) → s.bOk b.toNat x → WritesV s (exec (.cellkey c u d a b x) s) u d.toNat (fun l =>
      cellKey (s.A a.toNat l) (s.A (a.toNat + 1) l) (s.A (a.toNat + 2) l) (s.B b.toNat x l))))

/-- R113, R232, R233, R236: `rdsr` reads every special register into a vector register, a pair, or a scalar; `wrsr` writes the
lanes' term registers, `%fx`, `%fpm` (whose reserved bits must be zero) and `%sd`: a lane that writes 0 to `%sd` only clears
it, and one that writes an address loads its search descriptor there. Nothing else differs. -/
def Obligations.SpecialRegisters : Prop :=
  (∀ (s : State) (c u : Bool) (d : BitVec 7) (m : BitVec 8), s.issuing → m.toNat < 0x1C →
    (srTerm m.toNat → s.searchPending = false) →
    (d.toNat < 64 → WritesS s (exec (.rdsr c u d 1 m) s) d.toNat (s.special m.toNat (lowest s.issue.exec))) ∧
    (srWide m.toNat → s.v2Ok d.toNat → WritesV2 s (exec (.rdsr c u d 0 m) s) u d.toNat (s.special m.toNat)) ∧
    (srWide m.toNat = false → s.vOk d.toNat →
      WritesV s (exec (.rdsr c u d 0 m) s) u d.toNat (fun l => wordOf (s.special m.toNat l).toNat 0))) ∧
  (∀ (s : State) (c u : Bool) (k a : BitVec 7) (m : BitVec 8), s.issuing → s.issue.exec ≠ 0 → s.searchPending = false →
    (k = 0 ∧ (if srWide m.toNat then s.v2Ok a.toNat else s.vOk a.toNat) ∨ k = 1 ∧ a.toNat < 64) →
    let val := s.srSource u k.toNat a.toNat m.toNat
    let first := val (lowest s.issue.exec)
    (m = 0x12 ∨ m = 0x13 ∨ m = 0x14 ∨ m = 0x15 ∨ m = 0x16 →
      (∀ l, s.issue.exec.getLsbD l → srFault m.toNat (s.issue.lane l) (val l) = none) →
      ∃ t, exec (.wrsr c u k a m) s = .next t ∧ OnlyGroup s t (fun g => { g with lanes := t.grp.lanes }) ∧
        ∀ l, l < 32 → t.grp.lane l = if s.issue.exec.getLsbD l then (s.grp.lane l).setSpecial m.toNat (val l) else s.grp.lane l) ∧
    (m = 0x17 → ∃ t, exec (.wrsr c u k a m) s = .next t ∧ OnlyGroup s t (fun g => { g with fx := wordOf first.toNat 0 })) ∧
    (m = 0x19 → first.toNat / 2 ^ 9 % 2 ^ 23 = 0 → first.toNat / 4 % 4 = 0 →
      ∃ t, exec (.wrsr c u k a m) s = .next t ∧
        OnlyGroup s t (fun g => { g with rf := { g.rf with fpm := wordOf first.toNat 0 } }))) ∧
  (∀ (s : State) (c u : Bool) (k a : BitVec 7), s.issuing → s.issue.exec ≠ 0 → s.searchPending = false →
    (k = 0 ∧ s.v2Ok a.toNat ∨ k = 1 ∧ a.toNat < 64) →
    let val := s.srSource u k.toNat a.toNat 0x18
    let tries := ((s.doers u).filter fun l => val l != 0).map fun l => s.tryGlobal .read 64 l (val l)
    let cleared := fun (p t : State) => OnlyGroup p t (fun g => { g with lanes := t.grp.lanes }) ∧ ∀ l, l < 32 →
      t.grp.lane l = if s.issue.exec.getLsbD l ∧ val l = 0 then { s.grp.lane l with sd := 0 } else s.grp.lane l
    (tries = [] → ∃ t, exec (.wrsr c u k a 0x18) s = .next t ∧ cleared s t) ∧
    (s.loadReady none 64 tries → ∃ p t, exec (.wrsr c u k a 0x18) s = .next t ∧ cleared p t ∧
      Dispatched s p (s.newFlights none false (tries.any (·.sc))
        (s.loadParts u (tries.any (·.sc)) .descriptor (tries.map (·.access))))))

/-- R204, R205, R209, R210: the packet-control words: `clause` gives the group its set flags once every flag that it
selects reads zero, and waits before that; `guard` and `nop` change nothing. -/
def Obligations.PacketControl : Prop :=
  ∀ (s : State) (w : BitVec 12) (a b : BitVec 4) (va vb c sense : Bool) (p : BitVec 3) (n : BitVec 2),
    (va → a.toNat < 12) → (vb → b.toNat < 12) →
    ((∀ i, i < 12 → w.getLsbD i → s.grp.flags.getD i 0 = 0) →
      ∃ t, exec (.clause w a b va vb) s = .next t ∧ OnlyGroup s t (fun g => { g with
        seta := if va then some a.toNat else none, setb := if vb then some b.toNat else none })) ∧
    ((∃ i, i < 12 ∧ w.getLsbD i ∧ s.grp.flags.getD i 0 ≠ 0) → Waits s (exec (.clause w a b va vb) s) .clauseWait) ∧
    ((n = 1 ∨ n = 2) → exec (.guard p sense n) s = .next s) ∧
    exec (.nop c) s = .next s

/-! ## Float words -/

/-- R237, R239, R245: the f32 words compute exactly, round once in the mode of `%fpm`, and set their flags. -/
def Obligations.SinglePrecision : Prop :=
  ∀ (s : State) (c u x : Bool) (d a b : BitVec 7), s.issuing → s.vOk d.toNat → s.vOk a.toNat → s.bOk b.toNat x →
    let A := fun l => decF (s.A a.toNat l)
    let B := fun l => decF (s.B b.toNat x l)
    let D := fun l => decF (s.A d.toNat l)
    WritesF s (exec (.fadd c u d a b x) s) u d.toNat (fun l => round32 s.rm ((A l).add (B l)) [A l, B l]) ∧
    WritesF s (exec (.fsub c u d a b x) s) u d.toNat (fun l => round32 s.rm ((A l).add (B l).negate) [A l, B l]) ∧
    WritesF s (exec (.fmul c u d a b x) s) u d.toNat (fun l => round32 s.rm ((A l).mul (B l)) [A l, B l]) ∧
    WritesF s (exec (.ffma c u d a b x) s) u d.toNat (fun l =>
      round32 s.rm (((A l).mul (B l)).add (D l)) [A l, B l, D l]) ∧
    WritesF s (exec (.fsqrt c u d a) s) u d.toNat (fun l => round32 s.rm (A l).sqrt [A l]) ∧
    WritesF s (exec (.fdiv c u d a b x) s) u d.toNat (fun l =>
      ((round32 s.rm ((A l).div (B l)) [A l, B l]).1,
       (round32 s.rm ((A l).div (B l)) [A l, B l]).2 ||| dzOf (A l) (B l))) ∧
    WritesF s (exec (.fscale c u d a b x) s) u d.toNat (fun l =>
      round32 s.rm ((A l).mul (.pow2 (max (-400) (min 400 (s.B b.toNat x l).toInt)))) [A l])

/-- R212, R240, R242, R244: the f32 words that set no flag. -/
def Obligations.QuietFloatWords : Prop :=
  ∀ (s : State) (c u x : Bool) (d a b : BitVec 7) (imm : BitVec 20) (m : BitVec 3), s.issuing → s.vOk d.toNat →
    (s.vOk a.toNat → s.bOk b.toNat x →
      WritesV s (exec (.fmin c u d a b x) s) u d.toNat (fun l =>
        BitVec.ofNat 32 (f32.minMax false (s.A a.toNat l).toNat (s.B b.toNat x l).toNat)) ∧
      WritesV s (exec (.fmax c u d a b x) s) u d.toNat (fun l =>
        BitVec.ofNat 32 (f32.minMax true (s.A a.toNat l).toNat (s.B b.toNat x l).toNat))) ∧
    (s.vOk a.toNat → m.toNat < 5 → WritesV s (exec (.frnd c u d a m) s) u d.toNat (fun l =>
      integral (if m = 4 then s.rm else m.toNat) (s.A a.toNat l))) ∧
    (s.vOk a.toNat → WritesV s (exec (.fclass c u d a) s) u d.toNat (fun l => classOf (s.A a.toNat l))) ∧
    WritesV s (exec (.faddi c u d imm) s) u d.toNat (fun l =>
      rne32 ((decF (s.A d.toNat l)).add (decF (imm ++ (0 : BitVec 12))))) ∧
    WritesV s (exec (.fmuli c u d imm) s) u d.toNat (fun l =>
      rne32 ((decF (s.A d.toNat l)).mul (decF (imm ++ (0 : BitVec 12)))))

/-- R243: the approximate words write a result of their function in every executing lane; and whatever value the device
chooses within the bounds (assumption 7), a NaN operand gives 0x7FC0_0000 in every row, zeros and infinities give the special
values with their flags, and `frcp` gives one of the two f32 values around 1 / a. -/
def Obligations.ApproximateWords : Prop :=
  (∀ (s : State) (c u : Bool) (d a : BitVec 7), s.issuing → s.vOk d.toNat → s.vOk a.toNat →
    WritesF s (exec (.frcp c u d a) s) u d.toNat (fun l => approxRcp (s.A a.toNat l)) ∧
    WritesF s (exec (.frsq c u d a) s) u d.toNat (fun l => approxRsq (s.A a.toNat l)) ∧
    WritesF s (exec (.fexp2 c u d a) s) u d.toNat (fun l => approxExp2 (s.A a.toNat l)) ∧
    WritesF s (exec (.flog2 c u d a) s) u d.toNat (fun l => approxLog2 (s.A a.toNat l)) ∧
    WritesF s (exec (.fsin c u d a) s) u d.toNat (fun l => approxTrig false (s.A a.toNat l)) ∧
    WritesF s (exec (.fcos c u d a) s) u d.toNat (fun l => approxTrig true (s.A a.toNat l))) ∧
  ((∀ w : Word, decF w = .nan → ∀ f, f ∈ [approxRcp, approxRsq, approxExp2, approxLog2, approxTrig false, approxTrig true] →
    f w = (0x7FC00000, 0)) ∧
  approxRcp 0 = (0x7F800000, fDz) ∧ approxRcp 0x80000000 = (0xFF800000, fDz) ∧ approxRcp 0x7F800000 = (0, 0) ∧
  approxRcp 0xFF800000 = (0x80000000, 0) ∧ approxRsq 0 = (0x7F800000, fDz) ∧ approxRsq 0x80000000 = (0xFF800000, fDz) ∧
  approxRsq 0x7F800000 = (0, 0) ∧ approxExp2 0xFF800000 = (0, 0) ∧ approxExp2 0x7F800000 = (0x7F800000, 0) ∧
  approxLog2 0 = (0xFF800000, fDz) ∧ approxLog2 0x80000000 = (0xFF800000, fDz) ∧
  approxLog2 0x7F800000 = (0x7F800000, 0) ∧ approxLog2 0x3F800000 = (0, 0) ∧
  approxTrig false 0 = (0, 0) ∧ approxTrig false 0x80000000 = (0x80000000, 0) ∧ approxTrig true 0 = (0x3F800000, 0) ∧
  (∀ w : Word, (∃ n, decF w = .inf n) → approxTrig false w = (0x7FC00000, fNv) ∧ approxTrig true w = (0x7FC00000, fNv)) ∧
  (∀ (w : Word) n m e, decF w = .num n m e → n = true → m ≠ 0 →
    approxRsq w = (0x7FC00000, fNv) ∧ approxLog2 w = (0x7FC00000, fNv)) ∧
  (∀ (w : Word) n m e, decF w = .num n m e → m ≠ 0 → m ≠ 2 ^ m.log2 →
    let v := Val.div (.num false 1 0) (.num n m e)
    (approxRcp w).2 = 0 ∧ ((approxRcp w).1 = BitVec.ofNat 32 (f32.round 2 v).1 ∨
      (approxRcp w).1 = BitVec.ofNat 32 (f32.round 3 v).1)))

/-- R246, R247: the f64 words on pairs, a literal read as f32 and widened exactly. -/
def Obligations.DoublePrecision : Prop :=
  ∀ (s : State) (c u y x : Bool) (d : BitVec 6) (a b : BitVec 7), s.issuing → s.v2Ok d.toNat → s.v2Ok a.toNat →
    s.b2Ok b.toNat x →
    let A := fun l => f64.dec (s.A2 a.toNat l).toNat
    let B := fun l => f64.dec (s.BD b.toNat x l).toNat
    let D := fun l => f64.dec (s.A2 d.toNat l).toNat
    let r := fun (v : Val) ops => (BitVec.ofNat 64 (f64.result s.rm v ops).1, (f64.result s.rm v ops).2)
    WritesF2 s (exec (.dadd c u y d a b x) s) u d.toNat (fun l =>
      r ((A l).add (if y then (B l).negate else B l)) [A l, B l]) ∧
    WritesF2 s (exec (.dmul c u d a b x) s) u d.toNat (fun l => r ((A l).mul (B l)) [A l, B l]) ∧
    WritesF2 s (exec (.dfma c u d a b x) s) u d.toNat (fun l =>
      r (((A l).mul (B l)).add (D l)) [A l, B l, D l]) ∧
    WritesV2 s (exec (.dminmax c u y d a b x) s) u d.toNat (fun l =>
      BitVec.ofNat 64 (f64.minMax y (s.A2 a.toNat l).toNat (s.BD b.toNat x l).toNat))

/-- R248, R249: the packed 16-bit words and `fdot2`. -/
def Obligations.PackedHalves : Prop :=
  ∀ (s : State) (c u t x : Bool) (d a b : BitVec 7) (e : BitVec 6), s.issuing → s.vOk d.toNat → s.vOk e.toNat →
    s.vOk a.toNat → s.bOk b.toNat x →
    let two := fun (f : Fmt) (op : Val → Val → Val → Val × List Val) l =>
      let one := fun i =>
        let v := op (f.dec (half (s.A a.toNat l) i)) (f.dec (half (s.B b.toNat x l) i)) (f.dec (half (s.A d.toNat l) i))
        f.result s.rm v.1 v.2
      (BitVec.ofNat 32 ((one 0).1 + (one 1).1 * 2 ^ 16), (one 0).2 ||| (one 1).2)
    WritesF s (exec (.hadd2 c u d a b x) s) u d.toNat (two f16 fun a b _ => (a.add b, [a, b])) ∧
    WritesF s (exec (.hmul2 c u d a b x) s) u d.toNat (two f16 fun a b _ => (a.mul b, [a, b])) ∧
    WritesF s (exec (.hfma2 c u d a b x) s) u d.toNat (two f16 fun a b o => ((a.mul b).add o, [a, b, o])) ∧
    WritesF s (exec (.bfma2 c u d a b x) s) u d.toNat (two bf16 fun a b o => ((a.mul b).add o, [a, b, o])) ∧
    WritesF s (exec (.fdot2 c u t e a b x) s) u e.toNat (fun l =>
      let f := if t then bf16 else f16
      let p := fun i => f.dec (half (s.A a.toNat l) i)
      let q := fun i => f.dec (half (s.B b.toNat x l) i)
      let o := decF (s.A e.toNat l)
      round32 s.rm (Val.sum [(p 0).mul (q 0), (p 1).mul (q 1), o]) [p 0, q 0, p 1, q 1, o])

/-- R250 to R256: `cvt` between every pair of element types, a type 15 being a pair; `cvtpk` packs a block's elements into its
words, and `cvtupk` expands them, in place from vA on. -/
def Obligations.Conversions : Prop :=
  (∀ (s : State) (c u : Bool) (t st : BitVec 4) (m : BitVec 2) (d a : BitVec 6), s.issuing →
    (if st = 15 then s.v2Ok a.toNat else s.vOk a.toNat) →
    let r := fun l => convert t.toNat m.toNat (s.cvtSource st.toNat a.toNat l)
    (t ≠ 15 → s.vOk d.toNat → WritesF s (exec (.cvt c u t st m d a) s) u d.toNat
      (fun l => (BitVec.ofNat 32 (r l).1, (r l).2))) ∧
    (t = 15 → s.v2Ok d.toNat → WritesF2 s (exec (.cvt c u t st m d a) s) u d.toNat
      (fun l => (BitVec.ofNat 64 (r l).1, (r l).2)))) ∧
  (∀ (s : State) (c u x : Bool) (f : BitVec 5) (m : BitVec 2) (a b : BitVec 7), s.issuing →
    s.packOk f.toNat a.toNat b.toNat x →
    let n := (packShape f.toNat).1
    let w := (packShape f.toNat).2
    let scale := fun l => (s.B b.toNat x l).toNat % 256
    let special := fun l => (s.B b.toNat x l).toNat / 256 % 256
    let pk := fun l j => packElem f.toNat m.toNat (scale l) (special l) (s.A (a.toNat + j) l)
    let up := fun l j => unpackElem f.toNat (scale l) (special l)
      (packed ((List.range w).map fun k => s.A (a.toNat + k) l) (elemBits f.toNat) j)
    (∃ t, exec (.cvtpk c u f m a b x) s = .next t ∧
      Vectors s t a.toNat w s.issue.exec
        (fun i l => wordOf (packWords f.toNat ((List.range n).map fun j => (pk (s.from u l) j).1)) i)
        (s.anyFlags u fun l => flagsOf (List.range n) fun j => (pk l j).2)) ∧
    (∃ t, exec (.cvtupk c u f a b x) s = .next t ∧
      Vectors s t a.toNat n s.issue.exec (fun i l => (up (s.from u l) i).1)
        (s.anyFlags u fun l => flagsOf (List.range n) fun j => (up l j).2)))

/-- R259, R260: `lred` and `lscan` combine the executing lanes in ascending order from the operation's identity, and
write every executing lane; an exclusive scan gives a lane what the lanes before it make. -/
def Obligations.ReductionsAndScans : Prop :=
  ∀ (s : State) (c u : Bool) (d a : BitVec 7) (o : BitVec 4), s.issuing → o.toNat < 11 → s.vOk d.toNat → s.vOk a.toNat →
    let step := fun (r : Word × Nat) l =>
      ((reduceStep o.toNat s.rm r.1 (s.A a.toNat l)).1, r.2 ||| (reduceStep o.toNat s.rm r.1 (s.A a.toNat l)).2)
    let upto := fun ls => (ls : List Nat).foldl step (reduceIdentity o.toNat, 0)
    let E := lanesOf s.issue.exec
    (∃ t, exec (.lred c u d a o) s = .next t ∧
      Vectors s t d.toNat 1 s.issue.exec (fun _ _ => (upto E).1) (upto E).2) ∧
    (∃ t, exec (.lscan c u d a o false) s = .next t ∧
      Vectors s t d.toNat 1 s.issue.exec (fun _ l => (upto (E.filter (· ≤ l))).1) (upto E).2) ∧
    (∃ t, exec (.lscan c u d a o true) s = .next t ∧
      Vectors s t d.toNat 1 s.issue.exec (fun _ l => (upto (E.filter (· < l))).1) (upto E).2)

/-! ## Memory words -/

/-- R262, R265, R266, R270, R291: the loads. Where every executing lane passes its checks and nothing holds the word back, its
operations are dispatched with the lanes' accesses, in ascending lane order: one, two of 8 bytes for a quad (R56), one for each
lane of an SC page (R71); the registers are written when the data return. No register and no byte of memory differs at issue.
`ldk` of address 0 clears the constant bank; of another address, a multiple of 64, it loads it word by word; another address is
misaligned for the word. -/
def Obligations.Loads : Prop :=
  (∀ (s : State) (c u : Bool) (d a : BitVec 7) (sz scope w : BitVec 3) (o : BitVec 5) (o2 : BitVec 2), s.issuing →
    s.szOk d.toNat sz.toNat → s.vOk a.toNat →
    let n := szBytes sz.toNat
    let dest := LoadDest.reg d.toNat n (szSigned sz.toNat)
    let far := s.globalTries u .read n a.toNat (o.toInt * n)
    let near := s.spadTries u n a.toNat w.toNat (o2.toNat * n)
    let pav := s.pavTries u n a.toNat (o.toInt * n)
    let acq := s.globalTries u .read n a.toNat 0
    (s.loadReady (some false) n far → Machine.Loads s (exec (.ldg c u d a sz o) s) u (some false) false dest far) ∧
    (s.loadReady (some false) n near → Machine.Loads s (exec (.lds c u d a sz w o2) s) u (some false) false dest near) ∧
    (s.loadReady (some false) n pav → Machine.Loads s (exec (.ldp c u d a sz o) s) u (some false) false dest pav) ∧
    (sz.toNat < 6 → s.loadReady (some false) n acq →
      Machine.Loads s (exec (.ldacq c u d a scope sz) s) u (some false) true dest acq)) ∧
  (∀ (s : State) (c u : Bool) (a : BitVec 7), s.issuing → s.issue.exec ≠ 0 → a.toNat < 64 →
    let va := s.issue.src.rs a.toNat
    let tries := (List.range 48).map fun i => s.tryGlobal .read 4 (lowest s.issue.exec) (va + BitVec.ofNat 64 (4 * i))
    (va = 0 → ∃ t, exec (.ldk c u a) s = .next t ∧
      OnlyGroup s t (fun g => { g with rf := { g.rf with k := List.replicate 48 0 } })) ∧
    (va ≠ 0 → va.toNat % 64 = 0 → s.loadReady (some false) 4 tries →
      Machine.Loads s (exec (.ldk c u a) s) true (some false) false .bank tries) ∧
    (va.toNat % 64 ≠ 0 → s.grp.report = none → s.accessWait (some false) 4 [.fail (lowest s.issue.exec) va .misaligned false] = none →
      ∃ t, exec (.ldk c u a) s = .next t ∧ Taken s t .misaligned s.issue.exec s.issue.exec va 0))

/-- R262, R266, R270: the stores. The lanes' bytes are dispatched, those of vD at the lane's own address, which the form computes
as the loads do, as one operation for what is held alike (R360). Memory is written when an operation reaches its home. A release
waits for the earlier accesses of its lanes, and at pod scope orders what it writes (R445). -/
def Obligations.Stores : Prop :=
  ∀ (s : State) (c u : Bool) (d a : BitVec 7) (sz scope w : BitVec 3) (o : BitVec 5) (o2 : BitVec 2), s.issuing →
    s.szOk d.toNat sz.toNat → s.vOk a.toNat →
    let n := szBytes sz.toNat
    let data := s.dataBytes d.toNat n
    let far := s.globalTries u .write n a.toNat (o.toInt * n)
    let near := s.spadTries u n a.toNat w.toNat (o2.toNat * n)
    let pav := s.pavTries u n a.toNat (o.toInt * n)
    let rel := s.globalTries u .write n a.toNat 0
    (s.storeReady false n far → Machine.Stores s (exec (.stg c u d a sz o) s) u false data far) ∧
    (s.storeReady false n near → Machine.Stores s (exec (.sts c u d a sz w o2) s) u false data near) ∧
    (s.storeReady false n pav → Machine.Stores s (exec (.stp c u d a sz o) s) u false data pav) ∧
    (sz.toNat < 6 → s.settled scope.toNat → s.storeReady false n rel →
      Machine.Stores (s.podRelease scope.toNat) (exec (.strel c u d a scope sz) s) u false data rel) ∧
    (sz.toNat < 6 → s.settled scope.toNat = false →
      Waits s (exec (.strel c u d a scope sz) s) ((s.memWait (some false)).getD .pipeBusy))

/-- R262, R263: the addresses of the executing lanes: base s0 plus the lane's register plus the offset for a global
access, which must be aligned to its size; a lane that fails a check has no access. -/
def Obligations.LaneAddresses : Prop :=
  ∀ (s : State) (want : Want) (n a l : Nat) (off : Int),
    let va := s.globalVa a off l
    let t := s.tryGlobal want n l va
    va = BitVec.ofInt 64 ((s.issue.src.rs 0).toNat + (s.A a l).toNat + off) ∧ t.access.lane = l ∧ t.access.va = va ∧
    (va.toNat % n ≠ 0 → t.fault = some (l, .misaligned, va)) ∧
    (∀ pa sc hb m, va.toNat % n = 0 → s.translate s.space s.tenant want va.toNat = (.ok pa sc hb, m) →
      t.fault = none ∧ t.access.loc = .phys pa ∧ t.access.global ∧ t.sc = sc) ∧
    (∀ cause m, va.toNat % n = 0 → s.translate s.space s.tenant want va.toNat = (.fail cause, m) →
      t.fault = some (l, cause, va))

/-- R271 to R273, R276: the global atomics dispatch one read-modify-write for each executing lane, with the operands of vD as
they stood before the bundle; the ones that release wait first for the earlier accesses of their lanes; and what a
read-modify-write makes of the bytes at its location. -/
def Obligations.Atomics : Prop :=
  (∀ (s : State) (c u w : Bool) (d a : BitVec 7) (sc : BitVec 3) (o v : BitVec 2), s.issuing →
    (if w then s.v2Ok d.toNat else s.vOk d.toNat) → s.vOk a.toNat → (2 ≤ o.toNat → s.settled sc.toNat) →
    let n := if w then 8 else 4
    let acq := o.toNat % 2 == 1
    let p := if 2 ≤ o.toNat then s.podRelease sc.toNat else s
    let x := fun l => if w then s.A2 d.toNat l else BitVec.ofNat 64 (s.A d.toNat l).toNat
    let dest := some (d.toNat, if w then 2 else 1)
    (∀ op, op = (fun l => if v = 0 then Rmw.add n (x l) else .addF32 (s.A d.toNat l)) →
      (v = 0 ∨ v = 1 ∧ w = false) → s.rmwReady op (s.atomicTries u (v == 0) w a.toNat) →
      Rmws p (exec (.atadd c u d a sc o w v) s) u acq op dest (s.atomicTries u (v == 0) w a.toNat)) ∧
    (∀ op, op = (fun l => Rmw.minmax n v.toNat (x l)) → s.rmwReady op (s.atomicTries u false w a.toNat) →
      Rmws p (exec (.atminmax c u d a sc o w v) s) u acq op dest (s.atomicTries u false w a.toNat)) ∧
    (∀ op, op = (fun l => Rmw.logic n v.toNat (x l)) → v ≠ 3 → s.rmwReady op (s.atomicTries u false w a.toNat) →
      Rmws p (exec (.atlogic c u d a sc o w v) s) u acq op dest (s.atomicTries u false w a.toNat)) ∧
    (∀ op, op = (fun l => Rmw.xchg n (x l)) → s.rmwReady op (s.atomicTries u true w a.toNat) →
      Rmws p (exec (.atxchg c u d a sc o w) s) u acq op dest (s.atomicTries u true w a.toNat)) ∧
    (∀ op, op = (fun l => Rmw.cas n (x l)
        (if w then s.A2 (d.toNat + 2) l else BitVec.ofNat 64 (s.A (d.toNat + 1) l).toNat)) →
      (if w then s.v4Ok d.toNat else s.vOk (d.toNat + 1)) → s.rmwReady op (s.atomicTries u true w a.toNat) →
      Rmws p (exec (.atcas c u d a sc o w) s) u acq op dest (s.atomicTries u true w a.toNat))) ∧
  (∀ (old : List Byte) (v c : DWord) (w : Nat), w = 4 ∨ w = 8 → old.length = w →
    let x := leNat old
    let y := v.toNat % 2 ^ (8 * w)
    (Rmw.add w v).write old = some (leBytes w ((x + v.toNat) % 2 ^ (8 * w))) ∧
    (Rmw.minmax w 2 v).write old = some (leBytes w (min x y)) ∧
    (Rmw.minmax w 3 v).write old = some (leBytes w (max x y)) ∧
    (∀ z, (Rmw.minmax w 0 v).write old = some z → intOf (8 * w) true (leNat z) = min (intOf (8 * w) true x) (intOf (8 * w) true y)) ∧
    (∀ z, (Rmw.minmax w 1 v).write old = some z → intOf (8 * w) true (leNat z) = max (intOf (8 * w) true x) (intOf (8 * w) true y)) ∧
    (Rmw.logic w 0 v).write old = some (leBytes w (x &&& y)) ∧
    (Rmw.logic w 1 v).write old = some (leBytes w (x ||| y)) ∧
    (Rmw.logic w 2 v).write old = some (leBytes w (x ^^^ y)) ∧
    (Rmw.xchg w v).write old = some (leBytes w y) ∧
    (Rmw.cas w c v).write old = (if x = c.toNat % 2 ^ (8 * w) then some (leBytes w y) else none) ∧
    (∀ r : Rmw, r ∈ [.add w v, .minmax w 0 v, .logic w 0 v, .xchg w v, .cas w c v] → r.value old = x))

/-- R275 to R279: the bank operations on single locations dispatch one read-modify-write for each executing lane at its
Pavilion address. -/
def Obligations.BankOperations : Prop :=
  ∀ (s : State) (c u : Bool) (d a : BitVec 7) (t : BitVec 3), s.issuing → s.vOk a.toNat →
    let w := t == 1
    let n := if w then 8 else 4
    let x := fun l => if w then s.A2 d.toNat l else BitVec.ofNat 64 (s.A d.toNat l).toNat
    let dOk : Bool := if w then s.v2Ok d.toNat else s.vOk d.toNat
    (∀ op, op = (fun l => if t = 2 then Rmw.addF32 (s.A d.toNat l) else .add n (x l)) → t.toNat < 3 → dOk →
      s.rmwReady op (s.pavTries u n a.toNat 0) →
      Rmws s (exec (.bankAdd c u d a t) s) u false op none (s.pavTries u n a.toNat 0)) ∧
    (∀ op, op = (fun l => Rmw.fx w (x l)) → t.toNat < 2 → dOk → s.rmwReady op (s.pavTries u 32 a.toNat 0) →
      Rmws s (exec (.bankFx c u d a t) s) u false op none (s.pavTries u 32 a.toNat 0)) ∧
    (∀ op, op = (fun _ => Rmw.fxread (t == 1)) → t.toNat < 2 → s.v4Ok d.toNat →
      s.rmwReady op (s.pavTries u 32 a.toNat 0) →
      Rmws s (exec (.bankFxread c u d a t) s) u false op (some (d.toNat, 4)) (s.pavTries u 32 a.toNat 0)) ∧
    (∀ op, op = (fun l => Rmw.append n (x l)) → t.toNat < 2 → dOk → s.rmwReady op (s.pavTries u 8 a.toNat 0) →
      Rmws s (exec (.bankApp c u d a t) s) u false op (some (d.toNat, 1)) (s.pavTries u 8 a.toNat 0))

/-- R61, R65, R66, R284, R290, R292: a release or a full fence waits while an access that it orders is not performed, a range
fence for those in its range alone; an acquire fence holds back what comes behind it while loads that it orders have not returned,
and otherwise acquires, as a full fence does; nothing else differs. `pref` changes no register, no lane and no byte of memory;
`flushl1` is dispatched and counts on its flag. -/
def Obligations.FencesAndPrefetch : Prop :=
  ∀ (s : State) (c u : Bool) (sc sz : BitVec 3) (k t : BitVec 2) (a b : BitVec 7) (o : BitVec 5), s.issuing →
    let idle := s.issue.exec = 0
    let far := 2 < sc.toNat
    let passes := fun (r : Result) range (loads : List Flight) => ∃ t, r = .next t ∧ OnlyGroup s t fun g => { g with
      seen := if idle ∨ k = 1 ∨ (k = 0 ∧ loads ≠ []) then g.seen else s.nextId
      podFence := if idle ∨ k = 0 ∨ sc.toNat ≠ 6 then g.podFence else g.podFence ||| s.issue.exec
      fences := if idle ∨ k ≠ 0 ∨ loads = [] then g.fences else
        g.fences ++ [{ pc := s.issue.pc, mask := s.issue.exec, range := range, loads := loads.map (·.id) }] }
    (k.toNat < 3 →
      let done := k = 0 ∨ idle ∨ s.settled sc.toNat ∧ (k = 1 ∨ ¬far ∨ s.fullSettled)
      (done → passes (exec (.fence c u sc k) s) none s.unreturned) ∧
      (¬done → Waits s (exec (.fence c u sc k) s) .pipeBusy)) ∧
    (let base := (s.issue.src.rs a.toNat).toNat
     let len := (s.issue.src.rs b.toNat).toNat
     let held := ∃ f ∈ s.cur.flight, f.inRange base len ∧
       (f ∈ s.mine ∧ (f.mask &&& s.issue.exec) ≠ 0 ∧ (if far then f.open_ else f.reading) ∨
        far ∧ (f.id < s.grp.seen ∨ k = 2) ∧ f.open_)
     let done := k = 0 ∨ idle ∨ s.issue.ahead ∨ ¬held
     k.toNat < 3 → a.toNat < 64 → b.toNat < 64 →
      (done → passes (exec (.fenceRng c u sc k a b) s) (some (base, len)) (s.unreturned.filter (·.inRange base len))) ∧
      (¬done → Waits s (exec (.fenceRng c u sc k a b) s) .pipeBusy)) ∧
    (let tries := s.globalTries u .read (szBytes sz.toNat) a.toNat (memgOff sz.toNat o)
     t.toNat < 3 → sz.toNat < 7 → s.vOk a.toNat → ∃ r, exec (.pref c u t a sz o) s = .next r ∧
      OnlyCore (s.noteMalformed (tries.filter (·.malformed)).length) r
        (fun c => { c with pref := r.cur.pref, regs := { c.regs with counters := r.cur.regs.counters } })) ∧
    (s.issue.exec = 0 → exec (.flushl1 c u) s = .next s) ∧
    (s.issue.exec ≠ 0 → s.flagFull (some false) = false →
      Dispatches s (exec (.flushl1 c u) s) (some false) s.issue.exec none false false .flush)

/-- R280, R281, R285 to R288: `bank.axpy` and `bank.red` take their operands from four scalars and dispatch one engine
operation; `cpy.l`, `cpy.t` and `stk.ctx` dispatch one with its pieces once all their accesses pass. No byte of memory and no
register differs at issue. -/
def Obligations.EngineWords : Prop :=
  (∀ (s : State) (c u f : Bool) (d a : BitVec 7) (t : BitVec 2), s.issuing → s.engineReady f → a.toNat < 64 →
    a.toNat % 4 = 0 → s.vOk d.toNat →
    let r := fun i => s.issue.src.rs (a.toNat + i)
    let n := (r 1).toNat / 2 ^ 32
    let dst : Word := (r 1).setWidth 32
    let src : Word := (r 0).setWidth 32
    let size := if t = 0 then 32 else 4
    n ≤ 2 ^ 24 → (r 3).toNat % 16 = 0 →
    (t.toNat < 2 → inWindow dst (4 * n) → (r 2).toNat < 2 ^ 32 → (r 0).toNat % 4 = 0 → dst.toNat % 4 = 0 →
      (s.tryRange .read (r 0).toNat (4 * n)).2 = [] →
      Dispatches s (exec (.bankAxpy c u d a t f) s) (some f) s.issue.exec (s.heldUntil [(true, dst.toNat, 4 * n), ctrSpan (r 3)]) false false
        (.axpy t.toNat ((r 2).setWidth 32) (s.tryRange .read (r 0).toNat (4 * n)).1
          (s.localPa (0x80000000000 + dst.toNat)) n d.toNat (r 3))) ∧
    (t.toNat < 3 → inWindow src (4 * n) → inWindow dst size → (r 0).toNat < 2 ^ 32 → r 2 = 0 → src.toNat % 4 = 0 →
      dst.toNat % size = 0 →
      Dispatches s (exec (.bankRed c u d a t f) s) (some f) s.issue.exec (s.heldUntil [(true, dst.toNat, size), ctrSpan (r 3)]) false false
        (.red t.toNat (s.localPa (0x80000000000 + src.toNat)) n (s.localPa (0x80000000000 + dst.toNat)) d.toNat (r 3)))) ∧
  (∀ (s : State) (c u f n out : Bool) (e a b : BitVec 6) (d r : BitVec 7) (z : BitVec 2) (w : BitVec 3), s.issuing →
    s.engineReady f →
    (let size := 4 * 2 ^ z.toNat
     let ls := s.doers u
     let src := ls.map fun l => s.tryGlobal .read size l (s.globalVa a.toNat 0 l)
     let dst := ls.map fun l => s.tryGlobal .write size l (s.globalVa b.toNat 0 l)
     let ctr := if n then s.A2 e.toNat (lowest s.issue.exec) else 0
     z.toNat < 3 → (if n then s.v2Ok e.toNat else s.vOk e.toNat) → s.vOk a.toNat → s.vOk b.toNat → ctr.toNat % 16 = 0 →
     (∀ t ∈ src ++ dst, t.fault = none) →
     Dispatches s (exec (.cpyL c u e z a b f n) s) (some f) s.issue.exec
       (s.heldUntil (ctrSpan ctr :: dst.map fun x => (false, x.access.va.toNat, size))) false false
       (.copy ((src.zip dst).map fun p => (p.1.access.loc, p.2.access.loc, size)) ls (some e.toNat) ctr none)) ∧
    (let q := fun i => (s.issue.src.rs (r.toNat + i)).toNat
     let pitch := q 1 / 2 ^ 32
     let so := q 1 % 2 ^ 32
     let rows := q 2 / 2 ^ 16 % 2 ^ 16
     let rb := q 2 % 2 ^ 16
     let chunks := tileChunks (q 0) pitch so rows rb
     let tries := chunks.map fun x =>
       (s.tryGlobal (if out then .write else .read) 16 (lowest s.issue.exec) (BitVec.ofNat 64 x.1), x.2)
     r.toNat < 64 → r.toNat % 4 = 0 → s.vOk d.toNat → q 2 < 2 ^ 32 → 1 ≤ rows → rows ≤ 4096 → 16 ≤ rb → rb ≤ 4096 →
     rb % 16 = 0 → q 0 % 16 = 0 → pitch % 16 = 0 → so % 16 = 0 → q 3 % 16 = 0 → so + rows * rb ≤ s.curTeam.spadSize →
     (∀ t ∈ tries, t.1.fault = none) →
     Dispatches s (exec (.cpyT c u d r w out f) s) (some f) s.issue.exec
       (s.heldUntil (ctrSpan (BitVec.ofNat 64 (q 3)) :: if out then chunks.map fun x => (false, x.1, 16) else [])) false false
       (.copy (tries.map fun t =>
           let sp := Loc.spad (s.curTeam.spad (swizzle w.toNat t.2))
           if out then (sp, t.1.access.loc, 16) else (t.1.access.loc, sp, 16))
         [] (some d.toNat) (BitVec.ofNat 64 (q 3)) none)) ∧
    (let va := s.issue.src.rs r.toNat
     let bytes := s.imaged.image s.issue.slot s.curTeam.origin.lseq true
     r.toNat < 64 → s.vOk d.toNat → va.toNat % 64 = 0 → s.owesAny = false →
     (s.tryRange .write va.toNat bytes.length).2 = [] →
     Dispatches s (exec (.stkCtx c u d r (if f then 1 else 0)) s) (some f) s.issue.exec
       (s.heldUntil [(false, va.toNat, bytes.length)]) false false
       (.image (s.tryRange .write va.toNat bytes.length).1 bytes d.toNat)))

/-! ## Operations in flight -/

/-- R60, R266: a load whose data return writes the registers of its lanes from the bytes at their locations, those of another
package as its requests brought them back, lowers its flag, and is gone; memory is as before. -/
def Obligations.LoadReturns : Prop :=
  ∀ (s : State) (k id d n : Nat) (sg : Bool) (f : Flight) (ls : List LaneAccess) (g : Group),
    (s.core k).op id = some f → f.kind = .load (.reg d n sg) ls → s.awaits k id = false → (s.core k).blocked f = false →
    (s.core k).scTurn f → f.errs = [] → (∀ x ∈ s.loadCodes f, x.2 = 0) → (∀ x ∈ ls, s.locBad x.loc n = false) →
    (∀ x ∈ ls, ∀ w ∈ s.weak, x.loc.meets n (.phys w) 16 = false) →
    (s.core k).saved = [] → (s.core k).group f.slot = some g → g.team = f.team → g.shaped → g.phase = .running →
    (∀ t, (s.core k).team f.team = some t → t.live ≠ []) → d + (n + 3) / 4 ≤ g.rf.v.length →
    ∃ t, exec (.loadDataReturn k id) s = .next t ∧ t.mem = s.mem ∧ (t.core k).op id = none ∧
      ∃ h, (t.core k).group f.slot = some h ∧
        h.flags = g.flagsAfter f.flag ((s.core k).flight.all fun e => e.id == f.id || e.word != f.word) ∧
        (∀ x, ls = [x] → ∀ l i, l < 32 → f.mask.getLsbD l → i < (n + 3) / 4 →
          h.rf.rv (d + i) l = wordOf (extend n sg (s.opRead k f x.loc n)) i) ∧
        (1 < ls.length → (ls.map (·.lane)).Nodup → ∀ x ∈ ls, ∀ i, x.lane < 32 → f.mask.getLsbD x.lane → i < (n + 3) / 4 →
          h.rf.rv (d + i) x.lane = wordOf (extend n sg (s.opRead k f x.loc n)) i) ∧
        (∀ r l, (r < d ∨ d + (n + 3) / 4 ≤ r ∨ f.mask.getLsbD l = false) → h.rf.rv r l = g.rf.rv r l) ∧
        ∀ j, j ≠ f.slot → (t.core k).group j = (s.core k).group j

/-- R56, R57, R72, R87, R206, R272, R436: a store that reaches its home puts each lane's bytes at that lane's location, a
read-modify-write changes its location by its operation, and every byte of memory outside them is as before; so does a write by
a party outside the cores; a performed store or atomic that is acknowledged is gone, its flag counts one less, an atomic's
registers take the values that it read, and no byte of memory differs. -/
def Obligations.StoresReachMemory : Prop :=
  (∀ (s : State) (k id : Nat) (f : Flight) (ls : List (LaneAccess × List Byte)) (at_ : LaneAccess → Nat), s.unmoved →
    (s.core k).op id = some f → f.id = id → f.kind = .store ls → s.canPerform k f →
    (∀ x ∈ ls, x.1.loc = .phys (at_ x.1) ∧ s.beyond x.1.loc = none ∧ backed (paLocal (at_ x.1)) ∧
      ∀ w ∈ s.bad, overlap (at_ x.1) x.2.length w 32 → at_ x.1 ≤ w ∧ w + 32 ≤ at_ x.1 + x.2.length) →
    ls.Pairwise (fun x y => overlap (at_ x.1) x.2.length (at_ y.1) y.2.length = false) →
    ∃ t, exec (.homeWrite (.pending k id)) s = .next t ∧
      (∀ x ∈ ls, ∀ i, i < x.2.length → t.mem.read (at_ x.1 + i) = x.2.getD i 0) ∧
      (∀ a, (∀ x ∈ ls, ¬(at_ x.1 ≤ a ∧ a < at_ x.1 + x.2.length)) → t.mem.read a = s.mem.read a) ∧
      (t.core k).op id = some { f with performed := true }) ∧
  (∀ (s : State) (k id pa : Nat) (f : Flight) (x : LaneAccess) (r : Rmw) (d : Option (Nat × Nat)), s.unmoved →
    (s.core k).op id = some f → f.id = id → f.kind = .rmw [(x, r)] d [] → f.errs = [] → f.born ≤ s.clk →
    s.canPerform k f → x.loc = .phys pa → s.beyond x.loc = none → s.homeCode (.phys pa) r.span = 0 →
    (∀ w ∈ s.weak, overlap pa r.span w 16 = false) →
    let done := fun (t : State) => (t.core k).op id = some { f with
      performed := true, kind := .rmw [(x, r)] d [(x.lane, r.value (s.readPa pa r.span))] }
    ((∀ w v, r ≠ .append w v) → ∃ t, exec (.homeWrite (.pending k id)) s = .next t ∧
      (∀ new, r.write (s.readPa pa r.span) = some new → (∀ i, i < new.length → t.mem.read (pa + i) = new.getD i 0) ∧
        SameMemoryBut s t pa new.length) ∧
      (r.write (s.readPa pa r.span) = none → SameMemory s t) ∧ done t) ∧
    ∀ w v, let old := leNat (s.mem.bytes pa 4)
      r = .append w v → (s.core k).holds = [] → (∀ q, s.slotOf pa w old = some q → s.masksBad q w = false) →
      ∃ t, exec (.homeWrite (.pending k id)) s = .next t ∧ done t ∧
        t.mem.bytes pa 4 = leBytes 4 (if old < 0xFFFFFFFF then old + 1 else old) ∧
        (s.slotOf pa w old = none → SameMemoryBut s t pa 4) ∧
        ∀ q, s.slotOf pa w old = some q → t.mem.bytes q w = leBytes w v.toNat ∧
          ∀ a, ¬(pa ≤ a ∧ a < pa + 4) → ¬(q ≤ a ∧ a < q + w) → t.mem.read a = s.mem.read a) ∧
  (∀ (s : State) (pa : Nat) (bs : List Byte), s.unmoved →
    (∀ w ∈ s.bad, overlap pa bs.length w 32 → pa ≤ w ∧ w + 32 ≤ pa + bs.length) →
    ∃ t, exec (.homeWrite (.outside pa bs)) s = .next t ∧
      (∀ i, i < bs.length → t.mem.read (pa + i) = bs.getD i 0) ∧ SameMemoryBut s t pa bs.length) ∧
  (∀ (s : State) (k id : Nat) (f : Flight) (g : Group), (s.core k).op id = some f → f.id = id → Owned s k f g →
    f.errs = [] → f.acq = false → (∀ h ∈ g.fences, f.id ∉ h.loads) →
    (∀ ls, f.kind = .store ls → f.performed → ∃ t, exec (.storeAck k id) s = .next t ∧ Gone s t k f g g.rf) ∧
    (∀ ls old, f.kind = .rmw ls none old → f.performed → ∃ t, exec (.storeAck k id) s = .next t ∧ Gone s t k f g g.rf) ∧
    (∀ x d n v, f.kind = .rmw [x] (some (d, n)) [(x.1.lane, v)] → f.performed → ∃ t, exec (.storeAck k id) s = .next t ∧
      Gone s t k f g (g.rf.setWords d n f.mask fun _ => v)) ∧
    (f.kind = .flush → ∃ t, exec (.storeAck k id) s = .next t ∧ Gone (s.modCore k Core.dropL1) t k f g g.rf))

/-! ## Tasks, queues, barriers and pools -/

/-- R131, R343 to R345: `task.spawn` pushes each lane's record, in ascending lane order, to the ready queue of its quad;
`task.done` ends the group's part of its task and covers the accesses that are not performed yet, its own and those that come
before a synchronisation of its group (R66); `ctr.add` adds to a
count, returns what it read, sets zero when it brings the count down to zero, and changes only err when the count would
leave its range. -/
def Obligations.TaskWords : Prop :=
  ∀ (s : State) (c u lf f x : Bool) (d a b : BitVec 7), s.issuing → s.issue.exec ≠ 0 → s.fresh → s.cur.saved = [] →
    s.grp.tryUntil = none → s.grp.phase = .running → s.issue.core < 384 →
    (s.v2Ok a.toNat → (lf → s.bOk b.toNat x) → s.releaseWait f = none → s.quads.length = 96 →
      (∀ q, q < 96 → s.quadOn q ∧ (s.quad q).waiting = [] ∧ (s.quad q).ringLen = 0 ∧ (s.quad q).chip.length ≤ 224) →
      s.roomWait 64 (s.spawnTries u lf a.toNat b.toNat x) = none →
      (∀ t ∈ s.spawnTries u lf a.toNat b.toNat x, t.fault = none ∧ s.beyond t.access.loc = none ∧
        ∀ pa, t.access.loc = .phys pa → s.sound pa 64) →
      ∃ t, exec (.taskSpawn c u lf f a b x) s = .next t ∧ SameMemory s t ∧ t.grp = s.grp ∧ t.cur.flight = s.cur.flight ∧
        ∀ q, q < 96 → (t.quad q).chip = (s.quad q).chip ++
          ((s.doers u).filter fun l => (if lf then (s.B b.toNat x l).toNat else s.issue.core / 4) == q).map fun l =>
            RqEntry.of (s.A2 a.toNat l)
              (((s.readRecord (s.party s.nextId) (s.A2 a.toNat l)).2.map (·.prio)).getD 0)
              { s.curTeam.origin with sub := none }) ∧
    (s.grp.partDone → exec (.taskDone c) s = .next s) ∧
    (s.cur.team s.grp.team ≠ none → s.grp.partDone = false →
      ∃ t, exec (.taskDone c) s = .next t ∧ SameMemory s t ∧ t.grp = { s.grp with partDone := true } ∧
        t.curTeam = { s.curTeam with cover := s.curTeam.cover ++ (s.cur.flight.filter fun f => f.open_ &&
          (f.id < s.grp.seen || (f.slot == s.issue.slot && f.team == s.grp.team))).map (·.id) } ∧
        t.cur.flight = s.cur.flight) ∧
    (∀ l pa, s.vOk d.toNat → s.v2Ok a.toNat → s.bOk b.toNat x → s.releaseWait false = none → s.doers u = [l] →
      Reaches s .write l 16 (s.A2 a.toNat l) pa → s.unwatched l → s.plain pa 8 → s.cur.passes s.nextId pa 8 = false →
      s.holdFor [(false, (s.A2 a.toNat l).toNat, 8)] = none →
      let old := leNat (s.mem.bytes pa 4)
      let flags := leNat (s.mem.bytes (pa + 4) 4)
      let delta := (s.B b.toNat x l).toInt
      let new := old + delta
      let out := new < 0 ∨ 2 ^ 32 ≤ new
      let zero := delta < 0 ∧ new = 0
      (zero → leNat (s.mem.bytes (pa + 8) 8) = 0) →
      ∃ p t, exec (.ctrAdd c u d a b x) s = .next t ∧
        WritesAt s p pa (if out then leBytes 4 old ++ leBytes 4 (flags ||| 2 ^ 31)
          else leBytes 4 new.toNat ++ leBytes 4 (if zero then flags ||| 2 ^ 30 else flags)) ∧
        Vectors { p with nextId := p.nextId + 1 } t d.toNat 1 s.issue.exec (fun _ _ => BitVec.ofNat 32 old) 0)

/-- R143, R144, R206, R347, R348, in the lane that acts: `wq.push` answers 1 on a full queue and otherwise advances the tail
at once, sends its item to the slot and answers 0; `wq.pop` takes the first item of its window and sends the empty value and
the new head, or waits for a refill and counts on its flag meanwhile. -/
def Obligations.WorkQueues : Prop :=
  ∀ (s : State) (c u x form : Bool) (d a b : BitVec 7) (l pa : Nat), s.issuing → s.doers u = [l] → l < 32 →
    s.unwatched l → s.v2Ok a.toNat →
    let va := s.A2 a.toNat l
    let goes := fun (p q : State) ws => ∃ sc, Dispatched p q (p.newFlights (some false) false sc (p.storeParts u sc ws))
    Reaches s .write l 32 va pa →
    (s.vOk d.toNat → s.b2Ok b.toNat x → s.releaseWait false = none → s.B2 b.toNat x l ≠ emptyItem →
      let w := WqDesc.of (s.mem.bytes pa 32)
      w.ok →
      ((w.tail - w.head).toNat = 2 ^ w.lcap → WritesV s (exec (.wqPush c u d a b x) s) u d.toNat (fun _ => 1)) ∧
      (∀ tp sp, (w.tail - w.head).toNat ≠ 2 ^ w.lcap → Reaches s .write l 8 (va + 8) tp →
        s.wordPa tp 8 = w.tail.toNat → WritesTo s l 8 (w.slot w.tail) sp → s.plain tp 8 →
        s.cur.passes s.nextId tp 8 = false → s.holdFor [(false, va.toNat + 8, 8)] = none →
        ∃ p q t, exec (.wqPush c u d a b x) s = .next t ∧ WritesAt s p tp (leBytes 8 (w.tail + 1).toNat) ∧
          goes p q [(LaneAccess.at_ l (w.slot w.tail) sp, leBytes 8 (s.B2 b.toNat x l).toNat)] ∧
          Vectors q t d.toNat 1 s.issue.exec (fun _ _ => 0) 0)) ∧
    (∀ sp, s.v2Ok d.toNat → s.memWait (some false) = none → s.overtakes (.phys pa) 32 = false → s.grp.popping s.nextId = 0 →
      let w := WqDesc.of (s.coreRead s.issue.core s.nextId (.phys pa) 32)
      let win := (s.grp.lane l).win
      let r := maskOf (· == l)
      let wait : PopWait := ⟨va, d.toNat, form, if u then s.issue.exec else r, s.issue.pc, s.nextId⟩
      w.ok →
      (∀ item rest hp, win.desc = some va → win.items = item :: rest → WritesTo s l 8 (w.slot win.first) sp →
        WritesTo s l 8 (va + 16) hp →
        let after := { win with
          items := rest, first := win.first + 1, refill := win.refill || rest.length ≤ 2 }
        ∃ p q t, exec (.wqPop c u d a form) s = .next t ∧
          OnlyGroup s p (·.modLane l fun t => { t with win := after }) ∧
          goes p q [(LaneAccess.at_ l (w.slot win.first) sp, leBytes 8 emptyItem.toNat),
            (LaneAccess.at_ l (va + 16) hp, leBytes 8 (win.first + 1).toNat)] ∧
          Vectors q t d.toNat 2 s.issue.exec (fun i _ => wordOf item.toNat i) 0) ∧
      ((win.desc = some va → win.items = []) → WritesTo s l 8 (w.slot w.head) sp →
        ∃ p q, exec (.wqPop c u d a form) s = .next q ∧
          OnlyGroup s p (·.modLane l fun t => { t with win := ⟨some va, [], 0, true, some wait⟩ }) ∧
          Dispatched p q (p.newFlights (some false) false false [(r, none, .pops)])))

/-- R349 to R351: `bar` and `bar.arrive` send the group's arrival, and `bar` waits for its token and the barrier's
completion; `bar.wait` passes when the completion count differs from its token, which is an acquire, and waits when it does
not. -/
def Obligations.BarrierWords : Prop :=
  ∀ (s : State) (c u : Bool) (d a : BitVec 7) (sc : BitVec 3) (n : BitVec 4), s.issuing → s.issue.exec ≠ 0 →
    let count := (s.issue.src.rs a.toNat).toNat % 2 ^ 32
    let waits := fun token (g : Group) =>
      { g with barWait := some ⟨sc, n, token, s.issue.pc, s.issue.exec⟩, heldPc := s.issue.pc }
    (s.arriveOk sc.toNat n.toNat a.toNat →
      (∃ p t, exec (.bar c u a sc n) s = .next t ∧
        Dispatched s p (s.newFlights none false false [(s.issue.exec, none, .arrive sc n count none)]) ∧
        OnlyGroup p t (waits none)) ∧
      (d.toNat < 64 → Dispatches s (exec (.barArrive c u d a sc n) s) none s.issue.exec none false false
        (.arrive sc n count (some d.toNat)))) ∧
    (a.toNat < 64 → n.toNat < barCount sc.toNat →
      let token : Word := BitVec.ofNat 32 count
      let now := (s.barrier s.issue.core sc.toNat n.toNat).completions
      (now ≠ token → ∃ t, exec (.barWait c u a sc n) s = .next t ∧ OnlyGroup s t (fun g => { g with seen := s.nextId })) ∧
      (now = token → ∃ t, exec (.barWait c u a sc n) s = .next t ∧ OnlyGroup s t (waits (some token))))

/-- R34, R45, R46, R353: `role.give` moves the group's highest blocks to its team's pool; `role.claim` takes blocks of zeros from
the pool, above the highest register, or takes its turn; `park`, in the lane that acts, answers 0 when the word differs from
what it expects, and parks the executing lanes on it when it does not. -/
def Obligations.PoolsAndPark : Prop :=
  (∀ (s : State) (c u : Bool) (n : BitVec 15) (tm : Team), s.issuing → s.issue.exec ≠ 0 →
    s.cur.team s.grp.team = some tm → tm.claims = [] → 1 ≤ n.toNat → n.toNat ≤ 15 →
    (8 * n.toNat + 8 ≤ s.grp.rf.v.length → s.pendingFrom (s.grp.rf.v.length - 8 * n.toNat) = false →
      let less := s.grp.rf.v.take (s.grp.rf.v.length - 8 * n.toNat)
      ∃ t, exec (.roleGive c u n) s = .next t ∧ SameMemory s t ∧
        t.grp = { s.grp with rf := { s.grp.rf with v := less } } ∧
        t.curTeam = { tm with pool := tm.pool + n.toNat }) ∧
    (s.grp.rf.v.length + 8 * n.toNat ≤ 128 → s.grp.phase = .running →
      (n.toNat ≤ tm.pool →
        let more := s.grp.rf.v ++ List.replicate (8 * n.toNat) (List.replicate 32 0)
        ∃ t, exec (.roleClaim c u n) s = .next t ∧ SameMemory s t ∧
        t.grp = { s.grp with claim := none, heldPc := s.issue.pc, rf := { s.grp.rf with v := more } } ∧
        t.curTeam = { tm with pool := tm.pool - n.toNat }) ∧
      (tm.pool < n.toNat → ∃ t, exec (.roleClaim c u n) s = .next t ∧ SameMemory s t ∧
        t.grp = { s.grp with claim := some n.toNat, heldPc := s.issue.pc } ∧
        t.curTeam = { tm with claims := [(s.issue.slot, n.toNat)] }))) ∧
  (∀ (s : State) (c u x : Bool) (d a b : BitVec 7) (l w pa : Nat), s.issuing → s.doers u = [l] → l < 32 →
    s.memHeld = none → s.unwatched l → s.vOk d.toNat → s.v2Ok a.toNat → s.bOk b.toNat x →
    Reaches s .read l 4 (s.A2 a.toNat l) pa → s.overtakes (.phys pa) 4 = false → w = leNat (s.coreRead s.issue.core s.nextId (.phys pa) 4) →
    (w ≠ (s.B b.toNat x l).toNat → (∀ k, k < 32 → (s.grp.lane k).park = none) →
      WritesV s (exec (.park c u d a b x) s) u d.toNat (fun _ => 0)) ∧
    (w = (s.B b.toNat x l).toNat →
      (∃ k, k < 32 ∧ s.issue.exec.getLsbD k = false ∧ (s.grp.lane k).park = none ∧ (s.grp.lane k).vpc ≠ 0xFFFFFFFF) →
      let wait := fun k =>
        (⟨false, s.A2 a.toNat l, pa, 4, BitVec.ofNat 64 w, s.clk + 65536, d.toNat, 0, BitVec.ofNat 32 (2 ^ k),
          s.issue.pc, none, 0⟩ : ParkRec)
      ∃ t, exec (.park c u d a b x) s = .next t ∧ OnlyGroup s t (fun g => { g with lanes := t.grp.lanes }) ∧
        ∀ k, k < 32 → t.grp.lane k =
          if s.issue.exec.getLsbD k then { s.grp.lane k with park := some (wait k) } else s.grp.lane k))

/-- R211, R354, R355: `trap` and `brk` take their exceptions with their codes, for every code; the forms of `sysret` place
each executing lane at the word that its register names, or behind it, or there with its next issue unwatched. -/
def Obligations.TrapsAndReturns : Prop :=
  ∀ (s : State) (c : Bool) (k : BitVec 22) (a : BitVec 7), s.issuing → s.issue.exec ≠ 0 →
    (s.grp.report = none →
      Takes s (exec (.trap k) s) .softwareTrap k ∧
      Takes s (exec (.brk k) s) .debugBreak k) ∧
    (s.vOk a.toNat →
      Machine.Branches s (exec (.sysret c 0 a) s) s.issue.exec (fun l => s.A a.toNat l) ∧
      (∀ w : Nat → Word, (∀ l, s.issue.exec.getLsbD l → s.codeMalformed s.space s.tenant (s.A a.toNat l) = 0 ∧
          s.afterTarget (s.A a.toNat l) = (s, .ok (w l, 0))) →
        Machine.Branches s (exec (.sysret c 1 a) s) s.issue.exec w) ∧
      ∃ p t, exec (.sysret c 2 a) s = .next t ∧ Branched s p s.issue.exec (fun l => s.A a.toNat l) ∧
        OnlyGroup p t (fun g => { g with noWatch := g.noWatch ||| s.issue.exec }))

/-- R289, R318, R320, R356 to R362: the words that set a comparator, read a clock, count a marker, set a hold window, read
a capability, sleep, wait for a flag, set the firing mask and read the budget. -/
def Obligations.SystemWords : Prop :=
  ∀ (s : State) (c u m x : Bool) (d a b : BitVec 7) (n e k g : BitVec 2) (i : BitVec 22) (z : BitVec 15) (p : BitVec 3)
    (f : BitVec 4) (y : BitVec 12) (sel : BitVec 8), s.issuing → s.issue.exec ≠ 0 →
    let r := fun j => s.issue.src.rs (a.toNat + j)
    (k ≠ 3 → ¬(k = 2 ∧ e = 1) → a.toNat < 64 → a.toNat % 4 = 0 → s.cur.regs.cctl.getLsbD (4 + n.toNat) = false →
      let w : Comparator := if e = 0 then Comparator.reset
        else ⟨e, k, r 0, r 1, r 2, r 3, s.tenant, s.issue.slot, s.clk⟩
      ∃ t, exec (.watch c u n e k a) s = .next t ∧
        OnlyCore s t (fun c => { c with watch := c.watch.set n.toNat w })) ∧
    (d.toNat < 64 → (m → s.unfinished = []) →
      WritesS s (exec (.clock c u d x m) s) d.toNat (BitVec.ofNat 64 (if x then s.clk / 15 else s.clk))) ∧
    (∃ t p, exec (.pmark c i) s = .next t ∧ OnlyCore s p (fun c => { c with regs :=
        { c.regs with counters := c.regs.counters.modify 5 (· + 1) } }) ∧
      t = { p with out := if s.cur.regs.cctl.getLsbD 2 then s.out ++ [.trace s.issue.core s.issue.slot s.issue.pc i.toNat
        s.curTeam.origin.lseq s.curTeam.origin.cpc s.clk] else s.out }) ∧
    (a.toNat < 64 → a.toNat % 4 = 0 → s.vOk d.toNat → bits (r 2).toNat 62 20 = 0 →
      let len := (r 2).toNat % 2 ^ 20
      let w : HoldWin := ⟨s.grp.team, (r 0).toNat, (r 1).toNat, bit (r 2).toNat 63, len⟩
      let code := if s.cur.regs.cctl.getLsbD 1 = false then 1 else if len = 0 then 3
        else if 4 ≤ s.cur.holds.length then 2 else 0
      let holds := if code = 0 then s.cur.holds ++ [w]
        else if code = 3 then s.cur.holds.filter fun h =>
          !(h.team == w.team && h.pav == w.pav && overlap h.base h.len w.base w.len)
        else s.cur.holds
      ∃ p t, exec (.hold c u d a) s = .next t ∧ OnlyCore s p (fun c => { c with holds := holds }) ∧
        Vectors p t d.toNat 1 s.issue.exec (fun _ _ => BitVec.ofNat 32 (2 ^ 31 + code)) 0) ∧
    (s.v2Ok d.toNat → s.bOk b.toNat x → ∃ t, exec (.cap c u d b x) s = .next t ∧
      Vectors s t d.toNat 2 s.issue.exec (fun j l =>
        match capFind 64 s.host.info s.host.capHead.toNat (s.B b.toNat x (s.from u l)).toNat with
        | none => 0
        | some v => if j = 0 then BitVec.ofNat 32 (2 ^ 31 + v.1) else BitVec.ofNat 32 v.2) 0) ∧
    (z ≠ 0 → ∃ t, exec (.sleep c u z) s = .next t ∧
      OnlyGroup s t (fun g => { g with sleepUntil := some (s.clk + z.toNat + 1), heldPc := s.issue.pc })) ∧
    (f.toNat < 12 →
      (s.issue.flags.getD f.toNat 0 = 0 → WritesP s (exec (.trywait c u p f y) s) false p.toNat (fun _ => true)) ∧
      (s.issue.flags.getD f.toNat 0 ≠ 0 → y = 0 →
        WritesP s (exec (.trywait c u p f y) s) false p.toNat (fun _ => false)) ∧
      (s.issue.flags.getD f.toNat 0 ≠ 0 → y ≠ 0 → ∃ t, exec (.trywait c u p f y) s = .next t ∧
        OnlyGroup s t (fun g => { g with
          tryUntil := some (f.toNat, p.toNat, s.issue.exec, s.clk + y.toNat), heldPc := s.issue.pc }))) ∧
    (s.vOk a.toNat → ∃ t, exec (.fireSet c u g a) s = .next t ∧
      OnlyGroup s t (fun x => { x with fire := t.grp.fire }) ∧
      ∀ j, j < 128 → t.grp.fire.getD j 0 = if j / 32 = g.toNat ∧ s.issue.exec.getLsbD (j % 32) then
        s.A a.toNat (s.from u (j % 32)) else s.grp.fire.getD j 0) ∧
    (d.toNat < 64 → sel.toNat < 4 → WritesS s (exec (.budgetRd c u d sel) s) d.toNat
      (BitVec.ofNat 64 ([s.issue.bucket, s.issue.charged.1, s.issue.charged.2,
        min 65536 (s.cur.regs.brefill.toNat % 2 ^ 17)].getD sel.toNat 0)))

/-! ## Matrix and residency words -/

/-- R296 to R304: an `mma` whose checks pass and that need not wait dispatches one pass for each quarter that takes part,
charges the bucket for them, counts once on its flag, and gives its tile to the group's team; in row-split mode with a request
to every stack that holds a fired cold row. No register and no byte of memory differs. -/
def Obligations.MatrixMultiply : Prop :=
  ∀ (s : State) (c r z : Bool) (t : BitVec 4) (a : BitVec 7) (h : BitVec 6) (m : BitVec 3), s.issuing →
    s.issue.exec ≠ 0 → m.toNat < 2 → s.vOk a.toNat → s.issue.core < s.cores.length →
    let d := s.issue.src.rs h.toNat
    let ent := descEntry d
    let e := s.cur.entry ent
    let split := m == 1
    let bs := (lanesOf s.issue.exec).map fun l => (l, (s.blockOf a.toNat (logicalK e.bfmt e.sp) r l).getD [])
    let qs := ((List.range 4).map fun q => bs.filter (·.1 / 8 == q)).filter (· != [])
    let cost := (qs.map fun q => charge (q.map (·.2))).sum
    s.cur.names d s.tenant → descReserved d = false → descKblk d < e.kblk → descNblk d < e.nblk →
    (split → t ≠ 15 ∧ e.split ∧ (s.firedCold e).length ≤ 256) → e.fault true = none →
    (∀ q, q < 4 → s.quarterCause a.toNat r true e q = none) → s.mmaWait e ent t.toNat split cost = none →
    ∃ n, exec (.mma c t a h r z m) s = .next n ∧ SameMemory s n ∧ n.grp.rf = s.grp.rf ∧ n.grp.lanes = s.grp.lanes ∧
      n.cur.bucket = s.cur.bucket - cost ∧ n.grp.charged = s.grp.charged + cost ∧
      ((n.cur.flight.drop s.cur.flight.length).filter fun f => match f.kind with | .pass .. => true | _ => false).map
        (·.kind) = qs.map (fun q => .pass ent t.toNat (descKblk d) q z split
          (if split then (s.firedRows e).filterMap fun r => (e.columnOf r).map (·, r)
           else (List.range 256).map fun c => (c, if e.split then e.rowMap.getD c 0 else descNblk d * 256 + c))) ∧
      ((n.cur.flight.drop s.cur.flight.length).filter fun f => match f.kind with | .grotto .. => true | _ => false).map
        (·.kind) = (if split then qs.flatMap fun q => (e.byStack (s.firedCold e)).map fun x =>
          .grotto ent (t.toNat + 1) (descKblk d) x.1 q x.2 e.watched none else []) ∧
      (∀ i, i < 12 → n.grp.flags.getD i 0 = s.grp.flags.getD i 0 + if s.flag (some false) = some i then 1 else 0) ∧
      n.cur.flight.take s.cur.flight.length = s.cur.flight ∧
      (t.toNat < s.cur.tiles.length → (n.cur.tile t.toNat).owner = some s.grp.team ∧
        (n.cur.tile t.toNat).rows = (s.cur.tile t.toNat).rows) ∧
      (split = false → n.cur.res = s.cur.res)

/-- R306 to R308: `acc.zero` zeroes the executing lanes' rows; `acc.ld` dispatches a load into a tile's columns and gives
the tile to the team; `acc.st` dispatches a store of a tile's columns; `acc.strows` dispatches a store of the tagged
elements. -/
def Obligations.AccumulatorWords : Prop :=
  ∀ (s : State) (c sp p f : Bool) (t : BitVec 4) (a : BitVec 7) (g n : BitVec 2), s.issuing → s.issue.exec ≠ 0 →
    s.tileWait t.toNat = none → t.toNat < s.cur.tiles.length →
    let len := 256 * accGroups n.toNat
    let own := fun (b : Tile) => { b with owner := some s.grp.team }
    (let tiles := if p then [t.toNat, t.toNat + 1] else [t.toNat]
     (p → t ≠ 15 ∧ s.tileWait (t.toNat + 1) = none) →
     (∃ r, exec (.accZero c t p) s = .next r ∧
       OnlyCore s r (fun c => tiles.foldl (fun c t => c.modTile t fun b => own (b.zeroRows s.issue.exec)) c)) ∧
     (let out := s.issue.src.rs a.toNat
      let pitch := (s.issue.src.rs (a.toNat + 1)).toNat % 2 ^ 32
      let elems := fun l => s.taggedElems tiles out.toNat pitch l
      a.toNat < 64 → a.toNat % 2 = 0 → out.toNat % 4 = 0 → pitch % 4 = 0 → s.memWait (some f) = none →
      (∀ l, s.issue.exec.getLsbD l → s.unwatched l ∧ ∀ x ∈ elems l, ∃ pa, WritesTo s l 4 x.1 pa) →
      let ws := (lanesOf s.issue.exec).flatMap fun l => (elems l).map fun x =>
        ((s.tryGlobal .write 4 l x.1).access, leBytes 4 x.2.toNat)
      s.crowdedBy (ws.map fun w => (w.1.loc, 4)) = false →
      (ws = [] → exec (.accStrows c t p a f) s = .next s) ∧
      (ws ≠ [] → ∃ sc, DispatchesAll s (exec (.accStrows c t p a f) s) (some f) false sc (s.storeParts false sc ws)))) ∧
    (n ≠ 3 → g.toNat + accGroups n.toNat ≤ 4 → s.vOk a.toNat →
      (s.loadReady (some f) len (s.accTries sp .read a.toNat len) →
        ∃ q r, exec (.accLd c t sp a g n f) s = .next r ∧
          Machine.Loads s (.next q) false (some f) false (.tile t.toNat (64 * g.toNat) len) (s.accTries sp .read a.toNat len) ∧
          OnlyCore q r (·.modTile t.toNat own)) ∧
      (let data := fun l => (s.cur.tile t.toNat).rowBytes l (64 * g.toNat) len
       s.storeReady f len (s.accTries sp .write a.toNat len) →
        Machine.Stores s (exec (.accSt c t sp a g n f) s) false f data (s.accTries sp .write a.toNat len)))

/-- R76 to R83, R93, R311, R315, R316: `res.alloc` takes the lowest free entry or answers why it cannot; `res.pin`,
`res.free`, `res.query`, `res.heat` and `res.age` act on the entry that a handle names. -/
def Obligations.ResidencyTable : Prop :=
  ∀ (s : State) (c u b : Bool) (d a v : BitVec 7), s.issuing → s.issue.exec ≠ 0 → a.toNat < 64 →
    let h := s.issue.src.rs a.toNat
    let ent := descEntry h
    let e := s.cur.entry ent
    let want := allocEntry h s.tenant 0
    descReserved h = false →
    (d.toNat < 64 → d.toNat % 2 = 0 → want.illegal = false →
      let i := s.cur.res.findIdx (·.st == .free)
      let bad := fun (code : Nat) => ∃ t, exec (.resAlloc c u d a) s = .next t ∧
        Scalars s t [(d.toNat, 0), (d.toNat + 1, BitVec.ofNat 64 code)]
      let quota := s.cur.slotsOf s.tenant + want.slots ≤ s.cur.quota s.tenant
      let room := s.cur.slotsHeld + want.slots ≤ 64 ∧ i < s.cur.res.length
      let rows := s.cur.rowsHeld + want.rows ≤ 32768
      (¬quota → bad 1) ∧ (quota → ¬room → bad 2) ∧ (quota → room → ¬rows → bad 3) ∧
      (quota → room → rows →
        let gen := (s.cur.entry i).gen
        ∃ p t, exec (.resAlloc c u d a) s = .next t ∧
          OnlyCore s p (·.modEntry i fun _ => { want with gen := gen }) ∧
          Scalars p t [(d.toNat, BitVec.ofNat 64 (gen.toNat * 64 + i)), (d.toNat + 1, 0)])) ∧
    (d.toNat < 64 → WritesS s (exec (.resQuery c u d a) s) d.toNat
      (if s.cur.live h then BitVec.ofNat 64 (s.cur.resWord ent) else 0)) ∧
    (s.cur.names h s.tenant →
      (∃ t, exec (.resPin c u a b) s = .next t ∧ OnlyCore s t (·.modEntry ent fun e => { e with pin := b })) ∧
      (∃ t, exec (.resAge c u a) s = .next t ∧
        OnlyCore s t (·.modEntry ent fun e => { e with heat := e.heat.map (· / 2), passes := 0 })) ∧
      (s.cur.loads ent = [] → s.cur.migrations ent = [] → s.cur.product ent = false →
        ∃ t, exec (.resFree c u a) s = .next t ∧ OnlyCore s t (·.modEntry ent fun e =>
          { ResEntry.reset with gen := if e.gen = 1023 then 1 else e.gen + 1 })) ∧
      (let row := fun l => (s.A v.toNat l).toNat % 4096
       s.vOk d.toNat → s.vOk v.toNat → (∀ l, l ∈ s.doers u → row l < e.rows) →
       WritesV s (exec (.resHeat c u d a v) s) u d.toNat (fun l => BitVec.ofNat 32 (e.heat.getD (row l) 0))))

/-- R79, R84, R101, R102, R312, R317: `res.load` dispatches the load of its source, which lies whole in memory that it may
read, and its residency becomes Loading, or the load waits and watches its source meanwhile; `res.migrate` dispatches its swaps, which begin at once where no product is in
flight. -/
def Obligations.ResidencyTransfers : Prop :=
  ∀ (s : State) (c u f : Bool) (d a b : BitVec 7), s.issuing → s.issue.exec ≠ 0 → a.toNat < 64 → s.vOk d.toNat →
    s.memWait (some f) = none →
    let r := fun i => s.issue.src.rs (a.toNat + i)
    let ent := descEntry (r 0)
    let e := s.cur.entry ent
    descReserved (r 0) = false → s.cur.names (r 0) s.tenant → ent < s.cur.res.length →
    (let pieces := (s.sourceTries e (r 1) e.sourceLen).1
     a.toNat % 4 = 0 → (r 2).toNat = e.sourceLen → (r 1).toNat % 128 = 0 → (r 3).toNat % 16 = 0 →
     (s.sourceTries e (r 1) e.sourceLen).2 = [] → s.cur.writesTo pieces = false → (∀ x ∈ e.ahead, x.1 ≠ s.nextId) →
     ∃ p t, exec (.resLoad c u d a f) s = .next t ∧
       Dispatched s p (s.newFlights (some f) false false [(s.issue.exec, s.heldUntil [ctrSpan (r 3)],
         .resLoad ent e.gen (r 1) e.sourceLen pieces (some d.toNat) (r 3) (s.cur.loadWaits ent) false none)]) ∧
       OnlyCore p t (·.modEntry ent fun e => if s.cur.loadWaits ent = 2 then
           { e with ahead := e.ahead ++ [(s.nextId, pieces, false)] }
         else { e with
           st := .loading, stale := false, src := r 1, len := (pieces.map (·.2)).sum, watched := pieces,
           slots := slotsFor e.bfmt (e.kblk * e.nblk) })) ∧
    (let swaps := (s.doers u).map fun l => ((s.A b.toNat l).toNat % 2 ^ 16, (s.A b.toNat l).toNat / 2 ^ 16)
     s.fresh → s.vOk b.toNat → e.st = .ready → e.stale = false → e.freeing = false → e.split → e.swapsBad swaps = false →
     s.cur.writesTo e.watched = false → s.cur.migrations ent = [] →
     Dispatches s (exec (.resMigrate c u d a b f) s) (some f) s.issue.exec none false false
       (.migrate ent swaps d.toNat (!s.cur.product ent)))

/-! ## Term words -/

/-- R105 to R111, R327 to R332, R339: the words that build and read terms, in the lanes that act. -/
def Obligations.TermBuilding : Prop :=
  ∀ (s : State) (c u x : Bool) (d t a : BitVec 6) (b : BitVec 7) (m : BitVec 2) (p : BitVec 3), s.issuing →
    s.issue.asked = false → s.pairOk d.toNat → s.pairOk a.toNat →
    ((∀ l, l ∈ s.doers u → MetOk (s.pair a.toNat l)) → WritesV s (exec (.tag c u d a) s) u (2 * d.toNat) (fun l =>
      BitVec.ofNat 32 ((s.pair a.toNat l).toNat / 2 ^ 60))) ∧
    (let w := fun l => BitVec.ofNat 64 (t.toNat * 2 ^ 60 + (s.B2 b.toNat x l).toNat % 2 ^ (if t = 4 then 32 else 60))
     s.searchPending = false → s.memHeld = none → s.b2Ok b.toNat x → t.toNat < 9 → t ≠ 6 →
     (∀ l, l ∈ s.doers u → (s.issue.lane l).sd ≠ 0 ∧ (t = 8 ∨ MetOk (w l))) →
     WritesV2 s (exec (.mkt c u d t b x) s) u (2 * d.toNat) w) ∧
    ∀ l, s.termReady u l →
      let was := s.issue.lane l
      (∀ v, Derefs s l 4096 (s.pair a.toNat l) v → Terms s (exec (.deref c u d a) s) l was [(d.toNat, v)] []) ∧
      (∀ e w, s.bOk b.toNat x → was.entryAt (s.B b.toNat x l).toNat e → Reads s l 8 e (w : DWord).toNat →
        ∃ q r, exec (.btld c u d p b x) s = .next r ∧ Terms s (.next q) l was [(d.toNat, w)] [] ∧
          Predicates q r p.toNat (fun _ => tagOf w != 8)) ∧
      (was.sd ≠ 0 → s.bOk b.toNat x → ∀ v, Derefs s l 4096 (s.pair a.toNat l) v →
        let i := (s.B b.toNat x l).toNat
        let q := BitVec.ofNat 64 (payload v)
        let one := fun m w => Terms s (exec (.arg c u d m a b x) s) l was [(d.toNat, w)] []
        (tagOf v = 1 → one 1 v ∧ one 2 (termWord 0 0)) ∧
        (payload v / 2 ^ 56 = 0 →
          (∀ f w, tagOf v = 2 → Reads s l 8 q (f : DWord).toNat → tagOf f = 6 →
            (i < arity f → Reads s l 8 (q + BitVec.ofNat 64 (8 + 8 * i)) (w : DWord).toNat → MetOk w → one 0 (written w)) ∧
            one 1 (termWord 1 (f.toNat / 2 ^ 12 % 2 ^ 48)) ∧ one 2 (termWord 0 (f.toNat % 2 ^ 12))) ∧
          (∀ w, tagOf v = 3 →
            (i < 2 → Reads s l 8 (q + BitVec.ofNat 64 (8 * i)) (w : DWord).toNat → MetOk w → one 0 (written w)) ∧
            one 2 (termWord 0 2)))) ∧
      (u = false → was.sd ≠ 0 → ∀ n func ws, (m = 1 → s.pairOk (a.toNat + 1)) → (m ≠ 1 → s.b2Ok b.toNat x) →
        m ≠ 3 → func = termWord 6 (s.B2 b.toNat x l).toNat → n = arity func →
        (m = 0 → n = 0 ∨ n ≤ 16 ∧ a.toNat + n ≤ 64 ∧ s.pairOk (a.toNat + n - 1)) →
        (m = 1 → ws = [s.pair a.toNat l, s.pair (a.toNat + 1) l]) →
        (m = 0 → ws = func :: (List.range n).map fun i => s.pair (a.toNat + i) l) →
        (m = 2 → ws = func :: List.replicate n 0) →
        (∀ w ∈ ws.drop (if m = 1 then 0 else 1), m ≠ 2 → MetOk w) →
        was.hp.toNat + 8 * ws.length ≤ was.hbase.toNat + was.hlen.toNat * 65536 →
        (∀ i, i < ws.length → ∃ pa, WritesTo s l 8 (was.hp + BitVec.ofNat 64 (8 * i)) pa) →
        Terms s (exec (.mkstr c d m a b x) s) l { was with hp := was.hp + BitVec.ofNat 64 (8 * ws.length) }
          [(d.toNat, termWord (if m = 1 then 3 else 2) was.hp.toNat)]
          (ws.mapIdx fun i w => (was.hp + BitVec.ofNat 64 (8 * i), leBytes 8 (written w).toNat))) ∧
      (u = false → s.owns l → ∀ e pa, was.entryAt was.vc.toNat e → WritesTo s l 8 e pa →
        Terms s (exec (.mkvar c d) s) l { was with vc := was.vc + 1 }
          [(d.toNat, termWord 4 was.vc.toNat)] [(e, leBytes 8 emptyWord.toNat)])

/-- R105, R118, R120, R333, R334, in the lane that acts: `bind` and `unify` of a variable write its entry, with a trail entry
where the variable is older than the top choice point; `unify` of two words that are neither variables nor both structures or
both pairs compares them; a failing `unify.f` without a choice point goes to `%fx`. -/
def Obligations.UnificationAndBinding : Prop :=
  ∀ (s : State) (c x : Bool) (a : BitVec 6) (b : BitVec 7) (p : BitVec 3) (l : Nat) (v w : DWord), s.issuing →
    s.termReady false l → s.owns l → s.pairOk a.toNat → s.b2Ok b.toNat x → Derefs s l 4096 (s.pair a.toNat l) v →
    let t := s.issue.lane l
    (∀ e pa, tagOf v = 4 → t.entryAt (varOf v) e → WritesTo s l 8 e pa →
      (w = s.B2 b.toNat x l → MetOk w →
        (t.cp = 0 ∨ (∃ mark, Reads s l 4 (t.cp + 0x18) mark ∧ mark ≤ varOf v) →
          Terms s (exec (.bind c a b x) s) l t [] [(e, leBytes 8 (written w).toNat)]) ∧
        (∀ mark f tpa, t.cp ≠ 0 → Reads s l 4 (t.cp + 0x18) mark → varOf v < mark → Reads s l 4 (t.cp + 4) f →
          t.cp.toNat + 40 + 8 * bits f 12 8 + 8 ≤ t.tp.toNat → WritesTo s l 8 (t.tp - 8) tpa →
          Terms s (exec (.bind c a b x) s) l { t with tp := t.tp - 8 } []
            [(t.tp - 8, leBytes 8 (varOf v)), (e, leBytes 8 (written w).toNat)])) ∧
      (Derefs s l 4096 (s.B2 b.toNat x l) w → tagOf w ≠ 4 → t.cp = 0 →
        (∃ q r, exec (.unifyP c p a b x) s = .next r ∧ Terms s (.next q) l t [] [(e, leBytes 8 w.toNat)] ∧
          Predicates q r p.toNat (fun _ => true)) ∧
        Terms s (exec (.unifyF c a b x) s) l t [] [(e, leBytes 8 w.toNat)])) ∧
    (Derefs s l 4096 (s.B2 b.toNat x l) w → tagOf v ≠ 4 → tagOf w ≠ 4 →
      (tagOf v ≠ 2 ∧ tagOf v ≠ 3 ∨ tagOf w ≠ tagOf v) →
      WritesP s (exec (.unifyP c p a b x) s) false p.toNat (fun _ => decide (v = w)) ∧
      (v = w → exec (.unifyF c a b x) s = .next s) ∧
      (v ≠ w → t.cp = 0 → Machine.Branches s (exec (.unifyF c a b x) s) s.issue.exec (fun _ => s.issue.fx)))

/-- R117, R119, R335, R336, in the lane that acts: `choice` writes a record above the top one; `retry` gives the top record
a new alternative and clears its entered bit; `trust` drops it; `cut` drops down to an older one; `fail` restores the
state that the top record holds and goes to its alternative, or to `%fx` where there is none. -/
def Obligations.ChoicePoints : Prop :=
  ∀ (s : State) (c x : Bool) (n : BitVec 6) (b : BitVec 7) (l : Nat), s.issuing → s.termReady false l → s.owns l →
    let t := s.issue.lane l
    (∀ top, n.toNat ≤ 16 → (n = 0 ∨ s.pairOk (n.toNat - 1)) → s.bOk b.toNat x →
      (t.cp = 0 ∧ top = t.cbase.toNat ∨
        t.cp ≠ 0 ∧ ∃ f, Reads s l 4 (t.cp + 4) f ∧ top = t.cp.toNat + 40 + 8 * bits f 12 8) →
      top + 40 + 8 * n.toNat ≤ t.tp.toNat →
      let ws := [BitVec.ofNat 64 ((s.B b.toNat x l).toNat + n.toNat * 2 ^ 40), t.tp, t.hp, t.vc.setWidth 64, t.cp] ++
        (List.range n.toNat).map fun i => s.pair i l
      (∀ i, i < ws.length → ∃ pa, WritesTo s l 8 (BitVec.ofNat 64 top + BitVec.ofNat 64 (8 * i)) pa) →
      Terms s (exec (.choice c n b x) s) l { t with cp := BitVec.ofNat 64 top } []
        (ws.mapIdx fun i w => (BitVec.ofNat 64 top + BitVec.ofNat 64 (8 * i), leBytes 8 w.toNat))) ∧
    (∀ f q, t.cp ≠ 0 → Reads s l 4 (t.cp + 4) f → bit f 1 = false →
      (∀ pa, s.bOk b.toNat x → WritesTo s l 4 t.cp pa → WritesTo s l 4 (t.cp + 4) q →
        Terms s (exec (.retry c b x) s) l t []
          [(t.cp, leBytes 4 (s.B b.toNat x l).toNat), (t.cp + 4, leBytes 4 (if bit f 2 then f - 4 else f))]) ∧
      (∀ prev, Reads s l 8 (t.cp + 0x20) (prev : DWord).toNat →
        Terms s (exec (.trust c) s) l { t with cp := prev } [] [] ∧
        (t.clen.toNat ≠ 0 → prev ≠ 0 → (if x then 64 ≤ b.toNat else s.v2Ok b.toNat) →
          (s.B2 b.toNat x l = prev → Terms s (exec (.cut c b x) s) l { t with cp := prev } [] []) ∧
          (s.B2 b.toNat x l = 0 → Terms s (exec (.cut c b x) s) l { t with cp := 0 } [] []))) ∧
      (∀ (heap : DWord) (mark alt : Nat), t.clen.toNat ≠ 0 → Reads s l 8 (t.cp + 8) t.tp.toNat →
        Reads s l 8 (t.cp + 0x10) heap.toNat → Reads s l 4 (t.cp + 0x18) mark → bits f 12 8 = 0 →
        WritesTo s l 4 (t.cp + 4) q →
        (∃ pa, ReadsAt s l 4 t.cp pa ∧ leNat (s.coreRead s.issue.core s.nextId (.phys pa) 4) = alt ∧
          overlap pa 4 q 4 = false) →
        ∃ p r, exec (.fail c) s = .next r ∧
          Terms s (.next p) l { t with
            hp := if heap.toNat < t.floor.toNat then t.floor else heap, vc := BitVec.ofNat 32 mark } []
            [(t.cp + 4, leBytes 4 (f ||| 4))] ∧
          Branched p r s.issue.exec (fun _ => BitVec.ofNat 32 alt))) ∧
    (t.cp = 0 → Machine.Branches s (exec (.fail c) s) s.issue.exec (fun _ => s.issue.fx))

/-- R116, R121, R337, R338, in the lane that acts: `publish.open` stores the lane's registers in its descriptor, sets its
open bit and adds 1 to the work-available word; `publish.close` clears the bit and adds 1; `adopt` of a closed descriptor
answers 0, and of one with a single choice point takes that point: it marks it entered, copies its record to the lane's
own stack and goes to its alternative. Each takes the descriptor's lock and releases it. -/
def Obligations.PublicationAndAdoption : Prop :=
  ∀ (s : State) (c x : Bool) (b : BitVec 7) (a : BitVec 6) (p : BitVec 3) (l P A : Nat), s.issuing → s.termReady false l →
    (∀ f ∈ s.cur.flight, f.open_ = false) → s.cur.holds = [] →
    let t := s.issue.lane l
    let word := fun (pa n : Nat) => leNat (s.mem.bytes pa n)
    let spot := fun (va : DWord) (pa len : Nat) => ∀ o n, (n = 4 ∨ n = 8) → o % n = 0 → o + n ≤ len →
      ReadsAt s l n (va + BitVec.ofNat 64 o) (pa + o) ∧ WritesTo s l n (va + BitVec.ofNat 64 o) (pa + o)
    t.sd ≠ 0 → spot t.sd P 64 → s.plain P 64 → word P 4 = 0 →
    (let va := s.B2 b.toNat x l
     x → 64 ≤ b.toNat → va.toNat % 4 = 0 → spot va A 4 → s.plain A 4 → overlap A 4 P 64 = false →
     (∃ r, exec (.publishOpen c b x) s = .next r ∧ r = { s with mem := r.mem }.acquired ∧
       (∀ i, ¬(P ≤ i ∧ i < P + 0x28) → ¬(A ≤ i ∧ i < A + 4) → r.mem.read i = s.mem.read i) ∧
       r.mem.bytes P 0x28 = leBytes 4 0 ++ leBytes 4 (word (P + 4) 4 ||| 1) ++ leBytes 8 t.cp.toNat ++
         leBytes 8 t.tp.toNat ++ leBytes 4 t.vc.toNat ++ s.mem.bytes (P + 0x1C) 4 ++ leBytes 8 t.bt.toNat ∧
       r.mem.bytes A 4 = leBytes 4 (word A 4 + 1)) ∧
     (∃ r, exec (.publishClose c b x) s = .next r ∧ r = { s with mem := r.mem }.acquired ∧
       (∀ i, ¬(P ≤ i ∧ i < P + 8) → ¬(A ≤ i ∧ i < A + 4) → r.mem.read i = s.mem.read i) ∧
       r.mem.bytes P 8 = leBytes 4 0 ++ leBytes 4 (word (P + 4) 4 / 2 * 2) ∧
       r.mem.bytes A 4 = leBytes 4 (word A 4 + 1))) ∧
    (∀ (D : Nat), let d := s.pair a.toNat l
     s.pairOk a.toNat → t.cp = 0 → d ≠ t.sd → d.toNat % 64 = 0 → spot d D 64 → s.plain D 64 → word D 4 = 0 →
     word (D + 0x1E) 2 ≠ 0 → word (D + 0x1C) 2 ≠ 0 →
     (word (D + 4) 4 % 2 = 0 → ∃ w q, exec (.adopt c p a) s = .next q.acquired ∧ WritesAt s w D (leBytes 4 0) ∧
       Predicates w q p.toNat (fun _ => false)) ∧
     (∀ C Q, let v := BitVec.ofNat 64 (word (D + 8) 8)
      let f := word (C + 4) 4
      let heap := word (C + 0x10) 8
      word (D + 4) 4 % 2 = 1 → v ≠ 0 → spot v C 40 → s.plain C 40 →
      bits f 2 1 = 0 → bits f 12 8 = 0 → word (C + 0x18) 4 = 0 → word (C + 0x20) 8 = 0 →
      word (C + 8) 8 = word (D + 0x10) 8 → 40 ≤ t.clen.toNat * 4096 → spot t.cbase Q 40 → s.plain Q 40 →
      overlap C 40 D 64 = false → overlap Q 40 D 64 = false → overlap Q 40 C 40 = false →
      let lane := { t with cp := t.cbase, tp := t.cbase + BitVec.ofNat 64 (t.clen.toNat * 4096), hp := t.hbase, vc := 0 }
      ∃ w q1 q2 r, exec (.adopt c p a) s = .next r.acquired ∧ w = { s with mem := w.mem } ∧
        Terms w (.next q1) l lane [] [] ∧ Predicates q1 q2 p.toNat (fun _ => true) ∧
        Branched q2 r s.issue.exec (fun _ => BitVec.ofNat 32 (word C 4)) ∧
        (∀ i, ¬(D ≤ i ∧ i < D + 4) → ¬(D + 0x38 ≤ i ∧ i < D + 0x40) → ¬(C + 4 ≤ i ∧ i < C + 8) → ¬(Q ≤ i ∧ i < Q + 40) →
          w.mem.read i = s.mem.read i) ∧
        w.mem.bytes D 4 = leBytes 4 0 ∧ w.mem.bytes (D + 0x38) 8 = leBytes 8 (max heap (word (D + 0x38) 8)) ∧
        w.mem.bytes (C + 4) 4 = leBytes 4 (f ||| 3) ∧
        w.mem.bytes Q 40 = leBytes 4 (word C 4) ++ leBytes 4 (f / 8 * 8 + 4) ++ s.mem.bytes (C + 8) 8 ++
          s.mem.bytes (C + 0x10) 8 ++ leBytes 16 0))

/-! ## Events: operations in flight -/

/-- R281, R282, R286 to R288, R102, R317: a copy, a bank stream, a context image and a migration whose bytes have their home
in the package end at one step: their bytes are written, their status reads done, and they are gone. -/
def Obligations.EngineCompletions : Prop :=
  ∀ (s : State) (k id d : Nat) (f : Flight) (g : Group), (s.core k).op id = some f → Owned s k f g → Runs s k f →
    d < g.rf.v.length →
    (∀ src dst n, f.kind = .copy [(src, .phys dst, n)] [] (some d) 0 none → s.homeCode src n = 0 → backed (paLocal dst) →
      (∀ w ∈ s.weak, src.meets n (.phys w) 16 = false) →
      (∀ pa, src = .phys pa → s.near pa n) → s.near dst n → s.plain dst n →
      ∃ p t, exec (.copyComplete (.core k) id) s = .next t ∧ WritesAt s p dst (s.readLoc k src n) ∧ Ends p t k f g d 0) ∧
    (∀ ty al x y n, f.kind = .axpy ty al [(x, 4 * n)] y n d 0 → s.plain y (4 * n) → s.near x (4 * n) →
      (∀ i, i < n → s.homeCode (.phys (x + 4 * i)) 4 = 0 ∧ s.homeCode (.phys (y + 4 * i)) 4 = 0) →
      ∃ p t, exec (.bankStreamComplete k id) s = .next t ∧ Ends p t k f g d 0 ∧
        WritesAt s p y ((List.range n).flatMap fun i => axpyElem ty al (s.wordPa (x + 4 * i) 4) (s.wordPa (y + 4 * i) 4))) ∧
    (∀ ty x n dst, let m := if ty = 0 then 32 else 4
      f.kind = .red ty x n dst d 0 → s.plain dst m → s.homeCode (.phys dst) m = 0 → s.near x (4 * n) →
      (∀ i, i < n → s.homeCode (.phys (x + 4 * i)) 4 = 0) →
      ∃ p t, exec (.bankStreamComplete k id) s = .next t ∧ Ends p t k f g d 0 ∧
        WritesAt s p dst (redBytes ty (s.readPa dst m) ((List.range n).map fun i => s.wordPa (x + 4 * i) 4))) ∧
    (∀ pa bs, f.kind = .image [(pa, bs.length)] bs d → s.plain pa bs.length → s.near pa bs.length → backed (paLocal pa) →
      ∃ p t, exec (.contextImageComplete k id) s = .next t ∧ WritesAt s p pa bs ∧ Ends p t k f g d 0) ∧
    (∀ ent sw, f.kind = .migrate ent sw d true → s.still k ent f →
      (∀ x ∈ sw, s.sourceBad f ((s.core k).entry ent) ((s.core k).entry ent).watched x.1 = false ∧
        ∀ p ∈ ((s.core k).entry ent).rowParts ((s.core k).entry ent).watched x.1, s.near p.1 p.2 ∧
          ∀ w ∈ s.weak, overlap p.1 p.2 w 16 = false) →
      ∃ p t, exec (.migrationComplete k id) s = .next t ∧ Ends p t k f g d 0 ∧
        p = s.modCore k (·.modEntry ent fun e => { e with
          rowMap := e.rowMap.map fun r => ((sw.find? (·.2 == r)).map (·.1)).getD r
          weights := (e.weights.filter fun w => !sw.any (·.2 == w.1)) ++
            sw.map fun x => (x.1, s.sourceRow k f e e.watched x.1) }))

/-- R79, R86, R95 to R97, R300, R312: a pass and a grotto request end with their products added into their tile in order;
a stack reads the cold rows from the source of the pass; a residency load proceeds, and ends Ready with the weights of its
rows. -/
def Obligations.MatrixEvents : Prop :=
  ∀ (s : State) (k id ent : Nat) (f : Flight) (g : Group), (s.core k).op id = some f → Owned s k f g →
    let e := (s.core k).entry ent
    (∀ tile kb bs z cols, f.kind = .pass ent tile kb bs z false cols → s.still k ent f → (s.core k).tileTurn f →
      ∃ p t, exec (.matrixPassDone k id) s = .next t ∧ Gone p t k f g g.rf ∧
        p = s.modCore k (·.modTile tile fun a =>
          (if z then a.zeroRows (blockMask bs) else a).addProducts e kb bs cols e.weightRow)) ∧
    (∀ tile kb st bs cold src, f.kind = .grotto ent tile kb st bs cold src none → Runs s k f →
      (∀ x ∈ cold, s.sourceBad f e src x.2 = false ∧ ∀ p ∈ e.rowParts src x.2, s.near p.1 p.2 ∧
        ∀ w ∈ s.weak, overlap p.1 p.2 w 16 = false) →
      let rows := cold.map fun x => (x.2, s.sourceRow k f e src x.2)
      exec (.grottoRequest k id) s = .next (s.modCore k (·.modOp id fun o =>
        { o.setRows rows with stage := 2, codes := [] }))) ∧
    (∀ tile kb st bs cold src rows, f.kind = .grotto ent tile kb st bs cold src (some rows) → s.still k ent f →
      rows.map (·.1) = cold.map (·.2) → (∀ o ∈ (s.core k).flight, o.id < f.id → o.tiles = []) →
      (∀ o ∈ (s.core k).flight, o.word = f.word → o.mask = f.mask → o.tiles ≠ [] → o.kind = f.kind) →
      ∃ p t, exec (.grottoResult k id) s = .next t ∧ Gone p t k f g g.rf ∧
        p = s.modCore k (·.modTile tile (·.addProducts e kb bs cold fun r =>
          ((rows.find? (·.1 == r)).map (·.2)).getD []))) ∧
    (∀ gen src len ps d ctr w ab sub, f.kind = .resLoad ent gen src len ps d ctr w ab sub →
      (∀ x ∈ (s.core k).loads ent, f.id ≤ x.id) →
      (w = 2 → e.st ≠ .loading → (s.core k).loadWaits ent = 0 →
        let load := fun (e : ResEntry) => { e with
          st := .loading, stale := e.ahead.any fun a => a.1 == id && a.2.2, src := src, len := (ps.map (·.2)).sum,
          watched := ps, slots := slotsFor e.bfmt (e.kblk * e.nblk), ahead := e.ahead.filter (·.1 != id) }
        exec (.resLoadProceed k id) s = .next (s.modCore k fun c =>
          (c.modEntry ent load).modOp id (·.setLoad 0 false))) ∧
      (∀ r, w = 0 → ab = false → sub = none → ctr = 0 → d = some r → r < g.rf.v.length → s.still k ent f →
        Runs s k f → (∀ p ∈ ps, s.near p.1 p.2 ∧ ∀ w ∈ s.weak, overlap p.1 p.2 w 16 = false) → s.loadCode f e ps = 0 →
        let rows := fun (e : ResEntry) =>
          (if e.split then e.rowMap else List.range e.rows).map fun r => (r, s.sourceRow k f e ps r)
        ∃ p t, exec (.resLoadComplete k id) s = .next t ∧ Ends p t k f g r 0 ∧
          p = s.modCore k (·.modEntry ent fun e => { e with
            st := .ready, lerr := 0, heat := List.replicate e.rows 0, passes := 0, weights := rows e })))

/-! ## Events: tasks and waits -/

/-- R32, R128, R131, R139, R140: a done event decrements the successor counter once; the oldest waiting push is accepted
where there is room; the dispatcher starts the task that it has chosen on the first core that can take it; and an ended
group leaves its slot. -/
def Obligations.TaskEvents : Prop :=
  ∀ (s : State) (k q id slot : Nat), s.issue.asked = false →
    (∀ tm, k < s.cores.length → (s.core k).team id = some tm → tm.live ≠ [] → (s.core k).doneDue id →
      (s.core k).saved = [] → s.askedBy [2, k, id] = false →
      let done := fun (s : State) => s.modCore k (·.modTeam id fun t => { t with doneSent := true })
      (tm.succ = 0 → exec (.taskDoneDecrement k id) s = .next (done s)) ∧
      (∀ pa sc hb m, tm.succ ≠ 0 →
        s.translate ((s.core k).regs.space.toNat % 2 ^ 16) tm.origin.tenant .write tm.succ.toNat = (.ok pa sc hb, m) →
        s.near pa 16 → s.homeCode (.phys pa) 16 = 0 → s.homeCode (.phys pa) 8 = 0 → s.plain pa 16 →
        (s.core k).passes s.nextId pa 8 = false →
        1 < leNat (s.mem.bytes pa 4) →
        ∃ t, exec (.taskDoneDecrement k id) s = .next t ∧ WritesAt (done s) t pa
          (leBytes 4 (leNat (s.mem.bytes pa 4) - 1) ++
            leBytes 4 (leNat (s.mem.bytes (pa + 4) 4) ||| if tm.err then 2 ^ 31 else 0)))) ∧
    (∀ w ws, q < s.quads.length → (s.quad q).waiting = w :: ws → s.quadOn q → (s.quad q).chip.length < 256 →
      (s.quad q).ringLen = 0 → w.flight = none →
      exec (.readyPushAccept q) s = .next (s.modQuad q fun r =>
        { r with chip := r.chip ++ [w.entry], waiting := ws })) ∧
    (∀ e r j ks bank, (s.quad q).choice = some e → s.rotation q = j :: ks → k < s.cores.length → q < s.quads.length →
      let p := s.dispatcher q j e
      s.readRecord p e.trec = (s, some r) → r.bad e.origin.tenant = false →
      (j :: ks).find? (fun k => (s.core k).fits r && !(s.core k).quiescent) = some k → (s.quad q).ringLen = 0 →
      s.startBank { p with space := (s.core k).regs.space.toNat % 2 ^ 16 } r.cbank = (s, bank) →
      (r.cbank = 0 → bank = List.replicate 48 0) ∧
      ∃ t, exec (.taskStart q) s = .next t ∧ SameMemory s t ∧ (t.quad q).chip = (s.quad q).chip.erase e ∧
        (t.quad q).last = k % 4 ∧ (t.quad q).chosen = none ∧
        (t.core k).freeBlocks = (s.core k).freeBlocks - r.groups * (r.rblk + 1) ∧
        ∃ tm, (t.core k).teams = (s.core k).teams ++ [tm] ∧ tm.slots = (s.core k).freeSlots.take r.groups ∧
          tm.live = tm.slots ∧ tm.trec = e.trec ∧ tm.arg = r.arg ∧ tm.succ = r.succ ∧ tm.spadSize = 1024 * r.spad ∧
          ∀ i slot, tm.slots[i]? = some slot → (t.core k).group slot = some
            (Group.launch (8 * (r.rblk + 1)) r.entry bank i (BitVec.ofNat 2 (r.role i)) (s.core k).nextTeam)) ∧
    (∀ g tm, (s.core k).group slot = some g → (s.core k).reclaimable slot → (s.core k).team g.team = some tm →
      (∃ j ∈ tm.live, j ≠ slot) → tm.origin.sub = none →
      (∀ r ∈ s.fabric.requests, ∀ w, r.asker = some w → w.getD 1 0 ≠ k ∨ w.getD 2 0 ≠ slot) →
      let leave := fun (t : Team) =>
        { t with live := t.live.filter (· != slot), claims := t.claims.filter (·.1 != slot) }
      exec (.slotReclaim k slot) s = .next (s.modCore k fun c =>
        { c.modTeam g.team leave with
          groups := c.groups.set slot none, freeBlocks := c.freeBlocks + g.rf.v.length / 8 }))

/-- R34, R35, R41, R289, R362: what ends the wait of a group or of a lane: age, the deadlines of a sleep, of `trywait` and of a
park, and a changed word. -/
def Obligations.WaitEvents : Prop :=
  ∀ (s : State) (k slot l : Nat) (g : Group), (s.core k).group slot = some g →
    (48 ≤ g.age → exec (.groupAged k slot) s = .next (s.modGroup k slot fun g => { g with aged := true })) ∧
    (∀ c, g.sleepUntil = some c → c ≤ s.clk →
      exec (.sleepEnd k slot) s = .next (s.modGroup k slot fun g => { g with sleepUntil := none })) ∧
    (∀ f p m c, g.tryUntil = some (f, p, m, c) → c ≤ s.clk → g.phase = .running → (s.core k).saved = [] →
      exec (.trywaitTimeout k slot) s = .next (s.modGroup k slot fun g =>
        { g with tryUntil := none, rf := g.rf.setP p m fun _ => g.flags.getD f 0 == 0 })) ∧
    (∀ p, g.shaped → l < 32 → (g.lane l).park = some p → p.pop = false → g.phase = .running →
      (∃ j, j < 32 ∧ (g.lane j).park = none ∧ (g.lane j).vpc ≠ 0xFFFFFFFF) →
      let woken := fun how => (g.modLane l fun t => { t with park := none }).rf.setV p.dest p.mask
        fun _ => BitVec.ofNat 32 how
      let wake := fun how => s.modGroup k slot fun g =>
        { g.modLane l (fun t => { t with park := none }) with rf := woken how }
      (p.deadline ≤ s.clk → p.pa ∉ (s.core k).rechecks → exec (.parkTimeout k slot l) s = .next (wake 3)) ∧
      ((s.core k).rechecks = [p.pa] → (s.core k).saved = [] → (∀ j, j ≠ slot → (s.core k).group j = none) →
        (∀ j o, j < 32 → j ≠ l → (g.lane j).park = some o → o.pa ≠ p.pa) →
        s.issue.asked = false → s.askedBy [12, k, p.pa] = false → s.beyond (.phys p.pa) = none →
        s.sound p.pa (max 4 p.width) →
        leNat ((s.coreRead k s.nextId (.phys p.pa) (max 4 p.width)).take p.width) ≠ p.expected.toNat % 2 ^ (8 * p.width) →
        exec (.parkRecheck k p.pa) s =
          .next ((wake (if p.deadline < s.clk then 3 else 1)).modCore k fun c => { c with rechecks := [] })))

/-- R72, R144, R350, R360, R417: a refill gives a lane's window the queue's next items; an arrival is delivered to its
barrier; a held operation is released when its time is over; and a fault record is written at the tail of its queue. -/
def Obligations.RefillsArrivalsAndRecords : Prop :=
  ∀ (s : State) (k slot l id : Nat) (g : Group), (s.core k).group slot = some g →
    (∀ va, g.shaped → l < 32 → g.phase = .running → (g.lane l).win.refill → (g.lane l).win.desc = some va →
      (g.lane l).win.waiting = none → s.issue.asked = false → s.askedBy [6, k, slot, l] = false → ∀ a sc hb m,
      let p := s.refiller k slot l g
      let old := (g.lane l).win.items
      s.translate p.space p.origin.tenant .read va.toNat = (.ok a sc hb, m) → s.beyond (.phys a) = none →
      s.sound a 32 →
      let w := WqDesc.of (s.coreRead k s.nextId (.phys a) 32)
      let first := if old = [] then w.head else (g.lane l).win.first
      let new := s.refillItems p w (4 - old.length) (first + BitVec.ofNat 64 old.length)
      w.ok → new.1 = s →
        let win : WqWindow := { desc := some va, items := old ++ new.2, first := first, refill := false, waiting := none }
        exec (.wqRefillDone k slot l) s = .next (s.modGroup k slot (·.modLane l fun t => { t with win := win })) ∧
        old.length + new.2.length ≤ max 4 old.length ∧ emptyItem ∉ new.2) ∧
    (∀ f sc n count d b, (s.core k).op id = some f → f.id = id → f.slot = slot → Owned s k f g →
      f.kind = .arrive sc n count (some d) → sc.toNat = 2 → (s.core k).arrivalHeld f 2 = false → s.awaits k id = false →
      n.toNat < (s.core k).bars.length → b = (s.core k).bars.getD n.toNat Barrier.reset →
      (b.arrivals = 0 ∨ b.expected = count) → (∀ j h, (s.core k).group j = some h → h.barWait = none) →
      let after : Barrier := if b.arrivals + 1 = count then ⟨b.completions + 1, 0, count⟩
        else ⟨b.completions, b.arrivals + 1, count⟩
      let token := fun (g : Group) => { g with rf := g.rf.setS d (b.completions.setWidth 64) }
      exec (.barrierDelivery k id) s = .next (s.modCore k fun c =>
        Core.dropOp { c.modGroup slot token with bars := c.bars.set n.toNat after } id)) ∧
    (∀ f c, (s.core k).op id = some f → f.held = some c → c ≤ s.clk → f.unsent →
      (s.core k).scTurn f → (∀ o ∈ (s.core k).flight, o.id ≠ id → o.unsent = false) → s.unanswered k id = false →
      (∀ p ∈ f.kind.parts, s.beyond p.1 = none) →
      exec (.holdRelease k id) s = .next (s.modCore k (·.modOp id fun o =>
        { o with held := none, sent := f.kind.width }))) ∧
    (∀ o r rs, s.fq.pending = (o, r) :: rs → s.fq.free ≠ 0 →
      let at_ := s.localPa (s.fq.base.toNat / 64 * 64 % 2 ^ 44 + 64 * (s.fq.tail.toNat % 2 ^ (s.fq.ctl.toNat % 32)))
      s.plain at_ r.length → ∃ p t, exec .faultRecordWrite s = .next t ∧ WritesAt s p at_ r ∧
        t = { p with fq := { s.fq with tail := s.fq.tail + 1, pending := rs } })

/-! ## Exceptions -/

/-- R44, R198, R213: what raises a cause for its executing lanes and writes no register: a vector register beyond the
allotment, a word that no encoding accepts, a literal word, and a word that cannot be fetched. -/
def Obligations.WordFaults : Prop :=
  ∀ (s : State) (c u x : Bool) (d a b : BitVec 7) (w : Word) (f : FetchCause), s.issuing → s.issue.exec ≠ 0 →
    s.grp.report = none →
    ((s.vOk d.toNat && s.vOk a.toNat && s.bOk b.toNat x) = false →
      Takes s (exec (.iadd c u d a b x) s) .illegalOperand 0 ∧
      Takes s (exec (.isub c u d a b x) s) .illegalOperand 0 ∧
      Takes s (exec (.imul c u d a b x) s) .illegalOperand 0 ∧
      Takes s (exec (.imad c u d a b x) s) .illegalOperand 0 ∧
      Takes s (exec (.fadd c u d a b x) s) .illegalOperand 0 ∧
      Takes s (exec (.ffma c u d a b x) s) .illegalOperand 0 ∧
      Takes s (exec (.shfl c u d a b x) s) .illegalOperand 0) ∧
    (∀ r, decodeWord w.toNat = .error r →
      Takes s (exec (.notAnInstruction w) s) (if r = .reservedField then .reservedField
        else if r = .illegalOperand then .illegalOperand else .illegalOpcode) 0) ∧
    Takes s (exec .literalLanding s) .literalLanding 0 ∧
    (∀ e va, s.codeSpots s.space s.tenant s.issue.pc = .error (e, va) →
      let cause : Cause := match f with | .notPresent => .notPresent | .kernelFrame => .kernelFrame | .permission => .permission
      ∃ t, exec (.instructionFetchFault f) s = .next t ∧
        Taken s t cause s.issue.exec s.issue.exec (BitVec.ofNat 64 va) 0)

/-- R150, R153, R157, R158, R417, R419: a run-ahead that has ended, without loads in flight and with debug disabled,
leaves its group at the checkpoint and switches it out: its image stands in its slot's area under FSAVE, its latches are
empty, the items of its windows are dropped, its registers and the places of its lanes are as before, and its fault record, with the pages that it
has found, waits for the fault queue. -/
def Obligations.SwitchOut : Prop :=
  ∀ (s : State) (k slot : Nat) (r : RunAhead) (g : Group) (rep : Report), k < s.cores.length →
    (s.core k).group slot = some g → g.shaped → g.report = some rep → (s.core k).flight = [] →
    (s.core k).regs.cctl.getLsbD 0 = false → (s.core k).quiescent = false → (s.core k).runs = [r] → r.slot = slot → r.ended → g.missed = [] →
    let area := s.localPa ((s.core k).regs.fsave.toNat % 2 ^ 44 / 4096 * 4096 + 20480 * slot)
    let team := ((s.core k).team g.team).getD Team.blank
    let pages := rep.pages ++ (r.pages.filter fun p => !(rep.pages.any (·.1 == p))).map (·, false)
    let batch := (pages.filter (·.2)).take 64 ++ pages.filter (!·.2)
    s.plain area (g.image slot team.origin.lseq false).length →
    ∃ t h, exec (.runAheadEnd k slot) s = .next t ∧ (t.core k).group slot = some h ∧ (t.core k).runs = [] ∧
      h.phase = .switchedOut ∧ h.area = area ∧ h.rf = g.rf ∧ h.flags = g.flags ∧ h.latch = List.replicate 32 none ∧
      (∀ l, l < 32 → (h.lane l).vpc = (g.lane l).vpc ∧ (h.lane l).park = (g.lane l).park ∧
        (h.lane l).win.desc = (g.lane l).win.desc ∧ (h.lane l).win.items = []) ∧
      h.report = some { rep with pages := pages } ∧
      (let bs := h.image slot team.origin.lseq false
       (∀ i, i < bs.length → t.mem.read (area + i) = bs.getD i 0) ∧ SameMemoryBut s t area bs.length) ∧
      t.fq.pending = s.fq.pending ++
        (faultRecord s k slot team.origin team.trec { rep with unfin := g.unfin, pages := batch } ::
          pageRecords 12 batch).map (fun b => (some (k, slot), b)) ∧
      (∀ j, j ≠ slot → (t.core k).group j = (s.core k).group j) ∧ (∀ j, j ≠ k → t.core j = s.core j)

/-! ## Events: the package -/

/-- R165, R166, R402: the core commands. SAVE_TEAM frees the slots, blocks and tiles of a team that may be pre-empted, with
its groups' images in its save area; RESTORE_TEAM asks for a saved team, which returns once what it left is free;
RETURN_GROUP runs a switched-out group from its image; TERMINATE ends every lane of the named groups. -/
def Obligations.CoreCommands : Prop :=
  ∀ (s : State) (k : Nat) (m : Word), k < s.cores.length → (s.core k).flight = [] → s.unmoved →
    s.bad = [] → (s.core k).replays = [] →
    let c := s.core k
    let area := s.cargPa k
    (∀ j g t, c.named m ≠ [] → (c.named m).head? = some j → c.group j = some g → c.team g.team = some t →
      s.mayPreempt k t → s.saveWaits k t = false →
      ∃ u sv, exec (.saveTeam k m) s = .next u ∧ (u.core k).regs = { c.regs with cstat := 2 } ∧
        (u.core k).teams = c.teams.filter (·.id != t.id) ∧ (∀ i ∈ t.live, (u.core k).group i = none) ∧
        (∀ i, i ∉ t.live → (u.core k).group i = c.group i) ∧ (u.core k).saved = c.saved ++ [sv] ∧ sv.team = t ∧
        sv.area = area ∧ sv.wanted = false ∧
        (∀ a, (u.core k).tiles.getD a Tile.reset = if (c.tile a).owner = some t.id then { c.tile a with owner := none }
          else c.tile a) ∧
        (t.live = [j] → g.phase = .running → t.spadSize = 0 → t.spadMap = [] → c.ownTiles t.id = [] →
          imageHead + 128 * g.rf.v.length + 192 ≤ imagePlace → ∀ i, i < imageHead + 128 * g.rf.v.length + 192 →
          u.mem.read (area + 256 + imagePlace * g.tix + i) = (g.image j t.origin.lseq false).getD i 0)) ∧
    ((∃ t ∈ c.saved, t.area = area) → exec (.restoreTeam k) s = .next (s.modCore k fun c =>
      { c with saved := c.saved.map fun t => if t.area = area then { t with wanted := true } else t })) ∧
    (∀ t, c.saved.find? (·.wanted) = some t → c.canReturn t → (t.groups.map (·.1)).Nodup →
      t.replays = [] → (∀ x ∈ t.groups, x.1 < c.groups.length) →
      ∃ u, exec (.teamReturn k) s = .next u ∧ (u.core k).regs = { c.regs with cstat := 2 } ∧
        (u.core k).teams = c.teams ++ [t.team] ∧ (u.core k).saved = c.saved.filter (·.area != t.area) ∧
        ∀ x ∈ t.groups, ∃ g, (u.core k).group x.1 = some g ∧ g.team = x.2.team ∧ g.phase = x.2.phase) ∧
    (∀ j g, (lanesOf m).find? (fun j => (c.group j).any (·.phase == .switchedOut)) = some j → c.group j = some g →
      g.errors = [] → g.claim = none → (∀ r ∈ s.fq.pending, r.1 ≠ some (k, j)) →
      let head := s.wordPa area 8
      let n := head / 256 % 256
      let g' := (g.restore (s.readPa area (imageHead + 128 * n + 192))).resumeWith
      (∀ l, (g'.lane l).park = none ∧ (g'.lane l).sd = 0) → g'.barWait = none →
      (∀ t, c.team g.team = some t → t.claims = []) →
      ∃ u, exec (.returnGroup k m) s = .next u ∧ (u.core k).regs = { c.regs with cstat := 2 } ∧ u.mem = s.mem ∧
        (∀ t, c.team g.team = some t → (u.core k).team g.team = some
          { t with origin := { t.origin with lseq := BitVec.ofNat 32 (head / 2 ^ 32) } }) ∧
        (u.core k).group j = some { g' with phase := .running, report := none, unfin := 0, cause := 0, resume := 0,
                                            missed := [] }) ∧
    ((∀ j, s.midBundle k j = false) → ∃ u, exec (.terminate k m) s = .next u ∧ (u.core k).regs = { c.regs with cstat := 2 } ∧
      ∀ j g, m.getLsbD j → c.group j = some g → ∃ h, (u.core k).group j = some h ∧
        (∀ t ∈ h.lanes, t.vpc = 0xFFFFFFFF) ∧ h.lanes.length = g.lanes.length ∧ h.report = none ∧ h.phase = .running)

/-- R406 to R416, R464: the Belvedere's threads. A doorbell sets the tail or halts the thread; a command that nobody knows
halts it; a malformed bundle is refused and retires; a bundle of one task set pushes its records; a wait packet blocks
until its test holds or its time is over; a sub-launch without work is closed; a mismatch halts every thread. -/
def Obligations.BelvedereEvents : Prop :=
  ∀ (s : State) (h i : Nat) (w : Writer) (v : DWord), h < s.belv.threads.length →
    let b := s.thread h
    let halted := fun (code : Nat) (b : BThread) => { b with
      qctl := b.qctl &&& ~~~0x100, qstat := (b.qstat &&& ~~~0xFF00) ||| BitVec.ofNat 64 (code * 256) }
    (w = .arbour ∨ s.host.up ∧ b.qctl.getLsbD 9 →
      exec (.doorbell w h v) s = .next (s.modThread h fun b =>
        let b := { b with qtail := v }
        if (v - b.qhead).toNat ≤ 2 ^ (b.qctl.toNat % 32) then b else halted 0xFD b)) ∧
    exec .belvedereMismatch s = .next { s with
      belv := { s.belv with dead := true, threads := s.belv.threads.map (halted 0xFE) }
      rel := { s.rel with mcstat := s.rel.mcstat ||| 1 } } ∧
    (∀ bs, s.nextCommand h = (s, some bs) → s.mayStart h → s.issue.asked = false → s.askedBy [4, h] = false →
      (field bs 0 % 256 ≠ 1 → waitKind bs = false → exec (.unknownCommand h) s = .next (s.modThread h fun b =>
        { halted 0xFC b with qstat := (halted 0xFC b).qstat ||| 4 })) ∧
      (field bs 0 % 256 = 1 → bundleBad bs → field bs 8 = 0 → field bs 0x10 = 0 → bit (field bs 0) 16 = false →
        b.inflight = [] → b.retired = [] → b.qhead.toNat = b.started →
        ∃ t, exec (.launchBundle h) s = .next t ∧ SameMemory s t ∧ t.quads = s.quads ∧ (t.thread h).inflight = [] ∧
          (t.thread h).started = b.started + 1 ∧ (t.thread h).qhead = b.qhead + 1 ∧
          bits (t.thread h).qstat.toNat 15 8 = 3) ∧
      (field bs 0 % 256 = 1 → bundleBad bs = false → bits (field bs 0) 10 8 = 1 → (slotAt bs 0).type = 1 →
        s.quads.length = 96 →
        let x := slotAt bs 0
        let q := bits x.w0 17 11
        s.quadOn q → (s.quad q).waiting = [] → (s.quad q).ringLen = 0 → bits x.w0 47 32 = 0 →
        (s.quad q).chip.length < 256 → b.bundleRoom → (∀ o ∈ b.inflight, o.index ≠ b.started) →
        let lseq : Word := BitVec.ofNat 32 (field bs 0 / 2 ^ 32)
        let r := s.readRecord (s.belvParty h [4, h] lseq s.threadPc) x.w1
        r.1 = s →
        ∃ t, exec (.launchBundle h) s = .next t ∧ SameMemory s t ∧ (t.thread h).started = b.started + 1 ∧
          (t.quad q).chip = (s.quad q).chip ++ [RqEntry.of x.w1 ((r.2.map (·.prio)).getD 0)
            ⟨b.tenant, lseq, s.threadPc, some (h, b.started, 0)⟩] ∧
          ∃ c, (t.thread h).inflight = b.inflight ++ [c] ∧ c.lseq = lseq ∧ c.wait = false ∧ c.subs.map (·.left) = [1]) ∧
      (waitKind bs → let c := waitCommand bs b.started s.clk s.threadPc
        (s.begin h c).waitTest h c = (s.begin h c, false) →
        ∃ t, exec (.waitPacket h) s = .next t ∧ SameMemory s t ∧ (t.thread h).started = b.started + 1 ∧
          (t.thread h).inflight = b.inflight ++ [c] ∧ (t.thread h).qstat.getLsbD 1)) ∧
    (∀ c x, b.inflight = [c] → c.wait → c.index = i → b.retired = [] → b.qhead.toNat = i → s.belv.dead = false →
      c.ctr = 0 → c.irq = false → c.refused = false → c.subs = [x] → x.closed = false → s.issue.asked = false →
      let gone := fun (t : State) => (t.thread h).inflight = [] ∧ (t.thread h).qhead = b.qhead + 1 ∧ t.quads = s.quads ∧
        t.cores = s.cores
      (s.waitTest h c = (s, true) → c.crec = 0 →
        ∃ t, exec (.waitPacketTest h) s = .next t ∧ SameMemory s t ∧ gone t) ∧
      (s.waitTest h c = (s, false) → s.askedBy [4, h, i] = false → exec (.waitPacketTest h) s = .next s) ∧
      (∀ d pa sc hb n, c.deadline = some d → d ≤ s.clk → c.crec ≠ 0 → c.crec.toNat % 32 = 0 →
        s.translate (s.belvSpace h) b.tenant .write c.crec.toNat = (.ok pa sc hb, n) →
        s.beyond (.phys pa) = none → s.homeCode (.phys pa) 32 = 0 → s.plain pa 32 →
        ∃ t, exec (.waitPacketTimeout h) s = .next t ∧ gone t ∧ SameMemoryBut s t pa 32 ∧
          t.mem.bytes pa 32 = leBytes 4 c.lseq.toNat ++ leBytes 4 0xC0000006 ++ leBytes 8 0 ++ leBytes 8 (c.start / 15) ++
            leBytes 8 (s.clk / 15))) ∧
    (∀ c j x, s.command h i = some c → c.wait = false → c.subs[j]? = some x → x.left = 0 → x.closed = false →
      c.ctrs.length ≤ x.cref → s.issue.asked = false → s.askedBy [4, h, i, j] = false →
      (∃ n y, n ≠ j ∧ c.subs[n]? = some y ∧ y.closed = false) →
      (∀ o ∈ b.inflight, o.index = i → o = c) →
      exec (.subLaunchComplete h i j) s = .next (s.modSub (h, i, j) fun b => { b with closed := true }))

/-- R396, R401, R429 to R432, R446, R451, R460, R465, R468: what the writes of window 0 do, and how invalidations, stale
marks, attestation and Function Level Reset end. -/
def Obligations.WindowEvents : Prop :=
  ∀ (s : State) (v : DWord) (k i : Nat),
    let disable := fun (b : BThread) => if b.qctl.getLsbD 9 then { b with qctl := b.qctl &&& ~~~0x100 } else b
    exec (.klockSet v) s = .next { s with mc := { s.mc with klock := if v.getLsbD 0 then 1 else s.mc.klock } } ∧
    exec (.plimitWrite v) s = .next
      { s with rel := { s.rel with plimit := BitVec.ofNat 64 (max 1000 (min 3850 (v.toNat % 65536))) } } ∧
    exec (.sfaultClear v) s = .next
      { s with fabric := { s.fabric with sfault := if v = 0 then 0 else s.fabric.sfault } } ∧
    (v = 0 → exec (.telemetryCounterClear k i v) s = .next (s.modCore k fun c =>
      { c with regs := { c.regs with counters := c.regs.counters.set i 0 } })) ∧
    (let t : State := { s with rel := { s.rel with mcoff := s.rel.mcoff.modify i (· ||| v) } }
     (∀ q, q < 96 → t.quadOn q) → exec (.mcoffWrite i v) s = .next t) ∧
    (s.mc.mstat.toNat % 4 ≠ 1 → v.toNat % 4 = 1 → ∃ t, exec (.invalidate v) s = .next t ∧
      t = { s with mc := { s.mc with invcmd := t.mc.invcmd, mstat := t.mc.mstat, invWait := t.mc.invWait } } ∧
      t.mc.mstat = (s.mc.mstat &&& ~~~3) ||| 1 ∧ t.mc.invcmd.toNat = v.toNat / 2 ^ 16 * 2 ^ 16 + 1 ∧
      (∀ j f, j < s.cores.length → f ∈ (s.core j).flight → f.space = v.toNat / 2 ^ 48 →
        f.kind.within s.mc.invva.toNat (v.toNat / 2 ^ 16 % 2 ^ 32) → (j, f.id) ∈ t.mc.invWait) ∧
      ∀ r ∈ s.fabric.requests, r.asker ≠ none → r.space = v.toNat / 2 ^ 48 → (r.core, r.flight) ∈ t.mc.invWait) ∧
    (s.mc.mstat.toNat % 4 = 1 →
      (∀ w ∈ s.mc.invWait, s.opOf w.1 w.2 = none ∧ (∀ f ∈ (s.core w.1).allOps, f.id ≠ w.2) ∧
        ∀ r ∈ s.fabric.requests, r.core = w.1 → r.flight = w.2 → r.answer ≠ none) →
      exec .invalidationDone s = .next { s with mc := { s.mc with mstat := (s.mc.mstat &&& ~~~3) ||| 2, invWait := [] } }) ∧
    (v.toNat % 2 ^ 32 ≠ 0 → (∀ c ∈ s.cores, c.flight = []) → ∃ t, exec (.staleMark v) s = .next t ∧ SameMemory s t ∧
      t.mc.mstat = (s.mc.mstat &&& ~~~0xC) ||| 4 ∧
      ∀ j e, j < s.cores.length → e < (s.core j).res.length → (t.core j).entry e =
        let x := (s.core j).entry e
        let met := fun (r : Nat × Nat) => overlap s.mc.stalepa.toNat (4096 * (v.toNat % 2 ^ 32)) r.1 r.2
        if x.watches s.mc.stalepa.toNat (4096 * (v.toNat % 2 ^ 32))
        then { x with stale := true, ahead := x.ahead.map fun a => (a.1, a.2.1, a.2.2 || a.2.1.any met) } else x) ∧
    (bits s.mc.mstat.toNat 3 2 = 1 →
      exec .staleMarkDone s = .next { s with mc := { s.mc with mstat := (s.mc.mstat &&& ~~~0xC) ||| 8 } }) ∧
    (k < 384 → exec (.registerWrite .arbour (0x100000 + 0x100 * k + 0x30) ⟨8, v⟩) s = .next (s.modCore k fun c =>
      { c with regs := { c.regs with fsave := BitVec.ofNat 64 (v.toNat / 2 ^ 12 % 2 ^ 32 * 2 ^ 12) } }) ∧
      exec (.registerWrite .host (0x100000 + 0x100 * k + 0x30) ⟨8, v⟩) s = .next s ∧
      exec (.registerWrite .arbour (0x100000 + 0x100 * k + 0x30) ⟨4, v⟩) s = .next s) ∧
    (i < 64 → s.host.up → exec (.registerWrite .host (0x21000 + 16 * i) ⟨8, v⟩) s = .next
      { s with host := { s.host with msix := s.host.msix.set (2 * i) v } }) ∧
    (0x30000 ≤ i → i < 0x30800 → s.windowRead .host i 8 = 0) ∧
    (s.host.up → s.host.attest ≠ 1 → exec (.attestationRequest 1) s = .next
      { s with host := { s.host with attest := 1, report := s.report } }) ∧
    (s.host.attest = 1 →
      let a := s.host.reportAddr.toNat
      let n := s.host.report.length
      (0x40000000000 < a + n → exec .attestationDone s = .next { s with host := { s.host with attest := 3 } }) ∧
      (a + n ≤ 0x40000000000 →
        let r := s.writeAll [11] (cutWrites (n / 512 + 1) (s.localPa (0xC0000000000 + a)) s.host.report)
        (∀ c, r.2 = some c → r.1.issue.asked = false → ∃ t, exec .attestationDone s = .next t ∧ SameMemory r.1 t ∧
          t.host = { r.1.host with attest := if c = 0 then 2 else 3 }) ∧
        (r.2 = none → r.1.issue.asked → ∃ t, exec .attestationDone s = .next t ∧ SameMemory s t ∧ t.host = s.host))) ∧
    exec .functionLevelReset s = .next { s with
      belv := { s.belv with threads := s.belv.threads.map disable }
      host := { s.host with flr := some (s.clk + 150000000) } } ∧
    (∀ d, s.host.flr = some d → d ≤ s.clk → s.askedBy [11] = false → exec .flrDrainEnd s = .next
      { s with host := { s.host with flr := none, attest := if s.host.attest = 1 then 0 else s.host.attest } })

/-- R444, R445, R447: the host link and the storage port. -/
def Obligations.HostEvents : Prop :=
  ∀ (s : State) (r w : Word) (off va : Nat) (k id : Nat) (q : Request),
    (r ≠ 0 → w ≠ 0 → exec (.hostLinkUp r w) s = .next { s with host := { s.host with up := true } }) ∧
    exec (.hostAtomicop off) s = .next { s with out := s.out ++ [.unsupported off] } ∧
    (s.fabric.requests = [] → exec .hostLinkDown s = .next { s with host := { s.host with up := false } }) ∧
    (s.fabric.requests = [q] → q.core = k → q.flight = id → q.host → q.answer = none → q.asker = none → k < 384 →
      q.port.isSome → (∀ f ∈ (s.core k).flight, f.unsent = false) →
      let calm := fun (t : State) => { t with fabric := { t.fabric with requests := [] } }
      let took := fun (t : State) data => (calm t).modCore k (·.modOp id (·.take q data))
      (q.op = 1 → exec (.hostCompletion k id false) s = .next (took s (s.mem.bytes q.pa q.len))) ∧
      let calls := ∀ c ∈ s.cores, c.cares q.pa (max q.len 1) = false
      (q.op = 2 → s.plain q.pa q.data.length → calls →
        ∃ p, exec (.hostCompletion k id false) s = .next (calm p) ∧ WritesAt s p q.pa q.data) ∧
      (∀ a z, q.op = 4 → Rmw.ofMessage q.aop q.sub q.data = some a → a.write (s.mem.bytes q.pa a.span) = some z →
        z.length = a.span → s.plain q.pa a.span → backed (paLocal q.pa) → calls →
        ∃ p, exec (.hostCompletion k id false) s =
          .next (took p (leBytes a.span (a.value (s.mem.bytes q.pa a.span)))) ∧ WritesAt s p q.pa z) ∧
      ∀ f, k < s.cores.length → (s.core k).op id = some f → q.op = 1 ∨ s.unmoved →
        let fails := fun (r : Result) => ∃ t g, r = .next t ∧ (q.op = 1 → SameMemory s t) ∧ t.fabric.requests = [] ∧
          (t.core k).op id = some g ∧ g.errs = f.errs ++ [(q.part, 2)]
        fails (exec (.hostCompletion k id true) s) ∧ fails (exec .hostLinkDown s) ∧
        (q.sent + s.dtimeout ≤ s.clk → f.kind.arrives = false → fails (exec (.remoteTimeout k id) s))) ∧
    ((s.core 384).flight = [] →
      let near := fun pa n => s.near pa n ∧ ∀ i, i < n → backed (paLocal (pa + i))
      let fresh := fun d => s.askedBy (dmaName d) = false ∧ d ∉ s.fabric.dmas
      (∀ bs, s.dmaParts .write va bs.length = (some [(off, bs.length)], 0) → s.plain off bs.length → near off bs.length →
        fresh (.write va bs) → ∃ p t, exec (.storageDma (.write va bs)) s = .next t ∧ WritesAt s p off bs ∧
          t = { p with out := s.out ++ [.dma (some [])] }) ∧
      ∀ n ps, s.dmaParts .read va n = (some ps, 0) → (∀ p ∈ ps, near p.1 p.2 ∧ s.sound p.1 p.2) → fresh (.read va n) →
        exec (.storageDma (.read va n)) s = .next
          { s with out := s.out ++ [.dma (some (ps.flatMap fun p => s.mem.bytes p.1 p.2))] })

/-- R449 to R456: a port takes a whole flit in order, goes down after 8 fruitless replays, and trains again; the messages of
other packages are performed at their home and answered; an answer ends a request; pod-barrier messages count arrivals and
tell completions; and without a port for DTIMEOUT the groups that wait at a pod barrier report remote-error. -/
def Obligations.FabricEvents : Prop :=
  ∀ (s : State) (p n : Nat) (m : Message), p < s.fabric.ports.length → (s.port p).up →
    let took := s.modPort p fun q => { q with inbox := q.inbox.drop 1 }
    let answer := fun (t : State) status data => t.modPort p (·.send
      { op := 5, src := s.node, dst := m.src, tag := m.tag, len := List.length data, sub := 0, status := status,
        aop := 0, pa := m.pa, data := data })
    (∀ pay : List Byte, pay.length = 56 → (s.port p).replay = [] → (s.port p).stream = [] → (s.port p).backlog = [] →
      (s.port p).expect < 4096 → splitStream 4 pay = ([], pay) →
      let body := leBytes 2 (4096 + (s.port p).expect) ++ leBytes 2 0 ++ pay
      exec (.flitReceive p (body ++ leBytes 4 (crc32c body).toNat)) s = .next (s.modPort p fun q => { q with
        expect := (q.expect + 1) % 4096, nakSent := false, stream := pay, inbox := q.inbox.filter (·.dst == s.node)
        wire := q.wire ++ [flitBytes 0 q.nextSeq q.expect []] })) ∧
    (8 ≤ (s.port p).stuck → s.fabric.kept = [] → s.fabric.requests = [] →
      exec (.portDown p) s = .next (s.modPort p fun q => { q with
        stat := q.stat / 4 * 4, nextSeq := 0, expect := 0, replay := [], backlog := [], stuck := 0, nakSent := false,
        stream := [], wire := [] })) ∧
    ((s.port p).inbox.head? = some m → s.serves m.pa → region (paLocal m.pa) ≠ .host → s.issue.asked = false →
      s.askedBy [10, p, m.tag, m.src] = false →
      (m.op = 1 → s.sound m.pa m.len →
        exec (.fabricRead p) s = .next (answer took 0 (s.mem.bytes m.pa m.len))) ∧
      (m.op = 2 → s.plain m.pa m.data.length →
        ∃ w, exec (.fabricWrite p) s = .next (answer w 0 []) ∧ WritesAt took w m.pa m.data) ∧
      (m.op = 3 → let k := (m.len + 7) / 8
        s.plain m.pa (m.data.drop k).length →
        ∃ w, exec (.fabricMaskedWrite p) s = .next (answer w 0 []) ∧ w = { took with mem := w.mem } ∧
          SameMemoryBut s w m.pa (m.data.drop k).length ∧
          ∀ i, i < (m.data.drop k).length → w.mem.read (m.pa + i) =
            if (leNat (m.data.take k)).testBit i then (m.data.drop k).getD i 0 else s.mem.read (m.pa + i)) ∧
      (∀ r z, m.op = 4 → Rmw.ofMessage m.aop m.sub m.data = some r → r.write (s.mem.bytes m.pa r.span) = some z →
        z.length = r.span → s.plain m.pa r.span →
        ∃ w, exec (.fabricAtomic p) s = .next (answer w 0 (leBytes r.span (r.value (s.mem.bytes m.pa r.span)))) ∧
          WritesAt took w m.pa z)) ∧
    ((s.port p).inbox.head? = some m → m.op = 5 → ∀ r, s.fabric.requests = [r] → r.tag = m.tag → r.host = false →
      r.answer = none → r.asker = none → r.op ≠ 6 → r.core < 384 → s.fabric.kept = [] →
      (r.op = 1 ∨ ∀ c ∈ s.cores, c.cares r.pa (max r.len 1) = false) →
      (∀ f ∈ (s.core r.core).flight, f.unsent = false) →
      exec (.fabricReply p) s = .next (State.modCore { took with fabric := { took.fabric with requests := [] } } r.core
        (·.modOp r.flight fun f =>
          if m.status = 0 then f.take r m.data else { f with errs := f.errs ++ [(r.part, min m.status 2)] }))) ∧
    ((s.port p).inbox.head? = some m → m.op = 6 → m.sub = n → n < s.podBars.length →
      s.fabric.counted = [] → (s.fabric.podroot.getD n 0).getLsbD 15 → s.rootOf n = s.node →
      let b := s.podBars.getD n Barrier.reset
      let count := leNat (m.data.take 4)
      b.arrivals = 0 ∨ b.expected = count → b.arrivals + 1 ≠ count →
      ∃ t, exec (.barrierArrivalMessage p) s = .next t ∧ SameMemory s t ∧
        t.podBars.getD n Barrier.reset = ⟨b.completions, b.arrivals + 1, count⟩ ∧
        t.fabric.counted = [(m.src, m.tag, 0, b.completions)]) ∧
    ((s.port p).inbox.head? = some m → m.op = 7 → m.sub = n → n < s.podBars.length →
      let b := s.podBars.getD n Barrier.reset
      let count : Word := BitVec.ofNat 32 (leNat (m.data.take 4))
      count ≠ b.completions → (count - b.completions).toNat < 2 ^ 31 →
      ∃ t, exec (.barrierCompletionMessage p) s = .next t ∧ SameMemory s t ∧
        t.podBars.getD n Barrier.reset = { b with completions := count } ∧
        ∀ k j g w, (s.core k).group j = some g → (s.core k).quiescent = false → g.phase = .running →
          g.barWait = some w → w.scope = 6 →
          w.num.toNat = n → (∃ x, w.token = some x ∧ x ≠ count) → (t.core k).group j =
            some { g with barWait := none, seen := s.nextId }) ∧
    (∀ a, s.fabric.kept = [a] → a.num = n → a.port = none → a.deadline ≤ s.clk →
      s.fabric.requests = [] → ∀ k j g w, k < s.cores.length → j < 32 → (s.core k).group j = some g →
      (∀ k' j' g', (s.core k').group j' = some g' → g'.barWait ≠ none → k' = k ∧ j' = j) →
      g.phase = .running → g.report = none → g.barWait = some w → w.scope = 6 → w.num.toNat = n → (s.core k).flight = [] →
      s.midBundle k j = false →
      ∃ t h r, exec (.podBarrierTimeout n) s = .next t ∧ t.fabric.kept = [] ∧ (t.core k).group j = some h ∧
        h.barWait = none ∧ h.phase = .switchedOut ∧ h.report = some r ∧ r.cause = .remoteError ∧ r.pc = w.pc ∧
        r.mask = w.mask) ∧
    (∀ (t : Training) (q : Nat), q < s.fabric.ports.length → (s.port q).stat.toNat % 4 = 1 → t.aligned →
      (t.isSwitch ∨ t.partner.toNat ≠ s.node) → s.fabric.kept = [] → s.fabric.requests = [] →
      ∃ u, exec (.portRetrain q t) s = .next u ∧ u = s.modPort q (fun _ => u.port q) ∧ (u.port q).up ∧
        (u.port q).stat.toNat / 2 ^ 32 % 2 ^ 10 = t.partner.toNat ∧ (u.port q).nextSeq = 0 ∧ (u.port q).expect = 0 ∧
        (u.port q).inbox = (s.port q).inbox)

/-- R434 to R440, R462 to R464, R468, R469, R471, R473: requests to a base die, refreshes, scrubbing, stall samples, power
windows, heat, and the parts that stop. -/
def Obligations.ServiceEvents : Prop :=
  ∀ (s : State) (d k st pc bank chan : Nat) (r : HbmReq), st < s.hbm.length →
    let c := s.hbm.getD st ⟨[], [], 0⟩
    let owes := c.owes pc bank
    let awake := s.modStack st fun t => { t with asleep := t.asleep.filter (· != r.pc.toNat / 2) }
    let n := 16 * 2 ^ r.len.toNat
    let pa := s.localPa (st * 0x1000000000 + r.offset.toNat)
    let data := (List.range n).map fun i => r.data.getD i 0
    let reply := fun (t : State) bs => { t with out := t.out ++ [.hbmReply st r.tag 0 bs] }
    (isSent r = false → exec (.hbmRequest st r) s = .next s) ∧
    (isSent r → r.op = 0 → s.badAt pa n = false → (∀ w ∈ s.weak, overlap pa n w 16 = false) →
      exec (.hbmRequest st r) s = .next (reply awake (s.mem.bytes pa n))) ∧
    (isSent r → r.op = 1 → s.plain pa n → ∃ w, exec (.hbmRequest st r) s = .next (reply w []) ∧ WritesAt awake w pa data) ∧
    (owes < 8 → exec (.refreshDue st pc bank true) s = .next (s.modStack st (·.setOwed pc bank (owes + 1)))) ∧
    (exec (.refreshDue st pc bank false) s = .next (s.modStack st fun t => { t with done := t.done + 1 })) ∧
    (exec (.activationAlert st pc bank false) s = .next (s.modStack st fun t =>
      if owes = 8 then { t.setOwed pc bank 0 with done := t.done + 9 } else { t with done := t.done + 1 })) ∧
    (s.mc.sridle.toNat % 2 ^ 20 ≠ 0 → exec (.selfRefreshEntry st chan false) s = .next (s.modStack st fun t =>
      { t with asleep := t.asleep.filter (· != chan) ++ [chan] })) ∧
    (∀ e : ScrubError, e.source ≠ 4 → e.source ≠ 5 → e.double → s.mc.faqctl.getLsbD 8 = false → e.pa.toNat / 32 * 32 ∉ s.bad →
      exec (.scrubPass [e]) s = .next { s with
        bad := s.bad ++ [e.pa.toNat / 32 * 32], mc := { s.mc with faqdrop := s.mc.faqdrop + 1 } }) ∧
    (((s.rel.samples.getD d []).getD 1 0).getLsbD 8 → 128 * d + 128 ≤ s.cores.length →
      ∃ t, exec (.stallSample d) s = .next t ∧
        ∀ i, i < 128 → (t.core (128 * d + i)).sampleSlot = ((s.core (128 * d + i)).sampleSlot + 1) % 32) ∧
    (∀ watts limit scale, limit = s.rel.plimit.toNat → scale = s.rel.pstat.toNat % 512 →
      ∃ t, exec (.powerWindow watts) s = .next t ∧
        t = { s with rel := { s.rel with pstat := t.rel.pstat, pthrot := t.rel.pthrot } } ∧
        (scale ≤ 256 → t.rel.pstat.toNat % 512 = if limit < watts then max 32 (scale - 32)
          else if 20 * watts < 19 * limit then min 256 (scale + 8) else scale) ∧
        t.rel.pstat.toNat / 2 ^ 48 = watts % 2 ^ 16 ∧
        t.rel.pthrot = if t.rel.pstat.toNat % 512 < 256 then s.rel.pthrot + 1 else s.rel.pthrot) ∧
    exec (.dieOver105 d) s = .next { s with rel := { s.rel with hot := s.rel.hot.set d true } } ∧
    exec (.dieBelow100 d) s = .next { s with rel := { s.rel with hot := s.rel.hot.set d false } } ∧
    (k < s.cores.length → k / 64 < s.rel.mcoff.length →
      let stops := fun (t : State) => (t.rel.mcoff.getD (k / 64) 0).getLsbD (k % 64) ∧
        ∀ j g, j < 32 → (s.core k).group j = some g → ∃ h, (t.core k).group j = some h ∧
          (∀ x ∈ h.lanes, x.vpc = 0xFFFFFFFF) ∧ h.lanes.length = g.lanes.length
      (∃ t, exec (.issueControlMismatch k d) s = .next t ∧ stops t) ∧
      ∃ t, exec (.thermalTrip d) s = .next t ∧ stops t ∧ t.rel.held ∧ t.rel.pstat = s.rel.pstat ||| 0x200 ∧ t.belv.dead)

/-- R168, R170, R397, R398, R468: the debug interface halts a core, reports it quiescent, reads and writes its state, sets its
comparators, and releases it; a prefetched line arrives; POWER_GOOD and PACKAGE_RESET leave every register at its reset value, flash, fuses and what
lies outside the package as they were, and bring-up ends with the boot status of its stage, with the frames locked and the measurement
log in memory; where it stops the package stays in reset. -/
def Obligations.DebugAndReset : Prop :=
  ∀ (s : State) (k o n t r l j : Nat) (v : Word) (tag : BitVec 16) (bs : List Byte) (b : BringUp),
    exec (.debugHalt k) s = .next (s.modCore k fun c => { c with
      halted := true, runs := c.runs.map fun r => { r with ended := true } }) ∧
    ((∀ i g, (s.core k).group i = some g → g.barWait = none) →
      exec (.debugRelease k) s = .next (s.modCore k fun c => { c with halted := false, quiescent := false })) ∧
    (∀ g w x, (s.core k).group j = some g → g.phase = .running → g.barWait = some w → w.token = some x →
      x ≠ (s.barrier k w.scope.toNat w.num.toNat).completions → ∃ u, exec (.debugRelease k) s = .next u ∧ SameMemory s u ∧
        (u.core k).halted = false ∧ (u.core k).group j = some { g with barWait := none, seen := s.nextId }) ∧
    ((s.core k).halted → (∀ f ∈ (s.core k).flight, (∃ a b c d, f.kind = .arrive a b c d) ∨ ∃ a b c d, f.kind = .push a b c d) →
      (s.core k).runs = [] → (∀ i, s.midBundle k i = false) →
      exec (.debugQuiescent k) s = .next (s.modCore k fun c => { c with quiescent := true })) ∧
    ((s.core k).quiescent →
      exec (.debugAccess k (.readSpad o n)) s = .next { s with out := s.out ++ [.debugData ((s.core k).spad.bytes o n)] } ∧
      exec (.debugAccess k (.writeSpad o bs)) s = .next (s.modCore k fun c => { c with spad := c.spad.write o bs }) ∧
      exec (.debugAccess k (.writeTile t r l v)) s = .next (s.modCore k (·.modTile t fun a =>
        { a with rows := a.rows.modify r (·.set l v) })) ∧
      exec (.debugAccess k (.writeTag t r l tag)) s = .next (s.modCore k (·.modTile t fun a =>
        { a with tags := a.tags.modify r (·.set l (if tag.getLsbD 15 then some (tag.setWidth 14) else none)) })) ∧
      exec (.debugAccess k (.writeVpc j l v)) s = .next (s.modGroup k j (·.modLane l fun t => { t with vpc := v })) ∧
      ∀ g, (s.core k).group j = some g →
        exec (.debugAccess k (.readV j r l)) s = .next { s with out := s.out ++ [.debugData (leBytes 4 (g.rf.rv r l).toNat)] } ∧
        exec (.debugAccess k (.readVpc j l)) s = .next { s with out := s.out ++ [.debugData (leBytes 4 (g.lane l).vpc.toNat)] } ∧
        let image := g.image j (((s.core k).team g.team).getD Team.blank).origin.lseq false
        exec (.debugAccess k (.readGroup j o n)) s =
          .next { s with out := s.out ++ [.debugData ((image.drop o).take n)] }) ∧
    (∀ access data tenant base len value mask, access ≠ 0 →
      let w : Comparator := ⟨access, data, base, len, value, mask, tenant, 32, s.clk⟩
      exec (.debugAccess k (.setWatch n access data tenant base len value mask)) s =
        .next (s.modCore k fun c => { c with watch := c.watch.set n w })) ∧
    (∀ a rest, (s.core k).pref = (n, a, false) :: rest → exec (.prefetchFill k n) s = .next (s.modCore k fun c =>
      { c with pref := rest ++ [(n, a, true)] })) ∧
    (let after := { State.reset with
        mem := s.mem.filter fun c => paNode c.1 != s.boot.node.toNat || region (paLocal c.1) == .host
        boot := s.boot, out := s.out, agenda := s.agenda, choice := s.choice, nextId := s.nextId }
     exec .packageReset s = .next after ∧
     (s.boot.accepts s.boot.slotA = false → s.boot.accepts s.boot.slotB = false → exec (.powerGood b) s = .next
       { after with host := { after.host with bootStatus := 0x01010000 }, rel := { after.rel with held := true } }) ∧
     (s.boot.accepts s.boot.slotA → b.hbmFail = none → b.tierFail = none → ∃ u, exec (.powerGood b) s = .next u ∧
       u.host.bootStatus = 0x07000001 ∧ u.host.up = (b.rate != 0 && b.width != 0) ∧ u.fabric.fnode = s.boot.node ∧
       u.mc.klock = 1 ∧ u.host.log.length = 25 ∧ u.mem.bytes u.host.logAt (48 * 25) = u.host.log.flatten ∧
       (∀ a, ¬(u.host.logAt ≤ a ∧ a < u.host.logAt + 48 * 25) → u.mem.read a = after.mem.read a) ∧ u.cores = State.reset.cores ∧ u.quads = State.reset.quads))

/-! ## The machine as a whole -/

/-- No row of the opcode table stops the machine: each answers a next state in every state (what the spec calls an
exception, a wait or an event that cannot happen yet is a next state too). -/
def Obligations.EveryInstructionAnswersNext : Prop :=
  ∀ (i : Instr) (s : State), ∃ t, exec i s = .next t

/-- R196 to R198, R30, R31: when no input waits, a group selected to issue runs the instruction that the word at its
issue address decodes to: its step is `exec` of that instruction in the state with the issue register set, which then holds
the pipes that the word takes (R214) and is closed by the advance of the lanes; and the role of the first word of a packet is the instruction that it decodes to. -/
def Obligations.StepRunsTheDecodedInstruction : Prop :=
  (∀ (s t : State) (k j n : Nat) (q : List (Nat × Nat)) (g : Group) (pas ws : List Nat) (i : Instr),
    let u := { s with issueQ := q }
    let b : Bundle := { pc := g.firstPc, act := g.active, ws := ws, at_ := [n] }
    let v := (u.openBundle k j b).openWord b n
    s.agenda = [] → s.issueQ = (k, j) :: q → (s.core k).group j = some g → g.phase = .running → g.part = none →
    (s.core k).held s.clk j g = none → g.errors = [] → g.firstPc ≠ 0xFFFFFFFF →
    s.codeSpots ((s.core k).regs.space.toNat % 2 ^ 16) (((s.core k).team g.team).getD Team.blank).origin.tenant g.firstPc =
      .ok pas → s.codeOf g pas = some (ws, 0) →
    n = g.firstPc.toNat % 3 → roleOf (roles ws) n = .instr i → bundleAt ws (roles ws) n = [n] →
    b.packetCauses n = [] → b.chainConflict = false → (u.openBundle k j b).pendingFor b = none →
    (u.openBundle k j b).mustWait b = false → exec i v = .next t → t.issue.stall = none →
    step s = .next ((t.wordDone.occupied b).closeBundle k j b.pc)) ∧
  ∀ (w : Nat) (ws : List Nat) (i : Instr), decodeWord w = .ok i → roleOf (roles (w :: ws)) 0 = .instr i

/-- R195, R213 and the encoding tables: words written out from the encodings decode to their instructions. -/
def Obligations.WordsDecode : Prop :=
  decodeWord 0x81020161 = .ok (.iadd true false 4 1 0x30 true) ∧
  decodeWord 0x10828207 = .ok (.fmul false false 5 2 3 true) ∧
  decodeWord 0x01018305 = .ok (.iadd false false 3 3 2 true)

/-- R195, R213 and the encoding tables, for all 165 rows with an encoding and every operand: the word of a well-formed
instruction decodes to it, whatever follows; and a word that decodes is the one word of the instruction that it decodes
to, which is well-formed: no bit of a word is ignored. -/
def Obligations.EncodingRoundTrip : Prop :=
  (∀ (i : Instr) (w : Word) (rest : List Byte), i.wellFormed → encode i = [w] →
    decodeBytes (bytesOf 4 w.toNat ++ rest) = .ok (i, rest)) ∧
  ∀ (w : Word) (i : Instr), decodeWord w.toNat = .ok i → i.wellFormed ∧ encode i = [w]

/-- The reset values that the spec gives: registers, generations, barriers and queues; and memory, which is the model's own
list of bytes (assumption 1), is in its canonical form at reset. -/
def Obligations.ResetState : Prop :=
  (State.reset.mem = [] ∧ State.reset.rel.plimit = 3850 ∧ State.reset.fabric.dtimeout = 1500000 ∧
  State.reset.mc.sridle = 4096 ∧ State.reset.rel.pstat = 256 ∧ (∀ r ∈ State.reset.mc.krange, r = (0, 0)) ∧ State.reset.mc.klock = 0 ∧
  State.reset.rel.held = false ∧ State.reset.host.up = false ∧ State.reset.issueQ = [] ∧
  State.reset.cores.length = 384 ∧ State.reset.quads.length = 96 ∧
  ∀ c ∈ State.reset.cores, c.regs.brefill = 512 ∧ c.regs.counters = List.replicate 6 0 ∧ c.flight = [] ∧ c.teams = [] ∧
    c.groups = List.replicate 32 none ∧ (∀ e ∈ c.res, e.st = .free ∧ e.gen = 1) ∧ (∀ b ∈ c.bars, b = Barrier.reset)) ∧
  (State.reset.mem.wf)

/-- Every step keeps memory in its canonical form: addresses strictly rising, and no entry equal to what an unlisted
address reads as; so equal memories are equal data. -/
def Obligations.EveryStepKeepsMemoryCanonical : Prop :=
  ∀ s t : State, s.mem.wf → step s = .next t → t.mem.wf
end

