-- ==== Sys2Proof/Laws/Memory.lean ====
section
/-! SUPPORT. Laws of lane masks, of little-endian bytes and of memory: what a mask and a list of bytes hold, that a read
after a write gives what was written and every other address reads as before, and that a write keeps the canonical form. -/

namespace Sys2Proof.Machine

/-! ## Masks -/

theorem maskOf_fold (f : Nat → Bool) (n i : Nat) (hn : n ≤ 32) (hi : i < 32) :
    ((List.range n).foldl (fun (m : Word) l => if f l then m ||| 1#32 <<< l else m) 0).getLsbD i =
      (decide (i < n) && f i) := by
  induction n with
  | zero => simp
  | succ n ih =>
    have h := ih (by omega)
    rw [List.range_succ, List.foldl_append]
    simp only [List.foldl_cons, List.foldl_nil]
    by_cases hf : f n
    · simp only [hf, if_true, BitVec.getLsbD_or, h, BitVec.getLsbD_shiftLeft]
      by_cases e : i = n
      · subst e; simp [hf, hi]
      · by_cases l : i < n
        · have : i < n + 1 := by omega
          simp [l, this]
        · have h1 : ¬ i < n + 1 := by omega
          have h2 : 0 < i - n := by omega
          simp [l, h1, BitVec.getLsbD_one]; omega
    · rw [if_neg hf, h]
      by_cases e : i = n
      · subst e; simp [hf]
      · have : (i < n + 1) = (i < n) := by simp; omega
        simp [this]

@[simp] theorem maskOf_getLsbD (f : Nat → Bool) (i : Nat) : (maskOf f).getLsbD i = (decide (i < 32) && f i) := by
  by_cases hi : i < 32
  · exact maskOf_fold f 32 i (Nat.le_refl _) hi
  · rw [BitVec.getLsbD_of_ge _ _ (by omega)]; simp [hi]

@[simp] theorem maskOf_getElem (f : Nat → Bool) (i : Nat) (h : i < 32) : (maskOf f)[i] = f i := by
  have := maskOf_getLsbD f i
  rw [BitVec.getLsbD_eq_getElem h] at this
  simpa [h] using this

theorem mem_lanesOf (m : Word) (l : Nat) : l ∈ lanesOf m ↔ m.getLsbD l = true := by
  simp only [lanesOf, List.mem_filter, List.mem_range]
  exact ⟨fun h => h.2, fun h => ⟨BitVec.lt_of_getLsbD h, h⟩⟩

theorem lanesOf_nodup (m : Word) : (lanesOf m).Nodup := List.Nodup.filter _ List.nodup_range

theorem lanesOf_eq_nil (m : Word) : lanesOf m = [] ↔ m = 0 := by
  constructor
  · intro h
    apply BitVec.eq_of_getLsbD_eq
    intro i hi
    by_cases b : m.getLsbD i
    · have := (mem_lanesOf m i).2 b; simp [h] at this
    · simpa using b
  · rintro rfl; simp [lanesOf]

/-! ## Bytes -/

@[simp] theorem leBytes_length (n w : Nat) : (leBytes n w).length = n := by
  induction n generalizing w with
  | zero => rfl
  | succ n ih => simp [leBytes, ih]

@[simp] theorem leNat_leBytes (n w : Nat) : leNat (leBytes n w) = w % 256 ^ n := by
  induction n generalizing w with
  | zero => simp [leBytes, leNat, Nat.mod_one]
  | succ n ih =>
    simp only [leBytes, leNat, ih, BitVec.toNat_ofNat]
    rw [show (256 : Nat) ^ (n + 1) = 256 * 256 ^ n by rw [Nat.pow_succ, Nat.mul_comm], Nat.mod_mul]

theorem leNat_lt (bs : List Byte) : leNat bs < 256 ^ bs.length := by
  induction bs with
  | nil => simp [leNat]
  | cons b bs ih =>
    have := b.isLt
    simp only [leNat, List.length_cons, Nat.pow_succ]; omega

@[simp] theorem leBytes_leNat (bs : List Byte) : leBytes bs.length (leNat bs) = bs := by
  induction bs with
  | nil => rfl
  | cons b bs ih =>
    have hb := b.isLt
    have h : (b.toNat + 256 * leNat bs) / 256 = leNat bs := by omega
    simp only [List.length_cons, leNat, leBytes, h, ih, List.cons.injEq, and_true]
    apply BitVec.eq_of_toNat_eq
    simp only [BitVec.toNat_ofNat]; omega

/-! ## Memory -/

theorem Memory.read_append (a : Nat) (m n : Memory) (h : ∀ c ∈ m, c.1 ≠ a) : Memory.read (m ++ n) a = Memory.read n a := by
  induction m with
  | nil => rfl
  | cons c m ih =>
    simp only [List.cons_append, Memory.read, h c (by simp), if_false]
    exact ih fun d hd => h d (by simp [hd])

theorem Memory.read_none (a : Nat) (m : Memory) (h : ∀ c ∈ m, c.1 ≠ a) : Memory.read m a = Memory.unlisted := by
  have := Memory.read_append a m [] h
  simpa [Memory.read] using this

theorem Memory.read_left (a : Nat) (m n : Memory) (h : ∀ c ∈ n, c.1 ≠ a) : Memory.read (m ++ n) a = Memory.read m a := by
  induction m with
  | nil => simpa [Memory.read] using Memory.read_none a n h
  | cons c m ih =>
    simp only [List.cons_append, Memory.read]
    by_cases e : c.1 = a
    · simp [e]
    · simpa [e] using ih

theorem Memory.read_filter (a : Nat) (m : Memory) (p : Nat → Bool) (h : p a = true) :
    Memory.read (m.filter (p ·.1)) a = Memory.read m a := by
  induction m with
  | nil => rfl
  | cons c m ih =>
    by_cases e : c.1 = a
    · simp [Memory.read, e, h]
    · by_cases q : p c.1
      · simp [Memory.read, e, q, ih]
      · simp [Memory.read, e, q, ih]

theorem Memory.cells_range (bs : List Byte) : ∀ a, ∀ c ∈ Memory.cells a bs, a ≤ c.1 ∧ c.1 < a + bs.length ∧ c.2 ≠ Memory.unlisted := by
  induction bs with
  | nil => intro a c h; simp [Memory.cells] at h
  | cons b bs ih =>
    intro a c h
    simp only [Memory.cells] at h
    simp only [List.length_cons]
    split at h
    · exact ⟨by have := (ih (a + 1) c h).1; omega, by have := (ih (a + 1) c h).2.1; omega, (ih (a + 1) c h).2.2⟩
    · rcases List.mem_cons.1 h with rfl | h
      · exact ⟨Nat.le_refl _, by omega, by assumption⟩
      · exact ⟨by have := (ih (a + 1) c h).1; omega, by have := (ih (a + 1) c h).2.1; omega, (ih (a + 1) c h).2.2⟩

theorem Memory.cells_sorted (bs : List Byte) : ∀ a, (Memory.cells a bs).Pairwise (·.1 < ·.1) := by
  induction bs with
  | nil => intro a; simp [Memory.cells]
  | cons b bs ih =>
    intro a
    simp only [Memory.cells]
    split
    · exact ih _
    · refine List.Pairwise.cons (fun c hc => ?_) (ih _)
      have := Memory.cells_range bs (a + 1) c hc; simp only; omega

theorem Memory.read_cells (bs : List Byte) : ∀ a i, i < bs.length → Memory.read (Memory.cells a bs) (a + i) = bs.getD i 0 := by
  induction bs with
  | nil => intro a i h; simp at h
  | cons b bs ih =>
    intro a i h
    simp only [Memory.cells]
    cases i with
    | zero =>
      by_cases e : b = Memory.unlisted
      · simp only [e, if_true]
        rw [Memory.read_none]
        · simp
        · intro c hc; have := Memory.cells_range bs (a + 1) c hc; omega
      · simp [e, Memory.read]
    | succ i =>
      have h' : i < bs.length := by simpa using h
      have := ih (a + 1) i h'
      have e1 : a + 1 + i = a + (i + 1) := by omega
      rw [e1] at this
      by_cases e : b = Memory.unlisted
      · simp [e, this]
      · have : a ≠ a + (i + 1) := by omega
        simp_all [Memory.read]

/-- A write gives its bytes, and every other address reads as before. -/
theorem Memory.read_write (m : Memory) (a : Nat) (bs : List Byte) (b : Nat) :
    Memory.read (Memory.write m a bs) b =
      if a ≤ b ∧ b < a + bs.length then bs.getD (b - a) 0 else Memory.read m b := by
  unfold Memory.write
  by_cases l : b < a
  · have : ¬(a ≤ b ∧ b < a + bs.length) := by omega
    rw [if_neg this, Memory.read_left]
    · exact Memory.read_filter b m (fun x => decide (x < a)) (by simpa using l)
    · intro c hc
      rcases List.mem_append.1 hc with h | h
      · have := Memory.cells_range bs a c h; omega
      · have := (List.mem_filter.1 h).2; simp at this; omega
  · rw [Memory.read_append]
    · by_cases r : b < a + bs.length
      · rw [if_pos ⟨by omega, r⟩, Memory.read_left]
        · have := Memory.read_cells bs a (b - a) (by omega)
          rwa [Nat.add_sub_cancel' (by omega)] at this
        · intro c hc; have := (List.mem_filter.1 hc).2; simp at this; omega
      · rw [if_neg (by omega), Memory.read_append]
        · exact Memory.read_filter b m (fun x => decide (a + bs.length ≤ x)) (by simpa using by omega)
        · intro c hc; have := Memory.cells_range bs a c hc; omega
    · intro c hc; have := (List.mem_filter.1 hc).2; simp at this; omega

theorem Memory.read_write_in (m : Memory) (a : Nat) (bs : List Byte) (i : Nat) (h : i < bs.length) :
    Memory.read (Memory.write m a bs) (a + i) = bs.getD i 0 := by
  rw [Memory.read_write, if_pos ⟨by omega, by omega⟩, Nat.add_sub_cancel_left]

theorem Memory.read_write_out (m : Memory) (a : Nat) (bs : List Byte) (b : Nat) (h : ¬(a ≤ b ∧ b < a + bs.length)) :
    Memory.read (Memory.write m a bs) b = Memory.read m b := by rw [Memory.read_write, if_neg h]

@[simp] theorem Memory.bytes_length (m : Memory) (a n : Nat) : (Memory.bytes m a n).length = n := by simp [Memory.bytes]

theorem Memory.bytes_getD (m : Memory) (a n i : Nat) (h : i < n) : (Memory.bytes m a n).getD i 0 = m.read (a + i) := by
  simp [Memory.bytes, List.getD, h]

theorem Memory.bytes_write (m : Memory) (a : Nat) (bs : List Byte) : Memory.bytes (Memory.write m a bs) a bs.length = bs := by
  apply List.ext_getElem (by simp)
  intro i h1 h2
  simp only [Memory.bytes, List.getElem_map, List.getElem_range]
  rw [Memory.read_write_in _ _ _ _ h2, List.getD_eq_getElem?_getD, List.getElem?_eq_getElem h2, Option.getD_some]

theorem Memory.bytes_write_out (m : Memory) (a : Nat) (bs : List Byte) (b n : Nat) (h : b + n ≤ a ∨ a + bs.length ≤ b) :
    Memory.bytes (Memory.write m a bs) b n = Memory.bytes m b n := by
  apply List.map_congr_left
  intro i hi
  have := List.mem_range.1 hi
  exact Memory.read_write_out _ _ _ _ (by omega)

/-- Part of a memory in canonical form is in canonical form. -/
theorem Memory.wf_filter (m : Memory) (p : Nat × Byte → Bool) (h : m.wf) : Memory.wf (m.filter p) :=
  ⟨h.1.filter _, fun c hc => h.2 c (List.mem_filter.1 hc).1⟩

/-- A write keeps the canonical form. -/
theorem Memory.wf_write (m : Memory) (a : Nat) (bs : List Byte) (h : m.wf) : Memory.wf (Memory.write m a bs) := by
  refine ⟨?_, ?_⟩
  · refine List.pairwise_append.2 ⟨h.1.filter _, List.pairwise_append.2 ⟨Memory.cells_sorted bs a, h.1.filter _, ?_⟩, ?_⟩
    · intro c hc d hd
      have := Memory.cells_range bs a c hc
      have := (List.mem_filter.1 hd).2; simp at this; omega
    · intro c hc d hd
      have h1 := (List.mem_filter.1 hc).2; simp at h1
      rcases List.mem_append.1 hd with h | h
      · have := Memory.cells_range bs a d h; omega
      · have := (List.mem_filter.1 h).2; simp at this; omega
  · intro c hc
    rcases List.mem_append.1 hc with h1 | h1
    · exact h.2 c (List.mem_filter.1 h1).1
    · rcases List.mem_append.1 h1 with h2 | h2
      · exact (Memory.cells_range bs a c h2).2.2
      · exact h.2 c (List.mem_filter.1 h2).1

/-- Nothing is listed at reset: the canonical form. -/
theorem Memory.wf_nil : Memory.wf [] := ⟨List.Pairwise.nil, fun _ h => nomatch h⟩

end Sys2Proof.Machine
end

