-- ==== Sys2Proof/Laws/State.lean ====
section
/-! SUPPORT. Small laws of State: what an update leaves of every field, what the accessors read after an update, and what
the register file holds after a write. -/

namespace Sys2Proof.Machine

/-! ## Fields that an update leaves -/

@[simp] theorem State.modCore_clk (s : State) (k : Nat) (f : Core → Core) : (s.modCore k f).clk = s.clk := rfl
@[simp] theorem State.modCore_mem (s : State) (k : Nat) (f : Core → Core) : (s.modCore k f).mem = s.mem := rfl
@[simp] theorem State.modCore_bad (s : State) (k : Nat) (f : Core → Core) : (s.modCore k f).bad = s.bad := rfl
@[simp] theorem State.modCore_weak (s : State) (k : Nat) (f : Core → Core) : (s.modCore k f).weak = s.weak := rfl
@[simp] theorem State.modCore_quads (s : State) (k : Nat) (f : Core → Core) : (s.modCore k f).quads = s.quads := rfl
@[simp] theorem State.modCore_quadBars (s : State) (k : Nat) (f : Core → Core) : (s.modCore k f).quadBars = s.quadBars := rfl
@[simp] theorem State.modCore_dieBars (s : State) (k : Nat) (f : Core → Core) : (s.modCore k f).dieBars = s.dieBars := rfl
@[simp] theorem State.modCore_pkgBars (s : State) (k : Nat) (f : Core → Core) : (s.modCore k f).pkgBars = s.pkgBars := rfl
@[simp] theorem State.modCore_podBars (s : State) (k : Nat) (f : Core → Core) : (s.modCore k f).podBars = s.podBars := rfl
@[simp] theorem State.modCore_barTenants (s : State) (k : Nat) (f : Core → Core) : (s.modCore k f).barTenants = s.barTenants := rfl
@[simp] theorem State.modCore_belv (s : State) (k : Nat) (f : Core → Core) : (s.modCore k f).belv = s.belv := rfl
@[simp] theorem State.modCore_fq (s : State) (k : Nat) (f : Core → Core) : (s.modCore k f).fq = s.fq := rfl
@[simp] theorem State.modCore_mc (s : State) (k : Nat) (f : Core → Core) : (s.modCore k f).mc = s.mc := rfl
@[simp] theorem State.modCore_fabric (s : State) (k : Nat) (f : Core → Core) : (s.modCore k f).fabric = s.fabric := rfl
@[simp] theorem State.modCore_hbm (s : State) (k : Nat) (f : Core → Core) : (s.modCore k f).hbm = s.hbm := rfl
@[simp] theorem State.modCore_boot (s : State) (k : Nat) (f : Core → Core) : (s.modCore k f).boot = s.boot := rfl
@[simp] theorem State.modCore_host (s : State) (k : Nat) (f : Core → Core) : (s.modCore k f).host = s.host := rfl
@[simp] theorem State.modCore_rel (s : State) (k : Nat) (f : Core → Core) : (s.modCore k f).rel = s.rel := rfl
@[simp] theorem State.modCore_out (s : State) (k : Nat) (f : Core → Core) : (s.modCore k f).out = s.out := rfl
@[simp] theorem State.modCore_agenda (s : State) (k : Nat) (f : Core → Core) : (s.modCore k f).agenda = s.agenda := rfl
@[simp] theorem State.modCore_issueQ (s : State) (k : Nat) (f : Core → Core) : (s.modCore k f).issueQ = s.issueQ := rfl
@[simp] theorem State.modCore_issue (s : State) (k : Nat) (f : Core → Core) : (s.modCore k f).issue = s.issue := rfl
@[simp] theorem State.modCore_choice (s : State) (k : Nat) (f : Core → Core) : (s.modCore k f).choice = s.choice := rfl
@[simp] theorem State.modCore_nextId (s : State) (k : Nat) (f : Core → Core) : (s.modCore k f).nextId = s.nextId := rfl
@[simp] theorem State.modCore_owed (s : State) (k : Nat) (f : Core → Core) : (s.modCore k f).owed = s.owed := rfl

@[simp] theorem State.modGroup_clk (s : State) (k j : Nat) (f : Group → Group) : (s.modGroup k j f).clk = s.clk := rfl
@[simp] theorem State.modGroup_mem (s : State) (k j : Nat) (f : Group → Group) : (s.modGroup k j f).mem = s.mem := rfl
@[simp] theorem State.modGroup_bad (s : State) (k j : Nat) (f : Group → Group) : (s.modGroup k j f).bad = s.bad := rfl
@[simp] theorem State.modGroup_weak (s : State) (k j : Nat) (f : Group → Group) : (s.modGroup k j f).weak = s.weak := rfl
@[simp] theorem State.modGroup_quads (s : State) (k j : Nat) (f : Group → Group) : (s.modGroup k j f).quads = s.quads := rfl
@[simp] theorem State.modGroup_quadBars (s : State) (k j : Nat) (f : Group → Group) : (s.modGroup k j f).quadBars = s.quadBars := rfl
@[simp] theorem State.modGroup_dieBars (s : State) (k j : Nat) (f : Group → Group) : (s.modGroup k j f).dieBars = s.dieBars := rfl
@[simp] theorem State.modGroup_pkgBars (s : State) (k j : Nat) (f : Group → Group) : (s.modGroup k j f).pkgBars = s.pkgBars := rfl
@[simp] theorem State.modGroup_podBars (s : State) (k j : Nat) (f : Group → Group) : (s.modGroup k j f).podBars = s.podBars := rfl
@[simp] theorem State.modGroup_barTenants (s : State) (k j : Nat) (f : Group → Group) : (s.modGroup k j f).barTenants = s.barTenants := rfl
@[simp] theorem State.modGroup_belv (s : State) (k j : Nat) (f : Group → Group) : (s.modGroup k j f).belv = s.belv := rfl
@[simp] theorem State.modGroup_fq (s : State) (k j : Nat) (f : Group → Group) : (s.modGroup k j f).fq = s.fq := rfl
@[simp] theorem State.modGroup_mc (s : State) (k j : Nat) (f : Group → Group) : (s.modGroup k j f).mc = s.mc := rfl
@[simp] theorem State.modGroup_fabric (s : State) (k j : Nat) (f : Group → Group) : (s.modGroup k j f).fabric = s.fabric := rfl
@[simp] theorem State.modGroup_hbm (s : State) (k j : Nat) (f : Group → Group) : (s.modGroup k j f).hbm = s.hbm := rfl
@[simp] theorem State.modGroup_boot (s : State) (k j : Nat) (f : Group → Group) : (s.modGroup k j f).boot = s.boot := rfl
@[simp] theorem State.modGroup_host (s : State) (k j : Nat) (f : Group → Group) : (s.modGroup k j f).host = s.host := rfl
@[simp] theorem State.modGroup_rel (s : State) (k j : Nat) (f : Group → Group) : (s.modGroup k j f).rel = s.rel := rfl
@[simp] theorem State.modGroup_out (s : State) (k j : Nat) (f : Group → Group) : (s.modGroup k j f).out = s.out := rfl
@[simp] theorem State.modGroup_agenda (s : State) (k j : Nat) (f : Group → Group) : (s.modGroup k j f).agenda = s.agenda := rfl
@[simp] theorem State.modGroup_issueQ (s : State) (k j : Nat) (f : Group → Group) : (s.modGroup k j f).issueQ = s.issueQ := rfl
@[simp] theorem State.modGroup_issue (s : State) (k j : Nat) (f : Group → Group) : (s.modGroup k j f).issue = s.issue := rfl
@[simp] theorem State.modGroup_choice (s : State) (k j : Nat) (f : Group → Group) : (s.modGroup k j f).choice = s.choice := rfl
@[simp] theorem State.modGroup_nextId (s : State) (k j : Nat) (f : Group → Group) : (s.modGroup k j f).nextId = s.nextId := rfl
@[simp] theorem State.modGroup_owed (s : State) (k j : Nat) (f : Group → Group) : (s.modGroup k j f).owed = s.owed := rfl

@[simp] theorem State.onGrp_clk (s : State) (f : Group → Group) : (s.onGrp f).clk = s.clk := rfl
@[simp] theorem State.onGrp_mem (s : State) (f : Group → Group) : (s.onGrp f).mem = s.mem := rfl
@[simp] theorem State.onGrp_bad (s : State) (f : Group → Group) : (s.onGrp f).bad = s.bad := rfl
@[simp] theorem State.onGrp_weak (s : State) (f : Group → Group) : (s.onGrp f).weak = s.weak := rfl
@[simp] theorem State.onGrp_quads (s : State) (f : Group → Group) : (s.onGrp f).quads = s.quads := rfl
@[simp] theorem State.onGrp_quadBars (s : State) (f : Group → Group) : (s.onGrp f).quadBars = s.quadBars := rfl
@[simp] theorem State.onGrp_dieBars (s : State) (f : Group → Group) : (s.onGrp f).dieBars = s.dieBars := rfl
@[simp] theorem State.onGrp_pkgBars (s : State) (f : Group → Group) : (s.onGrp f).pkgBars = s.pkgBars := rfl
@[simp] theorem State.onGrp_podBars (s : State) (f : Group → Group) : (s.onGrp f).podBars = s.podBars := rfl
@[simp] theorem State.onGrp_barTenants (s : State) (f : Group → Group) : (s.onGrp f).barTenants = s.barTenants := rfl
@[simp] theorem State.onGrp_belv (s : State) (f : Group → Group) : (s.onGrp f).belv = s.belv := rfl
@[simp] theorem State.onGrp_fq (s : State) (f : Group → Group) : (s.onGrp f).fq = s.fq := rfl
@[simp] theorem State.onGrp_mc (s : State) (f : Group → Group) : (s.onGrp f).mc = s.mc := rfl
@[simp] theorem State.onGrp_fabric (s : State) (f : Group → Group) : (s.onGrp f).fabric = s.fabric := rfl
@[simp] theorem State.onGrp_hbm (s : State) (f : Group → Group) : (s.onGrp f).hbm = s.hbm := rfl
@[simp] theorem State.onGrp_boot (s : State) (f : Group → Group) : (s.onGrp f).boot = s.boot := rfl
@[simp] theorem State.onGrp_host (s : State) (f : Group → Group) : (s.onGrp f).host = s.host := rfl
@[simp] theorem State.onGrp_rel (s : State) (f : Group → Group) : (s.onGrp f).rel = s.rel := rfl
@[simp] theorem State.onGrp_out (s : State) (f : Group → Group) : (s.onGrp f).out = s.out := rfl
@[simp] theorem State.onGrp_agenda (s : State) (f : Group → Group) : (s.onGrp f).agenda = s.agenda := rfl
@[simp] theorem State.onGrp_issueQ (s : State) (f : Group → Group) : (s.onGrp f).issueQ = s.issueQ := rfl
@[simp] theorem State.onGrp_issue (s : State) (f : Group → Group) : (s.onGrp f).issue = s.issue := rfl
@[simp] theorem State.onGrp_choice (s : State) (f : Group → Group) : (s.onGrp f).choice = s.choice := rfl
@[simp] theorem State.onGrp_nextId (s : State) (f : Group → Group) : (s.onGrp f).nextId = s.nextId := rfl
@[simp] theorem State.onGrp_owed (s : State) (f : Group → Group) : (s.onGrp f).owed = s.owed := rfl

@[simp] theorem State.onCore_clk (s : State) (f : Core → Core) : (s.onCore f).clk = s.clk := rfl
@[simp] theorem State.onCore_mem (s : State) (f : Core → Core) : (s.onCore f).mem = s.mem := rfl
@[simp] theorem State.onCore_bad (s : State) (f : Core → Core) : (s.onCore f).bad = s.bad := rfl
@[simp] theorem State.onCore_weak (s : State) (f : Core → Core) : (s.onCore f).weak = s.weak := rfl
@[simp] theorem State.onCore_quads (s : State) (f : Core → Core) : (s.onCore f).quads = s.quads := rfl
@[simp] theorem State.onCore_quadBars (s : State) (f : Core → Core) : (s.onCore f).quadBars = s.quadBars := rfl
@[simp] theorem State.onCore_dieBars (s : State) (f : Core → Core) : (s.onCore f).dieBars = s.dieBars := rfl
@[simp] theorem State.onCore_pkgBars (s : State) (f : Core → Core) : (s.onCore f).pkgBars = s.pkgBars := rfl
@[simp] theorem State.onCore_podBars (s : State) (f : Core → Core) : (s.onCore f).podBars = s.podBars := rfl
@[simp] theorem State.onCore_barTenants (s : State) (f : Core → Core) : (s.onCore f).barTenants = s.barTenants := rfl
@[simp] theorem State.onCore_belv (s : State) (f : Core → Core) : (s.onCore f).belv = s.belv := rfl
@[simp] theorem State.onCore_fq (s : State) (f : Core → Core) : (s.onCore f).fq = s.fq := rfl
@[simp] theorem State.onCore_mc (s : State) (f : Core → Core) : (s.onCore f).mc = s.mc := rfl
@[simp] theorem State.onCore_fabric (s : State) (f : Core → Core) : (s.onCore f).fabric = s.fabric := rfl
@[simp] theorem State.onCore_hbm (s : State) (f : Core → Core) : (s.onCore f).hbm = s.hbm := rfl
@[simp] theorem State.onCore_boot (s : State) (f : Core → Core) : (s.onCore f).boot = s.boot := rfl
@[simp] theorem State.onCore_host (s : State) (f : Core → Core) : (s.onCore f).host = s.host := rfl
@[simp] theorem State.onCore_rel (s : State) (f : Core → Core) : (s.onCore f).rel = s.rel := rfl
@[simp] theorem State.onCore_out (s : State) (f : Core → Core) : (s.onCore f).out = s.out := rfl
@[simp] theorem State.onCore_agenda (s : State) (f : Core → Core) : (s.onCore f).agenda = s.agenda := rfl
@[simp] theorem State.onCore_issueQ (s : State) (f : Core → Core) : (s.onCore f).issueQ = s.issueQ := rfl
@[simp] theorem State.onCore_issue (s : State) (f : Core → Core) : (s.onCore f).issue = s.issue := rfl
@[simp] theorem State.onCore_choice (s : State) (f : Core → Core) : (s.onCore f).choice = s.choice := rfl
@[simp] theorem State.onCore_nextId (s : State) (f : Core → Core) : (s.onCore f).nextId = s.nextId := rfl
@[simp] theorem State.onCore_owed (s : State) (f : Core → Core) : (s.onCore f).owed = s.owed := rfl

@[simp] theorem State.wait_clk (s : State) (r : Stall) : (s.wait r).clk = s.clk := rfl
@[simp] theorem State.wait_mem (s : State) (r : Stall) : (s.wait r).mem = s.mem := rfl
@[simp] theorem State.wait_bad (s : State) (r : Stall) : (s.wait r).bad = s.bad := rfl
@[simp] theorem State.wait_weak (s : State) (r : Stall) : (s.wait r).weak = s.weak := rfl
@[simp] theorem State.wait_cores (s : State) (r : Stall) : (s.wait r).cores = s.cores := rfl
@[simp] theorem State.wait_quads (s : State) (r : Stall) : (s.wait r).quads = s.quads := rfl
@[simp] theorem State.wait_quadBars (s : State) (r : Stall) : (s.wait r).quadBars = s.quadBars := rfl
@[simp] theorem State.wait_dieBars (s : State) (r : Stall) : (s.wait r).dieBars = s.dieBars := rfl
@[simp] theorem State.wait_pkgBars (s : State) (r : Stall) : (s.wait r).pkgBars = s.pkgBars := rfl
@[simp] theorem State.wait_podBars (s : State) (r : Stall) : (s.wait r).podBars = s.podBars := rfl
@[simp] theorem State.wait_barTenants (s : State) (r : Stall) : (s.wait r).barTenants = s.barTenants := rfl
@[simp] theorem State.wait_belv (s : State) (r : Stall) : (s.wait r).belv = s.belv := rfl
@[simp] theorem State.wait_fq (s : State) (r : Stall) : (s.wait r).fq = s.fq := rfl
@[simp] theorem State.wait_mc (s : State) (r : Stall) : (s.wait r).mc = s.mc := rfl
@[simp] theorem State.wait_fabric (s : State) (r : Stall) : (s.wait r).fabric = s.fabric := rfl
@[simp] theorem State.wait_hbm (s : State) (r : Stall) : (s.wait r).hbm = s.hbm := rfl
@[simp] theorem State.wait_boot (s : State) (r : Stall) : (s.wait r).boot = s.boot := rfl
@[simp] theorem State.wait_host (s : State) (r : Stall) : (s.wait r).host = s.host := rfl
@[simp] theorem State.wait_rel (s : State) (r : Stall) : (s.wait r).rel = s.rel := rfl
@[simp] theorem State.wait_out (s : State) (r : Stall) : (s.wait r).out = s.out := rfl
@[simp] theorem State.wait_agenda (s : State) (r : Stall) : (s.wait r).agenda = s.agenda := rfl
@[simp] theorem State.wait_issueQ (s : State) (r : Stall) : (s.wait r).issueQ = s.issueQ := rfl
@[simp] theorem State.wait_choice (s : State) (r : Stall) : (s.wait r).choice = s.choice := rfl
@[simp] theorem State.wait_nextId (s : State) (r : Stall) : (s.wait r).nextId = s.nextId := rfl
@[simp] theorem State.wait_owed (s : State) (r : Stall) : (s.wait r).owed = s.owed := rfl

@[simp] theorem State.modQuad_clk (s : State) (q : Nat) (f : Quad → Quad) : (s.modQuad q f).clk = s.clk := rfl
@[simp] theorem State.modQuad_mem (s : State) (q : Nat) (f : Quad → Quad) : (s.modQuad q f).mem = s.mem := rfl
@[simp] theorem State.modQuad_bad (s : State) (q : Nat) (f : Quad → Quad) : (s.modQuad q f).bad = s.bad := rfl
@[simp] theorem State.modQuad_weak (s : State) (q : Nat) (f : Quad → Quad) : (s.modQuad q f).weak = s.weak := rfl
@[simp] theorem State.modQuad_cores (s : State) (q : Nat) (f : Quad → Quad) : (s.modQuad q f).cores = s.cores := rfl
@[simp] theorem State.modQuad_quadBars (s : State) (q : Nat) (f : Quad → Quad) : (s.modQuad q f).quadBars = s.quadBars := rfl
@[simp] theorem State.modQuad_dieBars (s : State) (q : Nat) (f : Quad → Quad) : (s.modQuad q f).dieBars = s.dieBars := rfl
@[simp] theorem State.modQuad_pkgBars (s : State) (q : Nat) (f : Quad → Quad) : (s.modQuad q f).pkgBars = s.pkgBars := rfl
@[simp] theorem State.modQuad_podBars (s : State) (q : Nat) (f : Quad → Quad) : (s.modQuad q f).podBars = s.podBars := rfl
@[simp] theorem State.modQuad_barTenants (s : State) (q : Nat) (f : Quad → Quad) : (s.modQuad q f).barTenants = s.barTenants := rfl
@[simp] theorem State.modQuad_belv (s : State) (q : Nat) (f : Quad → Quad) : (s.modQuad q f).belv = s.belv := rfl
@[simp] theorem State.modQuad_fq (s : State) (q : Nat) (f : Quad → Quad) : (s.modQuad q f).fq = s.fq := rfl
@[simp] theorem State.modQuad_mc (s : State) (q : Nat) (f : Quad → Quad) : (s.modQuad q f).mc = s.mc := rfl
@[simp] theorem State.modQuad_fabric (s : State) (q : Nat) (f : Quad → Quad) : (s.modQuad q f).fabric = s.fabric := rfl
@[simp] theorem State.modQuad_hbm (s : State) (q : Nat) (f : Quad → Quad) : (s.modQuad q f).hbm = s.hbm := rfl
@[simp] theorem State.modQuad_boot (s : State) (q : Nat) (f : Quad → Quad) : (s.modQuad q f).boot = s.boot := rfl
@[simp] theorem State.modQuad_host (s : State) (q : Nat) (f : Quad → Quad) : (s.modQuad q f).host = s.host := rfl
@[simp] theorem State.modQuad_rel (s : State) (q : Nat) (f : Quad → Quad) : (s.modQuad q f).rel = s.rel := rfl
@[simp] theorem State.modQuad_out (s : State) (q : Nat) (f : Quad → Quad) : (s.modQuad q f).out = s.out := rfl
@[simp] theorem State.modQuad_agenda (s : State) (q : Nat) (f : Quad → Quad) : (s.modQuad q f).agenda = s.agenda := rfl
@[simp] theorem State.modQuad_issueQ (s : State) (q : Nat) (f : Quad → Quad) : (s.modQuad q f).issueQ = s.issueQ := rfl
@[simp] theorem State.modQuad_issue (s : State) (q : Nat) (f : Quad → Quad) : (s.modQuad q f).issue = s.issue := rfl
@[simp] theorem State.modQuad_choice (s : State) (q : Nat) (f : Quad → Quad) : (s.modQuad q f).choice = s.choice := rfl
@[simp] theorem State.modQuad_nextId (s : State) (q : Nat) (f : Quad → Quad) : (s.modQuad q f).nextId = s.nextId := rfl
@[simp] theorem State.modQuad_owed (s : State) (q : Nat) (f : Quad → Quad) : (s.modQuad q f).owed = s.owed := rfl

@[simp] theorem State.modThread_clk (s : State) (t : Nat) (f : BThread → BThread) : (s.modThread t f).clk = s.clk := rfl
@[simp] theorem State.modThread_mem (s : State) (t : Nat) (f : BThread → BThread) : (s.modThread t f).mem = s.mem := rfl
@[simp] theorem State.modThread_bad (s : State) (t : Nat) (f : BThread → BThread) : (s.modThread t f).bad = s.bad := rfl
@[simp] theorem State.modThread_weak (s : State) (t : Nat) (f : BThread → BThread) : (s.modThread t f).weak = s.weak := rfl
@[simp] theorem State.modThread_cores (s : State) (t : Nat) (f : BThread → BThread) : (s.modThread t f).cores = s.cores := rfl
@[simp] theorem State.modThread_quads (s : State) (t : Nat) (f : BThread → BThread) : (s.modThread t f).quads = s.quads := rfl
@[simp] theorem State.modThread_quadBars (s : State) (t : Nat) (f : BThread → BThread) : (s.modThread t f).quadBars = s.quadBars := rfl
@[simp] theorem State.modThread_dieBars (s : State) (t : Nat) (f : BThread → BThread) : (s.modThread t f).dieBars = s.dieBars := rfl
@[simp] theorem State.modThread_pkgBars (s : State) (t : Nat) (f : BThread → BThread) : (s.modThread t f).pkgBars = s.pkgBars := rfl
@[simp] theorem State.modThread_podBars (s : State) (t : Nat) (f : BThread → BThread) : (s.modThread t f).podBars = s.podBars := rfl
@[simp] theorem State.modThread_barTenants (s : State) (t : Nat) (f : BThread → BThread) : (s.modThread t f).barTenants = s.barTenants := rfl
@[simp] theorem State.modThread_fq (s : State) (t : Nat) (f : BThread → BThread) : (s.modThread t f).fq = s.fq := rfl
@[simp] theorem State.modThread_mc (s : State) (t : Nat) (f : BThread → BThread) : (s.modThread t f).mc = s.mc := rfl
@[simp] theorem State.modThread_fabric (s : State) (t : Nat) (f : BThread → BThread) : (s.modThread t f).fabric = s.fabric := rfl
@[simp] theorem State.modThread_hbm (s : State) (t : Nat) (f : BThread → BThread) : (s.modThread t f).hbm = s.hbm := rfl
@[simp] theorem State.modThread_boot (s : State) (t : Nat) (f : BThread → BThread) : (s.modThread t f).boot = s.boot := rfl
@[simp] theorem State.modThread_host (s : State) (t : Nat) (f : BThread → BThread) : (s.modThread t f).host = s.host := rfl
@[simp] theorem State.modThread_rel (s : State) (t : Nat) (f : BThread → BThread) : (s.modThread t f).rel = s.rel := rfl
@[simp] theorem State.modThread_out (s : State) (t : Nat) (f : BThread → BThread) : (s.modThread t f).out = s.out := rfl
@[simp] theorem State.modThread_agenda (s : State) (t : Nat) (f : BThread → BThread) : (s.modThread t f).agenda = s.agenda := rfl
@[simp] theorem State.modThread_issueQ (s : State) (t : Nat) (f : BThread → BThread) : (s.modThread t f).issueQ = s.issueQ := rfl
@[simp] theorem State.modThread_issue (s : State) (t : Nat) (f : BThread → BThread) : (s.modThread t f).issue = s.issue := rfl
@[simp] theorem State.modThread_choice (s : State) (t : Nat) (f : BThread → BThread) : (s.modThread t f).choice = s.choice := rfl
@[simp] theorem State.modThread_nextId (s : State) (t : Nat) (f : BThread → BThread) : (s.modThread t f).nextId = s.nextId := rfl
@[simp] theorem State.modThread_owed (s : State) (t : Nat) (f : BThread → BThread) : (s.modThread t f).owed = s.owed := rfl

@[simp] theorem State.modPort_clk (s : State) (p : Nat) (f : Port → Port) : (s.modPort p f).clk = s.clk := rfl
@[simp] theorem State.modPort_mem (s : State) (p : Nat) (f : Port → Port) : (s.modPort p f).mem = s.mem := rfl
@[simp] theorem State.modPort_bad (s : State) (p : Nat) (f : Port → Port) : (s.modPort p f).bad = s.bad := rfl
@[simp] theorem State.modPort_weak (s : State) (p : Nat) (f : Port → Port) : (s.modPort p f).weak = s.weak := rfl
@[simp] theorem State.modPort_cores (s : State) (p : Nat) (f : Port → Port) : (s.modPort p f).cores = s.cores := rfl
@[simp] theorem State.modPort_quads (s : State) (p : Nat) (f : Port → Port) : (s.modPort p f).quads = s.quads := rfl
@[simp] theorem State.modPort_quadBars (s : State) (p : Nat) (f : Port → Port) : (s.modPort p f).quadBars = s.quadBars := rfl
@[simp] theorem State.modPort_dieBars (s : State) (p : Nat) (f : Port → Port) : (s.modPort p f).dieBars = s.dieBars := rfl
@[simp] theorem State.modPort_pkgBars (s : State) (p : Nat) (f : Port → Port) : (s.modPort p f).pkgBars = s.pkgBars := rfl
@[simp] theorem State.modPort_podBars (s : State) (p : Nat) (f : Port → Port) : (s.modPort p f).podBars = s.podBars := rfl
@[simp] theorem State.modPort_barTenants (s : State) (p : Nat) (f : Port → Port) : (s.modPort p f).barTenants = s.barTenants := rfl
@[simp] theorem State.modPort_belv (s : State) (p : Nat) (f : Port → Port) : (s.modPort p f).belv = s.belv := rfl
@[simp] theorem State.modPort_fq (s : State) (p : Nat) (f : Port → Port) : (s.modPort p f).fq = s.fq := rfl
@[simp] theorem State.modPort_mc (s : State) (p : Nat) (f : Port → Port) : (s.modPort p f).mc = s.mc := rfl
@[simp] theorem State.modPort_hbm (s : State) (p : Nat) (f : Port → Port) : (s.modPort p f).hbm = s.hbm := rfl
@[simp] theorem State.modPort_boot (s : State) (p : Nat) (f : Port → Port) : (s.modPort p f).boot = s.boot := rfl
@[simp] theorem State.modPort_host (s : State) (p : Nat) (f : Port → Port) : (s.modPort p f).host = s.host := rfl
@[simp] theorem State.modPort_rel (s : State) (p : Nat) (f : Port → Port) : (s.modPort p f).rel = s.rel := rfl
@[simp] theorem State.modPort_out (s : State) (p : Nat) (f : Port → Port) : (s.modPort p f).out = s.out := rfl
@[simp] theorem State.modPort_agenda (s : State) (p : Nat) (f : Port → Port) : (s.modPort p f).agenda = s.agenda := rfl
@[simp] theorem State.modPort_issueQ (s : State) (p : Nat) (f : Port → Port) : (s.modPort p f).issueQ = s.issueQ := rfl
@[simp] theorem State.modPort_issue (s : State) (p : Nat) (f : Port → Port) : (s.modPort p f).issue = s.issue := rfl
@[simp] theorem State.modPort_choice (s : State) (p : Nat) (f : Port → Port) : (s.modPort p f).choice = s.choice := rfl
@[simp] theorem State.modPort_nextId (s : State) (p : Nat) (f : Port → Port) : (s.modPort p f).nextId = s.nextId := rfl
@[simp] theorem State.modPort_owed (s : State) (p : Nat) (f : Port → Port) : (s.modPort p f).owed = s.owed := rfl

@[simp] theorem State.modStack_clk (s : State) (p : Nat) (f : Stack → Stack) : (s.modStack p f).clk = s.clk := rfl
@[simp] theorem State.modStack_mem (s : State) (p : Nat) (f : Stack → Stack) : (s.modStack p f).mem = s.mem := rfl
@[simp] theorem State.modStack_bad (s : State) (p : Nat) (f : Stack → Stack) : (s.modStack p f).bad = s.bad := rfl
@[simp] theorem State.modStack_weak (s : State) (p : Nat) (f : Stack → Stack) : (s.modStack p f).weak = s.weak := rfl
@[simp] theorem State.modStack_cores (s : State) (p : Nat) (f : Stack → Stack) : (s.modStack p f).cores = s.cores := rfl
@[simp] theorem State.modStack_quads (s : State) (p : Nat) (f : Stack → Stack) : (s.modStack p f).quads = s.quads := rfl
@[simp] theorem State.modStack_quadBars (s : State) (p : Nat) (f : Stack → Stack) : (s.modStack p f).quadBars = s.quadBars := rfl
@[simp] theorem State.modStack_dieBars (s : State) (p : Nat) (f : Stack → Stack) : (s.modStack p f).dieBars = s.dieBars := rfl
@[simp] theorem State.modStack_pkgBars (s : State) (p : Nat) (f : Stack → Stack) : (s.modStack p f).pkgBars = s.pkgBars := rfl
@[simp] theorem State.modStack_podBars (s : State) (p : Nat) (f : Stack → Stack) : (s.modStack p f).podBars = s.podBars := rfl
@[simp] theorem State.modStack_barTenants (s : State) (p : Nat) (f : Stack → Stack) : (s.modStack p f).barTenants = s.barTenants := rfl
@[simp] theorem State.modStack_belv (s : State) (p : Nat) (f : Stack → Stack) : (s.modStack p f).belv = s.belv := rfl
@[simp] theorem State.modStack_fq (s : State) (p : Nat) (f : Stack → Stack) : (s.modStack p f).fq = s.fq := rfl
@[simp] theorem State.modStack_mc (s : State) (p : Nat) (f : Stack → Stack) : (s.modStack p f).mc = s.mc := rfl
@[simp] theorem State.modStack_fabric (s : State) (p : Nat) (f : Stack → Stack) : (s.modStack p f).fabric = s.fabric := rfl
@[simp] theorem State.modStack_boot (s : State) (p : Nat) (f : Stack → Stack) : (s.modStack p f).boot = s.boot := rfl
@[simp] theorem State.modStack_host (s : State) (p : Nat) (f : Stack → Stack) : (s.modStack p f).host = s.host := rfl
@[simp] theorem State.modStack_rel (s : State) (p : Nat) (f : Stack → Stack) : (s.modStack p f).rel = s.rel := rfl
@[simp] theorem State.modStack_out (s : State) (p : Nat) (f : Stack → Stack) : (s.modStack p f).out = s.out := rfl
@[simp] theorem State.modStack_agenda (s : State) (p : Nat) (f : Stack → Stack) : (s.modStack p f).agenda = s.agenda := rfl
@[simp] theorem State.modStack_issueQ (s : State) (p : Nat) (f : Stack → Stack) : (s.modStack p f).issueQ = s.issueQ := rfl
@[simp] theorem State.modStack_issue (s : State) (p : Nat) (f : Stack → Stack) : (s.modStack p f).issue = s.issue := rfl
@[simp] theorem State.modStack_choice (s : State) (p : Nat) (f : Stack → Stack) : (s.modStack p f).choice = s.choice := rfl
@[simp] theorem State.modStack_nextId (s : State) (p : Nat) (f : Stack → Stack) : (s.modStack p f).nextId = s.nextId := rfl
@[simp] theorem State.modStack_owed (s : State) (p : Nat) (f : Stack → Stack) : (s.modStack p f).owed = s.owed := rfl

/-! ## Cores and groups -/

theorem State.core_modCore (s : State) (k : Nat) (f : Core → Core) (h : k < s.cores.length) :
    (s.modCore k f).core k = f (s.core k) := by
  simp [State.core, State.modCore, List.getD_eq_getElem?_getD, h]

theorem State.core_modCore_ne (s : State) (k j : Nat) (f : Core → Core) (h : j ≠ k) :
    (s.modCore k f).core j = s.core j := by
  simp [State.core, State.modCore, List.getD_eq_getElem?_getD, Ne.symm h]

theorem Core.group_modGroup (c : Core) (j : Nat) (f : Group → Group) : (c.modGroup j f).group j = (c.group j).map f := by
  simp only [Core.group, Core.modGroup, List.getD_eq_getElem?_getD, List.getElem?_modify, if_true]
  cases c.groups[j]? <;> rfl

theorem Core.group_modGroup_ne (c : Core) (i j : Nat) (f : Group → Group) (h : i ≠ j) :
    (c.modGroup j f).group i = c.group i := by
  simp [Core.group, Core.modGroup, List.getD_eq_getElem?_getD, Ne.symm h]

/-- A core that holds a group is one of the package's. -/
theorem State.core_lt_of_group (s : State) (k j : Nat) (g : Group) (h : (s.core k).group j = some g) :
    k < s.cores.length := by
  by_contra n
  have : s.core k = Core.reset := by simp [State.core, List.getD_eq_getElem?_getD, List.getElem?_eq_none (Nat.not_lt.1 n)]
  rw [this] at h
  have e : Core.reset.groups = List.replicate 32 none := rfl
  rw [Core.group, e, List.getD_eq_getElem?_getD, List.getElem?_replicate] at h
  split at h <;> simp at h

theorem State.group_modGroup (s : State) (k j : Nat) (f : Group → Group) (g : Group)
    (h : (s.core k).group j = some g) : ((s.modGroup k j f).core k).group j = some (f g) := by
  unfold State.modGroup
  rw [State.core_modCore _ _ _ (State.core_lt_of_group s k j g h), Core.group_modGroup, h, Option.map_some]

theorem State.grp_eq (s : State) (g : Group) (h : (s.core s.issue.core).group s.issue.slot = some g) : s.grp = g := by
  simp [State.grp, h]

/-- The group being issued after a change to it. -/
theorem State.grp_onGrp (s : State) (f : Group → Group) (g : Group)
    (h : (s.core s.issue.core).group s.issue.slot = some g) : (s.onGrp f).grp = f s.grp := by
  have := State.group_modGroup s s.issue.core s.issue.slot f g h
  rw [State.grp_eq s g h]
  exact State.grp_eq (s.onGrp f) (f g) this

theorem modify_congr {α : Type} (l : List α) (i : Nat) (f g : α → α) (h : ∀ x, l[i]? = some x → f x = g x) :
    l.modify i f = l.modify i g := by
  apply List.ext_getElem? ; intro n
  rw [List.getElem?_modify, List.getElem?_modify]
  by_cases e : i = n
  · subst e; simp only [if_true]; cases hx : l[i]? with
    | none => rfl
    | some x => simp [h x hx]
  · simp [e]

/-- Two changes that agree on the group being issued are one. -/
theorem State.onGrp_congr (s : State) (f f' : Group → Group) (g : Group)
    (h : (s.core s.issue.core).group s.issue.slot = some g) (e : f g = f' g) : s.onGrp f = s.onGrp f' := by
  unfold State.onGrp State.modGroup State.modCore
  congr 1
  apply modify_congr
  intro c hc
  have hc' : s.core s.issue.core = c := by simp [State.core, List.getD_eq_getElem?_getD, hc]
  unfold Core.modGroup
  congr 1
  apply modify_congr
  intro x hx
  have : x = some g := by
    rw [← h, hc']; simp [Core.group, List.getD_eq_getElem?_getD, hx]
  subst this
  simp [e]

theorem modify_modify_same {α : Type} (l : List α) (i : Nat) (f g : α → α) :
    (l.modify i f).modify i g = l.modify i (g ∘ f) := by
  apply List.ext_getElem?; intro n
  simp only [List.getElem?_modify]
  by_cases e : i = n
  · subst e; cases l[i]? <;> simp
  · simp [e]

/-- One change after another is one change. -/
theorem State.onGrp_onGrp (s : State) (f f' : Group → Group) : (s.onGrp f).onGrp f' = s.onGrp (f' ∘ f) := by
  unfold State.onGrp State.modGroup State.modCore
  simp only [modify_modify_same]
  congr 2
  funext c
  simp only [Function.comp, Core.modGroup, modify_modify_same]
  congr 2
  funext x
  cases x <;> rfl

theorem State.onGrp_id (s : State) (f : Group → Group) (g : Group)
    (h : (s.core s.issue.core).group s.issue.slot = some g) (e : f g = g) : s.onGrp f = s := by
  rw [State.onGrp_congr s f id g h e]
  unfold State.onGrp State.modGroup State.modCore Core.modGroup
  have hi : (Option.map (id : Group → Group)) = id := Option.map_id
  have hm : ∀ {α : Type} (l : List α) (i : Nat), l.modify i id = l := by
    intro α l i; apply List.ext_getElem?; intro n; rw [List.getElem?_modify]
    cases l[n]? <;> simp
  simp only [hi, hm]
  have hid : (fun c : Core => { c with groups := c.groups }) = id := by funext c; rfl
  have : (s.cores.modify s.issue.core fun c => { c with groups := c.groups }) = s.cores := by rw [hid]; exact hm _ _
  simp only [this]

/-! ## Registers -/

theorem RegFile.rv_setV (rf : RegFile) (d : Nat) (m : Word) (f : Nat → Word) (r l : Nat)
    (hd : r = d → l < (rf.v.getD d []).length) :
    (rf.setV d m f).rv r l = if r = d ∧ m.getLsbD l = true then f l else rf.rv r l := by
  by_cases e : r = d
  · subst e
    have hl := hd rfl
    have hr : r < rf.v.length := by
      by_contra n
      simp [List.getD_eq_getElem?_getD, List.getElem?_eq_none (Nat.not_lt.1 n)] at hl
    simp only [List.getD_eq_getElem?_getD, List.getElem?_eq_getElem hr, Option.getD_some] at hl
    by_cases b : m.getLsbD l
    · simp [RegFile.rv, RegFile.setV, List.getD_eq_getElem?_getD, hr, hl, b]
    · simp [RegFile.rv, RegFile.setV, List.getD_eq_getElem?_getD, hr, hl, b]
  · simp [RegFile.rv, RegFile.setV, List.getD_eq_getElem?_getD, Ne.symm e, e]

@[simp] theorem RegFile.setV_length (rf : RegFile) (d : Nat) (m : Word) (f : Nat → Word) :
    (rf.setV d m f).v.length = rf.v.length := by simp [RegFile.setV]

@[simp] theorem RegFile.setV_s (rf : RegFile) (d : Nat) (m : Word) (f : Nat → Word) : (rf.setV d m f).s = rf.s := rfl
@[simp] theorem RegFile.setV_p (rf : RegFile) (d : Nat) (m : Word) (f : Nat → Word) : (rf.setV d m f).p = rf.p := rfl
@[simp] theorem RegFile.setV_k (rf : RegFile) (d : Nat) (m : Word) (f : Nat → Word) : (rf.setV d m f).k = rf.k := rfl
@[simp] theorem RegFile.setV_fpm (rf : RegFile) (d : Nat) (m : Word) (f : Nat → Word) : (rf.setV d m f).fpm = rf.fpm := rfl

theorem RegFile.rp_setP (rf : RegFile) (p : Nat) (m : Word) (f : Nat → Bool) (q l : Nat) (hl : l < 32) (hp : p < rf.p.length) :
    (rf.setP p m f).rp q l = if q = 7 then true else if q = p ∧ m.getLsbD l = true then f l else rf.rp q l := by
  by_cases e7 : q = 7
  · subst e7; simp [RegFile.rp]
  · have e7' : (q == 7) = false := by simpa using e7
    by_cases e : q = p
    · subst e
      by_cases b : m.getLsbD l
      · have b' : m[l] = true := b
        simp [RegFile.rp, RegFile.setP, List.getD_eq_getElem?_getD, hp, e7, e7', hl, b']
      · have b' : m[l] = false := by rw [BitVec.getLsbD_eq_getElem hl] at b; simpa using b
        simp [RegFile.rp, RegFile.setP, List.getD_eq_getElem?_getD, hp, e7, e7', hl, b']
    · simp [RegFile.rp, RegFile.setP, List.getD_eq_getElem?_getD, Ne.symm e, e, e7]

theorem RegFile.rs_setS (rf : RegFile) (n : Nat) (w : DWord) (k : Nat) (h : n < rf.s.length) :
    (rf.setS n w).rs k = if k = n then w else rf.rs k := by
  by_cases e : k = n
  · subst e; simp [RegFile.rs, RegFile.setS, List.getD_eq_getElem?_getD, h]
  · simp [RegFile.rs, RegFile.setS, List.getD_eq_getElem?_getD, Ne.symm e, e]

/-! ## Lanes -/

theorem Group.lane_place (g : Group) (m : Word) (f : Nat → Word) (l : Nat) (h : l < g.lanes.length) :
    (g.place m f).lane l = { g.lane l with vpc := if m.getLsbD l then f l else (g.lane l).vpc } := by
  by_cases b : m.getLsbD l
  · simp [Group.lane, Group.place, Group.mapLanes, List.getD_eq_getElem?_getD, h, b, LaneState.goto]
  · simp [Group.lane, Group.place, Group.mapLanes, List.getD_eq_getElem?_getD, h, b]

theorem Group.lane_modLane (g : Group) (k : Nat) (f : LaneState → LaneState) (l : Nat) (h : k < g.lanes.length) :
    (g.modLane k f).lane l = if l = k then f (g.lane k) else g.lane l := by
  by_cases e : l = k
  · subst e; simp [Group.lane, Group.modLane, List.getD_eq_getElem?_getD, h]
  · simp [Group.lane, Group.modLane, List.getD_eq_getElem?_getD, Ne.symm e, e]

end Sys2Proof.Machine
end

