-- ==== Sys2Proof/Laws/Ops.lean ====
section
/-! SUPPORT. What each shared operation can do, said once: the result writes, the branch, the exception, the wait, the
dispatch of an operation, and a write that reaches memory. -/

namespace Sys2Proof.Machine

/-! ## The group being issued -/

/-- The group being issued, with its shape. -/
theorem State.issuing_elim (s : State) (h : s.issuing = true) :
    ∃ g, (s.core s.issue.core).group s.issue.slot = some g ∧ g.shaped = true ∧
      g.rf.v.length = s.issue.src.v.length := by
  unfold State.issuing at h
  cases e : (s.core s.issue.core).group s.issue.slot with
  | none => simp [e] at h
  | some g =>
    simp only [e, Option.any_some, Bool.and_eq_true, beq_iff_eq] at h
    exact ⟨g, rfl, h.1, h.2⟩

theorem Group.shaped_iff (g : Group) : g.shaped = true ↔
    (∀ row ∈ g.rf.v, row.length = 32) ∧ g.rf.s.length = 64 ∧ g.rf.p.length = 7 ∧ g.lanes.length = 32 ∧
      g.flags.length = 12 ∧ g.fire.length = 128 ∧ g.latch.length = 32 := by
  simp [Group.shaped, and_assoc]

theorem Group.row_length (g : Group) (h : g.shaped = true) (d : Nat) (hd : d < g.rf.v.length) :
    (g.rf.v.getD d []).length = 32 := by
  rw [List.getD_eq_getElem?_getD, List.getElem?_eq_getElem hd, Option.getD_some]
  exact (Group.shaped_iff g |>.1 h).1 _ (List.getElem_mem hd)

@[simp] theorem State.flagged_zero (s : State) : s.flagged 0 = s := by
  simp [State.flagged]

/-! ## Results -/

/-- A write of one vector register (R29, R37). -/
theorem State.putV_vectors (s : State) (u : Bool) (d : Nat) (f : Nat → Word) (hi : s.issuing = true)
    (hd : s.vOk d = true) : Vectors s (s.putV u d f) d 1 s.issue.exec (fun _ l => f (s.from u l)) 0 := by
  obtain ⟨g, hg, sh, len⟩ := State.issuing_elim s hi
  have hd' : d < g.rf.v.length := by rw [len]; simpa [State.vOk] using hd
  have hgrp := State.grp_eq s g hg
  have ht : (s.putV u d f).grp = { g with rf := g.rf.setV d s.issue.exec fun l => f (s.from u l) } := by
    rw [State.putV, State.grp_onGrp s _ g hg, hgrp]
  constructor
  · intro i l h1 h2
    obtain rfl : i = 0 := by omega
    rw [ht, hgrp, Nat.add_zero, RegFile.rv_setV _ _ _ _ _ _ (fun _ => by rw [Group.row_length g sh d hd']; exact h2)]
    simp
  · intro r l h
    rw [ht, hgrp, RegFile.rv_setV _ _ _ _ _ _ (fun e => by omega), if_neg (by omega)]
  · rw [ht, hgrp]; simp
  · rw [ht, State.flagged_zero]
    unfold State.putV
    refine State.onGrp_congr s _ _ g hg ?_
    rfl
  · intro a; rfl

/-- A meaning behind its operand check answers its effect when the check passes. -/
theorem State.checked_ok (s : State) (ok : Bool) (t : State) (h : ok = true) : s.checked ok t = .next t := by
  simp [State.checked, h]

theorem State.putV_writesV (s : State) (u : Bool) (d : Nat) (f f' : Nat → Word) (hi : s.issuing = true)
    (hd : s.vOk d = true) (e : ∀ l, f l = f' l) : WritesV s (.next (s.putV u d f)) u d f' := by
  obtain rfl : f = f' := funext e
  exact ⟨_, rfl, State.putV_vectors s u d f hi hd⟩

/-- A write of one predicate (R218). -/
theorem State.putP_predicates (s : State) (u : Bool) (p : Nat) (f : Nat → Bool) (hi : s.issuing = true) (hp : p < 8) :
    Predicates s (s.putP u p f) p fun l => f (s.from u l) := by
  obtain ⟨g, hg, sh, len⟩ := State.issuing_elim s hi
  have hgrp := State.grp_eq s g hg
  have hlen := (Group.shaped_iff g |>.1 sh).2.2.1
  have ht : (s.putP u p f).grp = { g with rf := g.rf.setP p s.issue.exec fun l => f (s.from u l) } := by
    rw [State.putP, State.grp_onGrp s _ g hg, hgrp]
  constructor
  · intro l hl
    rw [ht, hgrp]
    by_cases e : p = 7
    · simp [e, RegFile.rp]
    · rw [RegFile.rp_setP _ _ _ _ _ _ hl (by omega)]; simp [e]
  · intro q l h
    rw [ht, hgrp]
    by_cases e7 : q = 7
    · simp [e7, RegFile.rp]
    · simp [RegFile.rp, RegFile.setP, List.getD_eq_getElem?_getD, Ne.symm h]
  · rw [ht]
    unfold State.putP
    refine State.onGrp_congr s _ _ g hg ?_
    rfl
  · intro a; rfl

theorem State.putP_writesP (s : State) (u : Bool) (p : Nat) (f f' : Nat → Bool) (hi : s.issuing = true) (hp : p < 8)
    (e : ∀ l, f l = f' l) : WritesP s (.next (s.putP u p f)) u p f' := by
  obtain rfl : f = f' := funext e
  exact ⟨_, rfl, State.putP_predicates s u p f hi hp⟩

/-- A write of one scalar (R37). -/
theorem State.putS_writesS (s : State) (d : Nat) (w : DWord) (hi : s.issuing = true) (hd : d < 64) :
    WritesS s (.next (s.putS d w)) d w := by
  obtain ⟨g, hg, sh, len⟩ := State.issuing_elim s hi
  have hgrp := State.grp_eq s g hg
  have hlen := (Group.shaped_iff g |>.1 sh).2.1
  refine ⟨_, rfl, ?_, ?_, fun _ => ?_⟩
  · intro n hn
    simp only [List.find?_cons, List.find?_nil]
    unfold State.putS
    by_cases e : s.issue.exec = 0
    · rw [if_pos e]; cases h : (d == n) <;> simp [e]
    · rw [if_neg e, State.grp_onGrp s _ g hg, hgrp, RegFile.rs_setS _ _ _ _ (by omega)]
      by_cases h : n = d
      · have e' : ¬ s.issue.exec = 0#32 := e
        subst h; simp [e']
      · have : (d == n) = false := by simpa using Ne.symm h
        simp [this, h]
  · unfold State.putS
    by_cases e : s.issue.exec = 0
    · rw [if_pos e, State.onGrp_id s _ g hg (by rw [hgrp])]
    · rw [if_neg e]
      refine State.onGrp_congr s _ _ g hg ?_
      rw [State.grp_onGrp s _ g hg, hgrp]; rfl
  · unfold State.putS; split <;> rfl

/-- A branch places its lanes and moves nothing else (R31, R228). -/
theorem State.branch_branched (s : State) (u : Bool) (m : Word) (f : Nat → Word) (hi : s.issuing = true) :
    Branched s (s.branch u m f) m fun l => f (s.from u l) := by
  obtain ⟨g, hg, sh, len⟩ := State.issuing_elim s hi
  have hgrp := State.grp_eq s g hg
  have hlen := (Group.shaped_iff g |>.1 sh).2.2.2.1
  let held := fun (g : Group) => if (lanesOf m).any fun l => f (s.from u l) == 0xFFFFFFFF then s.issue.pc else g.heldPc
  have ht : (s.branch u m f).grp = { g.place m (fun l => f (s.from u l)) with heldPc := held g } := by
    have := State.grp_onGrp s (fun g => { g.place m (fun l => f (s.from u l)) with heldPc := held g }) g hg
    rw [hgrp] at this; exact this
  constructor
  · intro l hl
    have : (s.branch u m f).grp.lane l = (g.place m fun l => f (s.from u l)).lane l := by rw [ht]; rfl
    rw [this, hgrp, Group.lane_place _ _ _ _ (by omega)]
  · rw [ht, hgrp]
  · rw [ht]
    have e : (s.onGrp fun g => { g.place m (fun l => f (s.from u l)) with heldPc := held g }) =
        s.onGrp fun g' => { g' with
          lanes := { g.place m (fun l => f (s.from u l)) with heldPc := held g }.lanes
          heldPc := { g.place m (fun l => f (s.from u l)) with heldPc := held g }.heldPc } :=
      State.onGrp_congr s _ _ g hg rfl
    unfold State.branch
    simp only [held] at e ⊢
    simp only [e, State.onGrp_issue]
  · intro a; rfl

/-! ## Exceptions and waits -/

/-- The exception of a whole word: every executing lane has it and none completes (R150 to R155). -/
theorem State.takeFault_taken (s : State) (c : Cause) (mask unfin : Word) (va : DWord) (code : BitVec 22)
    (pages comps : List Nat) (hi : s.issuing = true) (hr : s.grp.report = none) :
    Taken s (s.takeFault c mask unfin va code pages comps) c mask unfin va code := by
  obtain ⟨g, hg, sh, len⟩ := State.issuing_elim s hi
  have hgrp := State.grp_eq s g hg
  have hlen := (Group.shaped_iff g |>.1 sh).2.2.2.1
  rw [hgrp] at hr
  have ht : (s.takeFault c mask unfin va code pages comps).grp = { g.place unfin (fun _ => s.issue.pc) with
      unfin := g.unfin ||| unfin
      report := some { cause := c, pc := s.issue.pc, mask := mask, unfin := 0, va := va, code := code, imprecise := false,
                       exited := false, pages := if c = .notPresent then (pages.take 64).map (·, true) else [],
                       comps := comps, after := s.issue.after, tick := s.tick }
      cause := BitVec.ofNat 8 c.code
      resume := c.resume } := by
    have h : (s.takeFault c mask unfin va code pages comps).grp = _ := State.grp_onGrp s _ g hg
    rw [h, hgrp]
    simp [Group.place, Group.mapLanes, hr]
  constructor
  · exact ⟨_, by rw [ht], rfl, rfl, rfl, rfl, rfl, rfl, rfl, rfl⟩
  · rw [ht]
  · rw [ht]
  · rw [ht, hgrp]
  · intro l hl
    have : (s.takeFault c mask unfin va code pages comps).grp.lane l = (g.place unfin fun _ => s.issue.pc).lane l := by
      rw [ht]; rfl
    rw [this, hgrp, Group.lane_place _ _ _ _ (by omega)]
  · rw [ht, hgrp]; rfl
  · have e : s.takeFault c mask unfin va code pages comps = { s.onGrp (fun g => { g with
        lanes := (s.takeFault c mask unfin va code pages comps).grp.lanes
        report := (s.takeFault c mask unfin va code pages comps).grp.report
        cause := (s.takeFault c mask unfin va code pages comps).grp.cause
        resume := (s.takeFault c mask unfin va code pages comps).grp.resume
        unfin := (s.takeFault c mask unfin va code pages comps).grp.unfin }) with
          issue := { s.issue with unfin := s.issue.unfin ||| unfin } } := by
      rw [ht]
      conv => lhs; unfold State.takeFault
      simp only
      congr 1
      refine congrArg _ ?_
      refine State.onGrp_congr s _ _ g hg ?_
      simp [Group.place, Group.mapLanes, hr]
    exact e
  · rfl
  · intro a; rfl

/-- A word that must wait changes nothing but that it waits (R39, R169). -/
theorem State.wait_waits (s : State) (r : Stall) : Waits s (.next (s.wait r)) r := rfl

/-! ## Dispatching an operation -/

theorem Core.demand_eq (c : Core) (k : FlightKind) :
    ∃ p n, c.demand k = { c with pref := p, regs := { c.regs with counters := n } } := by
  unfold Core.demand
  generalize (((k.accesses.filter (·.global)).filterMap fun x => match x.loc with
    | .phys pa => some (lineOf pa)
    | .spad _ => none).eraseDups) = l
  suffices h : ∀ p n, ∃ q m, l.foldl Core.demandLine { c with pref := p, regs := { c.regs with counters := n } } =
      { c with pref := q, regs := { c.regs with counters := m } } from h c.pref c.regs.counters
  induction l with
  | nil => exact fun p n => ⟨p, n, rfl⟩
  | cons x l ih =>
    intro p n
    rw [List.foldl_cons]
    unfold Core.demandLine
    split
    · exact ih _ _
    · exact ih _ _

theorem Core.noticeAll_eq (c : Core) (k : FlightKind) : ∃ r, c.noticeAll k = { c with rechecks := r } := by
  unfold Core.noticeAll
  split
  · rename_i ls
    suffices h : ∀ r, ∃ q, ls.foldl (fun c (x : LaneAccess × List Byte) => match x.1.loc with
        | .phys pa => c.notice pa x.2.length
        | .spad _ => c) { c with rechecks := r } = { c with rechecks := q } from h c.rechecks
    induction ls with
    | nil => exact fun r => ⟨r, rfl⟩
    | cons x ls ih =>
      intro r
      rw [List.foldl_cons]
      split
      · exact ih _
      · exact ih _
  · exact ⟨_, rfl⟩

/-- A change of the core being issued is decided by what it makes of that core. -/
theorem State.onCore_congr (s : State) (f h : Core → Core) (e : f s.cur = h s.cur) : s.onCore f = s.onCore h := by
  unfold State.onCore State.modCore
  congr 1
  apply modify_congr
  intro c hc
  have : c = s.cur := by simp [State.cur, State.core, List.getD_eq_getElem?_getD, hc]
  rw [this]; exact e

/-- Operations enter the core one after another: of the rest of the core only the rechecks that they owe and the prefetched
lines that they use differ (R34, R468). -/
theorem State.enters_eq (fs : Option Bool) (word : Nat) (acq sc : Bool) (ps : List Part1) :
    ∀ s : State, s.issue.core < s.cores.length → ∃ r p n,
    ps.foldl (fun t q => t.enter word (s.flag fs) q.1 q.2.1 acq sc q.2.2) s =
      { s.onCore (fun c => { c with
          flight := c.flight ++ ps.mapIdx fun i q => s.newFlight word fs acq sc (s.nextId + i) q
          rechecks := r, pref := p, regs := { c.regs with counters := n } }) with
        nextId := s.nextId + ps.length } := by
  induction ps with
  | nil =>
    intro s hk
    refine ⟨s.cur.rechecks, s.cur.pref, s.cur.regs.counters, ?_⟩
    have : (s.onCore fun c => { c with
          flight := c.flight ++ [].mapIdx fun i q => s.newFlight word fs acq sc (s.nextId + i) q
          rechecks := s.cur.rechecks, pref := s.cur.pref, regs := { c.regs with counters := s.cur.regs.counters } }) =
        s.onCore id := State.onCore_congr s _ _ (by simp)
    rw [this]
    simp [State.onCore, State.modCore, List.modify_id]
  | cons k ps ih =>
    intro s hk
    let f := s.newFlight word fs acq sc s.nextId k
    obtain ⟨r1, h2⟩ := Core.noticeAll_eq { s.cur with flight := s.cur.flight ++ [f] } k.2.2
    obtain ⟨p1, n1, h1⟩ := Core.demand_eq { s.cur with flight := s.cur.flight ++ [f], rechecks := r1 } k.2.2
    let h := fun (c : Core) => { c with
      flight := c.flight ++ [f], rechecks := r1, pref := p1, regs := { c.regs with counters := n1 } }
    have he : s.enter word (s.flag fs) k.1 k.2.1 acq sc k.2.2 = { s.onCore h with nextId := s.nextId + 1 } := by
      have := State.onCore_congr s (fun c => ({ c with flight := c.flight ++ [f] }.noticeAll k.2.2).demand k.2.2) h
        (by simp only [h2, h1, h])
      change { s.onCore (fun c => ({ c with flight := c.flight ++ [f] }.noticeAll k.2.2).demand k.2.2) with
        nextId := s.nextId + 1 } = _
      rw [this]
    let s1 : State := { s.onCore h with nextId := s.nextId + 1 }
    have hc1 : s1.cur = h s.cur := State.core_modCore s _ h hk
    have hg1 : s1.grp = s.grp := by
      change ((s1.cur.group s.issue.slot).getD Group.blank) = _
      rw [hc1]; rfl
    have hf1 : s1.flag fs = s.flag fs := by unfold State.flag; rw [hg1]
    have ht1 : s1.curTeam = s.curTeam := by unfold State.curTeam; rw [hg1, hc1]; rfl
    have hs1 : s1.space = s.space := by unfold State.space; rw [hc1]
    obtain ⟨r, p, n, hn⟩ := ih s1 (by simpa [s1, State.onCore, State.modCore] using hk)
    refine ⟨r, p, n, ?_⟩
    rw [List.foldl_cons, he]
    rw [hf1] at hn
    refine hn.trans ?_
    have hfl : ((k :: ps).mapIdx fun i q => s.newFlight word fs acq sc (s.nextId + i) q) =
        f :: ps.mapIdx fun i q => s1.newFlight word fs acq sc (s1.nextId + i) q := by
      rw [List.mapIdx_cons]
      congr 1
      have : (fun i q => s.newFlight word fs acq sc (s.nextId + (i + 1)) q) =
          fun i q => s1.newFlight word fs acq sc (s1.nextId + i) q := by
        funext i q
        have e : s1.nextId + i = s.nextId + (i + 1) := by simp only [s1]; omega
        rw [e]; unfold State.newFlight; rw [hf1, hg1, ht1, hs1]; rfl
      rw [← this]
    rw [hfl]
    have e2 : s1.nextId + ps.length = s.nextId + (k :: ps).length := by simp only [s1, List.length_cons]; omega
    rw [e2]
    simp only [s1, State.onCore, State.modCore, modify_modify_same]
    congr 1
    apply modify_congr
    intro c _
    simp [h, Function.comp]

/-- The lanes in which a word's operations write are those in which its parts write (R445). -/
theorem State.writing_newFlights (s : State) (fs : Option Bool) (acq sc : Bool) (ps : List Part1) :
    writing (s.newFlights fs acq sc ps) = ps.foldl (fun m p => if p.2.2.writes then m ||| p.1 else m) 0 := by
  have : ∀ (ps : List Part1) (n : Nat) (m : Word),
      (ps.mapIdx fun i p => s.newFlight s.nextId fs acq sc (n + i) p).foldl
        (fun m f => if f.kind.writes then m ||| f.mask else m) m =
      ps.foldl (fun m p => if p.2.2.writes then m ||| p.1 else m) m := by
    intro ps
    induction ps with
    | nil => intros; rfl
    | cons p ps ih =>
      intro n m
      rw [List.mapIdx_cons, List.foldl_cons, List.foldl_cons]
      have e : (fun i p => s.newFlight s.nextId fs acq sc (n + (i + 1)) p) =
          fun i p => s.newFlight s.nextId fs acq sc (n + 1 + i) p := by
        funext i p; congr 1; omega
      rw [e]
      exact ih (n + 1) _
  exact this ps s.nextId 0

/-- Operations of one word are dispatched: they are the newest of their core, their flag counts one more, a write meets the pod
fence of its lanes, and of the rest of the core only the rechecks that they owe and the prefetched lines that they use differ
(R34, R206, R445, R468). -/
theorem State.dispatchAll_dispatched (s : State) (fs : Option Bool) (acq sc : Bool) (ps : List Part1) (hi : s.issuing = true)
    (hn : ps ≠ []) : Dispatched s (s.dispatchAll fs acq sc ps) (s.newFlights fs acq sc ps) := by
  obtain ⟨g, hg, sh, len⟩ := State.issuing_elim s hi
  have hgrp := State.grp_eq s g hg
  have hfl := (Group.shaped_iff g |>.1 sh).2.2.2.2.1
  have hk := State.core_lt_of_group s _ _ g hg
  obtain ⟨r, p, n, he⟩ := State.enters_eq fs s.nextId acq sc ps s hk
  let news := s.newFlights fs acq sc ps
  let h := fun (c : Core) => { c with
    flight := c.flight ++ news, rechecks := r, pref := p, regs := { c.regs with counters := n } }
  let up := fun (fl : List Nat) => match s.flag fs with
    | some i => fl.modify i (· + 1)
    | none => fl
  let after : Group := { g with flags := up g.flags, podFence := g.podFence &&& ~~~writing news }
  let s1 : State := { s.onCore h with nextId := s.nextId + ps.length }
  have hc1 : s1.cur = h s.cur := State.core_modCore s _ h hk
  have hg1 : (s1.core s1.issue.core).group s1.issue.slot = some g := by
    change s1.cur.group s.issue.slot = _
    rw [hc1]; exact hg
  have hd : s.dispatchAll fs acq sc ps = s1.onGrp fun _ => after := by
    have hw := State.writing_newFlights s fs acq sc ps
    unfold State.dispatchAll State.enterAll
    rw [he, ← hw]
    change (s1.onGrp fun g' => { g' with podFence := g'.podFence &&& ~~~writing news }).countFlag (s.flag fs) = _
    let g2 : Group := { g with podFence := g.podFence &&& ~~~writing news }
    have h2 : (s1.onGrp fun g' => { g' with podFence := g'.podFence &&& ~~~writing news }) = s1.onGrp fun _ => g2 :=
      State.onGrp_congr s1 _ _ g hg1 rfl
    rw [h2]
    unfold State.countFlag
    cases hx : s.flag fs with
    | none => exact State.onGrp_congr s1 _ _ g hg1 (by simp [after, up, hx, g2])
    | some i =>
      change (s1.onGrp fun _ => g2).onGrp _ = _
      unfold State.onGrp State.modGroup
      simp only [State.modCore_issue]
      unfold State.modCore
      simp only [modify_modify_same]
      congr 1
      apply modify_congr
      intro c _
      simp only [Function.comp, Core.modGroup, modify_modify_same]
      congr 1
      apply modify_congr
      intro o _
      cases o <;> simp [after, up, hx, g2]
  have ht : (s.dispatchAll fs acq sc ps).grp = after := by
    rw [hd, State.grp_onGrp s1 _ g hg1]
  have hcur : (s.dispatchAll fs acq sc ps).cur = (h s.cur).modGroup s.issue.slot fun _ => after := by
    rw [hd]
    unfold State.cur State.onGrp State.modGroup
    rw [State.modCore_issue, State.core_modCore _ _ _ (by simpa [s1, State.onCore, State.modCore] using hk)]
    exact congrArg (fun c : Core => c.modGroup s.issue.slot fun _ => after) hc1
  have hany : ∀ i, (news.any (·.flag == some i)) = decide (s.flag fs = some i) := by
    intro i
    obtain ⟨k, ks, rfl⟩ := List.exists_cons_of_ne_nil hn
    by_cases e : s.flag fs = some i <;> simp [news, State.newFlights, State.newFlight, e, List.mapIdx_eq_ofFn]
  constructor
  · rw [hcur]; rfl
  · rw [hd]; simp [s1, State.onGrp, State.modGroup, State.modCore, State.newFlights]
  · intro i hi'
    rw [ht, hgrp, hany]
    change (up g.flags).getD i 0 = g.flags.getD i 0 + _
    simp only [up]
    cases hx : s.flag fs with
    | none => simp
    | some j =>
      by_cases e : j = i
      · subst e
        simp [List.getD_eq_getElem?_getD, hfl, hi']
      · simp [List.getD_eq_getElem?_getD, e]
  · rw [ht, hgrp]
  · rw [ht, hcur]
    rw [hd]
    unfold State.onGrp State.modGroup
    simp only [s1, State.onCore, State.modCore, modify_modify_same]
    congr 1
    apply modify_congr
    intro c hc
    have : c = s.cur := by simp [State.cur, State.core, List.getD_eq_getElem?_getD, hc]
    subst this
    simp only [Function.comp, h]
    unfold Core.modGroup
    congr 1
  · intro a; rw [hd]; rfl

/-- One operation that writes nothing is dispatched as the operations of a word are. -/
theorem State.dispatch_eq (s : State) (fs : Option Bool) (mask : Word) (held : Option Nat) (acq sc : Bool)
    (kind : FlightKind) (hi : s.issuing = true) (hw : kind.writes = false) :
    s.dispatch fs mask held acq sc kind = s.dispatchAll fs acq sc [(mask, held, kind)] := by
  obtain ⟨g, hg, sh, len⟩ := State.issuing_elim s hi
  have hk := State.core_lt_of_group s _ _ g hg
  let t := s.enter s.nextId (s.flag fs) mask held acq sc kind
  have hg1 : (t.core t.issue.core).group t.issue.slot = some g := by
    obtain ⟨r, p, n, he⟩ := State.enters_eq fs s.nextId acq sc [(mask, held, kind)] s hk
    have e : t = _ := he
    rw [e]
    exact (congrArg (fun c : Core => c.group s.issue.slot) (State.core_modCore s s.issue.core _ hk)).trans hg
  have he : s.dispatchAll fs acq sc [(mask, held, kind)] =
      (t.onGrp fun g => { g with podFence := g.podFence &&& ~~~0 }).countFlag (s.flag fs) := by
    simp [State.dispatchAll, State.enterAll, hw, t]
  rw [he, State.onGrp_id t _ g hg1 (by rw [show ~~~(0 : Word) = BitVec.allOnes 32 from rfl, BitVec.and_allOnes])]
  rfl

theorem State.dispatch_dispatched (s : State) (fs : Option Bool) (mask : Word) (held : Option Nat) (acq sc : Bool)
    (kind : FlightKind) (hi : s.issuing = true) (hw : kind.writes = false) :
    Dispatched s (s.dispatch fs mask held acq sc kind) (s.newFlights fs acq sc [(mask, held, kind)]) := by
  rw [State.dispatch_eq s fs mask held acq sc kind hi hw]
  exact State.dispatchAll_dispatched s fs acq sc _ hi (by simp)

/-- No comparator is set on the bytes of an access: none tests its data, and none matches it (R170). -/
theorem State.unseen_spec (s : State) (store : Bool) (x : LaneAccess) (n : Nat) (h : s.unseen store x n = true)
    (new old : List Byte) : s.valueWatched store x n = false ∧ s.watchers store x n new old = [] := by
  have hoff : ∀ w : Comparator, s.watches { w with data := 0 } store x n [] [] = false →
      s.watches w store x n new old = false := by
    intro w hw
    simp only [State.watches, List.any_eq_false] at hw ⊢
    intro p hp
    have hp := hw p hp
    have e : s.seenAt { w with data := 0 } store x p.1 = s.seenAt w store x p.1 := rfl
    rw [e] at hp
    cases ha : s.seenAt w store x p.1 with
    | none => simp
    | some va =>
      simp only [ha, Option.any_some, Comparator.hits, Bool.not_eq_true] at hp ⊢
      rcases Bool.and_eq_false_iff.1 hp with e | e
      · exact Bool.and_eq_false_iff.2 (.inl e)
      · simp at e
  by_cases hq : s.issue.noWatch.getLsbD x.lane
  · simp [State.valueWatched, State.watchers, hq]
  · simp only [State.unseen, Bool.false_or, hq, Bool.not_eq_true', List.any_eq_false] at h
    constructor
    · simp only [State.valueWatched, Bool.and_eq_false_iff, List.any_eq_false]
      exact .inr fun w hw => by rw [Bool.and_eq_true]; exact fun e => h w hw e.2
    · rw [State.watchers, if_neg hq, List.filter_eq_nil_iff]
      intro i _
      rw [Bool.not_eq_true]
      apply hoff
      rw [List.getD_eq_getElem?_getD]
      cases e : s.cur.watch[i]? with
      | none =>
        simp [State.watches, Comparator.hits, Comparator.compares, Comparator.reset]
      | some w => simpa using h w (List.mem_of_getElem? e)

/-! ## Memory -/

/-- A write to bytes that nobody watches is a write to memory alone (R34, R87). -/
theorem State.performWrite_plain (s : State) (pa : Nat) (bs : List Byte) (h : s.plain pa bs.length) :
    s.performWrite pa bs = { s with mem := s.mem.write pa bs } := by
  have hb : s.bad.filter (fun w => !(decide (pa ≤ w) && decide (w + 32 ≤ pa + bs.length))) = s.bad := by
    apply List.filter_eq_self.2
    intro w hw
    have := h.bad w hw
    simp only [overlap, decide_eq_false_iff_not] at this
    simp only [Bool.not_eq_true', Bool.and_eq_false_iff, decide_eq_false_iff_not]
    omega
  have hw : s.weak.filter (fun w => !(decide (pa ≤ w) && decide (w + 16 ≤ pa + bs.length))) = s.weak := by
    apply List.filter_eq_self.2
    intro w hw
    have := h.weak w hw
    simp only [overlap, decide_eq_false_iff_not] at this
    simp only [Bool.not_eq_true', Bool.and_eq_false_iff, decide_eq_false_iff_not]
    omega
  have hc : s.cores.map (fun c => if c.cares pa bs.length then c.touch pa bs.length else c) = s.cores := by
    conv => rhs; rw [← List.map_id s.cores]
    exact List.map_congr_left fun c hc => by simp [h.unwatched c hc]
  have hn : s.caring pa bs.length = [] := by
    rw [State.caring, List.filter_eq_nil_iff]
    intro k hk
    have hk' : k < s.cores.length := by simpa using hk
    have e : s.core k = s.cores[k] := by simp [State.core, List.getD_eq_getElem?_getD, hk']
    rw [e, h.unwatched _ (List.getElem_mem hk')]
    exact Bool.false_ne_true
  rw [State.performWrite, hn, List.foldl_nil, State.rawWrite, hb, hw, hc]

theorem State.performWrite_writesAt (s : State) (pa : Nat) (bs : List Byte) (h : s.plain pa bs.length) :
    WritesAt s (s.performWrite pa bs) pa bs := by
  rw [State.performWrite_plain s pa bs h]
  exact ⟨fun i hi => Memory.read_write_in _ _ _ _ hi, fun a ha => Memory.read_write_out _ _ _ _ ha, rfl⟩

/-- What the measurement log notes of a write changes no byte of memory (R459). -/
@[simp] theorem State.noteEntry_mem (s : State) (pa : Nat) (bs : List Byte) : (s.noteEntry pa bs).mem = s.mem := by
  unfold State.noteEntry
  dsimp only
  split <;> rfl

/-! ## Reads at once -/

theorem State.noteMalformed_zero (s : State) : s.noteMalformed 0 = s := by
  simp [State.noteMalformed]

/-- Data without errors leave no error record (R441). -/
theorem State.recordErrors_one (s : State) (kind pa n : Nat) (h : ∀ w ∈ s.bad, overlap pa n w 32 = false) :
    s.recordErrors kind [(.phys pa, n)] = s := by
  have e : s.bad.filter (fun w => overlap pa n w 32) = [] := List.filter_eq_nil_iff.2 fun w hw => by simp [h w hw]
  simp [State.recordErrors, e]

theorem State.recordWeak_one (s : State) (pa n : Nat) (h : ∀ w ∈ s.weak, overlap pa n w 16 = false) :
    s.recordWeak [(.phys pa, n)] = s := by
  have e : s.weak.filter (fun w => overlap pa n w 16) = [] := List.filter_eq_nil_iff.2 fun w hw => by simp [h w hw]
  simp [State.recordWeak, e]

/-- A read of the package's own memory where there is no error answers at once and changes nothing (R56, R441). -/
theorem State.readAt_here (s : State) (k id : Nat) (who : List Nat) (pa n : Nat) (hh : s.beyond (.phys pa) = none)
    (hb : ∀ w ∈ s.bad, overlap pa n w 32 = false) (hw : ∀ w ∈ s.weak, overlap pa n w 16 = false) :
    s.readAt k id who pa n = (s, some (s.homeCode (.phys pa) n, s.coreRead k id (.phys pa) n)) := by
  simp [State.readAt, hh, State.recordErrors_one s 2 pa n hb, State.recordWeak_one s pa n hw]

end Sys2Proof.Machine
end

