-- ==== Sys2Proof/Laws/Words.lean ====
section
/-! SUPPORT. The fields of an encoded word: one lemma for each format of the opcode table says what the decoder reads from
the word of an instruction of that format (R195, R213). -/

namespace Sys2Proof.Laws

open Sys2Proof

/-- A field of a sum: what lies above it is a multiple of the weight above it, what lies below is smaller than its own. -/
theorem field {n H v L k m : Nat} (e : n = H + v * k + L) (hH : k * m ∣ H) (hv : v < m) (hL : L < k) :
    n / k % m = v := by
  obtain ⟨h, rfl⟩ := hH
  have hk : 0 < k := by omega
  have e2 : k * m * h + v * k + L = L + k * (m * h + v) := by
    rw [Nat.mul_add, Nat.mul_assoc, Nat.mul_comm v k]; omega
  rw [e, e2, Nat.add_mul_div_left _ _ hk, Nat.div_eq_of_lt hL, Nat.zero_add, Nat.mul_add_mod, Nat.mod_eq_of_lt hv]

theorem low_zero {n H m : Nat} (e : n = H) (h : m ∣ H) : n % m = 0 := by rw [e]; exact Nat.mod_eq_zero_of_dvd h

theorem dvd_term (k : Nat) {m w : Nat} (h : w % m = 0) : m ∣ k * w := Dvd.dvd.mul_left (Nat.dvd_of_mod_eq_zero h) k

theorem bf_eq {n : Nat} (x : BitVec n) {w d : Nat} (h : w / d % 2 ^ n = x.toNat) : bf n w d = x := by
  apply BitVec.eq_of_toNat_eq; simpa [bf] using h

theorem bb_eq (c : Bool) {w d : Nat} (h : w / d % 2 = c.toNat) : bb w d = c := by
  cases c <;> simp_all [bb]

/-- The opcode, C and U bits of a word with a payload of 22 bits (R195). -/
theorem word_head (c u : Bool) (op p n : Nat) (o : op < 256) (hp : p < 4194304)
    (e : op * 4194304 + c.toNat * 2147483648 + u.toNat * 1073741824 + p = n) :
    n < 4294967296 ∧ n / 268435456 % 4 = op / 64 ∧ n / 67108864 % 16 = op / 16 ∧ n / 4194304 % 16 = op % 16 ∧
    bb n 2147483648 = c ∧ bb n 1073741824 = u := by
  have := c.toNat_lt; have := u.toNat_lt
  refine ⟨?_, ?_, ?_, ?_, bb_eq c ?_, bb_eq u ?_⟩ <;> omega

/-- The same of a word whose U bit must be 0. -/
theorem word_head_c (c : Bool) (op p n : Nat) (o : op < 256) (hp : p < 4194304)
    (e : op * 4194304 + c.toNat * 2147483648 + p = n) :
    n < 4294967296 ∧ n / 268435456 % 4 = op / 64 ∧ n / 67108864 % 16 = op / 16 ∧ n / 4194304 % 16 = op % 16 ∧
    bb n 2147483648 = c ∧ n / 1073741824 % 2 = 0 := by
  have := c.toNat_lt
  refine ⟨?_, ?_, ?_, ?_, bb_eq c ?_, ?_⟩ <;> omega

/-- The same of a word whose C and U bits must be 0. -/
theorem word_head_0 (op p n : Nat) (o : op < 256) (hp : p < 4194304) (e : op * 4194304 + p = n) :
    n < 4294967296 ∧ n / 268435456 % 4 = op / 64 ∧ n / 67108864 % 16 = op / 16 ∧ n / 4194304 % 16 = op % 16 ∧
    n / 1073741824 % 4 = 0 := by
  refine ⟨?_, ?_, ?_, ?_, ?_⟩ <;> omega

theorem Format.f1 (op n : Nat) (x0 : BitVec 12) (x1 : BitVec 4) (x2 : BitVec 4) (x3 : Bool) (x4 : Bool) (o : op <
        256) (e : op * 4194304 + x0.toNat * 1024 + x1.toNat * 64 + x2.toNat * 4 + x3.toNat * 2 + x4.toNat * 1 = n) :
    n < 4294967296 ∧ n / 268435456 % 4 = op / 64 ∧ n / 67108864 % 16 = op / 16 ∧ n / 4194304 % 16 = op % 16 ∧ bf 12 n
        1024 = x0 ∧ bf 4 n 64 = x1 ∧ bf 4 n 4 = x2 ∧ bb n 2 = x3 ∧ bb n 1 = x4 ∧ n / 1073741824 % 4 = 0 := by
  have bx0 : x0.toNat < 4096 := x0.isLt
  have bx1 : x1.toNat < 16 := x1.isLt
  have bx2 : x2.toNat < 16 := x2.isLt
  have bx3 : x3.toNat < 2 := x3.toNat_lt
  have bx4 : x4.toNat < 2 := x4.toNat_lt
  have w := word_head_0 op (x0.toNat * 1024 + x1.toNat * 64 + x2.toNat * 4 + x3.toNat * 2 + x4.toNat * 1) n o (by
      omega) (by simp only [← e, Nat.add_assoc])
  refine ⟨w.1, w.2.1, w.2.2.1, w.2.2.2.1, ?_, ?_, ?_, ?_, ?_, ?_⟩
  · exact bf_eq _ (field (H := op * 4194304) (L := x1.toNat * 64 + x2.toNat * 4 + x3.toNat * 2 + x4.toNat * 1)
      (by rw [← e]; simp only [Nat.add_assoc]) (dvd_term _ rfl) bx0 (by omega))
  · exact bf_eq _ (field (H := op * 4194304 + x0.toNat * 1024) (L := x2.toNat * 4 + x3.toNat * 2 + x4.toNat * 1)
      (by rw [← e]; simp only [Nat.add_assoc]) ((dvd_term _ rfl).add (dvd_term _ rfl)) bx1 (by omega))
  · exact bf_eq _ (field (H := op * 4194304 + x0.toNat * 1024 + x1.toNat * 64) (L := x3.toNat * 2 + x4.toNat * 1)
      (by rw [← e]; simp only [Nat.add_assoc]) (((dvd_term _ rfl).add (dvd_term _ rfl)).add (dvd_term _ rfl)) bx2 (by
      omega))
  · exact bb_eq _ (field (H := op * 4194304 + x0.toNat * 1024 + x1.toNat * 64 + x2.toNat * 4) (L := x4.toNat * 1)
      e.symm ((((dvd_term _ rfl).add (dvd_term _ rfl)).add (dvd_term _ rfl)).add (dvd_term _ rfl)) bx3 (by omega))
  · exact bb_eq _ (field (H := op * 4194304 + x0.toNat * 1024 + x1.toNat * 64 + x2.toNat * 4 + x3.toNat * 2) (L := 0)
      (by rw [Nat.add_zero]; exact e.symm) (((((dvd_term _ rfl).add (dvd_term _ rfl)).add (dvd_term _ rfl)).add
      (dvd_term _ rfl)).add (dvd_term _ rfl)) bx4 (by omega))
  · exact w.2.2.2.2

theorem Format.f2 (op n : Nat) (x0 : BitVec 3) (x1 : Bool) (x2 : BitVec 2) (o : op < 256) (e : op * 4194304 +
        x0.toNat * 524288 + x1.toNat * 262144 + x2.toNat * 65536 = n) :
    n < 4294967296 ∧ n / 268435456 % 4 = op / 64 ∧ n / 67108864 % 16 = op / 16 ∧ n / 4194304 % 16 = op % 16 ∧ bf 3 n
        524288 = x0 ∧ bb n 262144 = x1 ∧ bf 2 n 65536 = x2 ∧ n % 65536 = 0 ∧ n / 1073741824 % 4 = 0 := by
  have bx0 : x0.toNat < 8 := x0.isLt
  have bx1 : x1.toNat < 2 := x1.toNat_lt
  have bx2 : x2.toNat < 4 := x2.isLt
  have w := word_head_0 op (x0.toNat * 524288 + x1.toNat * 262144 + x2.toNat * 65536) n o (by omega)
      (by simp only [← e, Nat.add_assoc])
  refine ⟨w.1, w.2.1, w.2.2.1, w.2.2.2.1, ?_, ?_, ?_, ?_, ?_⟩
  · exact bf_eq _ (field (H := op * 4194304) (L := x1.toNat * 262144 + x2.toNat * 65536)
      (by rw [← e]; simp only [Nat.add_assoc]) (dvd_term _ rfl) bx0 (by omega))
  · exact bb_eq _ (field (H := op * 4194304 + x0.toNat * 524288) (L := x2.toNat * 65536) e.symm ((dvd_term _ rfl).add
      (dvd_term _ rfl)) bx1 (by omega))
  · exact bf_eq _ (field (H := op * 4194304 + x0.toNat * 524288 + x1.toNat * 262144) (L := 0)
      (by rw [Nat.add_zero]; exact e.symm) (((dvd_term _ rfl).add (dvd_term _ rfl)).add (dvd_term _ rfl)) bx2 (by
      omega))
  · exact low_zero (H := op * 4194304 + x0.toNat * 524288 + x1.toNat * 262144 + x2.toNat * 65536) (by omega)
      ((((dvd_term _ rfl).add (dvd_term _ rfl)).add (dvd_term _ rfl)).add (dvd_term _ rfl))
  · exact w.2.2.2.2

theorem Format.f3 (op n : Nat) (c : Bool) (o : op < 256) (e : op * 4194304 + c.toNat * 2147483648 = n) :
    n < 4294967296 ∧ n / 268435456 % 4 = op / 64 ∧ n / 67108864 % 16 = op / 16 ∧ n / 4194304 % 16 = op % 16 ∧ bb n
        2147483648 = c ∧ n % 4194304 = 0 ∧ n / 1073741824 % 2 = 0 := by
  have w := word_head_c c op (0) n o (by omega) (by rw [Nat.add_zero]; exact e)
  refine ⟨w.1, w.2.1, w.2.2.1, w.2.2.2.1, w.2.2.2.2.1, ?_, ?_⟩
  · exact low_zero (H := op * 4194304 + c.toNat * 2147483648) (by omega) ((dvd_term _ rfl).add (dvd_term _ rfl))
  · exact w.2.2.2.2.2

theorem Format.f4 (op n : Nat) (x0 : BitVec 22) (o : op < 256) (e : op * 4194304 + x0.toNat * 1 = n) :
    n < 4294967296 ∧ n / 268435456 % 4 = op / 64 ∧ n / 67108864 % 16 = op / 16 ∧ n / 4194304 % 16 = op % 16 ∧ bf 22 n
        1 = x0 ∧ n / 1073741824 % 4 = 0 := by
  have bx0 : x0.toNat < 4194304 := x0.isLt
  have w := word_head_0 op (x0.toNat * 1) n o (by omega) e
  refine ⟨w.1, w.2.1, w.2.2.1, w.2.2.2.1, ?_, ?_⟩
  · exact bf_eq _ (field (H := op * 4194304) (L := 0) (by rw [Nat.add_zero]; exact e.symm) (dvd_term _ rfl) bx0 (by
      omega))
  · exact w.2.2.2.2

theorem Format.f5 (op n : Nat) (c : Bool) (u : Bool) (x2 : BitVec 7) (x3 : BitVec 7) (x4 : BitVec 7) (x5 : Bool) (o :
        op < 256) (e : op * 4194304 + c.toNat * 2147483648 + u.toNat * 1073741824 + x2.toNat * 32768 + x3.toNat * 256 +
        x4.toNat * 2 + x5.toNat * 1 = n) :
    n < 4294967296 ∧ n / 268435456 % 4 = op / 64 ∧ n / 67108864 % 16 = op / 16 ∧ n / 4194304 % 16 = op % 16 ∧ bb n
        2147483648 = c ∧ bb n 1073741824 = u ∧ bf 7 n 32768 = x2 ∧ bf 7 n 256 = x3 ∧ bf 7 n 2 = x4 ∧ bb n 1 = x5 :=
        by
  have bx2 : x2.toNat < 128 := x2.isLt
  have bx3 : x3.toNat < 128 := x3.isLt
  have bx4 : x4.toNat < 128 := x4.isLt
  have bx5 : x5.toNat < 2 := x5.toNat_lt
  have w := word_head c u op (x2.toNat * 32768 + x3.toNat * 256 + x4.toNat * 2 + x5.toNat * 1) n o (by omega)
      (by simp only [← e, Nat.add_assoc])
  refine ⟨w.1, w.2.1, w.2.2.1, w.2.2.2.1, w.2.2.2.2.1, w.2.2.2.2.2, ?_, ?_, ?_, ?_⟩
  · exact bf_eq _ (field (H := op * 4194304 + c.toNat * 2147483648 + u.toNat * 1073741824) (L := x3.toNat * 256 +
      x4.toNat * 2 + x5.toNat * 1) (by rw [← e]; simp only [Nat.add_assoc]) (((dvd_term _ rfl).add (dvd_term _
      rfl)).add (dvd_term _ rfl)) bx2 (by omega))
  · exact bf_eq _ (field (H := op * 4194304 + c.toNat * 2147483648 + u.toNat * 1073741824 + x2.toNat * 32768) (L :=
      x4.toNat * 2 + x5.toNat * 1) (by rw [← e]; simp only [Nat.add_assoc]) ((((dvd_term _ rfl).add (dvd_term _
      rfl)).add (dvd_term _ rfl)).add (dvd_term _ rfl)) bx3 (by omega))
  · exact bf_eq _ (field (H := op * 4194304 + c.toNat * 2147483648 + u.toNat * 1073741824 + x2.toNat * 32768 +
      x3.toNat * 256) (L := x5.toNat * 1) e.symm (((((dvd_term _ rfl).add (dvd_term _ rfl)).add (dvd_term _ rfl)).add
      (dvd_term _ rfl)).add (dvd_term _ rfl)) bx4 (by omega))
  · exact bb_eq _ (field (H := op * 4194304 + c.toNat * 2147483648 + u.toNat * 1073741824 + x2.toNat * 32768 +
      x3.toNat * 256 + x4.toNat * 2) (L := 0) (by rw [Nat.add_zero]; exact e.symm) ((((((dvd_term _ rfl).add
      (dvd_term _ rfl)).add (dvd_term _ rfl)).add (dvd_term _ rfl)).add (dvd_term _ rfl)).add (dvd_term _ rfl)) bx5
      (by omega))

theorem Format.f6 (op n : Nat) (c : Bool) (u : Bool) (x2 : Bool) (x3 : BitVec 6) (x4 : BitVec 7) (x5 : BitVec 7) (x6
        : Bool) (o : op < 256) (e : op * 4194304 + c.toNat * 2147483648 + u.toNat * 1073741824 + x2.toNat * 2097152 +
        x3.toNat * 32768 + x4.toNat * 256 + x5.toNat * 2 + x6.toNat * 1 = n) :
    n < 4294967296 ∧ n / 268435456 % 4 = op / 64 ∧ n / 67108864 % 16 = op / 16 ∧ n / 4194304 % 16 = op % 16 ∧ bb n
        2147483648 = c ∧ bb n 1073741824 = u ∧ bb n 2097152 = x2 ∧ bf 6 n 32768 = x3 ∧ bf 7 n 256 = x4 ∧ bf 7 n 2 =
        x5 ∧ bb n 1 = x6 := by
  have bx2 : x2.toNat < 2 := x2.toNat_lt
  have bx3 : x3.toNat < 64 := x3.isLt
  have bx4 : x4.toNat < 128 := x4.isLt
  have bx5 : x5.toNat < 128 := x5.isLt
  have bx6 : x6.toNat < 2 := x6.toNat_lt
  have w := word_head c u op (x2.toNat * 2097152 + x3.toNat * 32768 + x4.toNat * 256 + x5.toNat * 2 + x6.toNat * 1) n
      o (by omega) (by simp only [← e, Nat.add_assoc])
  refine ⟨w.1, w.2.1, w.2.2.1, w.2.2.2.1, w.2.2.2.2.1, w.2.2.2.2.2, ?_, ?_, ?_, ?_, ?_⟩
  · exact bb_eq _ (field (H := op * 4194304 + c.toNat * 2147483648 + u.toNat * 1073741824) (L := x3.toNat * 32768 +
      x4.toNat * 256 + x5.toNat * 2 + x6.toNat * 1) (by rw [← e]; simp only [Nat.add_assoc]) (((dvd_term _ rfl).add
      (dvd_term _ rfl)).add (dvd_term _ rfl)) bx2 (by omega))
  · exact bf_eq _ (field (H := op * 4194304 + c.toNat * 2147483648 + u.toNat * 1073741824 + x2.toNat * 2097152) (L :=
      x4.toNat * 256 + x5.toNat * 2 + x6.toNat * 1) (by rw [← e]; simp only [Nat.add_assoc]) ((((dvd_term _ rfl).add
      (dvd_term _ rfl)).add (dvd_term _ rfl)).add (dvd_term _ rfl)) bx3 (by omega))
  · exact bf_eq _ (field (H := op * 4194304 + c.toNat * 2147483648 + u.toNat * 1073741824 + x2.toNat * 2097152 +
      x3.toNat * 32768) (L := x5.toNat * 2 + x6.toNat * 1) (by rw [← e]; simp only [Nat.add_assoc]) (((((dvd_term _
      rfl).add (dvd_term _ rfl)).add (dvd_term _ rfl)).add (dvd_term _ rfl)).add (dvd_term _ rfl)) bx4 (by omega))
  · exact bf_eq _ (field (H := op * 4194304 + c.toNat * 2147483648 + u.toNat * 1073741824 + x2.toNat * 2097152 +
      x3.toNat * 32768 + x4.toNat * 256) (L := x6.toNat * 1) e.symm ((((((dvd_term _ rfl).add (dvd_term _ rfl)).add
      (dvd_term _ rfl)).add (dvd_term _ rfl)).add (dvd_term _ rfl)).add (dvd_term _ rfl)) bx5 (by omega))
  · exact bb_eq _ (field (H := op * 4194304 + c.toNat * 2147483648 + u.toNat * 1073741824 + x2.toNat * 2097152 +
      x3.toNat * 32768 + x4.toNat * 256 + x5.toNat * 2) (L := 0) (by rw [Nat.add_zero]; exact e.symm) (((((((dvd_term
      _ rfl).add (dvd_term _ rfl)).add (dvd_term _ rfl)).add (dvd_term _ rfl)).add (dvd_term _ rfl)).add (dvd_term _
      rfl)).add (dvd_term _ rfl)) bx6 (by omega))

theorem Format.f7 (op n : Nat) (c : Bool) (u : Bool) (x2 : BitVec 7) (x3 : BitVec 7) (o : op < 256) (e : op * 4194304
        + c.toNat * 2147483648 + u.toNat * 1073741824 + x2.toNat * 32768 + x3.toNat * 256 = n) :
    n < 4294967296 ∧ n / 268435456 % 4 = op / 64 ∧ n / 67108864 % 16 = op / 16 ∧ n / 4194304 % 16 = op % 16 ∧ bb n
        2147483648 = c ∧ bb n 1073741824 = u ∧ bf 7 n 32768 = x2 ∧ bf 7 n 256 = x3 ∧ n % 256 = 0 := by
  have bx2 : x2.toNat < 128 := x2.isLt
  have bx3 : x3.toNat < 128 := x3.isLt
  have w := word_head c u op (x2.toNat * 32768 + x3.toNat * 256) n o (by omega) (by simp only [← e, Nat.add_assoc])
  refine ⟨w.1, w.2.1, w.2.2.1, w.2.2.2.1, w.2.2.2.2.1, w.2.2.2.2.2, ?_, ?_, ?_⟩
  · exact bf_eq _ (field (H := op * 4194304 + c.toNat * 2147483648 + u.toNat * 1073741824) (L := x3.toNat * 256)
      e.symm (((dvd_term _ rfl).add (dvd_term _ rfl)).add (dvd_term _ rfl)) bx2 (by omega))
  · exact bf_eq _ (field (H := op * 4194304 + c.toNat * 2147483648 + u.toNat * 1073741824 + x2.toNat * 32768) (L :=
      0) (by rw [Nat.add_zero]; exact e.symm) ((((dvd_term _ rfl).add (dvd_term _ rfl)).add (dvd_term _ rfl)).add
      (dvd_term _ rfl)) bx3 (by omega))
  · exact low_zero (H := op * 4194304 + c.toNat * 2147483648 + u.toNat * 1073741824 + x2.toNat * 32768 + x3.toNat *
      256) (by omega) (((((dvd_term _ rfl).add (dvd_term _ rfl)).add (dvd_term _ rfl)).add (dvd_term _ rfl)).add
      (dvd_term _ rfl))

theorem Format.f8 (op n : Nat) (c : Bool) (u : Bool) (x2 : BitVec 4) (x3 : BitVec 3) (x4 : BitVec 7) (x5 : BitVec 7)
        (x6 : Bool) (o : op < 256) (e : op * 4194304 + c.toNat * 2147483648 + u.toNat * 1073741824 + x2.toNat * 262144 +
        x3.toNat * 32768 + x4.toNat * 256 + x5.toNat * 2 + x6.toNat * 1 = n) :
    n < 4294967296 ∧ n / 268435456 % 4 = op / 64 ∧ n / 67108864 % 16 = op / 16 ∧ n / 4194304 % 16 = op % 16 ∧ bb n
        2147483648 = c ∧ bb n 1073741824 = u ∧ bf 4 n 262144 = x2 ∧ bf 3 n 32768 = x3 ∧ bf 7 n 256 = x4 ∧ bf 7 n 2 =
        x5 ∧ bb n 1 = x6 := by
  have bx2 : x2.toNat < 16 := x2.isLt
  have bx3 : x3.toNat < 8 := x3.isLt
  have bx4 : x4.toNat < 128 := x4.isLt
  have bx5 : x5.toNat < 128 := x5.isLt
  have bx6 : x6.toNat < 2 := x6.toNat_lt
  have w := word_head c u op (x2.toNat * 262144 + x3.toNat * 32768 + x4.toNat * 256 + x5.toNat * 2 + x6.toNat * 1) n
      o (by omega) (by simp only [← e, Nat.add_assoc])
  refine ⟨w.1, w.2.1, w.2.2.1, w.2.2.2.1, w.2.2.2.2.1, w.2.2.2.2.2, ?_, ?_, ?_, ?_, ?_⟩
  · exact bf_eq _ (field (H := op * 4194304 + c.toNat * 2147483648 + u.toNat * 1073741824) (L := x3.toNat * 32768 +
      x4.toNat * 256 + x5.toNat * 2 + x6.toNat * 1) (by rw [← e]; simp only [Nat.add_assoc]) (((dvd_term _ rfl).add
      (dvd_term _ rfl)).add (dvd_term _ rfl)) bx2 (by omega))
  · exact bf_eq _ (field (H := op * 4194304 + c.toNat * 2147483648 + u.toNat * 1073741824 + x2.toNat * 262144) (L :=
      x4.toNat * 256 + x5.toNat * 2 + x6.toNat * 1) (by rw [← e]; simp only [Nat.add_assoc]) ((((dvd_term _ rfl).add
      (dvd_term _ rfl)).add (dvd_term _ rfl)).add (dvd_term _ rfl)) bx3 (by omega))
  · exact bf_eq _ (field (H := op * 4194304 + c.toNat * 2147483648 + u.toNat * 1073741824 + x2.toNat * 262144 +
      x3.toNat * 32768) (L := x5.toNat * 2 + x6.toNat * 1) (by rw [← e]; simp only [Nat.add_assoc]) (((((dvd_term _
      rfl).add (dvd_term _ rfl)).add (dvd_term _ rfl)).add (dvd_term _ rfl)).add (dvd_term _ rfl)) bx4 (by omega))
  · exact bf_eq _ (field (H := op * 4194304 + c.toNat * 2147483648 + u.toNat * 1073741824 + x2.toNat * 262144 +
      x3.toNat * 32768 + x4.toNat * 256) (L := x6.toNat * 1) e.symm ((((((dvd_term _ rfl).add (dvd_term _ rfl)).add
      (dvd_term _ rfl)).add (dvd_term _ rfl)).add (dvd_term _ rfl)).add (dvd_term _ rfl)) bx5 (by omega))
  · exact bb_eq _ (field (H := op * 4194304 + c.toNat * 2147483648 + u.toNat * 1073741824 + x2.toNat * 262144 +
      x3.toNat * 32768 + x4.toNat * 256 + x5.toNat * 2) (L := 0) (by rw [Nat.add_zero]; exact e.symm) (((((((dvd_term
      _ rfl).add (dvd_term _ rfl)).add (dvd_term _ rfl)).add (dvd_term _ rfl)).add (dvd_term _ rfl)).add (dvd_term _
      rfl)).add (dvd_term _ rfl)) bx6 (by omega))

theorem Format.f9 (op n : Nat) (c : Bool) (u : Bool) (x2 : BitVec 4) (x3 : BitVec 3) (x4 : BitVec 3) (x5 : BitVec 3)
        (o : op < 256) (e : op * 4194304 + c.toNat * 2147483648 + u.toNat * 1073741824 + x2.toNat * 262144 + x3.toNat *
        32768 + x4.toNat * 256 + x5.toNat * 2 = n) :
    n < 4294967296 ∧ n / 268435456 % 4 = op / 64 ∧ n / 67108864 % 16 = op / 16 ∧ n / 4194304 % 16 = op % 16 ∧ bb n
        2147483648 = c ∧ bb n 1073741824 = u ∧ bf 4 n 262144 = x2 ∧ bf 3 n 32768 = x3 ∧ bf 3 n 256 = x4 ∧ bf 3 n 2 =
        x5 ∧ n % 2 = 0 ∧ n / 16 % 16 = 0 ∧ n / 2048 % 16 = 0 := by
  have bx2 : x2.toNat < 16 := x2.isLt
  have bx3 : x3.toNat < 8 := x3.isLt
  have bx4 : x4.toNat < 8 := x4.isLt
  have bx5 : x5.toNat < 8 := x5.isLt
  have w := word_head c u op (x2.toNat * 262144 + x3.toNat * 32768 + x4.toNat * 256 + x5.toNat * 2) n o (by omega)
      (by simp only [← e, Nat.add_assoc])
  refine ⟨w.1, w.2.1, w.2.2.1, w.2.2.2.1, w.2.2.2.2.1, w.2.2.2.2.2, ?_, ?_, ?_, ?_, ?_, ?_, ?_⟩
  · exact bf_eq _ (field (H := op * 4194304 + c.toNat * 2147483648 + u.toNat * 1073741824) (L := x3.toNat * 32768 +
      x4.toNat * 256 + x5.toNat * 2) (by rw [← e]; simp only [Nat.add_assoc]) (((dvd_term _ rfl).add (dvd_term _
      rfl)).add (dvd_term _ rfl)) bx2 (by omega))
  · exact bf_eq _ (field (H := op * 4194304 + c.toNat * 2147483648 + u.toNat * 1073741824 + x2.toNat * 262144) (L :=
      x4.toNat * 256 + x5.toNat * 2) (by rw [← e]; simp only [Nat.add_assoc]) ((((dvd_term _ rfl).add (dvd_term _
      rfl)).add (dvd_term _ rfl)).add (dvd_term _ rfl)) bx3 (by omega))
  · exact bf_eq _ (field (H := op * 4194304 + c.toNat * 2147483648 + u.toNat * 1073741824 + x2.toNat * 262144 +
      x3.toNat * 32768) (L := x5.toNat * 2) e.symm (((((dvd_term _ rfl).add (dvd_term _ rfl)).add (dvd_term _
      rfl)).add (dvd_term _ rfl)).add (dvd_term _ rfl)) bx4 (by omega))
  · exact bf_eq _ (field (H := op * 4194304 + c.toNat * 2147483648 + u.toNat * 1073741824 + x2.toNat * 262144 +
      x3.toNat * 32768 + x4.toNat * 256) (L := 0) (by rw [Nat.add_zero]; exact e.symm) ((((((dvd_term _ rfl).add
      (dvd_term _ rfl)).add (dvd_term _ rfl)).add (dvd_term _ rfl)).add (dvd_term _ rfl)).add (dvd_term _ rfl)) bx5
      (by omega))
  · exact low_zero (H := op * 4194304 + c.toNat * 2147483648 + u.toNat * 1073741824 + x2.toNat * 262144 + x3.toNat *
      32768 + x4.toNat * 256 + x5.toNat * 2) (by omega) (((((((dvd_term _ rfl).add (dvd_term _ rfl)).add (dvd_term _
      rfl)).add (dvd_term _ rfl)).add (dvd_term _ rfl)).add (dvd_term _ rfl)).add (dvd_term _ rfl))
  · exact field (H := op * 4194304 + c.toNat * 2147483648 + u.toNat * 1073741824 + x2.toNat * 262144 + x3.toNat *
      32768 + x4.toNat * 256) (v := 0) (L := x5.toNat * 2) (by omega) ((((((dvd_term _ rfl).add (dvd_term _ rfl)).add
      (dvd_term _ rfl)).add (dvd_term _ rfl)).add (dvd_term _ rfl)).add (dvd_term _ rfl)) (by decide) (by omega)
  · exact field (H := op * 4194304 + c.toNat * 2147483648 + u.toNat * 1073741824 + x2.toNat * 262144 + x3.toNat *
      32768) (v := 0) (L := x4.toNat * 256 + x5.toNat * 2) (by omega) (((((dvd_term _ rfl).add (dvd_term _ rfl)).add
      (dvd_term _ rfl)).add (dvd_term _ rfl)).add (dvd_term _ rfl)) (by decide) (by omega)

theorem Format.f10 (op n : Nat) (c : Bool) (u : Bool) (x2 : BitVec 7) (x3 : BitVec 7) (x4 : Bool) (o : op < 256) (e :
        op * 4194304 + c.toNat * 2147483648 + u.toNat * 1073741824 + x2.toNat * 32768 + x3.toNat * 2 + x4.toNat * 1 = n)
        :
    n < 4294967296 ∧ n / 268435456 % 4 = op / 64 ∧ n / 67108864 % 16 = op / 16 ∧ n / 4194304 % 16 = op % 16 ∧ bb n
        2147483648 = c ∧ bb n 1073741824 = u ∧ bf 7 n 32768 = x2 ∧ bf 7 n 2 = x3 ∧ bb n 1 = x4 ∧ bf 7 n 256 = 0#7 :=
        by
  have bx2 : x2.toNat < 128 := x2.isLt
  have bx3 : x3.toNat < 128 := x3.isLt
  have bx4 : x4.toNat < 2 := x4.toNat_lt
  have w := word_head c u op (x2.toNat * 32768 + x3.toNat * 2 + x4.toNat * 1) n o (by omega)
      (by simp only [← e, Nat.add_assoc])
  refine ⟨w.1, w.2.1, w.2.2.1, w.2.2.2.1, w.2.2.2.2.1, w.2.2.2.2.2, ?_, ?_, ?_, ?_⟩
  · exact bf_eq _ (field (H := op * 4194304 + c.toNat * 2147483648 + u.toNat * 1073741824) (L := x3.toNat * 2 +
      x4.toNat * 1) (by rw [← e]; simp only [Nat.add_assoc]) (((dvd_term _ rfl).add (dvd_term _ rfl)).add (dvd_term _
      rfl)) bx2 (by omega))
  · exact bf_eq _ (field (H := op * 4194304 + c.toNat * 2147483648 + u.toNat * 1073741824 + x2.toNat * 32768) (L :=
      x4.toNat * 1) e.symm ((((dvd_term _ rfl).add (dvd_term _ rfl)).add (dvd_term _ rfl)).add (dvd_term _ rfl)) bx3
      (by omega))
  · exact bb_eq _ (field (H := op * 4194304 + c.toNat * 2147483648 + u.toNat * 1073741824 + x2.toNat * 32768 +
      x3.toNat * 2) (L := 0) (by rw [Nat.add_zero]; exact e.symm) (((((dvd_term _ rfl).add (dvd_term _ rfl)).add
      (dvd_term _ rfl)).add (dvd_term _ rfl)).add (dvd_term _ rfl)) bx4 (by omega))
  · exact bf_eq _ (field (H := op * 4194304 + c.toNat * 2147483648 + u.toNat * 1073741824 + x2.toNat * 32768) (v :=
      0) (L := x3.toNat * 2 + x4.toNat * 1) (by omega) ((((dvd_term _ rfl).add (dvd_term _ rfl)).add (dvd_term _
      rfl)).add (dvd_term _ rfl)) (by decide) (by omega))

theorem Format.f11 (op n : Nat) (c : Bool) (u : Bool) (x2 : BitVec 7) (x3 : BitVec 7) (x4 : Bool) (o : op < 256) (e :
        op * 4194304 + 256 + c.toNat * 2147483648 + u.toNat * 1073741824 + x2.toNat * 32768 + x3.toNat * 2 + x4.toNat * 1
        = n) :
    n < 4294967296 ∧ n / 268435456 % 4 = op / 64 ∧ n / 67108864 % 16 = op / 16 ∧ n / 4194304 % 16 = op % 16 ∧ bb n
        2147483648 = c ∧ bb n 1073741824 = u ∧ bf 7 n 32768 = x2 ∧ bf 7 n 2 = x3 ∧ bb n 1 = x4 ∧ bf 7 n 256 = 1#7 :=
        by
  have bx2 : x2.toNat < 128 := x2.isLt
  have bx3 : x3.toNat < 128 := x3.isLt
  have bx4 : x4.toNat < 2 := x4.toNat_lt
  have w := word_head c u op (x2.toNat * 32768 + 256 + x3.toNat * 2 + x4.toNat * 1) n o (by omega)
      (by rw [← e]; ac_rfl)
  refine ⟨w.1, w.2.1, w.2.2.1, w.2.2.2.1, w.2.2.2.2.1, w.2.2.2.2.2, ?_, ?_, ?_, ?_⟩
  · exact bf_eq _ (field (H := op * 4194304 + c.toNat * 2147483648 + u.toNat * 1073741824) (L := 256 + x3.toNat * 2 +
      x4.toNat * 1) (by rw [← e]; ac_rfl) (((dvd_term _ rfl).add (dvd_term _ rfl)).add (dvd_term _ rfl)) bx2 (by
      omega))
  · exact bf_eq _ (field (H := op * 4194304 + c.toNat * 2147483648 + u.toNat * 1073741824 + x2.toNat * 32768 + 256)
      (L := x4.toNat * 1) (by rw [← e]; ac_rfl) (((((dvd_term _ rfl).add (dvd_term _ rfl)).add (dvd_term _ rfl)).add
      (dvd_term _ rfl)).add (Nat.dvd_of_mod_eq_zero rfl)) bx3 (by omega))
  · exact bb_eq _ (field (H := op * 4194304 + c.toNat * 2147483648 + u.toNat * 1073741824 + x2.toNat * 32768 + 256 +
      x3.toNat * 2) (L := 0) (by omega) ((((((dvd_term _ rfl).add (dvd_term _ rfl)).add (dvd_term _ rfl)).add
      (dvd_term _ rfl)).add (Nat.dvd_of_mod_eq_zero rfl)).add (dvd_term _ rfl)) bx4 (by omega))
  · exact bf_eq _ (field (H := op * 4194304 + c.toNat * 2147483648 + u.toNat * 1073741824 + x2.toNat * 32768) (v :=
      1) (L := x3.toNat * 2 + x4.toNat * 1) (by omega) ((((dvd_term _ rfl).add (dvd_term _ rfl)).add (dvd_term _
      rfl)).add (dvd_term _ rfl)) (by decide) (by omega))

theorem Format.f12 (op n : Nat) (c : Bool) (u : Bool) (x2 : BitVec 7) (x3 : BitVec 7) (x4 : Bool) (o : op < 256) (e :
        op * 4194304 + 512 + c.toNat * 2147483648 + u.toNat * 1073741824 + x2.toNat * 32768 + x3.toNat * 2 + x4.toNat * 1
        = n) :
    n < 4294967296 ∧ n / 268435456 % 4 = op / 64 ∧ n / 67108864 % 16 = op / 16 ∧ n / 4194304 % 16 = op % 16 ∧ bb n
        2147483648 = c ∧ bb n 1073741824 = u ∧ bf 7 n 32768 = x2 ∧ bf 7 n 2 = x3 ∧ bb n 1 = x4 ∧ bf 7 n 256 = 2#7 :=
        by
  have bx2 : x2.toNat < 128 := x2.isLt
  have bx3 : x3.toNat < 128 := x3.isLt
  have bx4 : x4.toNat < 2 := x4.toNat_lt
  have w := word_head c u op (x2.toNat * 32768 + 512 + x3.toNat * 2 + x4.toNat * 1) n o (by omega)
      (by rw [← e]; ac_rfl)
  refine ⟨w.1, w.2.1, w.2.2.1, w.2.2.2.1, w.2.2.2.2.1, w.2.2.2.2.2, ?_, ?_, ?_, ?_⟩
  · exact bf_eq _ (field (H := op * 4194304 + c.toNat * 2147483648 + u.toNat * 1073741824) (L := 512 + x3.toNat * 2 +
      x4.toNat * 1) (by rw [← e]; ac_rfl) (((dvd_term _ rfl).add (dvd_term _ rfl)).add (dvd_term _ rfl)) bx2 (by
      omega))
  · exact bf_eq _ (field (H := op * 4194304 + c.toNat * 2147483648 + u.toNat * 1073741824 + x2.toNat * 32768 + 512)
      (L := x4.toNat * 1) (by rw [← e]; ac_rfl) (((((dvd_term _ rfl).add (dvd_term _ rfl)).add (dvd_term _ rfl)).add
      (dvd_term _ rfl)).add (Nat.dvd_of_mod_eq_zero rfl)) bx3 (by omega))
  · exact bb_eq _ (field (H := op * 4194304 + c.toNat * 2147483648 + u.toNat * 1073741824 + x2.toNat * 32768 + 512 +
      x3.toNat * 2) (L := 0) (by omega) ((((((dvd_term _ rfl).add (dvd_term _ rfl)).add (dvd_term _ rfl)).add
      (dvd_term _ rfl)).add (Nat.dvd_of_mod_eq_zero rfl)).add (dvd_term _ rfl)) bx4 (by omega))
  · exact bf_eq _ (field (H := op * 4194304 + c.toNat * 2147483648 + u.toNat * 1073741824 + x2.toNat * 32768) (v :=
      2) (L := x3.toNat * 2 + x4.toNat * 1) (by omega) ((((dvd_term _ rfl).add (dvd_term _ rfl)).add (dvd_term _
      rfl)).add (dvd_term _ rfl)) (by decide) (by omega))

theorem Format.f13 (op n : Nat) (c : Bool) (u : Bool) (x2 : BitVec 7) (x3 : BitVec 15) (o : op < 256) (e : op *
        4194304 + c.toNat * 2147483648 + u.toNat * 1073741824 + x2.toNat * 32768 + x3.toNat * 1 = n) :
    n < 4294967296 ∧ n / 268435456 % 4 = op / 64 ∧ n / 67108864 % 16 = op / 16 ∧ n / 4194304 % 16 = op % 16 ∧ bb n
        2147483648 = c ∧ bb n 1073741824 = u ∧ bf 7 n 32768 = x2 ∧ bf 15 n 1 = x3 := by
  have bx2 : x2.toNat < 128 := x2.isLt
  have bx3 : x3.toNat < 32768 := x3.isLt
  have w := word_head c u op (x2.toNat * 32768 + x3.toNat * 1) n o (by omega) (by simp only [← e, Nat.add_assoc])
  refine ⟨w.1, w.2.1, w.2.2.1, w.2.2.2.1, w.2.2.2.2.1, w.2.2.2.2.2, ?_, ?_⟩
  · exact bf_eq _ (field (H := op * 4194304 + c.toNat * 2147483648 + u.toNat * 1073741824) (L := x3.toNat * 1) e.symm
      (((dvd_term _ rfl).add (dvd_term _ rfl)).add (dvd_term _ rfl)) bx2 (by omega))
  · exact bf_eq _ (field (H := op * 4194304 + c.toNat * 2147483648 + u.toNat * 1073741824 + x2.toNat * 32768) (L :=
      0) (by rw [Nat.add_zero]; exact e.symm) ((((dvd_term _ rfl).add (dvd_term _ rfl)).add (dvd_term _ rfl)).add
      (dvd_term _ rfl)) bx3 (by omega))

theorem Format.f14 (op n : Nat) (c : Bool) (u : Bool) (x2 : BitVec 6) (x3 : Bool) (x4 : BitVec 6) (x5 : BitVec 7) (x6
        : Bool) (o : op < 256) (e : op * 4194304 + c.toNat * 2147483648 + u.toNat * 1073741824 + x2.toNat * 32768 +
        x3.toNat * 16384 + x4.toNat * 256 + x5.toNat * 2 + x6.toNat * 1 = n) :
    n < 4294967296 ∧ n / 268435456 % 4 = op / 64 ∧ n / 67108864 % 16 = op / 16 ∧ n / 4194304 % 16 = op % 16 ∧ bb n
        2147483648 = c ∧ bb n 1073741824 = u ∧ bf 6 n 32768 = x2 ∧ bb n 16384 = x3 ∧ bf 6 n 256 = x4 ∧ bf 7 n 2 = x5
        ∧ bb n 1 = x6 ∧ n / 2097152 % 2 = 0 := by
  have bx2 : x2.toNat < 64 := x2.isLt
  have bx3 : x3.toNat < 2 := x3.toNat_lt
  have bx4 : x4.toNat < 64 := x4.isLt
  have bx5 : x5.toNat < 128 := x5.isLt
  have bx6 : x6.toNat < 2 := x6.toNat_lt
  have w := word_head c u op (x2.toNat * 32768 + x3.toNat * 16384 + x4.toNat * 256 + x5.toNat * 2 + x6.toNat * 1) n o
      (by omega) (by simp only [← e, Nat.add_assoc])
  refine ⟨w.1, w.2.1, w.2.2.1, w.2.2.2.1, w.2.2.2.2.1, w.2.2.2.2.2, ?_, ?_, ?_, ?_, ?_, ?_⟩
  · exact bf_eq _ (field (H := op * 4194304 + c.toNat * 2147483648 + u.toNat * 1073741824) (L := x3.toNat * 16384 +
      x4.toNat * 256 + x5.toNat * 2 + x6.toNat * 1) (by rw [← e]; simp only [Nat.add_assoc]) (((dvd_term _ rfl).add
      (dvd_term _ rfl)).add (dvd_term _ rfl)) bx2 (by omega))
  · exact bb_eq _ (field (H := op * 4194304 + c.toNat * 2147483648 + u.toNat * 1073741824 + x2.toNat * 32768) (L :=
      x4.toNat * 256 + x5.toNat * 2 + x6.toNat * 1) (by rw [← e]; simp only [Nat.add_assoc]) ((((dvd_term _ rfl).add
      (dvd_term _ rfl)).add (dvd_term _ rfl)).add (dvd_term _ rfl)) bx3 (by omega))
  · exact bf_eq _ (field (H := op * 4194304 + c.toNat * 2147483648 + u.toNat * 1073741824 + x2.toNat * 32768 +
      x3.toNat * 16384) (L := x5.toNat * 2 + x6.toNat * 1) (by rw [← e]; simp only [Nat.add_assoc]) (((((dvd_term _
      rfl).add (dvd_term _ rfl)).add (dvd_term _ rfl)).add (dvd_term _ rfl)).add (dvd_term _ rfl)) bx4 (by omega))
  · exact bf_eq _ (field (H := op * 4194304 + c.toNat * 2147483648 + u.toNat * 1073741824 + x2.toNat * 32768 +
      x3.toNat * 16384 + x4.toNat * 256) (L := x6.toNat * 1) e.symm ((((((dvd_term _ rfl).add (dvd_term _ rfl)).add
      (dvd_term _ rfl)).add (dvd_term _ rfl)).add (dvd_term _ rfl)).add (dvd_term _ rfl)) bx5 (by omega))
  · exact bb_eq _ (field (H := op * 4194304 + c.toNat * 2147483648 + u.toNat * 1073741824 + x2.toNat * 32768 +
      x3.toNat * 16384 + x4.toNat * 256 + x5.toNat * 2) (L := 0) (by rw [Nat.add_zero]; exact e.symm) (((((((dvd_term
      _ rfl).add (dvd_term _ rfl)).add (dvd_term _ rfl)).add (dvd_term _ rfl)).add (dvd_term _ rfl)).add (dvd_term _
      rfl)).add (dvd_term _ rfl)) bx6 (by omega))
  · exact field (H := op * 4194304 + c.toNat * 2147483648 + u.toNat * 1073741824) (v := 0) (L := x2.toNat * 32768 +
      x3.toNat * 16384 + x4.toNat * 256 + x5.toNat * 2 + x6.toNat * 1) (by omega) (((dvd_term _ rfl).add (dvd_term _
      rfl)).add (dvd_term _ rfl)) (by decide) (by omega)

theorem Format.f15 (op n : Nat) (c : Bool) (u : Bool) (x2 : Bool) (x3 : BitVec 6) (x4 : Bool) (x5 : BitVec 6) (x6 :
        BitVec 7) (x7 : Bool) (o : op < 256) (e : op * 4194304 + c.toNat * 2147483648 + u.toNat * 1073741824 + x2.toNat *
        2097152 + x3.toNat * 32768 + x4.toNat * 16384 + x5.toNat * 256 + x6.toNat * 2 + x7.toNat * 1 = n) :
    n < 4294967296 ∧ n / 268435456 % 4 = op / 64 ∧ n / 67108864 % 16 = op / 16 ∧ n / 4194304 % 16 = op % 16 ∧ bb n
        2147483648 = c ∧ bb n 1073741824 = u ∧ bb n 2097152 = x2 ∧ bf 6 n 32768 = x3 ∧ bb n 16384 = x4 ∧ bf 6 n 256 =
        x5 ∧ bf 7 n 2 = x6 ∧ bb n 1 = x7 := by
  have bx2 : x2.toNat < 2 := x2.toNat_lt
  have bx3 : x3.toNat < 64 := x3.isLt
  have bx4 : x4.toNat < 2 := x4.toNat_lt
  have bx5 : x5.toNat < 64 := x5.isLt
  have bx6 : x6.toNat < 128 := x6.isLt
  have bx7 : x7.toNat < 2 := x7.toNat_lt
  have w := word_head c u op (x2.toNat * 2097152 + x3.toNat * 32768 + x4.toNat * 16384 + x5.toNat * 256 + x6.toNat *
      2 + x7.toNat * 1) n o (by omega) (by simp only [← e, Nat.add_assoc])
  refine ⟨w.1, w.2.1, w.2.2.1, w.2.2.2.1, w.2.2.2.2.1, w.2.2.2.2.2, ?_, ?_, ?_, ?_, ?_, ?_⟩
  · exact bb_eq _ (field (H := op * 4194304 + c.toNat * 2147483648 + u.toNat * 1073741824) (L := x3.toNat * 32768 +
      x4.toNat * 16384 + x5.toNat * 256 + x6.toNat * 2 + x7.toNat * 1) (by rw [← e]; simp only [Nat.add_assoc])
      (((dvd_term _ rfl).add (dvd_term _ rfl)).add (dvd_term _ rfl)) bx2 (by omega))
  · exact bf_eq _ (field (H := op * 4194304 + c.toNat * 2147483648 + u.toNat * 1073741824 + x2.toNat * 2097152) (L :=
      x4.toNat * 16384 + x5.toNat * 256 + x6.toNat * 2 + x7.toNat * 1) (by rw [← e]; simp only [Nat.add_assoc])
      ((((dvd_term _ rfl).add (dvd_term _ rfl)).add (dvd_term _ rfl)).add (dvd_term _ rfl)) bx3 (by omega))
  · exact bb_eq _ (field (H := op * 4194304 + c.toNat * 2147483648 + u.toNat * 1073741824 + x2.toNat * 2097152 +
      x3.toNat * 32768) (L := x5.toNat * 256 + x6.toNat * 2 + x7.toNat * 1) (by rw [← e]; simp only [Nat.add_assoc])
      (((((dvd_term _ rfl).add (dvd_term _ rfl)).add (dvd_term _ rfl)).add (dvd_term _ rfl)).add (dvd_term _ rfl))
      bx4 (by omega))
  · exact bf_eq _ (field (H := op * 4194304 + c.toNat * 2147483648 + u.toNat * 1073741824 + x2.toNat * 2097152 +
      x3.toNat * 32768 + x4.toNat * 16384) (L := x6.toNat * 2 + x7.toNat * 1)
      (by rw [← e]; simp only [Nat.add_assoc]) ((((((dvd_term _ rfl).add (dvd_term _ rfl)).add (dvd_term _ rfl)).add
      (dvd_term _ rfl)).add (dvd_term _ rfl)).add (dvd_term _ rfl)) bx5 (by omega))
  · exact bf_eq _ (field (H := op * 4194304 + c.toNat * 2147483648 + u.toNat * 1073741824 + x2.toNat * 2097152 +
      x3.toNat * 32768 + x4.toNat * 16384 + x5.toNat * 256) (L := x7.toNat * 1) e.symm (((((((dvd_term _ rfl).add
      (dvd_term _ rfl)).add (dvd_term _ rfl)).add (dvd_term _ rfl)).add (dvd_term _ rfl)).add (dvd_term _ rfl)).add
      (dvd_term _ rfl)) bx6 (by omega))
  · exact bb_eq _ (field (H := op * 4194304 + c.toNat * 2147483648 + u.toNat * 1073741824 + x2.toNat * 2097152 +
      x3.toNat * 32768 + x4.toNat * 16384 + x5.toNat * 256 + x6.toNat * 2) (L := 0)
      (by rw [Nat.add_zero]; exact e.symm) ((((((((dvd_term _ rfl).add (dvd_term _ rfl)).add (dvd_term _ rfl)).add
      (dvd_term _ rfl)).add (dvd_term _ rfl)).add (dvd_term _ rfl)).add (dvd_term _ rfl)).add (dvd_term _ rfl)) bx7
      (by omega))

theorem Format.f16 (op n : Nat) (c : Bool) (u : Bool) (x2 : BitVec 4) (x3 : BitVec 3) (x4 : Bool) (x5 : BitVec 6) (x6
        : BitVec 7) (x7 : Bool) (o : op < 256) (e : op * 4194304 + c.toNat * 2147483648 + u.toNat * 1073741824 + x2.toNat
        * 262144 + x3.toNat * 32768 + x4.toNat * 16384 + x5.toNat * 256 + x6.toNat * 2 + x7.toNat * 1 = n) :
    n < 4294967296 ∧ n / 268435456 % 4 = op / 64 ∧ n / 67108864 % 16 = op / 16 ∧ n / 4194304 % 16 = op % 16 ∧ bb n
        2147483648 = c ∧ bb n 1073741824 = u ∧ bf 4 n 262144 = x2 ∧ bf 3 n 32768 = x3 ∧ bb n 16384 = x4 ∧ bf 6 n 256
        = x5 ∧ bf 7 n 2 = x6 ∧ bb n 1 = x7 := by
  have bx2 : x2.toNat < 16 := x2.isLt
  have bx3 : x3.toNat < 8 := x3.isLt
  have bx4 : x4.toNat < 2 := x4.toNat_lt
  have bx5 : x5.toNat < 64 := x5.isLt
  have bx6 : x6.toNat < 128 := x6.isLt
  have bx7 : x7.toNat < 2 := x7.toNat_lt
  have w := word_head c u op (x2.toNat * 262144 + x3.toNat * 32768 + x4.toNat * 16384 + x5.toNat * 256 + x6.toNat * 2
      + x7.toNat * 1) n o (by omega) (by simp only [← e, Nat.add_assoc])
  refine ⟨w.1, w.2.1, w.2.2.1, w.2.2.2.1, w.2.2.2.2.1, w.2.2.2.2.2, ?_, ?_, ?_, ?_, ?_, ?_⟩
  · exact bf_eq _ (field (H := op * 4194304 + c.toNat * 2147483648 + u.toNat * 1073741824) (L := x3.toNat * 32768 +
      x4.toNat * 16384 + x5.toNat * 256 + x6.toNat * 2 + x7.toNat * 1) (by rw [← e]; simp only [Nat.add_assoc])
      (((dvd_term _ rfl).add (dvd_term _ rfl)).add (dvd_term _ rfl)) bx2 (by omega))
  · exact bf_eq _ (field (H := op * 4194304 + c.toNat * 2147483648 + u.toNat * 1073741824 + x2.toNat * 262144) (L :=
      x4.toNat * 16384 + x5.toNat * 256 + x6.toNat * 2 + x7.toNat * 1) (by rw [← e]; simp only [Nat.add_assoc])
      ((((dvd_term _ rfl).add (dvd_term _ rfl)).add (dvd_term _ rfl)).add (dvd_term _ rfl)) bx3 (by omega))
  · exact bb_eq _ (field (H := op * 4194304 + c.toNat * 2147483648 + u.toNat * 1073741824 + x2.toNat * 262144 +
      x3.toNat * 32768) (L := x5.toNat * 256 + x6.toNat * 2 + x7.toNat * 1) (by rw [← e]; simp only [Nat.add_assoc])
      (((((dvd_term _ rfl).add (dvd_term _ rfl)).add (dvd_term _ rfl)).add (dvd_term _ rfl)).add (dvd_term _ rfl))
      bx4 (by omega))
  · exact bf_eq _ (field (H := op * 4194304 + c.toNat * 2147483648 + u.toNat * 1073741824 + x2.toNat * 262144 +
      x3.toNat * 32768 + x4.toNat * 16384) (L := x6.toNat * 2 + x7.toNat * 1)
      (by rw [← e]; simp only [Nat.add_assoc]) ((((((dvd_term _ rfl).add (dvd_term _ rfl)).add (dvd_term _ rfl)).add
      (dvd_term _ rfl)).add (dvd_term _ rfl)).add (dvd_term _ rfl)) bx5 (by omega))
  · exact bf_eq _ (field (H := op * 4194304 + c.toNat * 2147483648 + u.toNat * 1073741824 + x2.toNat * 262144 +
      x3.toNat * 32768 + x4.toNat * 16384 + x5.toNat * 256) (L := x7.toNat * 1) e.symm (((((((dvd_term _ rfl).add
      (dvd_term _ rfl)).add (dvd_term _ rfl)).add (dvd_term _ rfl)).add (dvd_term _ rfl)).add (dvd_term _ rfl)).add
      (dvd_term _ rfl)) bx6 (by omega))
  · exact bb_eq _ (field (H := op * 4194304 + c.toNat * 2147483648 + u.toNat * 1073741824 + x2.toNat * 262144 +
      x3.toNat * 32768 + x4.toNat * 16384 + x5.toNat * 256 + x6.toNat * 2) (L := 0)
      (by rw [Nat.add_zero]; exact e.symm) ((((((((dvd_term _ rfl).add (dvd_term _ rfl)).add (dvd_term _ rfl)).add
      (dvd_term _ rfl)).add (dvd_term _ rfl)).add (dvd_term _ rfl)).add (dvd_term _ rfl)).add (dvd_term _ rfl)) bx7
      (by omega))

theorem Format.f17 (op n : Nat) (c : Bool) (u : Bool) (x2 : BitVec 3) (x3 : Bool) (x4 : BitVec 18) (o : op < 256) (e
        : op * 4194304 + c.toNat * 2147483648 + u.toNat * 1073741824 + x2.toNat * 524288 + x3.toNat * 262144 + x4.toNat *
        1 = n) :
    n < 4294967296 ∧ n / 268435456 % 4 = op / 64 ∧ n / 67108864 % 16 = op / 16 ∧ n / 4194304 % 16 = op % 16 ∧ bb n
        2147483648 = c ∧ bb n 1073741824 = u ∧ bf 3 n 524288 = x2 ∧ bb n 262144 = x3 ∧ bf 18 n 1 = x4 := by
  have bx2 : x2.toNat < 8 := x2.isLt
  have bx3 : x3.toNat < 2 := x3.toNat_lt
  have bx4 : x4.toNat < 262144 := x4.isLt
  have w := word_head c u op (x2.toNat * 524288 + x3.toNat * 262144 + x4.toNat * 1) n o (by omega)
      (by simp only [← e, Nat.add_assoc])
  refine ⟨w.1, w.2.1, w.2.2.1, w.2.2.2.1, w.2.2.2.2.1, w.2.2.2.2.2, ?_, ?_, ?_⟩
  · exact bf_eq _ (field (H := op * 4194304 + c.toNat * 2147483648 + u.toNat * 1073741824) (L := x3.toNat * 262144 +
      x4.toNat * 1) (by rw [← e]; simp only [Nat.add_assoc]) (((dvd_term _ rfl).add (dvd_term _ rfl)).add (dvd_term _
      rfl)) bx2 (by omega))
  · exact bb_eq _ (field (H := op * 4194304 + c.toNat * 2147483648 + u.toNat * 1073741824 + x2.toNat * 524288) (L :=
      x4.toNat * 1) e.symm ((((dvd_term _ rfl).add (dvd_term _ rfl)).add (dvd_term _ rfl)).add (dvd_term _ rfl)) bx3
      (by omega))
  · exact bf_eq _ (field (H := op * 4194304 + c.toNat * 2147483648 + u.toNat * 1073741824 + x2.toNat * 524288 +
      x3.toNat * 262144) (L := 0) (by rw [Nat.add_zero]; exact e.symm) (((((dvd_term _ rfl).add (dvd_term _ rfl)).add
      (dvd_term _ rfl)).add (dvd_term _ rfl)).add (dvd_term _ rfl)) bx4 (by omega))

theorem Format.f18 (op n : Nat) (c : Bool) (u : Bool) (x2 : BitVec 22) (o : op < 256) (e : op * 4194304 + c.toNat *
        2147483648 + u.toNat * 1073741824 + x2.toNat * 1 = n) :
    n < 4294967296 ∧ n / 268435456 % 4 = op / 64 ∧ n / 67108864 % 16 = op / 16 ∧ n / 4194304 % 16 = op % 16 ∧ bb n
        2147483648 = c ∧ bb n 1073741824 = u ∧ bf 22 n 1 = x2 := by
  have bx2 : x2.toNat < 4194304 := x2.isLt
  have w := word_head c u op (x2.toNat * 1) n o (by omega) e
  refine ⟨w.1, w.2.1, w.2.2.1, w.2.2.2.1, w.2.2.2.2.1, w.2.2.2.2.2, ?_⟩
  · exact bf_eq _ (field (H := op * 4194304 + c.toNat * 2147483648 + u.toNat * 1073741824) (L := 0)
      (by rw [Nat.add_zero]; exact e.symm) (((dvd_term _ rfl).add (dvd_term _ rfl)).add (dvd_term _ rfl)) bx2 (by
      omega))

theorem Format.f19 (op n : Nat) (c : Bool) (u : Bool) (x2 : BitVec 7) (o : op < 256) (e : op * 4194304 + c.toNat *
        2147483648 + u.toNat * 1073741824 + x2.toNat * 256 = n) :
    n < 4294967296 ∧ n / 268435456 % 4 = op / 64 ∧ n / 67108864 % 16 = op / 16 ∧ n / 4194304 % 16 = op % 16 ∧ bb n
        2147483648 = c ∧ bb n 1073741824 = u ∧ bf 7 n 256 = x2 ∧ n % 256 = 0 ∧ n / 32768 % 128 = 0 := by
  have bx2 : x2.toNat < 128 := x2.isLt
  have w := word_head c u op (x2.toNat * 256) n o (by omega) e
  refine ⟨w.1, w.2.1, w.2.2.1, w.2.2.2.1, w.2.2.2.2.1, w.2.2.2.2.2, ?_, ?_, ?_⟩
  · exact bf_eq _ (field (H := op * 4194304 + c.toNat * 2147483648 + u.toNat * 1073741824) (L := 0)
      (by rw [Nat.add_zero]; exact e.symm) (((dvd_term _ rfl).add (dvd_term _ rfl)).add (dvd_term _ rfl)) bx2 (by
      omega))
  · exact low_zero (H := op * 4194304 + c.toNat * 2147483648 + u.toNat * 1073741824 + x2.toNat * 256) (by omega)
      ((((dvd_term _ rfl).add (dvd_term _ rfl)).add (dvd_term _ rfl)).add (dvd_term _ rfl))
  · exact field (H := op * 4194304 + c.toNat * 2147483648 + u.toNat * 1073741824) (v := 0) (L := x2.toNat * 256) (by
      omega) (((dvd_term _ rfl).add (dvd_term _ rfl)).add (dvd_term _ rfl)) (by decide) (by omega)

theorem Format.f20 (op n : Nat) (c : Bool) (u : Bool) (o : op < 256) (e : op * 4194304 + c.toNat * 2147483648 +
        u.toNat * 1073741824 = n) :
    n < 4294967296 ∧ n / 268435456 % 4 = op / 64 ∧ n / 67108864 % 16 = op / 16 ∧ n / 4194304 % 16 = op % 16 ∧ bb n
        2147483648 = c ∧ bb n 1073741824 = u ∧ n % 4194304 = 0 := by
  have w := word_head c u op (0) n o (by omega) (by rw [Nat.add_zero]; exact e)
  refine ⟨w.1, w.2.1, w.2.2.1, w.2.2.2.1, w.2.2.2.2.1, w.2.2.2.2.2, ?_⟩
  · exact low_zero (H := op * 4194304 + c.toNat * 2147483648 + u.toNat * 1073741824) (by omega) (((dvd_term _
      rfl).add (dvd_term _ rfl)).add (dvd_term _ rfl))

theorem Format.f21 (op n : Nat) (c : Bool) (u : Bool) (x2 : BitVec 7) (x3 : BitVec 7) (x4 : Bool) (o : op < 256) (e :
        op * 4194304 + c.toNat * 2147483648 + u.toNat * 1073741824 + x2.toNat * 256 + x3.toNat * 2 + x4.toNat * 1 = n) :
    n < 4294967296 ∧ n / 268435456 % 4 = op / 64 ∧ n / 67108864 % 16 = op / 16 ∧ n / 4194304 % 16 = op % 16 ∧ bb n
        2147483648 = c ∧ bb n 1073741824 = u ∧ bf 7 n 256 = x2 ∧ bf 7 n 2 = x3 ∧ bb n 1 = x4 ∧ n / 32768 % 128 = 0 :=
        by
  have bx2 : x2.toNat < 128 := x2.isLt
  have bx3 : x3.toNat < 128 := x3.isLt
  have bx4 : x4.toNat < 2 := x4.toNat_lt
  have w := word_head c u op (x2.toNat * 256 + x3.toNat * 2 + x4.toNat * 1) n o (by omega)
      (by simp only [← e, Nat.add_assoc])
  refine ⟨w.1, w.2.1, w.2.2.1, w.2.2.2.1, w.2.2.2.2.1, w.2.2.2.2.2, ?_, ?_, ?_, ?_⟩
  · exact bf_eq _ (field (H := op * 4194304 + c.toNat * 2147483648 + u.toNat * 1073741824) (L := x3.toNat * 2 +
      x4.toNat * 1) (by rw [← e]; simp only [Nat.add_assoc]) (((dvd_term _ rfl).add (dvd_term _ rfl)).add (dvd_term _
      rfl)) bx2 (by omega))
  · exact bf_eq _ (field (H := op * 4194304 + c.toNat * 2147483648 + u.toNat * 1073741824 + x2.toNat * 256) (L :=
      x4.toNat * 1) e.symm ((((dvd_term _ rfl).add (dvd_term _ rfl)).add (dvd_term _ rfl)).add (dvd_term _ rfl)) bx3
      (by omega))
  · exact bb_eq _ (field (H := op * 4194304 + c.toNat * 2147483648 + u.toNat * 1073741824 + x2.toNat * 256 + x3.toNat
      * 2) (L := 0) (by rw [Nat.add_zero]; exact e.symm) (((((dvd_term _ rfl).add (dvd_term _ rfl)).add (dvd_term _
      rfl)).add (dvd_term _ rfl)).add (dvd_term _ rfl)) bx4 (by omega))
  · exact field (H := op * 4194304 + c.toNat * 2147483648 + u.toNat * 1073741824) (v := 0) (L := x2.toNat * 256 +
      x3.toNat * 2 + x4.toNat * 1) (by omega) (((dvd_term _ rfl).add (dvd_term _ rfl)).add (dvd_term _ rfl)) (by
      decide) (by omega)

theorem Format.f22 (op n : Nat) (c : Bool) (u : Bool) (x2 : BitVec 7) (x3 : BitVec 3) (x4 : BitVec 3) (o : op < 256)
        (e : op * 4194304 + c.toNat * 2147483648 + u.toNat * 1073741824 + x2.toNat * 32768 + x3.toNat * 4096 + x4.toNat *
        256 = n) :
    n < 4294967296 ∧ n / 268435456 % 4 = op / 64 ∧ n / 67108864 % 16 = op / 16 ∧ n / 4194304 % 16 = op % 16 ∧ bb n
        2147483648 = c ∧ bb n 1073741824 = u ∧ bf 7 n 32768 = x2 ∧ bf 3 n 4096 = x3 ∧ bf 3 n 256 = x4 ∧ n % 256 = 0 ∧
        n / 2048 % 2 = 0 := by
  have bx2 : x2.toNat < 128 := x2.isLt
  have bx3 : x3.toNat < 8 := x3.isLt
  have bx4 : x4.toNat < 8 := x4.isLt
  have w := word_head c u op (x2.toNat * 32768 + x3.toNat * 4096 + x4.toNat * 256) n o (by omega)
      (by simp only [← e, Nat.add_assoc])
  refine ⟨w.1, w.2.1, w.2.2.1, w.2.2.2.1, w.2.2.2.2.1, w.2.2.2.2.2, ?_, ?_, ?_, ?_, ?_⟩
  · exact bf_eq _ (field (H := op * 4194304 + c.toNat * 2147483648 + u.toNat * 1073741824) (L := x3.toNat * 4096 +
      x4.toNat * 256) (by rw [← e]; simp only [Nat.add_assoc]) (((dvd_term _ rfl).add (dvd_term _ rfl)).add (dvd_term
      _ rfl)) bx2 (by omega))
  · exact bf_eq _ (field (H := op * 4194304 + c.toNat * 2147483648 + u.toNat * 1073741824 + x2.toNat * 32768) (L :=
      x4.toNat * 256) e.symm ((((dvd_term _ rfl).add (dvd_term _ rfl)).add (dvd_term _ rfl)).add (dvd_term _ rfl))
      bx3 (by omega))
  · exact bf_eq _ (field (H := op * 4194304 + c.toNat * 2147483648 + u.toNat * 1073741824 + x2.toNat * 32768 +
      x3.toNat * 4096) (L := 0) (by rw [Nat.add_zero]; exact e.symm) (((((dvd_term _ rfl).add (dvd_term _ rfl)).add
      (dvd_term _ rfl)).add (dvd_term _ rfl)).add (dvd_term _ rfl)) bx4 (by omega))
  · exact low_zero (H := op * 4194304 + c.toNat * 2147483648 + u.toNat * 1073741824 + x2.toNat * 32768 + x3.toNat *
      4096 + x4.toNat * 256) (by omega) ((((((dvd_term _ rfl).add (dvd_term _ rfl)).add (dvd_term _ rfl)).add
      (dvd_term _ rfl)).add (dvd_term _ rfl)).add (dvd_term _ rfl))
  · exact field (H := op * 4194304 + c.toNat * 2147483648 + u.toNat * 1073741824 + x2.toNat * 32768 + x3.toNat *
      4096) (v := 0) (L := x4.toNat * 256) (by omega) (((((dvd_term _ rfl).add (dvd_term _ rfl)).add (dvd_term _
      rfl)).add (dvd_term _ rfl)).add (dvd_term _ rfl)) (by decide) (by omega)

theorem Format.f23 (op n : Nat) (c : Bool) (u : Bool) (x2 : BitVec 7) (x3 : BitVec 7) (x4 : BitVec 8) (o : op < 256)
        (e : op * 4194304 + c.toNat * 2147483648 + u.toNat * 1073741824 + x2.toNat * 32768 + x3.toNat * 256 + x4.toNat *
        1 = n) :
    n < 4294967296 ∧ n / 268435456 % 4 = op / 64 ∧ n / 67108864 % 16 = op / 16 ∧ n / 4194304 % 16 = op % 16 ∧ bb n
        2147483648 = c ∧ bb n 1073741824 = u ∧ bf 7 n 32768 = x2 ∧ bf 7 n 256 = x3 ∧ bf 8 n 1 = x4 := by
  have bx2 : x2.toNat < 128 := x2.isLt
  have bx3 : x3.toNat < 128 := x3.isLt
  have bx4 : x4.toNat < 256 := x4.isLt
  have w := word_head c u op (x2.toNat * 32768 + x3.toNat * 256 + x4.toNat * 1) n o (by omega)
      (by simp only [← e, Nat.add_assoc])
  refine ⟨w.1, w.2.1, w.2.2.1, w.2.2.2.1, w.2.2.2.2.1, w.2.2.2.2.2, ?_, ?_, ?_⟩
  · exact bf_eq _ (field (H := op * 4194304 + c.toNat * 2147483648 + u.toNat * 1073741824) (L := x3.toNat * 256 +
      x4.toNat * 1) (by rw [← e]; simp only [Nat.add_assoc]) (((dvd_term _ rfl).add (dvd_term _ rfl)).add (dvd_term _
      rfl)) bx2 (by omega))
  · exact bf_eq _ (field (H := op * 4194304 + c.toNat * 2147483648 + u.toNat * 1073741824 + x2.toNat * 32768) (L :=
      x4.toNat * 1) e.symm ((((dvd_term _ rfl).add (dvd_term _ rfl)).add (dvd_term _ rfl)).add (dvd_term _ rfl)) bx3
      (by omega))
  · exact bf_eq _ (field (H := op * 4194304 + c.toNat * 2147483648 + u.toNat * 1073741824 + x2.toNat * 32768 +
      x3.toNat * 256) (L := 0) (by rw [Nat.add_zero]; exact e.symm) (((((dvd_term _ rfl).add (dvd_term _ rfl)).add
      (dvd_term _ rfl)).add (dvd_term _ rfl)).add (dvd_term _ rfl)) bx4 (by omega))

theorem Format.f24 (op n : Nat) (c : Bool) (u : Bool) (x2 : Bool) (x3 : Bool) (x4 : BitVec 7) (x5 : BitVec 7) (x6 :
        Bool) (o : op < 256) (e : op * 4194304 + c.toNat * 2147483648 + u.toNat * 1073741824 + x2.toNat * 2097152 +
        x3.toNat * 32768 + x4.toNat * 256 + x5.toNat * 2 + x6.toNat * 1 = n) :
    n < 4294967296 ∧ n / 268435456 % 4 = op / 64 ∧ n / 67108864 % 16 = op / 16 ∧ n / 4194304 % 16 = op % 16 ∧ bb n
        2147483648 = c ∧ bb n 1073741824 = u ∧ bb n 2097152 = x2 ∧ bb n 32768 = x3 ∧ bf 7 n 256 = x4 ∧ bf 7 n 2 = x5
        ∧ bb n 1 = x6 ∧ n / 65536 % 32 = 0 := by
  have bx2 : x2.toNat < 2 := x2.toNat_lt
  have bx3 : x3.toNat < 2 := x3.toNat_lt
  have bx4 : x4.toNat < 128 := x4.isLt
  have bx5 : x5.toNat < 128 := x5.isLt
  have bx6 : x6.toNat < 2 := x6.toNat_lt
  have w := word_head c u op (x2.toNat * 2097152 + x3.toNat * 32768 + x4.toNat * 256 + x5.toNat * 2 + x6.toNat * 1) n
      o (by omega) (by simp only [← e, Nat.add_assoc])
  refine ⟨w.1, w.2.1, w.2.2.1, w.2.2.2.1, w.2.2.2.2.1, w.2.2.2.2.2, ?_, ?_, ?_, ?_, ?_, ?_⟩
  · exact bb_eq _ (field (H := op * 4194304 + c.toNat * 2147483648 + u.toNat * 1073741824) (L := x3.toNat * 32768 +
      x4.toNat * 256 + x5.toNat * 2 + x6.toNat * 1) (by rw [← e]; simp only [Nat.add_assoc]) (((dvd_term _ rfl).add
      (dvd_term _ rfl)).add (dvd_term _ rfl)) bx2 (by omega))
  · exact bb_eq _ (field (H := op * 4194304 + c.toNat * 2147483648 + u.toNat * 1073741824 + x2.toNat * 2097152) (L :=
      x4.toNat * 256 + x5.toNat * 2 + x6.toNat * 1) (by rw [← e]; simp only [Nat.add_assoc]) ((((dvd_term _ rfl).add
      (dvd_term _ rfl)).add (dvd_term _ rfl)).add (dvd_term _ rfl)) bx3 (by omega))
  · exact bf_eq _ (field (H := op * 4194304 + c.toNat * 2147483648 + u.toNat * 1073741824 + x2.toNat * 2097152 +
      x3.toNat * 32768) (L := x5.toNat * 2 + x6.toNat * 1) (by rw [← e]; simp only [Nat.add_assoc]) (((((dvd_term _
      rfl).add (dvd_term _ rfl)).add (dvd_term _ rfl)).add (dvd_term _ rfl)).add (dvd_term _ rfl)) bx4 (by omega))
  · exact bf_eq _ (field (H := op * 4194304 + c.toNat * 2147483648 + u.toNat * 1073741824 + x2.toNat * 2097152 +
      x3.toNat * 32768 + x4.toNat * 256) (L := x6.toNat * 1) e.symm ((((((dvd_term _ rfl).add (dvd_term _ rfl)).add
      (dvd_term _ rfl)).add (dvd_term _ rfl)).add (dvd_term _ rfl)).add (dvd_term _ rfl)) bx5 (by omega))
  · exact bb_eq _ (field (H := op * 4194304 + c.toNat * 2147483648 + u.toNat * 1073741824 + x2.toNat * 2097152 +
      x3.toNat * 32768 + x4.toNat * 256 + x5.toNat * 2) (L := 0) (by rw [Nat.add_zero]; exact e.symm) (((((((dvd_term
      _ rfl).add (dvd_term _ rfl)).add (dvd_term _ rfl)).add (dvd_term _ rfl)).add (dvd_term _ rfl)).add (dvd_term _
      rfl)).add (dvd_term _ rfl)) bx6 (by omega))
  · exact field (H := op * 4194304 + c.toNat * 2147483648 + u.toNat * 1073741824 + x2.toNat * 2097152) (v := 0) (L :=
      x3.toNat * 32768 + x4.toNat * 256 + x5.toNat * 2 + x6.toNat * 1) (by omega) ((((dvd_term _ rfl).add (dvd_term _
      rfl)).add (dvd_term _ rfl)).add (dvd_term _ rfl)) (by decide) (by omega)

theorem Format.f25 (op n : Nat) (c : Bool) (u : Bool) (x2 : BitVec 7) (x3 : BitVec 7) (x4 : Bool) (o : op < 256) (e :
        op * 4194304 + c.toNat * 2147483648 + u.toNat * 1073741824 + x2.toNat * 32768 + x3.toNat * 256 + x4.toNat * 2 =
        n) :
    n < 4294967296 ∧ n / 268435456 % 4 = op / 64 ∧ n / 67108864 % 16 = op / 16 ∧ n / 4194304 % 16 = op % 16 ∧ bb n
        2147483648 = c ∧ bb n 1073741824 = u ∧ bf 7 n 32768 = x2 ∧ bf 7 n 256 = x3 ∧ bb n 2 = x4 ∧ n % 2 = 0 ∧ n / 4
        % 64 = 0 := by
  have bx2 : x2.toNat < 128 := x2.isLt
  have bx3 : x3.toNat < 128 := x3.isLt
  have bx4 : x4.toNat < 2 := x4.toNat_lt
  have w := word_head c u op (x2.toNat * 32768 + x3.toNat * 256 + x4.toNat * 2) n o (by omega)
      (by simp only [← e, Nat.add_assoc])
  refine ⟨w.1, w.2.1, w.2.2.1, w.2.2.2.1, w.2.2.2.2.1, w.2.2.2.2.2, ?_, ?_, ?_, ?_, ?_⟩
  · exact bf_eq _ (field (H := op * 4194304 + c.toNat * 2147483648 + u.toNat * 1073741824) (L := x3.toNat * 256 +
      x4.toNat * 2) (by rw [← e]; simp only [Nat.add_assoc]) (((dvd_term _ rfl).add (dvd_term _ rfl)).add (dvd_term _
      rfl)) bx2 (by omega))
  · exact bf_eq _ (field (H := op * 4194304 + c.toNat * 2147483648 + u.toNat * 1073741824 + x2.toNat * 32768) (L :=
      x4.toNat * 2) e.symm ((((dvd_term _ rfl).add (dvd_term _ rfl)).add (dvd_term _ rfl)).add (dvd_term _ rfl)) bx3
      (by omega))
  · exact bb_eq _ (field (H := op * 4194304 + c.toNat * 2147483648 + u.toNat * 1073741824 + x2.toNat * 32768 +
      x3.toNat * 256) (L := 0) (by rw [Nat.add_zero]; exact e.symm) (((((dvd_term _ rfl).add (dvd_term _ rfl)).add
      (dvd_term _ rfl)).add (dvd_term _ rfl)).add (dvd_term _ rfl)) bx4 (by omega))
  · exact low_zero (H := op * 4194304 + c.toNat * 2147483648 + u.toNat * 1073741824 + x2.toNat * 32768 + x3.toNat *
      256 + x4.toNat * 2) (by omega) ((((((dvd_term _ rfl).add (dvd_term _ rfl)).add (dvd_term _ rfl)).add (dvd_term
      _ rfl)).add (dvd_term _ rfl)).add (dvd_term _ rfl))
  · exact field (H := op * 4194304 + c.toNat * 2147483648 + u.toNat * 1073741824 + x2.toNat * 32768 + x3.toNat * 256)
      (v := 0) (L := x4.toNat * 2) (by omega) (((((dvd_term _ rfl).add (dvd_term _ rfl)).add (dvd_term _ rfl)).add
      (dvd_term _ rfl)).add (dvd_term _ rfl)) (by decide) (by omega)

theorem Format.f26 (op n : Nat) (c : Bool) (u : Bool) (x2 : BitVec 7) (x3 : BitVec 3) (x4 : BitVec 4) (o : op < 256)
        (e : op * 4194304 + c.toNat * 2147483648 + u.toNat * 1073741824 + x2.toNat * 256 + x3.toNat * 32 + x4.toNat * 2 =
        n) :
    n < 4294967296 ∧ n / 268435456 % 4 = op / 64 ∧ n / 67108864 % 16 = op / 16 ∧ n / 4194304 % 16 = op % 16 ∧ bb n
        2147483648 = c ∧ bb n 1073741824 = u ∧ bf 7 n 256 = x2 ∧ bf 3 n 32 = x3 ∧ bf 4 n 2 = x4 ∧ n % 2 = 0 ∧ n /
        32768 % 128 = 0 := by
  have bx2 : x2.toNat < 128 := x2.isLt
  have bx3 : x3.toNat < 8 := x3.isLt
  have bx4 : x4.toNat < 16 := x4.isLt
  have w := word_head c u op (x2.toNat * 256 + x3.toNat * 32 + x4.toNat * 2) n o (by omega)
      (by simp only [← e, Nat.add_assoc])
  refine ⟨w.1, w.2.1, w.2.2.1, w.2.2.2.1, w.2.2.2.2.1, w.2.2.2.2.2, ?_, ?_, ?_, ?_, ?_⟩
  · exact bf_eq _ (field (H := op * 4194304 + c.toNat * 2147483648 + u.toNat * 1073741824) (L := x3.toNat * 32 +
      x4.toNat * 2) (by rw [← e]; simp only [Nat.add_assoc]) (((dvd_term _ rfl).add (dvd_term _ rfl)).add (dvd_term _
      rfl)) bx2 (by omega))
  · exact bf_eq _ (field (H := op * 4194304 + c.toNat * 2147483648 + u.toNat * 1073741824 + x2.toNat * 256) (L :=
      x4.toNat * 2) e.symm ((((dvd_term _ rfl).add (dvd_term _ rfl)).add (dvd_term _ rfl)).add (dvd_term _ rfl)) bx3
      (by omega))
  · exact bf_eq _ (field (H := op * 4194304 + c.toNat * 2147483648 + u.toNat * 1073741824 + x2.toNat * 256 + x3.toNat
      * 32) (L := 0) (by rw [Nat.add_zero]; exact e.symm) (((((dvd_term _ rfl).add (dvd_term _ rfl)).add (dvd_term _
      rfl)).add (dvd_term _ rfl)).add (dvd_term _ rfl)) bx4 (by omega))
  · exact low_zero (H := op * 4194304 + c.toNat * 2147483648 + u.toNat * 1073741824 + x2.toNat * 256 + x3.toNat * 32
      + x4.toNat * 2) (by omega) ((((((dvd_term _ rfl).add (dvd_term _ rfl)).add (dvd_term _ rfl)).add (dvd_term _
      rfl)).add (dvd_term _ rfl)).add (dvd_term _ rfl))
  · exact field (H := op * 4194304 + c.toNat * 2147483648 + u.toNat * 1073741824) (v := 0) (L := x2.toNat * 256 +
      x3.toNat * 32 + x4.toNat * 2) (by omega) (((dvd_term _ rfl).add (dvd_term _ rfl)).add (dvd_term _ rfl)) (by
      decide) (by omega)

theorem Format.f27 (op n : Nat) (c : Bool) (u : Bool) (x2 : BitVec 7) (x3 : BitVec 7) (x4 : BitVec 3) (x5 : BitVec 4)
        (o : op < 256) (e : op * 4194304 + c.toNat * 2147483648 + u.toNat * 1073741824 + x2.toNat * 32768 + x3.toNat *
        256 + x4.toNat * 32 + x5.toNat * 2 = n) :
    n < 4294967296 ∧ n / 268435456 % 4 = op / 64 ∧ n / 67108864 % 16 = op / 16 ∧ n / 4194304 % 16 = op % 16 ∧ bb n
        2147483648 = c ∧ bb n 1073741824 = u ∧ bf 7 n 32768 = x2 ∧ bf 7 n 256 = x3 ∧ bf 3 n 32 = x4 ∧ bf 4 n 2 = x5 ∧
        n % 2 = 0 := by
  have bx2 : x2.toNat < 128 := x2.isLt
  have bx3 : x3.toNat < 128 := x3.isLt
  have bx4 : x4.toNat < 8 := x4.isLt
  have bx5 : x5.toNat < 16 := x5.isLt
  have w := word_head c u op (x2.toNat * 32768 + x3.toNat * 256 + x4.toNat * 32 + x5.toNat * 2) n o (by omega)
      (by simp only [← e, Nat.add_assoc])
  refine ⟨w.1, w.2.1, w.2.2.1, w.2.2.2.1, w.2.2.2.2.1, w.2.2.2.2.2, ?_, ?_, ?_, ?_, ?_⟩
  · exact bf_eq _ (field (H := op * 4194304 + c.toNat * 2147483648 + u.toNat * 1073741824) (L := x3.toNat * 256 +
      x4.toNat * 32 + x5.toNat * 2) (by rw [← e]; simp only [Nat.add_assoc]) (((dvd_term _ rfl).add (dvd_term _
      rfl)).add (dvd_term _ rfl)) bx2 (by omega))
  · exact bf_eq _ (field (H := op * 4194304 + c.toNat * 2147483648 + u.toNat * 1073741824 + x2.toNat * 32768) (L :=
      x4.toNat * 32 + x5.toNat * 2) (by rw [← e]; simp only [Nat.add_assoc]) ((((dvd_term _ rfl).add (dvd_term _
      rfl)).add (dvd_term _ rfl)).add (dvd_term _ rfl)) bx3 (by omega))
  · exact bf_eq _ (field (H := op * 4194304 + c.toNat * 2147483648 + u.toNat * 1073741824 + x2.toNat * 32768 +
      x3.toNat * 256) (L := x5.toNat * 2) e.symm (((((dvd_term _ rfl).add (dvd_term _ rfl)).add (dvd_term _ rfl)).add
      (dvd_term _ rfl)).add (dvd_term _ rfl)) bx4 (by omega))
  · exact bf_eq _ (field (H := op * 4194304 + c.toNat * 2147483648 + u.toNat * 1073741824 + x2.toNat * 32768 +
      x3.toNat * 256 + x4.toNat * 32) (L := 0) (by rw [Nat.add_zero]; exact e.symm) ((((((dvd_term _ rfl).add
      (dvd_term _ rfl)).add (dvd_term _ rfl)).add (dvd_term _ rfl)).add (dvd_term _ rfl)).add (dvd_term _ rfl)) bx5
      (by omega))
  · exact low_zero (H := op * 4194304 + c.toNat * 2147483648 + u.toNat * 1073741824 + x2.toNat * 32768 + x3.toNat *
      256 + x4.toNat * 32 + x5.toNat * 2) (by omega) (((((((dvd_term _ rfl).add (dvd_term _ rfl)).add (dvd_term _
      rfl)).add (dvd_term _ rfl)).add (dvd_term _ rfl)).add (dvd_term _ rfl)).add (dvd_term _ rfl))

theorem Format.f28 (op n : Nat) (c : Bool) (u : Bool) (x2 : BitVec 15) (o : op < 256) (e : op * 4194304 + c.toNat *
        2147483648 + u.toNat * 1073741824 + x2.toNat * 1 = n) :
    n < 4294967296 ∧ n / 268435456 % 4 = op / 64 ∧ n / 67108864 % 16 = op / 16 ∧ n / 4194304 % 16 = op % 16 ∧ bb n
        2147483648 = c ∧ bb n 1073741824 = u ∧ bf 15 n 1 = x2 ∧ n / 32768 % 128 = 0 := by
  have bx2 : x2.toNat < 32768 := x2.isLt
  have w := word_head c u op (x2.toNat * 1) n o (by omega) e
  refine ⟨w.1, w.2.1, w.2.2.1, w.2.2.2.1, w.2.2.2.2.1, w.2.2.2.2.2, ?_, ?_⟩
  · exact bf_eq _ (field (H := op * 4194304 + c.toNat * 2147483648 + u.toNat * 1073741824) (L := 0)
      (by rw [Nat.add_zero]; exact e.symm) (((dvd_term _ rfl).add (dvd_term _ rfl)).add (dvd_term _ rfl)) bx2 (by
      omega))
  · exact field (H := op * 4194304 + c.toNat * 2147483648 + u.toNat * 1073741824) (v := 0) (L := x2.toNat * 1) (by
      omega) (((dvd_term _ rfl).add (dvd_term _ rfl)).add (dvd_term _ rfl)) (by decide) (by omega)

theorem Format.f29 (op n : Nat) (c : Bool) (x1 : BitVec 2) (x2 : BitVec 7) (o : op < 256) (e : op * 4194304 + c.toNat
        * 2147483648 + x1.toNat * 1048576 + x2.toNat * 1 = n) :
    n < 4294967296 ∧ n / 268435456 % 4 = op / 64 ∧ n / 67108864 % 16 = op / 16 ∧ n / 4194304 % 16 = op % 16 ∧ bb n
        2147483648 = c ∧ bf 2 n 1048576 = x1 ∧ bf 7 n 1 = x2 ∧ n / 128 % 8192 = 0 ∧ n / 1073741824 % 2 = 0 := by
  have bx1 : x1.toNat < 4 := x1.isLt
  have bx2 : x2.toNat < 128 := x2.isLt
  have w := word_head_c c op (x1.toNat * 1048576 + x2.toNat * 1) n o (by omega) (by simp only [← e, Nat.add_assoc])
  refine ⟨w.1, w.2.1, w.2.2.1, w.2.2.2.1, w.2.2.2.2.1, ?_, ?_, ?_, ?_⟩
  · exact bf_eq _ (field (H := op * 4194304 + c.toNat * 2147483648) (L := x2.toNat * 1) e.symm ((dvd_term _ rfl).add
      (dvd_term _ rfl)) bx1 (by omega))
  · exact bf_eq _ (field (H := op * 4194304 + c.toNat * 2147483648 + x1.toNat * 1048576) (L := 0)
      (by rw [Nat.add_zero]; exact e.symm) (((dvd_term _ rfl).add (dvd_term _ rfl)).add (dvd_term _ rfl)) bx2 (by
      omega))
  · exact field (H := op * 4194304 + c.toNat * 2147483648 + x1.toNat * 1048576) (v := 0) (L := x2.toNat * 1) (by
      omega) (((dvd_term _ rfl).add (dvd_term _ rfl)).add (dvd_term _ rfl)) (by decide) (by omega)
  · exact w.2.2.2.2.2

theorem Format.f30 (op n : Nat) (c : Bool) (u : Bool) (x2 : BitVec 2) (x3 : BitVec 2) (x4 : BitVec 2) (x5 : BitVec 7)
        (o : op < 256) (e : op * 4194304 + c.toNat * 2147483648 + u.toNat * 1073741824 + x2.toNat * 1048576 + x3.toNat *
        262144 + x4.toNat * 65536 + x5.toNat * 256 = n) :
    n < 4294967296 ∧ n / 268435456 % 4 = op / 64 ∧ n / 67108864 % 16 = op / 16 ∧ n / 4194304 % 16 = op % 16 ∧ bb n
        2147483648 = c ∧ bb n 1073741824 = u ∧ bf 2 n 1048576 = x2 ∧ bf 2 n 262144 = x3 ∧ bf 2 n 65536 = x4 ∧ bf 7 n
        256 = x5 ∧ n % 256 = 0 ∧ n / 32768 % 2 = 0 := by
  have bx2 : x2.toNat < 4 := x2.isLt
  have bx3 : x3.toNat < 4 := x3.isLt
  have bx4 : x4.toNat < 4 := x4.isLt
  have bx5 : x5.toNat < 128 := x5.isLt
  have w := word_head c u op (x2.toNat * 1048576 + x3.toNat * 262144 + x4.toNat * 65536 + x5.toNat * 256) n o (by
      omega) (by simp only [← e, Nat.add_assoc])
  refine ⟨w.1, w.2.1, w.2.2.1, w.2.2.2.1, w.2.2.2.2.1, w.2.2.2.2.2, ?_, ?_, ?_, ?_, ?_, ?_⟩
  · exact bf_eq _ (field (H := op * 4194304 + c.toNat * 2147483648 + u.toNat * 1073741824) (L := x3.toNat * 262144 +
      x4.toNat * 65536 + x5.toNat * 256) (by rw [← e]; simp only [Nat.add_assoc]) (((dvd_term _ rfl).add (dvd_term _
      rfl)).add (dvd_term _ rfl)) bx2 (by omega))
  · exact bf_eq _ (field (H := op * 4194304 + c.toNat * 2147483648 + u.toNat * 1073741824 + x2.toNat * 1048576) (L :=
      x4.toNat * 65536 + x5.toNat * 256) (by rw [← e]; simp only [Nat.add_assoc]) ((((dvd_term _ rfl).add (dvd_term _
      rfl)).add (dvd_term _ rfl)).add (dvd_term _ rfl)) bx3 (by omega))
  · exact bf_eq _ (field (H := op * 4194304 + c.toNat * 2147483648 + u.toNat * 1073741824 + x2.toNat * 1048576 +
      x3.toNat * 262144) (L := x5.toNat * 256) e.symm (((((dvd_term _ rfl).add (dvd_term _ rfl)).add (dvd_term _
      rfl)).add (dvd_term _ rfl)).add (dvd_term _ rfl)) bx4 (by omega))
  · exact bf_eq _ (field (H := op * 4194304 + c.toNat * 2147483648 + u.toNat * 1073741824 + x2.toNat * 1048576 +
      x3.toNat * 262144 + x4.toNat * 65536) (L := 0) (by rw [Nat.add_zero]; exact e.symm) ((((((dvd_term _ rfl).add
      (dvd_term _ rfl)).add (dvd_term _ rfl)).add (dvd_term _ rfl)).add (dvd_term _ rfl)).add (dvd_term _ rfl)) bx5
      (by omega))
  · exact low_zero (H := op * 4194304 + c.toNat * 2147483648 + u.toNat * 1073741824 + x2.toNat * 1048576 + x3.toNat *
      262144 + x4.toNat * 65536 + x5.toNat * 256) (by omega) (((((((dvd_term _ rfl).add (dvd_term _ rfl)).add
      (dvd_term _ rfl)).add (dvd_term _ rfl)).add (dvd_term _ rfl)).add (dvd_term _ rfl)).add (dvd_term _ rfl))
  · exact field (H := op * 4194304 + c.toNat * 2147483648 + u.toNat * 1073741824 + x2.toNat * 1048576 + x3.toNat *
      262144 + x4.toNat * 65536) (v := 0) (L := x5.toNat * 256) (by omega) ((((((dvd_term _ rfl).add (dvd_term _
      rfl)).add (dvd_term _ rfl)).add (dvd_term _ rfl)).add (dvd_term _ rfl)).add (dvd_term _ rfl)) (by decide) (by
      omega)

theorem Format.f31 (op n : Nat) (c : Bool) (u : Bool) (x2 : BitVec 7) (x3 : Bool) (x4 : Bool) (o : op < 256) (e : op
        * 4194304 + c.toNat * 2147483648 + u.toNat * 1073741824 + x2.toNat * 32768 + x3.toNat * 2 + x4.toNat * 1 = n) :
    n < 4294967296 ∧ n / 268435456 % 4 = op / 64 ∧ n / 67108864 % 16 = op / 16 ∧ n / 4194304 % 16 = op % 16 ∧ bb n
        2147483648 = c ∧ bb n 1073741824 = u ∧ bf 7 n 32768 = x2 ∧ bb n 2 = x3 ∧ bb n 1 = x4 ∧ n / 4 % 8192 = 0 := by
  have bx2 : x2.toNat < 128 := x2.isLt
  have bx3 : x3.toNat < 2 := x3.toNat_lt
  have bx4 : x4.toNat < 2 := x4.toNat_lt
  have w := word_head c u op (x2.toNat * 32768 + x3.toNat * 2 + x4.toNat * 1) n o (by omega)
      (by simp only [← e, Nat.add_assoc])
  refine ⟨w.1, w.2.1, w.2.2.1, w.2.2.2.1, w.2.2.2.2.1, w.2.2.2.2.2, ?_, ?_, ?_, ?_⟩
  · exact bf_eq _ (field (H := op * 4194304 + c.toNat * 2147483648 + u.toNat * 1073741824) (L := x3.toNat * 2 +
      x4.toNat * 1) (by rw [← e]; simp only [Nat.add_assoc]) (((dvd_term _ rfl).add (dvd_term _ rfl)).add (dvd_term _
      rfl)) bx2 (by omega))
  · exact bb_eq _ (field (H := op * 4194304 + c.toNat * 2147483648 + u.toNat * 1073741824 + x2.toNat * 32768) (L :=
      x4.toNat * 1) e.symm ((((dvd_term _ rfl).add (dvd_term _ rfl)).add (dvd_term _ rfl)).add (dvd_term _ rfl)) bx3
      (by omega))
  · exact bb_eq _ (field (H := op * 4194304 + c.toNat * 2147483648 + u.toNat * 1073741824 + x2.toNat * 32768 +
      x3.toNat * 2) (L := 0) (by rw [Nat.add_zero]; exact e.symm) (((((dvd_term _ rfl).add (dvd_term _ rfl)).add
      (dvd_term _ rfl)).add (dvd_term _ rfl)).add (dvd_term _ rfl)) bx4 (by omega))
  · exact field (H := op * 4194304 + c.toNat * 2147483648 + u.toNat * 1073741824 + x2.toNat * 32768) (v := 0) (L :=
      x3.toNat * 2 + x4.toNat * 1) (by omega) ((((dvd_term _ rfl).add (dvd_term _ rfl)).add (dvd_term _ rfl)).add
      (dvd_term _ rfl)) (by decide) (by omega)

theorem Format.f32 (op n : Nat) (c : Bool) (x1 : BitVec 22) (o : op < 256) (e : op * 4194304 + c.toNat * 2147483648 +
        x1.toNat * 1 = n) :
    n < 4294967296 ∧ n / 268435456 % 4 = op / 64 ∧ n / 67108864 % 16 = op / 16 ∧ n / 4194304 % 16 = op % 16 ∧ bb n
        2147483648 = c ∧ bf 22 n 1 = x1 ∧ n / 1073741824 % 2 = 0 := by
  have bx1 : x1.toNat < 4194304 := x1.isLt
  have w := word_head_c c op (x1.toNat * 1) n o (by omega) e
  refine ⟨w.1, w.2.1, w.2.2.1, w.2.2.2.1, w.2.2.2.2.1, ?_, ?_⟩
  · exact bf_eq _ (field (H := op * 4194304 + c.toNat * 2147483648) (L := 0) (by rw [Nat.add_zero]; exact e.symm)
      ((dvd_term _ rfl).add (dvd_term _ rfl)) bx1 (by omega))
  · exact w.2.2.2.2.2

theorem Format.f33 (op n : Nat) (c : Bool) (u : Bool) (x2 : BitVec 7) (x3 : BitVec 7) (x4 : Bool) (o : op < 256) (e :
        op * 4194304 + c.toNat * 2147483648 + u.toNat * 1073741824 + x2.toNat * 32768 + x3.toNat * 2 + x4.toNat * 1 = n)
        :
    n < 4294967296 ∧ n / 268435456 % 4 = op / 64 ∧ n / 67108864 % 16 = op / 16 ∧ n / 4194304 % 16 = op % 16 ∧ bb n
        2147483648 = c ∧ bb n 1073741824 = u ∧ bf 7 n 32768 = x2 ∧ bf 7 n 2 = x3 ∧ bb n 1 = x4 ∧ n / 256 % 128 = 0 :=
        by
  have bx2 : x2.toNat < 128 := x2.isLt
  have bx3 : x3.toNat < 128 := x3.isLt
  have bx4 : x4.toNat < 2 := x4.toNat_lt
  have w := word_head c u op (x2.toNat * 32768 + x3.toNat * 2 + x4.toNat * 1) n o (by omega)
      (by simp only [← e, Nat.add_assoc])
  refine ⟨w.1, w.2.1, w.2.2.1, w.2.2.2.1, w.2.2.2.2.1, w.2.2.2.2.2, ?_, ?_, ?_, ?_⟩
  · exact bf_eq _ (field (H := op * 4194304 + c.toNat * 2147483648 + u.toNat * 1073741824) (L := x3.toNat * 2 +
      x4.toNat * 1) (by rw [← e]; simp only [Nat.add_assoc]) (((dvd_term _ rfl).add (dvd_term _ rfl)).add (dvd_term _
      rfl)) bx2 (by omega))
  · exact bf_eq _ (field (H := op * 4194304 + c.toNat * 2147483648 + u.toNat * 1073741824 + x2.toNat * 32768) (L :=
      x4.toNat * 1) e.symm ((((dvd_term _ rfl).add (dvd_term _ rfl)).add (dvd_term _ rfl)).add (dvd_term _ rfl)) bx3
      (by omega))
  · exact bb_eq _ (field (H := op * 4194304 + c.toNat * 2147483648 + u.toNat * 1073741824 + x2.toNat * 32768 +
      x3.toNat * 2) (L := 0) (by rw [Nat.add_zero]; exact e.symm) (((((dvd_term _ rfl).add (dvd_term _ rfl)).add
      (dvd_term _ rfl)).add (dvd_term _ rfl)).add (dvd_term _ rfl)) bx4 (by omega))
  · exact field (H := op * 4194304 + c.toNat * 2147483648 + u.toNat * 1073741824 + x2.toNat * 32768) (v := 0) (L :=
      x3.toNat * 2 + x4.toNat * 1) (by omega) ((((dvd_term _ rfl).add (dvd_term _ rfl)).add (dvd_term _ rfl)).add
      (dvd_term _ rfl)) (by decide) (by omega)

theorem Format.f34 (op n : Nat) (c : Bool) (u : Bool) (x2 : BitVec 7) (x3 : BitVec 7) (x4 : BitVec 3) (o : op < 256)
        (e : op * 4194304 + c.toNat * 2147483648 + u.toNat * 1073741824 + x2.toNat * 32768 + x3.toNat * 256 + x4.toNat *
        2 = n) :
    n < 4294967296 ∧ n / 268435456 % 4 = op / 64 ∧ n / 67108864 % 16 = op / 16 ∧ n / 4194304 % 16 = op % 16 ∧ bb n
        2147483648 = c ∧ bb n 1073741824 = u ∧ bf 7 n 32768 = x2 ∧ bf 7 n 256 = x3 ∧ bf 3 n 2 = x4 ∧ n % 2 = 0 ∧ n /
        16 % 16 = 0 := by
  have bx2 : x2.toNat < 128 := x2.isLt
  have bx3 : x3.toNat < 128 := x3.isLt
  have bx4 : x4.toNat < 8 := x4.isLt
  have w := word_head c u op (x2.toNat * 32768 + x3.toNat * 256 + x4.toNat * 2) n o (by omega)
      (by simp only [← e, Nat.add_assoc])
  refine ⟨w.1, w.2.1, w.2.2.1, w.2.2.2.1, w.2.2.2.2.1, w.2.2.2.2.2, ?_, ?_, ?_, ?_, ?_⟩
  · exact bf_eq _ (field (H := op * 4194304 + c.toNat * 2147483648 + u.toNat * 1073741824) (L := x3.toNat * 256 +
      x4.toNat * 2) (by rw [← e]; simp only [Nat.add_assoc]) (((dvd_term _ rfl).add (dvd_term _ rfl)).add (dvd_term _
      rfl)) bx2 (by omega))
  · exact bf_eq _ (field (H := op * 4194304 + c.toNat * 2147483648 + u.toNat * 1073741824 + x2.toNat * 32768) (L :=
      x4.toNat * 2) e.symm ((((dvd_term _ rfl).add (dvd_term _ rfl)).add (dvd_term _ rfl)).add (dvd_term _ rfl)) bx3
      (by omega))
  · exact bf_eq _ (field (H := op * 4194304 + c.toNat * 2147483648 + u.toNat * 1073741824 + x2.toNat * 32768 +
      x3.toNat * 256) (L := 0) (by rw [Nat.add_zero]; exact e.symm) (((((dvd_term _ rfl).add (dvd_term _ rfl)).add
      (dvd_term _ rfl)).add (dvd_term _ rfl)).add (dvd_term _ rfl)) bx4 (by omega))
  · exact low_zero (H := op * 4194304 + c.toNat * 2147483648 + u.toNat * 1073741824 + x2.toNat * 32768 + x3.toNat *
      256 + x4.toNat * 2) (by omega) ((((((dvd_term _ rfl).add (dvd_term _ rfl)).add (dvd_term _ rfl)).add (dvd_term
      _ rfl)).add (dvd_term _ rfl)).add (dvd_term _ rfl))
  · exact field (H := op * 4194304 + c.toNat * 2147483648 + u.toNat * 1073741824 + x2.toNat * 32768 + x3.toNat * 256)
      (v := 0) (L := x4.toNat * 2) (by omega) (((((dvd_term _ rfl).add (dvd_term _ rfl)).add (dvd_term _ rfl)).add
      (dvd_term _ rfl)).add (dvd_term _ rfl)) (by decide) (by omega)

theorem Format.f35 (op n : Nat) (c : Bool) (u : Bool) (x2 : BitVec 6) (x3 : BitVec 7) (x4 : BitVec 7) (x5 : Bool) (o
        : op < 256) (e : op * 4194304 + c.toNat * 2147483648 + u.toNat * 1073741824 + x2.toNat * 32768 + x3.toNat * 256 +
        x4.toNat * 2 + x5.toNat * 1 = n) :
    n < 4294967296 ∧ n / 268435456 % 4 = op / 64 ∧ n / 67108864 % 16 = op / 16 ∧ n / 4194304 % 16 = op % 16 ∧ bb n
        2147483648 = c ∧ bb n 1073741824 = u ∧ bf 6 n 32768 = x2 ∧ bf 7 n 256 = x3 ∧ bf 7 n 2 = x4 ∧ bb n 1 = x5 ∧ n
        / 2097152 % 2 = 0 := by
  have bx2 : x2.toNat < 64 := x2.isLt
  have bx3 : x3.toNat < 128 := x3.isLt
  have bx4 : x4.toNat < 128 := x4.isLt
  have bx5 : x5.toNat < 2 := x5.toNat_lt
  have w := word_head c u op (x2.toNat * 32768 + x3.toNat * 256 + x4.toNat * 2 + x5.toNat * 1) n o (by omega)
      (by simp only [← e, Nat.add_assoc])
  refine ⟨w.1, w.2.1, w.2.2.1, w.2.2.2.1, w.2.2.2.2.1, w.2.2.2.2.2, ?_, ?_, ?_, ?_, ?_⟩
  · exact bf_eq _ (field (H := op * 4194304 + c.toNat * 2147483648 + u.toNat * 1073741824) (L := x3.toNat * 256 +
      x4.toNat * 2 + x5.toNat * 1) (by rw [← e]; simp only [Nat.add_assoc]) (((dvd_term _ rfl).add (dvd_term _
      rfl)).add (dvd_term _ rfl)) bx2 (by omega))
  · exact bf_eq _ (field (H := op * 4194304 + c.toNat * 2147483648 + u.toNat * 1073741824 + x2.toNat * 32768) (L :=
      x4.toNat * 2 + x5.toNat * 1) (by rw [← e]; simp only [Nat.add_assoc]) ((((dvd_term _ rfl).add (dvd_term _
      rfl)).add (dvd_term _ rfl)).add (dvd_term _ rfl)) bx3 (by omega))
  · exact bf_eq _ (field (H := op * 4194304 + c.toNat * 2147483648 + u.toNat * 1073741824 + x2.toNat * 32768 +
      x3.toNat * 256) (L := x5.toNat * 1) e.symm (((((dvd_term _ rfl).add (dvd_term _ rfl)).add (dvd_term _ rfl)).add
      (dvd_term _ rfl)).add (dvd_term _ rfl)) bx4 (by omega))
  · exact bb_eq _ (field (H := op * 4194304 + c.toNat * 2147483648 + u.toNat * 1073741824 + x2.toNat * 32768 +
      x3.toNat * 256 + x4.toNat * 2) (L := 0) (by rw [Nat.add_zero]; exact e.symm) ((((((dvd_term _ rfl).add
      (dvd_term _ rfl)).add (dvd_term _ rfl)).add (dvd_term _ rfl)).add (dvd_term _ rfl)).add (dvd_term _ rfl)) bx5
      (by omega))
  · exact field (H := op * 4194304 + c.toNat * 2147483648 + u.toNat * 1073741824) (v := 0) (L := x2.toNat * 32768 +
      x3.toNat * 256 + x4.toNat * 2 + x5.toNat * 1) (by omega) (((dvd_term _ rfl).add (dvd_term _ rfl)).add (dvd_term
      _ rfl)) (by decide) (by omega)

theorem Format.f36 (op n : Nat) (c : Bool) (u : Bool) (x2 : BitVec 4) (x3 : BitVec 4) (x4 : BitVec 2) (x5 : BitVec 6)
        (x6 : BitVec 6) (o : op < 256) (e : op * 4194304 + c.toNat * 2147483648 + u.toNat * 1073741824 + x2.toNat *
        262144 + x3.toNat * 16384 + x4.toNat * 4096 + x5.toNat * 64 + x6.toNat * 1 = n) :
    n < 4294967296 ∧ n / 268435456 % 4 = op / 64 ∧ n / 67108864 % 16 = op / 16 ∧ n / 4194304 % 16 = op % 16 ∧ bb n
        2147483648 = c ∧ bb n 1073741824 = u ∧ bf 4 n 262144 = x2 ∧ bf 4 n 16384 = x3 ∧ bf 2 n 4096 = x4 ∧ bf 6 n 64
        = x5 ∧ bf 6 n 1 = x6 := by
  have bx2 : x2.toNat < 16 := x2.isLt
  have bx3 : x3.toNat < 16 := x3.isLt
  have bx4 : x4.toNat < 4 := x4.isLt
  have bx5 : x5.toNat < 64 := x5.isLt
  have bx6 : x6.toNat < 64 := x6.isLt
  have w := word_head c u op (x2.toNat * 262144 + x3.toNat * 16384 + x4.toNat * 4096 + x5.toNat * 64 + x6.toNat * 1)
      n o (by omega) (by simp only [← e, Nat.add_assoc])
  refine ⟨w.1, w.2.1, w.2.2.1, w.2.2.2.1, w.2.2.2.2.1, w.2.2.2.2.2, ?_, ?_, ?_, ?_, ?_⟩
  · exact bf_eq _ (field (H := op * 4194304 + c.toNat * 2147483648 + u.toNat * 1073741824) (L := x3.toNat * 16384 +
      x4.toNat * 4096 + x5.toNat * 64 + x6.toNat * 1) (by rw [← e]; simp only [Nat.add_assoc]) (((dvd_term _ rfl).add
      (dvd_term _ rfl)).add (dvd_term _ rfl)) bx2 (by omega))
  · exact bf_eq _ (field (H := op * 4194304 + c.toNat * 2147483648 + u.toNat * 1073741824 + x2.toNat * 262144) (L :=
      x4.toNat * 4096 + x5.toNat * 64 + x6.toNat * 1) (by rw [← e]; simp only [Nat.add_assoc]) ((((dvd_term _
      rfl).add (dvd_term _ rfl)).add (dvd_term _ rfl)).add (dvd_term _ rfl)) bx3 (by omega))
  · exact bf_eq _ (field (H := op * 4194304 + c.toNat * 2147483648 + u.toNat * 1073741824 + x2.toNat * 262144 +
      x3.toNat * 16384) (L := x5.toNat * 64 + x6.toNat * 1) (by rw [← e]; simp only [Nat.add_assoc]) (((((dvd_term _
      rfl).add (dvd_term _ rfl)).add (dvd_term _ rfl)).add (dvd_term _ rfl)).add (dvd_term _ rfl)) bx4 (by omega))
  · exact bf_eq _ (field (H := op * 4194304 + c.toNat * 2147483648 + u.toNat * 1073741824 + x2.toNat * 262144 +
      x3.toNat * 16384 + x4.toNat * 4096) (L := x6.toNat * 1) e.symm ((((((dvd_term _ rfl).add (dvd_term _ rfl)).add
      (dvd_term _ rfl)).add (dvd_term _ rfl)).add (dvd_term _ rfl)).add (dvd_term _ rfl)) bx5 (by omega))
  · exact bf_eq _ (field (H := op * 4194304 + c.toNat * 2147483648 + u.toNat * 1073741824 + x2.toNat * 262144 +
      x3.toNat * 16384 + x4.toNat * 4096 + x5.toNat * 64) (L := 0) (by rw [Nat.add_zero]; exact e.symm)
      (((((((dvd_term _ rfl).add (dvd_term _ rfl)).add (dvd_term _ rfl)).add (dvd_term _ rfl)).add (dvd_term _
      rfl)).add (dvd_term _ rfl)).add (dvd_term _ rfl)) bx6 (by omega))

theorem Format.f37 (op n : Nat) (c : Bool) (u : Bool) (x2 : BitVec 5) (x3 : BitVec 2) (x4 : BitVec 7) (x5 : BitVec 7)
        (x6 : Bool) (o : op < 256) (e : op * 4194304 + c.toNat * 2147483648 + u.toNat * 1073741824 + x2.toNat * 131072 +
        x3.toNat * 32768 + x4.toNat * 256 + x5.toNat * 2 + x6.toNat * 1 = n) :
    n < 4294967296 ∧ n / 268435456 % 4 = op / 64 ∧ n / 67108864 % 16 = op / 16 ∧ n / 4194304 % 16 = op % 16 ∧ bb n
        2147483648 = c ∧ bb n 1073741824 = u ∧ bf 5 n 131072 = x2 ∧ bf 2 n 32768 = x3 ∧ bf 7 n 256 = x4 ∧ bf 7 n 2 =
        x5 ∧ bb n 1 = x6 := by
  have bx2 : x2.toNat < 32 := x2.isLt
  have bx3 : x3.toNat < 4 := x3.isLt
  have bx4 : x4.toNat < 128 := x4.isLt
  have bx5 : x5.toNat < 128 := x5.isLt
  have bx6 : x6.toNat < 2 := x6.toNat_lt
  have w := word_head c u op (x2.toNat * 131072 + x3.toNat * 32768 + x4.toNat * 256 + x5.toNat * 2 + x6.toNat * 1) n
      o (by omega) (by simp only [← e, Nat.add_assoc])
  refine ⟨w.1, w.2.1, w.2.2.1, w.2.2.2.1, w.2.2.2.2.1, w.2.2.2.2.2, ?_, ?_, ?_, ?_, ?_⟩
  · exact bf_eq _ (field (H := op * 4194304 + c.toNat * 2147483648 + u.toNat * 1073741824) (L := x3.toNat * 32768 +
      x4.toNat * 256 + x5.toNat * 2 + x6.toNat * 1) (by rw [← e]; simp only [Nat.add_assoc]) (((dvd_term _ rfl).add
      (dvd_term _ rfl)).add (dvd_term _ rfl)) bx2 (by omega))
  · exact bf_eq _ (field (H := op * 4194304 + c.toNat * 2147483648 + u.toNat * 1073741824 + x2.toNat * 131072) (L :=
      x4.toNat * 256 + x5.toNat * 2 + x6.toNat * 1) (by rw [← e]; simp only [Nat.add_assoc]) ((((dvd_term _ rfl).add
      (dvd_term _ rfl)).add (dvd_term _ rfl)).add (dvd_term _ rfl)) bx3 (by omega))
  · exact bf_eq _ (field (H := op * 4194304 + c.toNat * 2147483648 + u.toNat * 1073741824 + x2.toNat * 131072 +
      x3.toNat * 32768) (L := x5.toNat * 2 + x6.toNat * 1) (by rw [← e]; simp only [Nat.add_assoc]) (((((dvd_term _
      rfl).add (dvd_term _ rfl)).add (dvd_term _ rfl)).add (dvd_term _ rfl)).add (dvd_term _ rfl)) bx4 (by omega))
  · exact bf_eq _ (field (H := op * 4194304 + c.toNat * 2147483648 + u.toNat * 1073741824 + x2.toNat * 131072 +
      x3.toNat * 32768 + x4.toNat * 256) (L := x6.toNat * 1) e.symm ((((((dvd_term _ rfl).add (dvd_term _ rfl)).add
      (dvd_term _ rfl)).add (dvd_term _ rfl)).add (dvd_term _ rfl)).add (dvd_term _ rfl)) bx5 (by omega))
  · exact bb_eq _ (field (H := op * 4194304 + c.toNat * 2147483648 + u.toNat * 1073741824 + x2.toNat * 131072 +
      x3.toNat * 32768 + x4.toNat * 256 + x5.toNat * 2) (L := 0) (by rw [Nat.add_zero]; exact e.symm) (((((((dvd_term
      _ rfl).add (dvd_term _ rfl)).add (dvd_term _ rfl)).add (dvd_term _ rfl)).add (dvd_term _ rfl)).add (dvd_term _
      rfl)).add (dvd_term _ rfl)) bx6 (by omega))

theorem Format.f38 (op n : Nat) (c : Bool) (u : Bool) (x2 : BitVec 5) (x3 : BitVec 7) (x4 : BitVec 7) (x5 : Bool) (o
        : op < 256) (e : op * 4194304 + c.toNat * 2147483648 + u.toNat * 1073741824 + x2.toNat * 131072 + x3.toNat * 256
        + x4.toNat * 2 + x5.toNat * 1 = n) :
    n < 4294967296 ∧ n / 268435456 % 4 = op / 64 ∧ n / 67108864 % 16 = op / 16 ∧ n / 4194304 % 16 = op % 16 ∧ bb n
        2147483648 = c ∧ bb n 1073741824 = u ∧ bf 5 n 131072 = x2 ∧ bf 7 n 256 = x3 ∧ bf 7 n 2 = x4 ∧ bb n 1 = x5 ∧ n
        / 32768 % 4 = 0 := by
  have bx2 : x2.toNat < 32 := x2.isLt
  have bx3 : x3.toNat < 128 := x3.isLt
  have bx4 : x4.toNat < 128 := x4.isLt
  have bx5 : x5.toNat < 2 := x5.toNat_lt
  have w := word_head c u op (x2.toNat * 131072 + x3.toNat * 256 + x4.toNat * 2 + x5.toNat * 1) n o (by omega)
      (by simp only [← e, Nat.add_assoc])
  refine ⟨w.1, w.2.1, w.2.2.1, w.2.2.2.1, w.2.2.2.2.1, w.2.2.2.2.2, ?_, ?_, ?_, ?_, ?_⟩
  · exact bf_eq _ (field (H := op * 4194304 + c.toNat * 2147483648 + u.toNat * 1073741824) (L := x3.toNat * 256 +
      x4.toNat * 2 + x5.toNat * 1) (by rw [← e]; simp only [Nat.add_assoc]) (((dvd_term _ rfl).add (dvd_term _
      rfl)).add (dvd_term _ rfl)) bx2 (by omega))
  · exact bf_eq _ (field (H := op * 4194304 + c.toNat * 2147483648 + u.toNat * 1073741824 + x2.toNat * 131072) (L :=
      x4.toNat * 2 + x5.toNat * 1) (by rw [← e]; simp only [Nat.add_assoc]) ((((dvd_term _ rfl).add (dvd_term _
      rfl)).add (dvd_term _ rfl)).add (dvd_term _ rfl)) bx3 (by omega))
  · exact bf_eq _ (field (H := op * 4194304 + c.toNat * 2147483648 + u.toNat * 1073741824 + x2.toNat * 131072 +
      x3.toNat * 256) (L := x5.toNat * 1) e.symm (((((dvd_term _ rfl).add (dvd_term _ rfl)).add (dvd_term _ rfl)).add
      (dvd_term _ rfl)).add (dvd_term _ rfl)) bx4 (by omega))
  · exact bb_eq _ (field (H := op * 4194304 + c.toNat * 2147483648 + u.toNat * 1073741824 + x2.toNat * 131072 +
      x3.toNat * 256 + x4.toNat * 2) (L := 0) (by rw [Nat.add_zero]; exact e.symm) ((((((dvd_term _ rfl).add
      (dvd_term _ rfl)).add (dvd_term _ rfl)).add (dvd_term _ rfl)).add (dvd_term _ rfl)).add (dvd_term _ rfl)) bx5
      (by omega))
  · exact field (H := op * 4194304 + c.toNat * 2147483648 + u.toNat * 1073741824 + x2.toNat * 131072) (v := 0) (L :=
      x3.toNat * 256 + x4.toNat * 2 + x5.toNat * 1) (by omega) ((((dvd_term _ rfl).add (dvd_term _ rfl)).add
      (dvd_term _ rfl)).add (dvd_term _ rfl)) (by decide) (by omega)

theorem Format.f39 (op n : Nat) (c : Bool) (u : Bool) (x2 : BitVec 7) (x3 : BitVec 7) (x4 : BitVec 4) (o : op < 256)
        (e : op * 4194304 + c.toNat * 2147483648 + u.toNat * 1073741824 + x2.toNat * 32768 + x3.toNat * 256 + x4.toNat *
        16 = n) :
    n < 4294967296 ∧ n / 268435456 % 4 = op / 64 ∧ n / 67108864 % 16 = op / 16 ∧ n / 4194304 % 16 = op % 16 ∧ bb n
        2147483648 = c ∧ bb n 1073741824 = u ∧ bf 7 n 32768 = x2 ∧ bf 7 n 256 = x3 ∧ bf 4 n 16 = x4 ∧ n % 16 = 0 :=
        by
  have bx2 : x2.toNat < 128 := x2.isLt
  have bx3 : x3.toNat < 128 := x3.isLt
  have bx4 : x4.toNat < 16 := x4.isLt
  have w := word_head c u op (x2.toNat * 32768 + x3.toNat * 256 + x4.toNat * 16) n o (by omega)
      (by simp only [← e, Nat.add_assoc])
  refine ⟨w.1, w.2.1, w.2.2.1, w.2.2.2.1, w.2.2.2.2.1, w.2.2.2.2.2, ?_, ?_, ?_, ?_⟩
  · exact bf_eq _ (field (H := op * 4194304 + c.toNat * 2147483648 + u.toNat * 1073741824) (L := x3.toNat * 256 +
      x4.toNat * 16) (by rw [← e]; simp only [Nat.add_assoc]) (((dvd_term _ rfl).add (dvd_term _ rfl)).add (dvd_term
      _ rfl)) bx2 (by omega))
  · exact bf_eq _ (field (H := op * 4194304 + c.toNat * 2147483648 + u.toNat * 1073741824 + x2.toNat * 32768) (L :=
      x4.toNat * 16) e.symm ((((dvd_term _ rfl).add (dvd_term _ rfl)).add (dvd_term _ rfl)).add (dvd_term _ rfl)) bx3
      (by omega))
  · exact bf_eq _ (field (H := op * 4194304 + c.toNat * 2147483648 + u.toNat * 1073741824 + x2.toNat * 32768 +
      x3.toNat * 256) (L := 0) (by rw [Nat.add_zero]; exact e.symm) (((((dvd_term _ rfl).add (dvd_term _ rfl)).add
      (dvd_term _ rfl)).add (dvd_term _ rfl)).add (dvd_term _ rfl)) bx4 (by omega))
  · exact low_zero (H := op * 4194304 + c.toNat * 2147483648 + u.toNat * 1073741824 + x2.toNat * 32768 + x3.toNat *
      256 + x4.toNat * 16) (by omega) ((((((dvd_term _ rfl).add (dvd_term _ rfl)).add (dvd_term _ rfl)).add (dvd_term
      _ rfl)).add (dvd_term _ rfl)).add (dvd_term _ rfl))

theorem Format.f40 (op n : Nat) (c : Bool) (u : Bool) (x2 : BitVec 7) (x3 : BitVec 7) (x4 : BitVec 4) (x5 : Bool) (o
        : op < 256) (e : op * 4194304 + c.toNat * 2147483648 + u.toNat * 1073741824 + x2.toNat * 32768 + x3.toNat * 256 +
        x4.toNat * 16 + x5.toNat * 8 = n) :
    n < 4294967296 ∧ n / 268435456 % 4 = op / 64 ∧ n / 67108864 % 16 = op / 16 ∧ n / 4194304 % 16 = op % 16 ∧ bb n
        2147483648 = c ∧ bb n 1073741824 = u ∧ bf 7 n 32768 = x2 ∧ bf 7 n 256 = x3 ∧ bf 4 n 16 = x4 ∧ bb n 8 = x5 ∧ n
        % 8 = 0 := by
  have bx2 : x2.toNat < 128 := x2.isLt
  have bx3 : x3.toNat < 128 := x3.isLt
  have bx4 : x4.toNat < 16 := x4.isLt
  have bx5 : x5.toNat < 2 := x5.toNat_lt
  have w := word_head c u op (x2.toNat * 32768 + x3.toNat * 256 + x4.toNat * 16 + x5.toNat * 8) n o (by omega)
      (by simp only [← e, Nat.add_assoc])
  refine ⟨w.1, w.2.1, w.2.2.1, w.2.2.2.1, w.2.2.2.2.1, w.2.2.2.2.2, ?_, ?_, ?_, ?_, ?_⟩
  · exact bf_eq _ (field (H := op * 4194304 + c.toNat * 2147483648 + u.toNat * 1073741824) (L := x3.toNat * 256 +
      x4.toNat * 16 + x5.toNat * 8) (by rw [← e]; simp only [Nat.add_assoc]) (((dvd_term _ rfl).add (dvd_term _
      rfl)).add (dvd_term _ rfl)) bx2 (by omega))
  · exact bf_eq _ (field (H := op * 4194304 + c.toNat * 2147483648 + u.toNat * 1073741824 + x2.toNat * 32768) (L :=
      x4.toNat * 16 + x5.toNat * 8) (by rw [← e]; simp only [Nat.add_assoc]) ((((dvd_term _ rfl).add (dvd_term _
      rfl)).add (dvd_term _ rfl)).add (dvd_term _ rfl)) bx3 (by omega))
  · exact bf_eq _ (field (H := op * 4194304 + c.toNat * 2147483648 + u.toNat * 1073741824 + x2.toNat * 32768 +
      x3.toNat * 256) (L := x5.toNat * 8) e.symm (((((dvd_term _ rfl).add (dvd_term _ rfl)).add (dvd_term _ rfl)).add
      (dvd_term _ rfl)).add (dvd_term _ rfl)) bx4 (by omega))
  · exact bb_eq _ (field (H := op * 4194304 + c.toNat * 2147483648 + u.toNat * 1073741824 + x2.toNat * 32768 +
      x3.toNat * 256 + x4.toNat * 16) (L := 0) (by rw [Nat.add_zero]; exact e.symm) ((((((dvd_term _ rfl).add
      (dvd_term _ rfl)).add (dvd_term _ rfl)).add (dvd_term _ rfl)).add (dvd_term _ rfl)).add (dvd_term _ rfl)) bx5
      (by omega))
  · exact low_zero (H := op * 4194304 + c.toNat * 2147483648 + u.toNat * 1073741824 + x2.toNat * 32768 + x3.toNat *
      256 + x4.toNat * 16 + x5.toNat * 8) (by omega) (((((((dvd_term _ rfl).add (dvd_term _ rfl)).add (dvd_term _
      rfl)).add (dvd_term _ rfl)).add (dvd_term _ rfl)).add (dvd_term _ rfl)).add (dvd_term _ rfl))

theorem Format.f41 (op n : Nat) (c : Bool) (u : Bool) (x2 : BitVec 7) (x3 : BitVec 7) (x4 : BitVec 3) (x5 : BitVec 5)
        (o : op < 256) (e : op * 4194304 + c.toNat * 2147483648 + u.toNat * 1073741824 + x2.toNat * 32768 + x3.toNat *
        256 + x4.toNat * 32 + x5.toNat * 1 = n) :
    n < 4294967296 ∧ n / 268435456 % 4 = op / 64 ∧ n / 67108864 % 16 = op / 16 ∧ n / 4194304 % 16 = op % 16 ∧ bb n
        2147483648 = c ∧ bb n 1073741824 = u ∧ bf 7 n 32768 = x2 ∧ bf 7 n 256 = x3 ∧ bf 3 n 32 = x4 ∧ bf 5 n 1 = x5
        := by
  have bx2 : x2.toNat < 128 := x2.isLt
  have bx3 : x3.toNat < 128 := x3.isLt
  have bx4 : x4.toNat < 8 := x4.isLt
  have bx5 : x5.toNat < 32 := x5.isLt
  have w := word_head c u op (x2.toNat * 32768 + x3.toNat * 256 + x4.toNat * 32 + x5.toNat * 1) n o (by omega)
      (by simp only [← e, Nat.add_assoc])
  refine ⟨w.1, w.2.1, w.2.2.1, w.2.2.2.1, w.2.2.2.2.1, w.2.2.2.2.2, ?_, ?_, ?_, ?_⟩
  · exact bf_eq _ (field (H := op * 4194304 + c.toNat * 2147483648 + u.toNat * 1073741824) (L := x3.toNat * 256 +
      x4.toNat * 32 + x5.toNat * 1) (by rw [← e]; simp only [Nat.add_assoc]) (((dvd_term _ rfl).add (dvd_term _
      rfl)).add (dvd_term _ rfl)) bx2 (by omega))
  · exact bf_eq _ (field (H := op * 4194304 + c.toNat * 2147483648 + u.toNat * 1073741824 + x2.toNat * 32768) (L :=
      x4.toNat * 32 + x5.toNat * 1) (by rw [← e]; simp only [Nat.add_assoc]) ((((dvd_term _ rfl).add (dvd_term _
      rfl)).add (dvd_term _ rfl)).add (dvd_term _ rfl)) bx3 (by omega))
  · exact bf_eq _ (field (H := op * 4194304 + c.toNat * 2147483648 + u.toNat * 1073741824 + x2.toNat * 32768 +
      x3.toNat * 256) (L := x5.toNat * 1) e.symm (((((dvd_term _ rfl).add (dvd_term _ rfl)).add (dvd_term _ rfl)).add
      (dvd_term _ rfl)).add (dvd_term _ rfl)) bx4 (by omega))
  · exact bf_eq _ (field (H := op * 4194304 + c.toNat * 2147483648 + u.toNat * 1073741824 + x2.toNat * 32768 +
      x3.toNat * 256 + x4.toNat * 32) (L := 0) (by rw [Nat.add_zero]; exact e.symm) ((((((dvd_term _ rfl).add
      (dvd_term _ rfl)).add (dvd_term _ rfl)).add (dvd_term _ rfl)).add (dvd_term _ rfl)).add (dvd_term _ rfl)) bx5
      (by omega))

theorem Format.f42 (op n : Nat) (c : Bool) (u : Bool) (x2 : BitVec 7) (x3 : BitVec 7) (x4 : BitVec 3) (x5 : BitVec 3)
        (x6 : BitVec 2) (o : op < 256) (e : op * 4194304 + c.toNat * 2147483648 + u.toNat * 1073741824 + x2.toNat * 32768
        + x3.toNat * 256 + x4.toNat * 32 + x5.toNat * 4 + x6.toNat * 1 = n) :
    n < 4294967296 ∧ n / 268435456 % 4 = op / 64 ∧ n / 67108864 % 16 = op / 16 ∧ n / 4194304 % 16 = op % 16 ∧ bb n
        2147483648 = c ∧ bb n 1073741824 = u ∧ bf 7 n 32768 = x2 ∧ bf 7 n 256 = x3 ∧ bf 3 n 32 = x4 ∧ bf 3 n 4 = x5 ∧
        bf 2 n 1 = x6 := by
  have bx2 : x2.toNat < 128 := x2.isLt
  have bx3 : x3.toNat < 128 := x3.isLt
  have bx4 : x4.toNat < 8 := x4.isLt
  have bx5 : x5.toNat < 8 := x5.isLt
  have bx6 : x6.toNat < 4 := x6.isLt
  have w := word_head c u op (x2.toNat * 32768 + x3.toNat * 256 + x4.toNat * 32 + x5.toNat * 4 + x6.toNat * 1) n o
      (by omega) (by simp only [← e, Nat.add_assoc])
  refine ⟨w.1, w.2.1, w.2.2.1, w.2.2.2.1, w.2.2.2.2.1, w.2.2.2.2.2, ?_, ?_, ?_, ?_, ?_⟩
  · exact bf_eq _ (field (H := op * 4194304 + c.toNat * 2147483648 + u.toNat * 1073741824) (L := x3.toNat * 256 +
      x4.toNat * 32 + x5.toNat * 4 + x6.toNat * 1) (by rw [← e]; simp only [Nat.add_assoc]) (((dvd_term _ rfl).add
      (dvd_term _ rfl)).add (dvd_term _ rfl)) bx2 (by omega))
  · exact bf_eq _ (field (H := op * 4194304 + c.toNat * 2147483648 + u.toNat * 1073741824 + x2.toNat * 32768) (L :=
      x4.toNat * 32 + x5.toNat * 4 + x6.toNat * 1) (by rw [← e]; simp only [Nat.add_assoc]) ((((dvd_term _ rfl).add
      (dvd_term _ rfl)).add (dvd_term _ rfl)).add (dvd_term _ rfl)) bx3 (by omega))
  · exact bf_eq _ (field (H := op * 4194304 + c.toNat * 2147483648 + u.toNat * 1073741824 + x2.toNat * 32768 +
      x3.toNat * 256) (L := x5.toNat * 4 + x6.toNat * 1) (by rw [← e]; simp only [Nat.add_assoc]) (((((dvd_term _
      rfl).add (dvd_term _ rfl)).add (dvd_term _ rfl)).add (dvd_term _ rfl)).add (dvd_term _ rfl)) bx4 (by omega))
  · exact bf_eq _ (field (H := op * 4194304 + c.toNat * 2147483648 + u.toNat * 1073741824 + x2.toNat * 32768 +
      x3.toNat * 256 + x4.toNat * 32) (L := x6.toNat * 1) e.symm ((((((dvd_term _ rfl).add (dvd_term _ rfl)).add
      (dvd_term _ rfl)).add (dvd_term _ rfl)).add (dvd_term _ rfl)).add (dvd_term _ rfl)) bx5 (by omega))
  · exact bf_eq _ (field (H := op * 4194304 + c.toNat * 2147483648 + u.toNat * 1073741824 + x2.toNat * 32768 +
      x3.toNat * 256 + x4.toNat * 32 + x5.toNat * 4) (L := 0) (by rw [Nat.add_zero]; exact e.symm) (((((((dvd_term _
      rfl).add (dvd_term _ rfl)).add (dvd_term _ rfl)).add (dvd_term _ rfl)).add (dvd_term _ rfl)).add (dvd_term _
      rfl)).add (dvd_term _ rfl)) bx6 (by omega))

theorem Format.f43 (op n : Nat) (c : Bool) (u : Bool) (x2 : BitVec 7) (x3 : BitVec 7) (x4 : BitVec 3) (x5 : BitVec 3)
        (o : op < 256) (e : op * 4194304 + c.toNat * 2147483648 + u.toNat * 1073741824 + x2.toNat * 32768 + x3.toNat *
        256 + x4.toNat * 32 + x5.toNat * 4 = n) :
    n < 4294967296 ∧ n / 268435456 % 4 = op / 64 ∧ n / 67108864 % 16 = op / 16 ∧ n / 4194304 % 16 = op % 16 ∧ bb n
        2147483648 = c ∧ bb n 1073741824 = u ∧ bf 7 n 32768 = x2 ∧ bf 7 n 256 = x3 ∧ bf 3 n 32 = x4 ∧ bf 3 n 4 = x5 ∧
        n % 4 = 0 := by
  have bx2 : x2.toNat < 128 := x2.isLt
  have bx3 : x3.toNat < 128 := x3.isLt
  have bx4 : x4.toNat < 8 := x4.isLt
  have bx5 : x5.toNat < 8 := x5.isLt
  have w := word_head c u op (x2.toNat * 32768 + x3.toNat * 256 + x4.toNat * 32 + x5.toNat * 4) n o (by omega)
      (by simp only [← e, Nat.add_assoc])
  refine ⟨w.1, w.2.1, w.2.2.1, w.2.2.2.1, w.2.2.2.2.1, w.2.2.2.2.2, ?_, ?_, ?_, ?_, ?_⟩
  · exact bf_eq _ (field (H := op * 4194304 + c.toNat * 2147483648 + u.toNat * 1073741824) (L := x3.toNat * 256 +
      x4.toNat * 32 + x5.toNat * 4) (by rw [← e]; simp only [Nat.add_assoc]) (((dvd_term _ rfl).add (dvd_term _
      rfl)).add (dvd_term _ rfl)) bx2 (by omega))
  · exact bf_eq _ (field (H := op * 4194304 + c.toNat * 2147483648 + u.toNat * 1073741824 + x2.toNat * 32768) (L :=
      x4.toNat * 32 + x5.toNat * 4) (by rw [← e]; simp only [Nat.add_assoc]) ((((dvd_term _ rfl).add (dvd_term _
      rfl)).add (dvd_term _ rfl)).add (dvd_term _ rfl)) bx3 (by omega))
  · exact bf_eq _ (field (H := op * 4194304 + c.toNat * 2147483648 + u.toNat * 1073741824 + x2.toNat * 32768 +
      x3.toNat * 256) (L := x5.toNat * 4) e.symm (((((dvd_term _ rfl).add (dvd_term _ rfl)).add (dvd_term _ rfl)).add
      (dvd_term _ rfl)).add (dvd_term _ rfl)) bx4 (by omega))
  · exact bf_eq _ (field (H := op * 4194304 + c.toNat * 2147483648 + u.toNat * 1073741824 + x2.toNat * 32768 +
      x3.toNat * 256 + x4.toNat * 32) (L := 0) (by rw [Nat.add_zero]; exact e.symm) ((((((dvd_term _ rfl).add
      (dvd_term _ rfl)).add (dvd_term _ rfl)).add (dvd_term _ rfl)).add (dvd_term _ rfl)).add (dvd_term _ rfl)) bx5
      (by omega))
  · exact low_zero (H := op * 4194304 + c.toNat * 2147483648 + u.toNat * 1073741824 + x2.toNat * 32768 + x3.toNat *
      256 + x4.toNat * 32 + x5.toNat * 4) (by omega) (((((((dvd_term _ rfl).add (dvd_term _ rfl)).add (dvd_term _
      rfl)).add (dvd_term _ rfl)).add (dvd_term _ rfl)).add (dvd_term _ rfl)).add (dvd_term _ rfl))

theorem Format.f44 (op n : Nat) (c : Bool) (u : Bool) (x2 : BitVec 7) (x3 : BitVec 7) (x4 : BitVec 3) (x5 : BitVec 2)
        (x6 : Bool) (x7 : BitVec 2) (o : op < 256) (e : op * 4194304 + c.toNat * 2147483648 + u.toNat * 1073741824 +
        x2.toNat * 32768 + x3.toNat * 256 + x4.toNat * 32 + x5.toNat * 8 + x6.toNat * 4 + x7.toNat * 1 = n) :
    n < 4294967296 ∧ n / 268435456 % 4 = op / 64 ∧ n / 67108864 % 16 = op / 16 ∧ n / 4194304 % 16 = op % 16 ∧ bb n
        2147483648 = c ∧ bb n 1073741824 = u ∧ bf 7 n 32768 = x2 ∧ bf 7 n 256 = x3 ∧ bf 3 n 32 = x4 ∧ bf 2 n 8 = x5 ∧
        bb n 4 = x6 ∧ bf 2 n 1 = x7 := by
  have bx2 : x2.toNat < 128 := x2.isLt
  have bx3 : x3.toNat < 128 := x3.isLt
  have bx4 : x4.toNat < 8 := x4.isLt
  have bx5 : x5.toNat < 4 := x5.isLt
  have bx6 : x6.toNat < 2 := x6.toNat_lt
  have bx7 : x7.toNat < 4 := x7.isLt
  have w := word_head c u op (x2.toNat * 32768 + x3.toNat * 256 + x4.toNat * 32 + x5.toNat * 8 + x6.toNat * 4 +
      x7.toNat * 1) n o (by omega) (by simp only [← e, Nat.add_assoc])
  refine ⟨w.1, w.2.1, w.2.2.1, w.2.2.2.1, w.2.2.2.2.1, w.2.2.2.2.2, ?_, ?_, ?_, ?_, ?_, ?_⟩
  · exact bf_eq _ (field (H := op * 4194304 + c.toNat * 2147483648 + u.toNat * 1073741824) (L := x3.toNat * 256 +
      x4.toNat * 32 + x5.toNat * 8 + x6.toNat * 4 + x7.toNat * 1) (by rw [← e]; simp only [Nat.add_assoc])
      (((dvd_term _ rfl).add (dvd_term _ rfl)).add (dvd_term _ rfl)) bx2 (by omega))
  · exact bf_eq _ (field (H := op * 4194304 + c.toNat * 2147483648 + u.toNat * 1073741824 + x2.toNat * 32768) (L :=
      x4.toNat * 32 + x5.toNat * 8 + x6.toNat * 4 + x7.toNat * 1) (by rw [← e]; simp only [Nat.add_assoc])
      ((((dvd_term _ rfl).add (dvd_term _ rfl)).add (dvd_term _ rfl)).add (dvd_term _ rfl)) bx3 (by omega))
  · exact bf_eq _ (field (H := op * 4194304 + c.toNat * 2147483648 + u.toNat * 1073741824 + x2.toNat * 32768 +
      x3.toNat * 256) (L := x5.toNat * 8 + x6.toNat * 4 + x7.toNat * 1) (by rw [← e]; simp only [Nat.add_assoc])
      (((((dvd_term _ rfl).add (dvd_term _ rfl)).add (dvd_term _ rfl)).add (dvd_term _ rfl)).add (dvd_term _ rfl))
      bx4 (by omega))
  · exact bf_eq _ (field (H := op * 4194304 + c.toNat * 2147483648 + u.toNat * 1073741824 + x2.toNat * 32768 +
      x3.toNat * 256 + x4.toNat * 32) (L := x6.toNat * 4 + x7.toNat * 1) (by rw [← e]; simp only [Nat.add_assoc])
      ((((((dvd_term _ rfl).add (dvd_term _ rfl)).add (dvd_term _ rfl)).add (dvd_term _ rfl)).add (dvd_term _
      rfl)).add (dvd_term _ rfl)) bx5 (by omega))
  · exact bb_eq _ (field (H := op * 4194304 + c.toNat * 2147483648 + u.toNat * 1073741824 + x2.toNat * 32768 +
      x3.toNat * 256 + x4.toNat * 32 + x5.toNat * 8) (L := x7.toNat * 1) e.symm (((((((dvd_term _ rfl).add (dvd_term
      _ rfl)).add (dvd_term _ rfl)).add (dvd_term _ rfl)).add (dvd_term _ rfl)).add (dvd_term _ rfl)).add (dvd_term _
      rfl)) bx6 (by omega))
  · exact bf_eq _ (field (H := op * 4194304 + c.toNat * 2147483648 + u.toNat * 1073741824 + x2.toNat * 32768 +
      x3.toNat * 256 + x4.toNat * 32 + x5.toNat * 8 + x6.toNat * 4) (L := 0) (by rw [Nat.add_zero]; exact e.symm)
      ((((((((dvd_term _ rfl).add (dvd_term _ rfl)).add (dvd_term _ rfl)).add (dvd_term _ rfl)).add (dvd_term _
      rfl)).add (dvd_term _ rfl)).add (dvd_term _ rfl)).add (dvd_term _ rfl)) bx7 (by omega))

theorem Format.f45 (op n : Nat) (c : Bool) (u : Bool) (x2 : BitVec 7) (x3 : BitVec 7) (x4 : BitVec 3) (x5 : BitVec 2)
        (x6 : Bool) (o : op < 256) (e : op * 4194304 + c.toNat * 2147483648 + u.toNat * 1073741824 + x2.toNat * 32768 +
        x3.toNat * 256 + x4.toNat * 32 + x5.toNat * 8 + x6.toNat * 4 = n) :
    n < 4294967296 ∧ n / 268435456 % 4 = op / 64 ∧ n / 67108864 % 16 = op / 16 ∧ n / 4194304 % 16 = op % 16 ∧ bb n
        2147483648 = c ∧ bb n 1073741824 = u ∧ bf 7 n 32768 = x2 ∧ bf 7 n 256 = x3 ∧ bf 3 n 32 = x4 ∧ bf 2 n 8 = x5 ∧
        bb n 4 = x6 ∧ n % 4 = 0 := by
  have bx2 : x2.toNat < 128 := x2.isLt
  have bx3 : x3.toNat < 128 := x3.isLt
  have bx4 : x4.toNat < 8 := x4.isLt
  have bx5 : x5.toNat < 4 := x5.isLt
  have bx6 : x6.toNat < 2 := x6.toNat_lt
  have w := word_head c u op (x2.toNat * 32768 + x3.toNat * 256 + x4.toNat * 32 + x5.toNat * 8 + x6.toNat * 4) n o
      (by omega) (by simp only [← e, Nat.add_assoc])
  refine ⟨w.1, w.2.1, w.2.2.1, w.2.2.2.1, w.2.2.2.2.1, w.2.2.2.2.2, ?_, ?_, ?_, ?_, ?_, ?_⟩
  · exact bf_eq _ (field (H := op * 4194304 + c.toNat * 2147483648 + u.toNat * 1073741824) (L := x3.toNat * 256 +
      x4.toNat * 32 + x5.toNat * 8 + x6.toNat * 4) (by rw [← e]; simp only [Nat.add_assoc]) (((dvd_term _ rfl).add
      (dvd_term _ rfl)).add (dvd_term _ rfl)) bx2 (by omega))
  · exact bf_eq _ (field (H := op * 4194304 + c.toNat * 2147483648 + u.toNat * 1073741824 + x2.toNat * 32768) (L :=
      x4.toNat * 32 + x5.toNat * 8 + x6.toNat * 4) (by rw [← e]; simp only [Nat.add_assoc]) ((((dvd_term _ rfl).add
      (dvd_term _ rfl)).add (dvd_term _ rfl)).add (dvd_term _ rfl)) bx3 (by omega))
  · exact bf_eq _ (field (H := op * 4194304 + c.toNat * 2147483648 + u.toNat * 1073741824 + x2.toNat * 32768 +
      x3.toNat * 256) (L := x5.toNat * 8 + x6.toNat * 4) (by rw [← e]; simp only [Nat.add_assoc]) (((((dvd_term _
      rfl).add (dvd_term _ rfl)).add (dvd_term _ rfl)).add (dvd_term _ rfl)).add (dvd_term _ rfl)) bx4 (by omega))
  · exact bf_eq _ (field (H := op * 4194304 + c.toNat * 2147483648 + u.toNat * 1073741824 + x2.toNat * 32768 +
      x3.toNat * 256 + x4.toNat * 32) (L := x6.toNat * 4) e.symm ((((((dvd_term _ rfl).add (dvd_term _ rfl)).add
      (dvd_term _ rfl)).add (dvd_term _ rfl)).add (dvd_term _ rfl)).add (dvd_term _ rfl)) bx5 (by omega))
  · exact bb_eq _ (field (H := op * 4194304 + c.toNat * 2147483648 + u.toNat * 1073741824 + x2.toNat * 32768 +
      x3.toNat * 256 + x4.toNat * 32 + x5.toNat * 8) (L := 0) (by rw [Nat.add_zero]; exact e.symm) (((((((dvd_term _
      rfl).add (dvd_term _ rfl)).add (dvd_term _ rfl)).add (dvd_term _ rfl)).add (dvd_term _ rfl)).add (dvd_term _
      rfl)).add (dvd_term _ rfl)) bx6 (by omega))
  · exact low_zero (H := op * 4194304 + c.toNat * 2147483648 + u.toNat * 1073741824 + x2.toNat * 32768 + x3.toNat *
      256 + x4.toNat * 32 + x5.toNat * 8 + x6.toNat * 4) (by omega) ((((((((dvd_term _ rfl).add (dvd_term _ rfl)).add
      (dvd_term _ rfl)).add (dvd_term _ rfl)).add (dvd_term _ rfl)).add (dvd_term _ rfl)).add (dvd_term _ rfl)).add
      (dvd_term _ rfl))

theorem Format.f46 (op n : Nat) (c : Bool) (u : Bool) (x2 : BitVec 7) (x3 : BitVec 7) (x4 : BitVec 3) (o : op < 256)
        (e : op * 4194304 + c.toNat * 2147483648 + u.toNat * 1073741824 + x2.toNat * 32768 + x3.toNat * 256 + x4.toNat *
        1 = n) :
    n < 4294967296 ∧ n / 268435456 % 4 = op / 64 ∧ n / 67108864 % 16 = op / 16 ∧ n / 4194304 % 16 = op % 16 ∧ bb n
        2147483648 = c ∧ bb n 1073741824 = u ∧ bf 7 n 32768 = x2 ∧ bf 7 n 256 = x3 ∧ bf 3 n 1 = x4 ∧ n / 8 % 32 = 0
        := by
  have bx2 : x2.toNat < 128 := x2.isLt
  have bx3 : x3.toNat < 128 := x3.isLt
  have bx4 : x4.toNat < 8 := x4.isLt
  have w := word_head c u op (x2.toNat * 32768 + x3.toNat * 256 + x4.toNat * 1) n o (by omega)
      (by simp only [← e, Nat.add_assoc])
  refine ⟨w.1, w.2.1, w.2.2.1, w.2.2.2.1, w.2.2.2.2.1, w.2.2.2.2.2, ?_, ?_, ?_, ?_⟩
  · exact bf_eq _ (field (H := op * 4194304 + c.toNat * 2147483648 + u.toNat * 1073741824) (L := x3.toNat * 256 +
      x4.toNat * 1) (by rw [← e]; simp only [Nat.add_assoc]) (((dvd_term _ rfl).add (dvd_term _ rfl)).add (dvd_term _
      rfl)) bx2 (by omega))
  · exact bf_eq _ (field (H := op * 4194304 + c.toNat * 2147483648 + u.toNat * 1073741824 + x2.toNat * 32768) (L :=
      x4.toNat * 1) e.symm ((((dvd_term _ rfl).add (dvd_term _ rfl)).add (dvd_term _ rfl)).add (dvd_term _ rfl)) bx3
      (by omega))
  · exact bf_eq _ (field (H := op * 4194304 + c.toNat * 2147483648 + u.toNat * 1073741824 + x2.toNat * 32768 +
      x3.toNat * 256) (L := 0) (by rw [Nat.add_zero]; exact e.symm) (((((dvd_term _ rfl).add (dvd_term _ rfl)).add
      (dvd_term _ rfl)).add (dvd_term _ rfl)).add (dvd_term _ rfl)) bx4 (by omega))
  · exact field (H := op * 4194304 + c.toNat * 2147483648 + u.toNat * 1073741824 + x2.toNat * 32768 + x3.toNat * 256)
      (v := 0) (L := x4.toNat * 1) (by omega) (((((dvd_term _ rfl).add (dvd_term _ rfl)).add (dvd_term _ rfl)).add
      (dvd_term _ rfl)).add (dvd_term _ rfl)) (by decide) (by omega)

theorem Format.f47 (op n : Nat) (c : Bool) (u : Bool) (x2 : BitVec 7) (x3 : BitVec 7) (x4 : BitVec 2) (x5 : Bool) (o
        : op < 256) (e : op * 4194304 + c.toNat * 2147483648 + u.toNat * 1073741824 + x2.toNat * 32768 + x3.toNat * 256 +
        x4.toNat * 2 + x5.toNat * 1 = n) :
    n < 4294967296 ∧ n / 268435456 % 4 = op / 64 ∧ n / 67108864 % 16 = op / 16 ∧ n / 4194304 % 16 = op % 16 ∧ bb n
        2147483648 = c ∧ bb n 1073741824 = u ∧ bf 7 n 32768 = x2 ∧ bf 7 n 256 = x3 ∧ bf 2 n 2 = x4 ∧ bb n 1 = x5 ∧ n
        / 8 % 32 = 0 := by
  have bx2 : x2.toNat < 128 := x2.isLt
  have bx3 : x3.toNat < 128 := x3.isLt
  have bx4 : x4.toNat < 4 := x4.isLt
  have bx5 : x5.toNat < 2 := x5.toNat_lt
  have w := word_head c u op (x2.toNat * 32768 + x3.toNat * 256 + x4.toNat * 2 + x5.toNat * 1) n o (by omega)
      (by simp only [← e, Nat.add_assoc])
  refine ⟨w.1, w.2.1, w.2.2.1, w.2.2.2.1, w.2.2.2.2.1, w.2.2.2.2.2, ?_, ?_, ?_, ?_, ?_⟩
  · exact bf_eq _ (field (H := op * 4194304 + c.toNat * 2147483648 + u.toNat * 1073741824) (L := x3.toNat * 256 +
      x4.toNat * 2 + x5.toNat * 1) (by rw [← e]; simp only [Nat.add_assoc]) (((dvd_term _ rfl).add (dvd_term _
      rfl)).add (dvd_term _ rfl)) bx2 (by omega))
  · exact bf_eq _ (field (H := op * 4194304 + c.toNat * 2147483648 + u.toNat * 1073741824 + x2.toNat * 32768) (L :=
      x4.toNat * 2 + x5.toNat * 1) (by rw [← e]; simp only [Nat.add_assoc]) ((((dvd_term _ rfl).add (dvd_term _
      rfl)).add (dvd_term _ rfl)).add (dvd_term _ rfl)) bx3 (by omega))
  · exact bf_eq _ (field (H := op * 4194304 + c.toNat * 2147483648 + u.toNat * 1073741824 + x2.toNat * 32768 +
      x3.toNat * 256) (L := x5.toNat * 1) e.symm (((((dvd_term _ rfl).add (dvd_term _ rfl)).add (dvd_term _ rfl)).add
      (dvd_term _ rfl)).add (dvd_term _ rfl)) bx4 (by omega))
  · exact bb_eq _ (field (H := op * 4194304 + c.toNat * 2147483648 + u.toNat * 1073741824 + x2.toNat * 32768 +
      x3.toNat * 256 + x4.toNat * 2) (L := 0) (by rw [Nat.add_zero]; exact e.symm) ((((((dvd_term _ rfl).add
      (dvd_term _ rfl)).add (dvd_term _ rfl)).add (dvd_term _ rfl)).add (dvd_term _ rfl)).add (dvd_term _ rfl)) bx5
      (by omega))
  · exact field (H := op * 4194304 + c.toNat * 2147483648 + u.toNat * 1073741824 + x2.toNat * 32768 + x3.toNat * 256)
      (v := 0) (L := x4.toNat * 2 + x5.toNat * 1) (by omega) (((((dvd_term _ rfl).add (dvd_term _ rfl)).add (dvd_term
      _ rfl)).add (dvd_term _ rfl)).add (dvd_term _ rfl)) (by decide) (by omega)

theorem Format.f48 (op n : Nat) (c : Bool) (u : Bool) (x2 : BitVec 3) (x3 : BitVec 2) (o : op < 256) (e : op *
        4194304 + c.toNat * 2147483648 + u.toNat * 1073741824 + x2.toNat * 32 + x3.toNat * 8 = n) :
    n < 4294967296 ∧ n / 268435456 % 4 = op / 64 ∧ n / 67108864 % 16 = op / 16 ∧ n / 4194304 % 16 = op % 16 ∧ bb n
        2147483648 = c ∧ bb n 1073741824 = u ∧ bf 3 n 32 = x2 ∧ bf 2 n 8 = x3 ∧ n % 8 = 0 ∧ n / 256 % 16384 = 0 := by
  have bx2 : x2.toNat < 8 := x2.isLt
  have bx3 : x3.toNat < 4 := x3.isLt
  have w := word_head c u op (x2.toNat * 32 + x3.toNat * 8) n o (by omega) (by simp only [← e, Nat.add_assoc])
  refine ⟨w.1, w.2.1, w.2.2.1, w.2.2.2.1, w.2.2.2.2.1, w.2.2.2.2.2, ?_, ?_, ?_, ?_⟩
  · exact bf_eq _ (field (H := op * 4194304 + c.toNat * 2147483648 + u.toNat * 1073741824) (L := x3.toNat * 8) e.symm
      (((dvd_term _ rfl).add (dvd_term _ rfl)).add (dvd_term _ rfl)) bx2 (by omega))
  · exact bf_eq _ (field (H := op * 4194304 + c.toNat * 2147483648 + u.toNat * 1073741824 + x2.toNat * 32) (L := 0)
      (by rw [Nat.add_zero]; exact e.symm) ((((dvd_term _ rfl).add (dvd_term _ rfl)).add (dvd_term _ rfl)).add
      (dvd_term _ rfl)) bx3 (by omega))
  · exact low_zero (H := op * 4194304 + c.toNat * 2147483648 + u.toNat * 1073741824 + x2.toNat * 32 + x3.toNat * 8)
      (by omega) (((((dvd_term _ rfl).add (dvd_term _ rfl)).add (dvd_term _ rfl)).add (dvd_term _ rfl)).add (dvd_term
      _ rfl))
  · exact field (H := op * 4194304 + c.toNat * 2147483648 + u.toNat * 1073741824) (v := 0) (L := x2.toNat * 32 +
      x3.toNat * 8) (by omega) (((dvd_term _ rfl).add (dvd_term _ rfl)).add (dvd_term _ rfl)) (by decide) (by omega)

theorem Format.f49 (op n : Nat) (c : Bool) (u : Bool) (x2 : BitVec 3) (x3 : BitVec 2) (x4 : BitVec 7) (x5 : BitVec 7)
        (o : op < 256) (e : op * 4194304 + c.toNat * 2147483648 + u.toNat * 1073741824 + x2.toNat * 524288 + x3.toNat *
        131072 + x4.toNat * 256 + x5.toNat * 2 = n) :
    n < 4294967296 ∧ n / 268435456 % 4 = op / 64 ∧ n / 67108864 % 16 = op / 16 ∧ n / 4194304 % 16 = op % 16 ∧ bb n
        2147483648 = c ∧ bb n 1073741824 = u ∧ bf 3 n 524288 = x2 ∧ bf 2 n 131072 = x3 ∧ bf 7 n 256 = x4 ∧ bf 7 n 2 =
        x5 ∧ n % 2 = 0 ∧ n / 32768 % 4 = 0 := by
  have bx2 : x2.toNat < 8 := x2.isLt
  have bx3 : x3.toNat < 4 := x3.isLt
  have bx4 : x4.toNat < 128 := x4.isLt
  have bx5 : x5.toNat < 128 := x5.isLt
  have w := word_head c u op (x2.toNat * 524288 + x3.toNat * 131072 + x4.toNat * 256 + x5.toNat * 2) n o (by omega)
      (by simp only [← e, Nat.add_assoc])
  refine ⟨w.1, w.2.1, w.2.2.1, w.2.2.2.1, w.2.2.2.2.1, w.2.2.2.2.2, ?_, ?_, ?_, ?_, ?_, ?_⟩
  · exact bf_eq _ (field (H := op * 4194304 + c.toNat * 2147483648 + u.toNat * 1073741824) (L := x3.toNat * 131072 +
      x4.toNat * 256 + x5.toNat * 2) (by rw [← e]; simp only [Nat.add_assoc]) (((dvd_term _ rfl).add (dvd_term _
      rfl)).add (dvd_term _ rfl)) bx2 (by omega))
  · exact bf_eq _ (field (H := op * 4194304 + c.toNat * 2147483648 + u.toNat * 1073741824 + x2.toNat * 524288) (L :=
      x4.toNat * 256 + x5.toNat * 2) (by rw [← e]; simp only [Nat.add_assoc]) ((((dvd_term _ rfl).add (dvd_term _
      rfl)).add (dvd_term _ rfl)).add (dvd_term _ rfl)) bx3 (by omega))
  · exact bf_eq _ (field (H := op * 4194304 + c.toNat * 2147483648 + u.toNat * 1073741824 + x2.toNat * 524288 +
      x3.toNat * 131072) (L := x5.toNat * 2) e.symm (((((dvd_term _ rfl).add (dvd_term _ rfl)).add (dvd_term _
      rfl)).add (dvd_term _ rfl)).add (dvd_term _ rfl)) bx4 (by omega))
  · exact bf_eq _ (field (H := op * 4194304 + c.toNat * 2147483648 + u.toNat * 1073741824 + x2.toNat * 524288 +
      x3.toNat * 131072 + x4.toNat * 256) (L := 0) (by rw [Nat.add_zero]; exact e.symm) ((((((dvd_term _ rfl).add
      (dvd_term _ rfl)).add (dvd_term _ rfl)).add (dvd_term _ rfl)).add (dvd_term _ rfl)).add (dvd_term _ rfl)) bx5
      (by omega))
  · exact low_zero (H := op * 4194304 + c.toNat * 2147483648 + u.toNat * 1073741824 + x2.toNat * 524288 + x3.toNat *
      131072 + x4.toNat * 256 + x5.toNat * 2) (by omega) (((((((dvd_term _ rfl).add (dvd_term _ rfl)).add (dvd_term _
      rfl)).add (dvd_term _ rfl)).add (dvd_term _ rfl)).add (dvd_term _ rfl)).add (dvd_term _ rfl))
  · exact field (H := op * 4194304 + c.toNat * 2147483648 + u.toNat * 1073741824 + x2.toNat * 524288 + x3.toNat *
      131072) (v := 0) (L := x4.toNat * 256 + x5.toNat * 2) (by omega) (((((dvd_term _ rfl).add (dvd_term _ rfl)).add
      (dvd_term _ rfl)).add (dvd_term _ rfl)).add (dvd_term _ rfl)) (by decide) (by omega)

theorem Format.f50 (op n : Nat) (c : Bool) (u : Bool) (x2 : BitVec 6) (x3 : BitVec 2) (x4 : BitVec 6) (x5 : BitVec 6)
        (x6 : Bool) (x7 : Bool) (o : op < 256) (e : op * 4194304 + c.toNat * 2147483648 + u.toNat * 1073741824 + x2.toNat
        * 65536 + x3.toNat * 16384 + x4.toNat * 256 + x5.toNat * 4 + x6.toNat * 2 + x7.toNat * 1 = n) :
    n < 4294967296 ∧ n / 268435456 % 4 = op / 64 ∧ n / 67108864 % 16 = op / 16 ∧ n / 4194304 % 16 = op % 16 ∧ bb n
        2147483648 = c ∧ bb n 1073741824 = u ∧ bf 6 n 65536 = x2 ∧ bf 2 n 16384 = x3 ∧ bf 6 n 256 = x4 ∧ bf 6 n 4 =
        x5 ∧ bb n 2 = x6 ∧ bb n 1 = x7 := by
  have bx2 : x2.toNat < 64 := x2.isLt
  have bx3 : x3.toNat < 4 := x3.isLt
  have bx4 : x4.toNat < 64 := x4.isLt
  have bx5 : x5.toNat < 64 := x5.isLt
  have bx6 : x6.toNat < 2 := x6.toNat_lt
  have bx7 : x7.toNat < 2 := x7.toNat_lt
  have w := word_head c u op (x2.toNat * 65536 + x3.toNat * 16384 + x4.toNat * 256 + x5.toNat * 4 + x6.toNat * 2 +
      x7.toNat * 1) n o (by omega) (by simp only [← e, Nat.add_assoc])
  refine ⟨w.1, w.2.1, w.2.2.1, w.2.2.2.1, w.2.2.2.2.1, w.2.2.2.2.2, ?_, ?_, ?_, ?_, ?_, ?_⟩
  · exact bf_eq _ (field (H := op * 4194304 + c.toNat * 2147483648 + u.toNat * 1073741824) (L := x3.toNat * 16384 +
      x4.toNat * 256 + x5.toNat * 4 + x6.toNat * 2 + x7.toNat * 1) (by rw [← e]; simp only [Nat.add_assoc])
      (((dvd_term _ rfl).add (dvd_term _ rfl)).add (dvd_term _ rfl)) bx2 (by omega))
  · exact bf_eq _ (field (H := op * 4194304 + c.toNat * 2147483648 + u.toNat * 1073741824 + x2.toNat * 65536) (L :=
      x4.toNat * 256 + x5.toNat * 4 + x6.toNat * 2 + x7.toNat * 1) (by rw [← e]; simp only [Nat.add_assoc])
      ((((dvd_term _ rfl).add (dvd_term _ rfl)).add (dvd_term _ rfl)).add (dvd_term _ rfl)) bx3 (by omega))
  · exact bf_eq _ (field (H := op * 4194304 + c.toNat * 2147483648 + u.toNat * 1073741824 + x2.toNat * 65536 +
      x3.toNat * 16384) (L := x5.toNat * 4 + x6.toNat * 2 + x7.toNat * 1) (by rw [← e]; simp only [Nat.add_assoc])
      (((((dvd_term _ rfl).add (dvd_term _ rfl)).add (dvd_term _ rfl)).add (dvd_term _ rfl)).add (dvd_term _ rfl))
      bx4 (by omega))
  · exact bf_eq _ (field (H := op * 4194304 + c.toNat * 2147483648 + u.toNat * 1073741824 + x2.toNat * 65536 +
      x3.toNat * 16384 + x4.toNat * 256) (L := x6.toNat * 2 + x7.toNat * 1) (by rw [← e]; simp only [Nat.add_assoc])
      ((((((dvd_term _ rfl).add (dvd_term _ rfl)).add (dvd_term _ rfl)).add (dvd_term _ rfl)).add (dvd_term _
      rfl)).add (dvd_term _ rfl)) bx5 (by omega))
  · exact bb_eq _ (field (H := op * 4194304 + c.toNat * 2147483648 + u.toNat * 1073741824 + x2.toNat * 65536 +
      x3.toNat * 16384 + x4.toNat * 256 + x5.toNat * 4) (L := x7.toNat * 1) e.symm (((((((dvd_term _ rfl).add
      (dvd_term _ rfl)).add (dvd_term _ rfl)).add (dvd_term _ rfl)).add (dvd_term _ rfl)).add (dvd_term _ rfl)).add
      (dvd_term _ rfl)) bx6 (by omega))
  · exact bb_eq _ (field (H := op * 4194304 + c.toNat * 2147483648 + u.toNat * 1073741824 + x2.toNat * 65536 +
      x3.toNat * 16384 + x4.toNat * 256 + x5.toNat * 4 + x6.toNat * 2) (L := 0) (by rw [Nat.add_zero]; exact e.symm)
      ((((((((dvd_term _ rfl).add (dvd_term _ rfl)).add (dvd_term _ rfl)).add (dvd_term _ rfl)).add (dvd_term _
      rfl)).add (dvd_term _ rfl)).add (dvd_term _ rfl)).add (dvd_term _ rfl)) bx7 (by omega))

theorem Format.f51 (op n : Nat) (c : Bool) (u : Bool) (x2 : BitVec 7) (x3 : BitVec 7) (x4 : BitVec 3) (x5 : Bool) (x6
        : Bool) (o : op < 256) (e : op * 4194304 + c.toNat * 2147483648 + u.toNat * 1073741824 + x2.toNat * 32768 +
        x3.toNat * 256 + x4.toNat * 32 + x5.toNat * 16 + x6.toNat * 8 = n) :
    n < 4294967296 ∧ n / 268435456 % 4 = op / 64 ∧ n / 67108864 % 16 = op / 16 ∧ n / 4194304 % 16 = op % 16 ∧ bb n
        2147483648 = c ∧ bb n 1073741824 = u ∧ bf 7 n 32768 = x2 ∧ bf 7 n 256 = x3 ∧ bf 3 n 32 = x4 ∧ bb n 16 = x5 ∧
        bb n 8 = x6 ∧ n % 8 = 0 := by
  have bx2 : x2.toNat < 128 := x2.isLt
  have bx3 : x3.toNat < 128 := x3.isLt
  have bx4 : x4.toNat < 8 := x4.isLt
  have bx5 : x5.toNat < 2 := x5.toNat_lt
  have bx6 : x6.toNat < 2 := x6.toNat_lt
  have w := word_head c u op (x2.toNat * 32768 + x3.toNat * 256 + x4.toNat * 32 + x5.toNat * 16 + x6.toNat * 8) n o
      (by omega) (by simp only [← e, Nat.add_assoc])
  refine ⟨w.1, w.2.1, w.2.2.1, w.2.2.2.1, w.2.2.2.2.1, w.2.2.2.2.2, ?_, ?_, ?_, ?_, ?_, ?_⟩
  · exact bf_eq _ (field (H := op * 4194304 + c.toNat * 2147483648 + u.toNat * 1073741824) (L := x3.toNat * 256 +
      x4.toNat * 32 + x5.toNat * 16 + x6.toNat * 8) (by rw [← e]; simp only [Nat.add_assoc]) (((dvd_term _ rfl).add
      (dvd_term _ rfl)).add (dvd_term _ rfl)) bx2 (by omega))
  · exact bf_eq _ (field (H := op * 4194304 + c.toNat * 2147483648 + u.toNat * 1073741824 + x2.toNat * 32768) (L :=
      x4.toNat * 32 + x5.toNat * 16 + x6.toNat * 8) (by rw [← e]; simp only [Nat.add_assoc]) ((((dvd_term _ rfl).add
      (dvd_term _ rfl)).add (dvd_term _ rfl)).add (dvd_term _ rfl)) bx3 (by omega))
  · exact bf_eq _ (field (H := op * 4194304 + c.toNat * 2147483648 + u.toNat * 1073741824 + x2.toNat * 32768 +
      x3.toNat * 256) (L := x5.toNat * 16 + x6.toNat * 8) (by rw [← e]; simp only [Nat.add_assoc]) (((((dvd_term _
      rfl).add (dvd_term _ rfl)).add (dvd_term _ rfl)).add (dvd_term _ rfl)).add (dvd_term _ rfl)) bx4 (by omega))
  · exact bb_eq _ (field (H := op * 4194304 + c.toNat * 2147483648 + u.toNat * 1073741824 + x2.toNat * 32768 +
      x3.toNat * 256 + x4.toNat * 32) (L := x6.toNat * 8) e.symm ((((((dvd_term _ rfl).add (dvd_term _ rfl)).add
      (dvd_term _ rfl)).add (dvd_term _ rfl)).add (dvd_term _ rfl)).add (dvd_term _ rfl)) bx5 (by omega))
  · exact bb_eq _ (field (H := op * 4194304 + c.toNat * 2147483648 + u.toNat * 1073741824 + x2.toNat * 32768 +
      x3.toNat * 256 + x4.toNat * 32 + x5.toNat * 16) (L := 0) (by rw [Nat.add_zero]; exact e.symm) (((((((dvd_term _
      rfl).add (dvd_term _ rfl)).add (dvd_term _ rfl)).add (dvd_term _ rfl)).add (dvd_term _ rfl)).add (dvd_term _
      rfl)).add (dvd_term _ rfl)) bx6 (by omega))
  · exact low_zero (H := op * 4194304 + c.toNat * 2147483648 + u.toNat * 1073741824 + x2.toNat * 32768 + x3.toNat *
      256 + x4.toNat * 32 + x5.toNat * 16 + x6.toNat * 8) (by omega) ((((((((dvd_term _ rfl).add (dvd_term _
      rfl)).add (dvd_term _ rfl)).add (dvd_term _ rfl)).add (dvd_term _ rfl)).add (dvd_term _ rfl)).add (dvd_term _
      rfl)).add (dvd_term _ rfl))

theorem Format.f52 (op n : Nat) (c : Bool) (u : Bool) (x2 : BitVec 3) (x3 : BitVec 4) (x4 : BitVec 12) (o : op < 256)
        (e : op * 4194304 + c.toNat * 2147483648 + u.toNat * 1073741824 + x2.toNat * 524288 + x3.toNat * 32768 + x4.toNat
        * 1 = n) :
    n < 4294967296 ∧ n / 268435456 % 4 = op / 64 ∧ n / 67108864 % 16 = op / 16 ∧ n / 4194304 % 16 = op % 16 ∧ bb n
        2147483648 = c ∧ bb n 1073741824 = u ∧ bf 3 n 524288 = x2 ∧ bf 4 n 32768 = x3 ∧ bf 12 n 1 = x4 ∧ n / 4096 % 8
        = 0 := by
  have bx2 : x2.toNat < 8 := x2.isLt
  have bx3 : x3.toNat < 16 := x3.isLt
  have bx4 : x4.toNat < 4096 := x4.isLt
  have w := word_head c u op (x2.toNat * 524288 + x3.toNat * 32768 + x4.toNat * 1) n o (by omega)
      (by simp only [← e, Nat.add_assoc])
  refine ⟨w.1, w.2.1, w.2.2.1, w.2.2.2.1, w.2.2.2.2.1, w.2.2.2.2.2, ?_, ?_, ?_, ?_⟩
  · exact bf_eq _ (field (H := op * 4194304 + c.toNat * 2147483648 + u.toNat * 1073741824) (L := x3.toNat * 32768 +
      x4.toNat * 1) (by rw [← e]; simp only [Nat.add_assoc]) (((dvd_term _ rfl).add (dvd_term _ rfl)).add (dvd_term _
      rfl)) bx2 (by omega))
  · exact bf_eq _ (field (H := op * 4194304 + c.toNat * 2147483648 + u.toNat * 1073741824 + x2.toNat * 524288) (L :=
      x4.toNat * 1) e.symm ((((dvd_term _ rfl).add (dvd_term _ rfl)).add (dvd_term _ rfl)).add (dvd_term _ rfl)) bx3
      (by omega))
  · exact bf_eq _ (field (H := op * 4194304 + c.toNat * 2147483648 + u.toNat * 1073741824 + x2.toNat * 524288 +
      x3.toNat * 32768) (L := 0) (by rw [Nat.add_zero]; exact e.symm) (((((dvd_term _ rfl).add (dvd_term _ rfl)).add
      (dvd_term _ rfl)).add (dvd_term _ rfl)).add (dvd_term _ rfl)) bx4 (by omega))
  · exact field (H := op * 4194304 + c.toNat * 2147483648 + u.toNat * 1073741824 + x2.toNat * 524288 + x3.toNat *
      32768) (v := 0) (L := x4.toNat * 1) (by omega) (((((dvd_term _ rfl).add (dvd_term _ rfl)).add (dvd_term _
      rfl)).add (dvd_term _ rfl)).add (dvd_term _ rfl)) (by decide) (by omega)

theorem Format.f53 (op n : Nat) (c : Bool) (u : Bool) (x2 : BitVec 2) (x3 : BitVec 7) (x4 : BitVec 3) (x5 : BitVec 5)
        (o : op < 256) (e : op * 4194304 + c.toNat * 2147483648 + u.toNat * 1073741824 + x2.toNat * 32768 + x3.toNat *
        256 + x4.toNat * 32 + x5.toNat * 1 = n) :
    n < 4294967296 ∧ n / 268435456 % 4 = op / 64 ∧ n / 67108864 % 16 = op / 16 ∧ n / 4194304 % 16 = op % 16 ∧ bb n
        2147483648 = c ∧ bb n 1073741824 = u ∧ bf 2 n 32768 = x2 ∧ bf 7 n 256 = x3 ∧ bf 3 n 32 = x4 ∧ bf 5 n 1 = x5 ∧
        n / 131072 % 32 = 0 := by
  have bx2 : x2.toNat < 4 := x2.isLt
  have bx3 : x3.toNat < 128 := x3.isLt
  have bx4 : x4.toNat < 8 := x4.isLt
  have bx5 : x5.toNat < 32 := x5.isLt
  have w := word_head c u op (x2.toNat * 32768 + x3.toNat * 256 + x4.toNat * 32 + x5.toNat * 1) n o (by omega)
      (by simp only [← e, Nat.add_assoc])
  refine ⟨w.1, w.2.1, w.2.2.1, w.2.2.2.1, w.2.2.2.2.1, w.2.2.2.2.2, ?_, ?_, ?_, ?_, ?_⟩
  · exact bf_eq _ (field (H := op * 4194304 + c.toNat * 2147483648 + u.toNat * 1073741824) (L := x3.toNat * 256 +
      x4.toNat * 32 + x5.toNat * 1) (by rw [← e]; simp only [Nat.add_assoc]) (((dvd_term _ rfl).add (dvd_term _
      rfl)).add (dvd_term _ rfl)) bx2 (by omega))
  · exact bf_eq _ (field (H := op * 4194304 + c.toNat * 2147483648 + u.toNat * 1073741824 + x2.toNat * 32768) (L :=
      x4.toNat * 32 + x5.toNat * 1) (by rw [← e]; simp only [Nat.add_assoc]) ((((dvd_term _ rfl).add (dvd_term _
      rfl)).add (dvd_term _ rfl)).add (dvd_term _ rfl)) bx3 (by omega))
  · exact bf_eq _ (field (H := op * 4194304 + c.toNat * 2147483648 + u.toNat * 1073741824 + x2.toNat * 32768 +
      x3.toNat * 256) (L := x5.toNat * 1) e.symm (((((dvd_term _ rfl).add (dvd_term _ rfl)).add (dvd_term _ rfl)).add
      (dvd_term _ rfl)).add (dvd_term _ rfl)) bx4 (by omega))
  · exact bf_eq _ (field (H := op * 4194304 + c.toNat * 2147483648 + u.toNat * 1073741824 + x2.toNat * 32768 +
      x3.toNat * 256 + x4.toNat * 32) (L := 0) (by rw [Nat.add_zero]; exact e.symm) ((((((dvd_term _ rfl).add
      (dvd_term _ rfl)).add (dvd_term _ rfl)).add (dvd_term _ rfl)).add (dvd_term _ rfl)).add (dvd_term _ rfl)) bx5
      (by omega))
  · exact field (H := op * 4194304 + c.toNat * 2147483648 + u.toNat * 1073741824) (v := 0) (L := x2.toNat * 32768 +
      x3.toNat * 256 + x4.toNat * 32 + x5.toNat * 1) (by omega) (((dvd_term _ rfl).add (dvd_term _ rfl)).add
      (dvd_term _ rfl)) (by decide) (by omega)

theorem Format.f54 (op n : Nat) (c : Bool) (u : Bool) (x2 : BitVec 7) (x3 : BitVec 7) (x4 : BitVec 7) (o : op < 256)
        (e : op * 4194304 + c.toNat * 2147483648 + u.toNat * 1073741824 + x2.toNat * 32768 + x3.toNat * 256 + x4.toNat *
        2 = n) :
    n < 4294967296 ∧ n / 268435456 % 4 = op / 64 ∧ n / 67108864 % 16 = op / 16 ∧ n / 4194304 % 16 = op % 16 ∧ bb n
        2147483648 = c ∧ bb n 1073741824 = u ∧ bf 7 n 32768 = x2 ∧ bf 7 n 256 = x3 ∧ bf 7 n 2 = x4 ∧ n % 2 = 0 := by
  have bx2 : x2.toNat < 128 := x2.isLt
  have bx3 : x3.toNat < 128 := x3.isLt
  have bx4 : x4.toNat < 128 := x4.isLt
  have w := word_head c u op (x2.toNat * 32768 + x3.toNat * 256 + x4.toNat * 2) n o (by omega)
      (by simp only [← e, Nat.add_assoc])
  refine ⟨w.1, w.2.1, w.2.2.1, w.2.2.2.1, w.2.2.2.2.1, w.2.2.2.2.2, ?_, ?_, ?_, ?_⟩
  · exact bf_eq _ (field (H := op * 4194304 + c.toNat * 2147483648 + u.toNat * 1073741824) (L := x3.toNat * 256 +
      x4.toNat * 2) (by rw [← e]; simp only [Nat.add_assoc]) (((dvd_term _ rfl).add (dvd_term _ rfl)).add (dvd_term _
      rfl)) bx2 (by omega))
  · exact bf_eq _ (field (H := op * 4194304 + c.toNat * 2147483648 + u.toNat * 1073741824 + x2.toNat * 32768) (L :=
      x4.toNat * 2) e.symm ((((dvd_term _ rfl).add (dvd_term _ rfl)).add (dvd_term _ rfl)).add (dvd_term _ rfl)) bx3
      (by omega))
  · exact bf_eq _ (field (H := op * 4194304 + c.toNat * 2147483648 + u.toNat * 1073741824 + x2.toNat * 32768 +
      x3.toNat * 256) (L := 0) (by rw [Nat.add_zero]; exact e.symm) (((((dvd_term _ rfl).add (dvd_term _ rfl)).add
      (dvd_term _ rfl)).add (dvd_term _ rfl)).add (dvd_term _ rfl)) bx4 (by omega))
  · exact low_zero (H := op * 4194304 + c.toNat * 2147483648 + u.toNat * 1073741824 + x2.toNat * 32768 + x3.toNat *
      256 + x4.toNat * 2) (by omega) ((((((dvd_term _ rfl).add (dvd_term _ rfl)).add (dvd_term _ rfl)).add (dvd_term
      _ rfl)).add (dvd_term _ rfl)).add (dvd_term _ rfl))

theorem Format.f55 (op n : Nat) (c : Bool) (x1 : BitVec 4) (x2 : BitVec 7) (x3 : BitVec 6) (x4 : Bool) (x5 : Bool)
        (x6 : BitVec 3) (o : op < 256) (e : op * 4194304 + c.toNat * 2147483648 + x1.toNat * 262144 + x2.toNat * 2048 +
        x3.toNat * 32 + x4.toNat * 16 + x5.toNat * 8 + x6.toNat * 1 = n) :
    n < 4294967296 ∧ n / 268435456 % 4 = op / 64 ∧ n / 67108864 % 16 = op / 16 ∧ n / 4194304 % 16 = op % 16 ∧ bb n
        2147483648 = c ∧ bf 4 n 262144 = x1 ∧ bf 7 n 2048 = x2 ∧ bf 6 n 32 = x3 ∧ bb n 16 = x4 ∧ bb n 8 = x5 ∧ bf 3 n
        1 = x6 ∧ n / 1073741824 % 2 = 0 := by
  have bx1 : x1.toNat < 16 := x1.isLt
  have bx2 : x2.toNat < 128 := x2.isLt
  have bx3 : x3.toNat < 64 := x3.isLt
  have bx4 : x4.toNat < 2 := x4.toNat_lt
  have bx5 : x5.toNat < 2 := x5.toNat_lt
  have bx6 : x6.toNat < 8 := x6.isLt
  have w := word_head_c c op (x1.toNat * 262144 + x2.toNat * 2048 + x3.toNat * 32 + x4.toNat * 16 + x5.toNat * 8 +
      x6.toNat * 1) n o (by omega) (by simp only [← e, Nat.add_assoc])
  refine ⟨w.1, w.2.1, w.2.2.1, w.2.2.2.1, w.2.2.2.2.1, ?_, ?_, ?_, ?_, ?_, ?_, ?_⟩
  · exact bf_eq _ (field (H := op * 4194304 + c.toNat * 2147483648) (L := x2.toNat * 2048 + x3.toNat * 32 + x4.toNat
      * 16 + x5.toNat * 8 + x6.toNat * 1) (by rw [← e]; simp only [Nat.add_assoc]) ((dvd_term _ rfl).add (dvd_term _
      rfl)) bx1 (by omega))
  · exact bf_eq _ (field (H := op * 4194304 + c.toNat * 2147483648 + x1.toNat * 262144) (L := x3.toNat * 32 +
      x4.toNat * 16 + x5.toNat * 8 + x6.toNat * 1) (by rw [← e]; simp only [Nat.add_assoc]) (((dvd_term _ rfl).add
      (dvd_term _ rfl)).add (dvd_term _ rfl)) bx2 (by omega))
  · exact bf_eq _ (field (H := op * 4194304 + c.toNat * 2147483648 + x1.toNat * 262144 + x2.toNat * 2048) (L :=
      x4.toNat * 16 + x5.toNat * 8 + x6.toNat * 1) (by rw [← e]; simp only [Nat.add_assoc]) ((((dvd_term _ rfl).add
      (dvd_term _ rfl)).add (dvd_term _ rfl)).add (dvd_term _ rfl)) bx3 (by omega))
  · exact bb_eq _ (field (H := op * 4194304 + c.toNat * 2147483648 + x1.toNat * 262144 + x2.toNat * 2048 + x3.toNat *
      32) (L := x5.toNat * 8 + x6.toNat * 1) (by rw [← e]; simp only [Nat.add_assoc]) (((((dvd_term _ rfl).add
      (dvd_term _ rfl)).add (dvd_term _ rfl)).add (dvd_term _ rfl)).add (dvd_term _ rfl)) bx4 (by omega))
  · exact bb_eq _ (field (H := op * 4194304 + c.toNat * 2147483648 + x1.toNat * 262144 + x2.toNat * 2048 + x3.toNat *
      32 + x4.toNat * 16) (L := x6.toNat * 1) e.symm ((((((dvd_term _ rfl).add (dvd_term _ rfl)).add (dvd_term _
      rfl)).add (dvd_term _ rfl)).add (dvd_term _ rfl)).add (dvd_term _ rfl)) bx5 (by omega))
  · exact bf_eq _ (field (H := op * 4194304 + c.toNat * 2147483648 + x1.toNat * 262144 + x2.toNat * 2048 + x3.toNat *
      32 + x4.toNat * 16 + x5.toNat * 8) (L := 0) (by rw [Nat.add_zero]; exact e.symm) (((((((dvd_term _ rfl).add
      (dvd_term _ rfl)).add (dvd_term _ rfl)).add (dvd_term _ rfl)).add (dvd_term _ rfl)).add (dvd_term _ rfl)).add
      (dvd_term _ rfl)) bx6 (by omega))
  · exact w.2.2.2.2.2

theorem Format.f56 (op n : Nat) (c : Bool) (x1 : BitVec 4) (x2 : Bool) (x3 : BitVec 7) (x4 : BitVec 2) (x5 : BitVec
        2) (x6 : Bool) (o : op < 256) (e : op * 4194304 + c.toNat * 2147483648 + x1.toNat * 262144 + x2.toNat * 131072 +
        x3.toNat * 256 + x4.toNat * 64 + x5.toNat * 16 + x6.toNat * 2 = n) :
    n < 4294967296 ∧ n / 268435456 % 4 = op / 64 ∧ n / 67108864 % 16 = op / 16 ∧ n / 4194304 % 16 = op % 16 ∧ bb n
        2147483648 = c ∧ bf 4 n 262144 = x1 ∧ bb n 131072 = x2 ∧ bf 7 n 256 = x3 ∧ bf 2 n 64 = x4 ∧ bf 2 n 16 = x5 ∧
        bb n 2 = x6 ∧ n % 2 = 0 ∧ n / 4 % 4 = 0 ∧ n / 32768 % 4 = 0 ∧ n / 1073741824 % 2 = 0 := by
  have bx1 : x1.toNat < 16 := x1.isLt
  have bx2 : x2.toNat < 2 := x2.toNat_lt
  have bx3 : x3.toNat < 128 := x3.isLt
  have bx4 : x4.toNat < 4 := x4.isLt
  have bx5 : x5.toNat < 4 := x5.isLt
  have bx6 : x6.toNat < 2 := x6.toNat_lt
  have w := word_head_c c op (x1.toNat * 262144 + x2.toNat * 131072 + x3.toNat * 256 + x4.toNat * 64 + x5.toNat * 16
      + x6.toNat * 2) n o (by omega) (by simp only [← e, Nat.add_assoc])
  refine ⟨w.1, w.2.1, w.2.2.1, w.2.2.2.1, w.2.2.2.2.1, ?_, ?_, ?_, ?_, ?_, ?_, ?_, ?_, ?_, ?_⟩
  · exact bf_eq _ (field (H := op * 4194304 + c.toNat * 2147483648) (L := x2.toNat * 131072 + x3.toNat * 256 +
      x4.toNat * 64 + x5.toNat * 16 + x6.toNat * 2) (by rw [← e]; simp only [Nat.add_assoc]) ((dvd_term _ rfl).add
      (dvd_term _ rfl)) bx1 (by omega))
  · exact bb_eq _ (field (H := op * 4194304 + c.toNat * 2147483648 + x1.toNat * 262144) (L := x3.toNat * 256 +
      x4.toNat * 64 + x5.toNat * 16 + x6.toNat * 2) (by rw [← e]; simp only [Nat.add_assoc]) (((dvd_term _ rfl).add
      (dvd_term _ rfl)).add (dvd_term _ rfl)) bx2 (by omega))
  · exact bf_eq _ (field (H := op * 4194304 + c.toNat * 2147483648 + x1.toNat * 262144 + x2.toNat * 131072) (L :=
      x4.toNat * 64 + x5.toNat * 16 + x6.toNat * 2) (by rw [← e]; simp only [Nat.add_assoc]) ((((dvd_term _ rfl).add
      (dvd_term _ rfl)).add (dvd_term _ rfl)).add (dvd_term _ rfl)) bx3 (by omega))
  · exact bf_eq _ (field (H := op * 4194304 + c.toNat * 2147483648 + x1.toNat * 262144 + x2.toNat * 131072 + x3.toNat
      * 256) (L := x5.toNat * 16 + x6.toNat * 2) (by rw [← e]; simp only [Nat.add_assoc]) (((((dvd_term _ rfl).add
      (dvd_term _ rfl)).add (dvd_term _ rfl)).add (dvd_term _ rfl)).add (dvd_term _ rfl)) bx4 (by omega))
  · exact bf_eq _ (field (H := op * 4194304 + c.toNat * 2147483648 + x1.toNat * 262144 + x2.toNat * 131072 + x3.toNat
      * 256 + x4.toNat * 64) (L := x6.toNat * 2) e.symm ((((((dvd_term _ rfl).add (dvd_term _ rfl)).add (dvd_term _
      rfl)).add (dvd_term _ rfl)).add (dvd_term _ rfl)).add (dvd_term _ rfl)) bx5 (by omega))
  · exact bb_eq _ (field (H := op * 4194304 + c.toNat * 2147483648 + x1.toNat * 262144 + x2.toNat * 131072 + x3.toNat
      * 256 + x4.toNat * 64 + x5.toNat * 16) (L := 0) (by rw [Nat.add_zero]; exact e.symm) (((((((dvd_term _ rfl).add
      (dvd_term _ rfl)).add (dvd_term _ rfl)).add (dvd_term _ rfl)).add (dvd_term _ rfl)).add (dvd_term _ rfl)).add
      (dvd_term _ rfl)) bx6 (by omega))
  · exact low_zero (H := op * 4194304 + c.toNat * 2147483648 + x1.toNat * 262144 + x2.toNat * 131072 + x3.toNat * 256
      + x4.toNat * 64 + x5.toNat * 16 + x6.toNat * 2) (by omega) ((((((((dvd_term _ rfl).add (dvd_term _ rfl)).add
      (dvd_term _ rfl)).add (dvd_term _ rfl)).add (dvd_term _ rfl)).add (dvd_term _ rfl)).add (dvd_term _ rfl)).add
      (dvd_term _ rfl))
  · exact field (H := op * 4194304 + c.toNat * 2147483648 + x1.toNat * 262144 + x2.toNat * 131072 + x3.toNat * 256 +
      x4.toNat * 64 + x5.toNat * 16) (v := 0) (L := x6.toNat * 2) (by omega) (((((((dvd_term _ rfl).add (dvd_term _
      rfl)).add (dvd_term _ rfl)).add (dvd_term _ rfl)).add (dvd_term _ rfl)).add (dvd_term _ rfl)).add (dvd_term _
      rfl)) (by decide) (by omega)
  · exact field (H := op * 4194304 + c.toNat * 2147483648 + x1.toNat * 262144 + x2.toNat * 131072) (v := 0) (L :=
      x3.toNat * 256 + x4.toNat * 64 + x5.toNat * 16 + x6.toNat * 2) (by omega) ((((dvd_term _ rfl).add (dvd_term _
      rfl)).add (dvd_term _ rfl)).add (dvd_term _ rfl)) (by decide) (by omega)
  · exact w.2.2.2.2.2

theorem Format.f57 (op n : Nat) (c : Bool) (x1 : BitVec 4) (x2 : Bool) (x3 : BitVec 7) (x4 : Bool) (o : op < 256) (e
        : op * 4194304 + c.toNat * 2147483648 + x1.toNat * 262144 + x2.toNat * 131072 + x3.toNat * 256 + x4.toNat * 2 =
        n) :
    n < 4294967296 ∧ n / 268435456 % 4 = op / 64 ∧ n / 67108864 % 16 = op / 16 ∧ n / 4194304 % 16 = op % 16 ∧ bb n
        2147483648 = c ∧ bf 4 n 262144 = x1 ∧ bb n 131072 = x2 ∧ bf 7 n 256 = x3 ∧ bb n 2 = x4 ∧ n % 2 = 0 ∧ n / 4 %
        64 = 0 ∧ n / 32768 % 4 = 0 ∧ n / 1073741824 % 2 = 0 := by
  have bx1 : x1.toNat < 16 := x1.isLt
  have bx2 : x2.toNat < 2 := x2.toNat_lt
  have bx3 : x3.toNat < 128 := x3.isLt
  have bx4 : x4.toNat < 2 := x4.toNat_lt
  have w := word_head_c c op (x1.toNat * 262144 + x2.toNat * 131072 + x3.toNat * 256 + x4.toNat * 2) n o (by omega)
      (by simp only [← e, Nat.add_assoc])
  refine ⟨w.1, w.2.1, w.2.2.1, w.2.2.2.1, w.2.2.2.2.1, ?_, ?_, ?_, ?_, ?_, ?_, ?_, ?_⟩
  · exact bf_eq _ (field (H := op * 4194304 + c.toNat * 2147483648) (L := x2.toNat * 131072 + x3.toNat * 256 +
      x4.toNat * 2) (by rw [← e]; simp only [Nat.add_assoc]) ((dvd_term _ rfl).add (dvd_term _ rfl)) bx1 (by omega))
  · exact bb_eq _ (field (H := op * 4194304 + c.toNat * 2147483648 + x1.toNat * 262144) (L := x3.toNat * 256 +
      x4.toNat * 2) (by rw [← e]; simp only [Nat.add_assoc]) (((dvd_term _ rfl).add (dvd_term _ rfl)).add (dvd_term _
      rfl)) bx2 (by omega))
  · exact bf_eq _ (field (H := op * 4194304 + c.toNat * 2147483648 + x1.toNat * 262144 + x2.toNat * 131072) (L :=
      x4.toNat * 2) e.symm ((((dvd_term _ rfl).add (dvd_term _ rfl)).add (dvd_term _ rfl)).add (dvd_term _ rfl)) bx3
      (by omega))
  · exact bb_eq _ (field (H := op * 4194304 + c.toNat * 2147483648 + x1.toNat * 262144 + x2.toNat * 131072 + x3.toNat
      * 256) (L := 0) (by rw [Nat.add_zero]; exact e.symm) (((((dvd_term _ rfl).add (dvd_term _ rfl)).add (dvd_term _
      rfl)).add (dvd_term _ rfl)).add (dvd_term _ rfl)) bx4 (by omega))
  · exact low_zero (H := op * 4194304 + c.toNat * 2147483648 + x1.toNat * 262144 + x2.toNat * 131072 + x3.toNat * 256
      + x4.toNat * 2) (by omega) ((((((dvd_term _ rfl).add (dvd_term _ rfl)).add (dvd_term _ rfl)).add (dvd_term _
      rfl)).add (dvd_term _ rfl)).add (dvd_term _ rfl))
  · exact field (H := op * 4194304 + c.toNat * 2147483648 + x1.toNat * 262144 + x2.toNat * 131072 + x3.toNat * 256)
      (v := 0) (L := x4.toNat * 2) (by omega) (((((dvd_term _ rfl).add (dvd_term _ rfl)).add (dvd_term _ rfl)).add
      (dvd_term _ rfl)).add (dvd_term _ rfl)) (by decide) (by omega)
  · exact field (H := op * 4194304 + c.toNat * 2147483648 + x1.toNat * 262144 + x2.toNat * 131072) (v := 0) (L :=
      x3.toNat * 256 + x4.toNat * 2) (by omega) ((((dvd_term _ rfl).add (dvd_term _ rfl)).add (dvd_term _ rfl)).add
      (dvd_term _ rfl)) (by decide) (by omega)
  · exact w.2.2.2.2.2

theorem Format.f58 (op n : Nat) (c : Bool) (x1 : BitVec 4) (x2 : Bool) (o : op < 256) (e : op * 4194304 + c.toNat *
        2147483648 + x1.toNat * 262144 + x2.toNat * 131072 = n) :
    n < 4294967296 ∧ n / 268435456 % 4 = op / 64 ∧ n / 67108864 % 16 = op / 16 ∧ n / 4194304 % 16 = op % 16 ∧ bb n
        2147483648 = c ∧ bf 4 n 262144 = x1 ∧ bb n 131072 = x2 ∧ n % 131072 = 0 ∧ n / 1073741824 % 2 = 0 := by
  have bx1 : x1.toNat < 16 := x1.isLt
  have bx2 : x2.toNat < 2 := x2.toNat_lt
  have w := word_head_c c op (x1.toNat * 262144 + x2.toNat * 131072) n o (by omega)
      (by simp only [← e, Nat.add_assoc])
  refine ⟨w.1, w.2.1, w.2.2.1, w.2.2.2.1, w.2.2.2.2.1, ?_, ?_, ?_, ?_⟩
  · exact bf_eq _ (field (H := op * 4194304 + c.toNat * 2147483648) (L := x2.toNat * 131072) e.symm ((dvd_term _
      rfl).add (dvd_term _ rfl)) bx1 (by omega))
  · exact bb_eq _ (field (H := op * 4194304 + c.toNat * 2147483648 + x1.toNat * 262144) (L := 0)
      (by rw [Nat.add_zero]; exact e.symm) (((dvd_term _ rfl).add (dvd_term _ rfl)).add (dvd_term _ rfl)) bx2 (by
      omega))
  · exact low_zero (H := op * 4194304 + c.toNat * 2147483648 + x1.toNat * 262144 + x2.toNat * 131072) (by omega)
      ((((dvd_term _ rfl).add (dvd_term _ rfl)).add (dvd_term _ rfl)).add (dvd_term _ rfl))
  · exact w.2.2.2.2.2

theorem Format.f59 (op n : Nat) (c : Bool) (u : Bool) (x2 : BitVec 7) (x3 : Bool) (o : op < 256) (e : op * 4194304 +
        c.toNat * 2147483648 + u.toNat * 1073741824 + x2.toNat * 256 + x3.toNat * 2 = n) :
    n < 4294967296 ∧ n / 268435456 % 4 = op / 64 ∧ n / 67108864 % 16 = op / 16 ∧ n / 4194304 % 16 = op % 16 ∧ bb n
        2147483648 = c ∧ bb n 1073741824 = u ∧ bf 7 n 256 = x2 ∧ bb n 2 = x3 ∧ n % 2 = 0 ∧ n / 4 % 64 = 0 ∧ n / 32768
        % 128 = 0 := by
  have bx2 : x2.toNat < 128 := x2.isLt
  have bx3 : x3.toNat < 2 := x3.toNat_lt
  have w := word_head c u op (x2.toNat * 256 + x3.toNat * 2) n o (by omega) (by simp only [← e, Nat.add_assoc])
  refine ⟨w.1, w.2.1, w.2.2.1, w.2.2.2.1, w.2.2.2.2.1, w.2.2.2.2.2, ?_, ?_, ?_, ?_, ?_⟩
  · exact bf_eq _ (field (H := op * 4194304 + c.toNat * 2147483648 + u.toNat * 1073741824) (L := x3.toNat * 2) e.symm
      (((dvd_term _ rfl).add (dvd_term _ rfl)).add (dvd_term _ rfl)) bx2 (by omega))
  · exact bb_eq _ (field (H := op * 4194304 + c.toNat * 2147483648 + u.toNat * 1073741824 + x2.toNat * 256) (L := 0)
      (by rw [Nat.add_zero]; exact e.symm) ((((dvd_term _ rfl).add (dvd_term _ rfl)).add (dvd_term _ rfl)).add
      (dvd_term _ rfl)) bx3 (by omega))
  · exact low_zero (H := op * 4194304 + c.toNat * 2147483648 + u.toNat * 1073741824 + x2.toNat * 256 + x3.toNat * 2)
      (by omega) (((((dvd_term _ rfl).add (dvd_term _ rfl)).add (dvd_term _ rfl)).add (dvd_term _ rfl)).add (dvd_term
      _ rfl))
  · exact field (H := op * 4194304 + c.toNat * 2147483648 + u.toNat * 1073741824 + x2.toNat * 256) (v := 0) (L :=
      x3.toNat * 2) (by omega) ((((dvd_term _ rfl).add (dvd_term _ rfl)).add (dvd_term _ rfl)).add (dvd_term _ rfl))
      (by decide) (by omega)
  · exact field (H := op * 4194304 + c.toNat * 2147483648 + u.toNat * 1073741824) (v := 0) (L := x2.toNat * 256 +
      x3.toNat * 2) (by omega) (((dvd_term _ rfl).add (dvd_term _ rfl)).add (dvd_term _ rfl)) (by decide) (by omega)

theorem Format.f60 (op n : Nat) (c : Bool) (u : Bool) (x2 : BitVec 7) (x3 : BitVec 5) (x4 : BitVec 5) (x5 : BitVec 2)
        (x6 : Bool) (o : op < 256) (e : op * 4194304 + c.toNat * 2147483648 + u.toNat * 1073741824 + x2.toNat * 32768 +
        x3.toNat * 1024 + x4.toNat * 32 + x5.toNat * 8 + x6.toNat * 4 = n) :
    n < 4294967296 ∧ n / 268435456 % 4 = op / 64 ∧ n / 67108864 % 16 = op / 16 ∧ n / 4194304 % 16 = op % 16 ∧ bb n
        2147483648 = c ∧ bb n 1073741824 = u ∧ bf 7 n 32768 = x2 ∧ bf 5 n 1024 = x3 ∧ bf 5 n 32 = x4 ∧ bf 2 n 8 = x5
        ∧ bb n 4 = x6 ∧ n % 4 = 0 := by
  have bx2 : x2.toNat < 128 := x2.isLt
  have bx3 : x3.toNat < 32 := x3.isLt
  have bx4 : x4.toNat < 32 := x4.isLt
  have bx5 : x5.toNat < 4 := x5.isLt
  have bx6 : x6.toNat < 2 := x6.toNat_lt
  have w := word_head c u op (x2.toNat * 32768 + x3.toNat * 1024 + x4.toNat * 32 + x5.toNat * 8 + x6.toNat * 4) n o
      (by omega) (by simp only [← e, Nat.add_assoc])
  refine ⟨w.1, w.2.1, w.2.2.1, w.2.2.2.1, w.2.2.2.2.1, w.2.2.2.2.2, ?_, ?_, ?_, ?_, ?_, ?_⟩
  · exact bf_eq _ (field (H := op * 4194304 + c.toNat * 2147483648 + u.toNat * 1073741824) (L := x3.toNat * 1024 +
      x4.toNat * 32 + x5.toNat * 8 + x6.toNat * 4) (by rw [← e]; simp only [Nat.add_assoc]) (((dvd_term _ rfl).add
      (dvd_term _ rfl)).add (dvd_term _ rfl)) bx2 (by omega))
  · exact bf_eq _ (field (H := op * 4194304 + c.toNat * 2147483648 + u.toNat * 1073741824 + x2.toNat * 32768) (L :=
      x4.toNat * 32 + x5.toNat * 8 + x6.toNat * 4) (by rw [← e]; simp only [Nat.add_assoc]) ((((dvd_term _ rfl).add
      (dvd_term _ rfl)).add (dvd_term _ rfl)).add (dvd_term _ rfl)) bx3 (by omega))
  · exact bf_eq _ (field (H := op * 4194304 + c.toNat * 2147483648 + u.toNat * 1073741824 + x2.toNat * 32768 +
      x3.toNat * 1024) (L := x5.toNat * 8 + x6.toNat * 4) (by rw [← e]; simp only [Nat.add_assoc]) (((((dvd_term _
      rfl).add (dvd_term _ rfl)).add (dvd_term _ rfl)).add (dvd_term _ rfl)).add (dvd_term _ rfl)) bx4 (by omega))
  · exact bf_eq _ (field (H := op * 4194304 + c.toNat * 2147483648 + u.toNat * 1073741824 + x2.toNat * 32768 +
      x3.toNat * 1024 + x4.toNat * 32) (L := x6.toNat * 4) e.symm ((((((dvd_term _ rfl).add (dvd_term _ rfl)).add
      (dvd_term _ rfl)).add (dvd_term _ rfl)).add (dvd_term _ rfl)).add (dvd_term _ rfl)) bx5 (by omega))
  · exact bb_eq _ (field (H := op * 4194304 + c.toNat * 2147483648 + u.toNat * 1073741824 + x2.toNat * 32768 +
      x3.toNat * 1024 + x4.toNat * 32 + x5.toNat * 8) (L := 0) (by rw [Nat.add_zero]; exact e.symm) (((((((dvd_term _
      rfl).add (dvd_term _ rfl)).add (dvd_term _ rfl)).add (dvd_term _ rfl)).add (dvd_term _ rfl)).add (dvd_term _
      rfl)).add (dvd_term _ rfl)) bx6 (by omega))
  · exact low_zero (H := op * 4194304 + c.toNat * 2147483648 + u.toNat * 1073741824 + x2.toNat * 32768 + x3.toNat *
      1024 + x4.toNat * 32 + x5.toNat * 8 + x6.toNat * 4) (by omega) ((((((((dvd_term _ rfl).add (dvd_term _
      rfl)).add (dvd_term _ rfl)).add (dvd_term _ rfl)).add (dvd_term _ rfl)).add (dvd_term _ rfl)).add (dvd_term _
      rfl)).add (dvd_term _ rfl))

theorem Format.f61 (op n : Nat) (c : Bool) (u : Bool) (x2 : BitVec 2) (x3 : BitVec 7) (o : op < 256) (e : op *
        4194304 + c.toNat * 2147483648 + u.toNat * 1073741824 + x2.toNat * 32768 + x3.toNat * 256 = n) :
    n < 4294967296 ∧ n / 268435456 % 4 = op / 64 ∧ n / 67108864 % 16 = op / 16 ∧ n / 4194304 % 16 = op % 16 ∧ bb n
        2147483648 = c ∧ bb n 1073741824 = u ∧ bf 2 n 32768 = x2 ∧ bf 7 n 256 = x3 ∧ n % 256 = 0 ∧ n / 131072 % 32 =
        0 := by
  have bx2 : x2.toNat < 4 := x2.isLt
  have bx3 : x3.toNat < 128 := x3.isLt
  have w := word_head c u op (x2.toNat * 32768 + x3.toNat * 256) n o (by omega) (by simp only [← e, Nat.add_assoc])
  refine ⟨w.1, w.2.1, w.2.2.1, w.2.2.2.1, w.2.2.2.2.1, w.2.2.2.2.2, ?_, ?_, ?_, ?_⟩
  · exact bf_eq _ (field (H := op * 4194304 + c.toNat * 2147483648 + u.toNat * 1073741824) (L := x3.toNat * 256)
      e.symm (((dvd_term _ rfl).add (dvd_term _ rfl)).add (dvd_term _ rfl)) bx2 (by omega))
  · exact bf_eq _ (field (H := op * 4194304 + c.toNat * 2147483648 + u.toNat * 1073741824 + x2.toNat * 32768) (L :=
      0) (by rw [Nat.add_zero]; exact e.symm) ((((dvd_term _ rfl).add (dvd_term _ rfl)).add (dvd_term _ rfl)).add
      (dvd_term _ rfl)) bx3 (by omega))
  · exact low_zero (H := op * 4194304 + c.toNat * 2147483648 + u.toNat * 1073741824 + x2.toNat * 32768 + x3.toNat *
      256) (by omega) (((((dvd_term _ rfl).add (dvd_term _ rfl)).add (dvd_term _ rfl)).add (dvd_term _ rfl)).add
      (dvd_term _ rfl))
  · exact field (H := op * 4194304 + c.toNat * 2147483648 + u.toNat * 1073741824) (v := 0) (L := x2.toNat * 32768 +
      x3.toNat * 256) (by omega) (((dvd_term _ rfl).add (dvd_term _ rfl)).add (dvd_term _ rfl)) (by decide) (by
      omega)

theorem Format.f62 (op n : Nat) (c : Bool) (u : Bool) (x2 : BitVec 7) (x3 : BitVec 8) (o : op < 256) (e : op *
        4194304 + c.toNat * 2147483648 + u.toNat * 1073741824 + x2.toNat * 32768 + x3.toNat * 1 = n) :
    n < 4294967296 ∧ n / 268435456 % 4 = op / 64 ∧ n / 67108864 % 16 = op / 16 ∧ n / 4194304 % 16 = op % 16 ∧ bb n
        2147483648 = c ∧ bb n 1073741824 = u ∧ bf 7 n 32768 = x2 ∧ bf 8 n 1 = x3 ∧ n / 256 % 128 = 0 := by
  have bx2 : x2.toNat < 128 := x2.isLt
  have bx3 : x3.toNat < 256 := x3.isLt
  have w := word_head c u op (x2.toNat * 32768 + x3.toNat * 1) n o (by omega) (by simp only [← e, Nat.add_assoc])
  refine ⟨w.1, w.2.1, w.2.2.1, w.2.2.2.1, w.2.2.2.2.1, w.2.2.2.2.2, ?_, ?_, ?_⟩
  · exact bf_eq _ (field (H := op * 4194304 + c.toNat * 2147483648 + u.toNat * 1073741824) (L := x3.toNat * 1) e.symm
      (((dvd_term _ rfl).add (dvd_term _ rfl)).add (dvd_term _ rfl)) bx2 (by omega))
  · exact bf_eq _ (field (H := op * 4194304 + c.toNat * 2147483648 + u.toNat * 1073741824 + x2.toNat * 32768) (L :=
      0) (by rw [Nat.add_zero]; exact e.symm) ((((dvd_term _ rfl).add (dvd_term _ rfl)).add (dvd_term _ rfl)).add
      (dvd_term _ rfl)) bx3 (by omega))
  · exact field (H := op * 4194304 + c.toNat * 2147483648 + u.toNat * 1073741824 + x2.toNat * 32768) (v := 0) (L :=
      x3.toNat * 1) (by omega) ((((dvd_term _ rfl).add (dvd_term _ rfl)).add (dvd_term _ rfl)).add (dvd_term _ rfl))
      (by decide) (by omega)

theorem Format.f63 (op n : Nat) (c : Bool) (u : Bool) (x2 : BitVec 6) (x3 : BitVec 6) (o : op < 256) (e : op *
        4194304 + c.toNat * 2147483648 + u.toNat * 1073741824 + x2.toNat * 65536 + x3.toNat * 256 = n) :
    n < 4294967296 ∧ n / 268435456 % 4 = op / 64 ∧ n / 67108864 % 16 = op / 16 ∧ n / 4194304 % 16 = op % 16 ∧ bb n
        2147483648 = c ∧ bb n 1073741824 = u ∧ bf 6 n 65536 = x2 ∧ bf 6 n 256 = x3 ∧ n % 256 = 0 ∧ n / 16384 % 4 = 0
        := by
  have bx2 : x2.toNat < 64 := x2.isLt
  have bx3 : x3.toNat < 64 := x3.isLt
  have w := word_head c u op (x2.toNat * 65536 + x3.toNat * 256) n o (by omega) (by simp only [← e, Nat.add_assoc])
  refine ⟨w.1, w.2.1, w.2.2.1, w.2.2.2.1, w.2.2.2.2.1, w.2.2.2.2.2, ?_, ?_, ?_, ?_⟩
  · exact bf_eq _ (field (H := op * 4194304 + c.toNat * 2147483648 + u.toNat * 1073741824) (L := x3.toNat * 256)
      e.symm (((dvd_term _ rfl).add (dvd_term _ rfl)).add (dvd_term _ rfl)) bx2 (by omega))
  · exact bf_eq _ (field (H := op * 4194304 + c.toNat * 2147483648 + u.toNat * 1073741824 + x2.toNat * 65536) (L :=
      0) (by rw [Nat.add_zero]; exact e.symm) ((((dvd_term _ rfl).add (dvd_term _ rfl)).add (dvd_term _ rfl)).add
      (dvd_term _ rfl)) bx3 (by omega))
  · exact low_zero (H := op * 4194304 + c.toNat * 2147483648 + u.toNat * 1073741824 + x2.toNat * 65536 + x3.toNat *
      256) (by omega) (((((dvd_term _ rfl).add (dvd_term _ rfl)).add (dvd_term _ rfl)).add (dvd_term _ rfl)).add
      (dvd_term _ rfl))
  · exact field (H := op * 4194304 + c.toNat * 2147483648 + u.toNat * 1073741824 + x2.toNat * 65536) (v := 0) (L :=
      x3.toNat * 256) (by omega) ((((dvd_term _ rfl).add (dvd_term _ rfl)).add (dvd_term _ rfl)).add (dvd_term _
      rfl)) (by decide) (by omega)

theorem Format.f64 (op n : Nat) (c : Bool) (u : Bool) (x2 : BitVec 6) (x3 : BitVec 6) (x4 : BitVec 7) (x5 : Bool) (o
        : op < 256) (e : op * 4194304 + c.toNat * 2147483648 + u.toNat * 1073741824 + x2.toNat * 65536 + x3.toNat * 256 +
        x4.toNat * 2 + x5.toNat * 1 = n) :
    n < 4294967296 ∧ n / 268435456 % 4 = op / 64 ∧ n / 67108864 % 16 = op / 16 ∧ n / 4194304 % 16 = op % 16 ∧ bb n
        2147483648 = c ∧ bb n 1073741824 = u ∧ bf 6 n 65536 = x2 ∧ bf 6 n 256 = x3 ∧ bf 7 n 2 = x4 ∧ bb n 1 = x5 ∧ n
        / 16384 % 4 = 0 := by
  have bx2 : x2.toNat < 64 := x2.isLt
  have bx3 : x3.toNat < 64 := x3.isLt
  have bx4 : x4.toNat < 128 := x4.isLt
  have bx5 : x5.toNat < 2 := x5.toNat_lt
  have w := word_head c u op (x2.toNat * 65536 + x3.toNat * 256 + x4.toNat * 2 + x5.toNat * 1) n o (by omega)
      (by simp only [← e, Nat.add_assoc])
  refine ⟨w.1, w.2.1, w.2.2.1, w.2.2.2.1, w.2.2.2.2.1, w.2.2.2.2.2, ?_, ?_, ?_, ?_, ?_⟩
  · exact bf_eq _ (field (H := op * 4194304 + c.toNat * 2147483648 + u.toNat * 1073741824) (L := x3.toNat * 256 +
      x4.toNat * 2 + x5.toNat * 1) (by rw [← e]; simp only [Nat.add_assoc]) (((dvd_term _ rfl).add (dvd_term _
      rfl)).add (dvd_term _ rfl)) bx2 (by omega))
  · exact bf_eq _ (field (H := op * 4194304 + c.toNat * 2147483648 + u.toNat * 1073741824 + x2.toNat * 65536) (L :=
      x4.toNat * 2 + x5.toNat * 1) (by rw [← e]; simp only [Nat.add_assoc]) ((((dvd_term _ rfl).add (dvd_term _
      rfl)).add (dvd_term _ rfl)).add (dvd_term _ rfl)) bx3 (by omega))
  · exact bf_eq _ (field (H := op * 4194304 + c.toNat * 2147483648 + u.toNat * 1073741824 + x2.toNat * 65536 +
      x3.toNat * 256) (L := x5.toNat * 1) e.symm (((((dvd_term _ rfl).add (dvd_term _ rfl)).add (dvd_term _ rfl)).add
      (dvd_term _ rfl)).add (dvd_term _ rfl)) bx4 (by omega))
  · exact bb_eq _ (field (H := op * 4194304 + c.toNat * 2147483648 + u.toNat * 1073741824 + x2.toNat * 65536 +
      x3.toNat * 256 + x4.toNat * 2) (L := 0) (by rw [Nat.add_zero]; exact e.symm) ((((((dvd_term _ rfl).add
      (dvd_term _ rfl)).add (dvd_term _ rfl)).add (dvd_term _ rfl)).add (dvd_term _ rfl)).add (dvd_term _ rfl)) bx5
      (by omega))
  · exact field (H := op * 4194304 + c.toNat * 2147483648 + u.toNat * 1073741824 + x2.toNat * 65536) (v := 0) (L :=
      x3.toNat * 256 + x4.toNat * 2 + x5.toNat * 1) (by omega) ((((dvd_term _ rfl).add (dvd_term _ rfl)).add
      (dvd_term _ rfl)).add (dvd_term _ rfl)) (by decide) (by omega)

theorem Format.f65 (op n : Nat) (c : Bool) (x1 : BitVec 6) (o : op < 256) (e : op * 4194304 + c.toNat * 2147483648 +
        x1.toNat * 65536 = n) :
    n < 4294967296 ∧ n / 268435456 % 4 = op / 64 ∧ n / 67108864 % 16 = op / 16 ∧ n / 4194304 % 16 = op % 16 ∧ bb n
        2147483648 = c ∧ bf 6 n 65536 = x1 ∧ n % 65536 = 0 ∧ n / 1073741824 % 2 = 0 := by
  have bx1 : x1.toNat < 64 := x1.isLt
  have w := word_head_c c op (x1.toNat * 65536) n o (by omega) e
  refine ⟨w.1, w.2.1, w.2.2.1, w.2.2.2.1, w.2.2.2.2.1, ?_, ?_, ?_⟩
  · exact bf_eq _ (field (H := op * 4194304 + c.toNat * 2147483648) (L := 0) (by rw [Nat.add_zero]; exact e.symm)
      ((dvd_term _ rfl).add (dvd_term _ rfl)) bx1 (by omega))
  · exact low_zero (H := op * 4194304 + c.toNat * 2147483648 + x1.toNat * 65536) (by omega) (((dvd_term _ rfl).add
      (dvd_term _ rfl)).add (dvd_term _ rfl))
  · exact w.2.2.2.2.2

theorem Format.f66 (op n : Nat) (c : Bool) (x1 : BitVec 6) (x2 : BitVec 2) (x3 : BitVec 6) (x4 : BitVec 7) (x5 :
        Bool) (o : op < 256) (e : op * 4194304 + c.toNat * 2147483648 + x1.toNat * 65536 + x2.toNat * 16384 + x3.toNat *
        256 + x4.toNat * 2 + x5.toNat * 1 = n) :
    n < 4294967296 ∧ n / 268435456 % 4 = op / 64 ∧ n / 67108864 % 16 = op / 16 ∧ n / 4194304 % 16 = op % 16 ∧ bb n
        2147483648 = c ∧ bf 6 n 65536 = x1 ∧ bf 2 n 16384 = x2 ∧ bf 6 n 256 = x3 ∧ bf 7 n 2 = x4 ∧ bb n 1 = x5 ∧ n /
        1073741824 % 2 = 0 := by
  have bx1 : x1.toNat < 64 := x1.isLt
  have bx2 : x2.toNat < 4 := x2.isLt
  have bx3 : x3.toNat < 64 := x3.isLt
  have bx4 : x4.toNat < 128 := x4.isLt
  have bx5 : x5.toNat < 2 := x5.toNat_lt
  have w := word_head_c c op (x1.toNat * 65536 + x2.toNat * 16384 + x3.toNat * 256 + x4.toNat * 2 + x5.toNat * 1) n o
      (by omega) (by simp only [← e, Nat.add_assoc])
  refine ⟨w.1, w.2.1, w.2.2.1, w.2.2.2.1, w.2.2.2.2.1, ?_, ?_, ?_, ?_, ?_, ?_⟩
  · exact bf_eq _ (field (H := op * 4194304 + c.toNat * 2147483648) (L := x2.toNat * 16384 + x3.toNat * 256 +
      x4.toNat * 2 + x5.toNat * 1) (by rw [← e]; simp only [Nat.add_assoc]) ((dvd_term _ rfl).add (dvd_term _ rfl))
      bx1 (by omega))
  · exact bf_eq _ (field (H := op * 4194304 + c.toNat * 2147483648 + x1.toNat * 65536) (L := x3.toNat * 256 +
      x4.toNat * 2 + x5.toNat * 1) (by rw [← e]; simp only [Nat.add_assoc]) (((dvd_term _ rfl).add (dvd_term _
      rfl)).add (dvd_term _ rfl)) bx2 (by omega))
  · exact bf_eq _ (field (H := op * 4194304 + c.toNat * 2147483648 + x1.toNat * 65536 + x2.toNat * 16384) (L :=
      x4.toNat * 2 + x5.toNat * 1) (by rw [← e]; simp only [Nat.add_assoc]) ((((dvd_term _ rfl).add (dvd_term _
      rfl)).add (dvd_term _ rfl)).add (dvd_term _ rfl)) bx3 (by omega))
  · exact bf_eq _ (field (H := op * 4194304 + c.toNat * 2147483648 + x1.toNat * 65536 + x2.toNat * 16384 + x3.toNat *
      256) (L := x5.toNat * 1) e.symm (((((dvd_term _ rfl).add (dvd_term _ rfl)).add (dvd_term _ rfl)).add (dvd_term
      _ rfl)).add (dvd_term _ rfl)) bx4 (by omega))
  · exact bb_eq _ (field (H := op * 4194304 + c.toNat * 2147483648 + x1.toNat * 65536 + x2.toNat * 16384 + x3.toNat *
      256 + x4.toNat * 2) (L := 0) (by rw [Nat.add_zero]; exact e.symm) ((((((dvd_term _ rfl).add (dvd_term _
      rfl)).add (dvd_term _ rfl)).add (dvd_term _ rfl)).add (dvd_term _ rfl)).add (dvd_term _ rfl)) bx5 (by omega))
  · exact w.2.2.2.2.2

theorem Format.f67 (op n : Nat) (c : Bool) (u : Bool) (x2 : BitVec 6) (x3 : BitVec 2) (x4 : BitVec 6) (x5 : BitVec 7)
        (x6 : Bool) (o : op < 256) (e : op * 4194304 + c.toNat * 2147483648 + u.toNat * 1073741824 + x2.toNat * 65536 +
        x3.toNat * 16384 + x4.toNat * 256 + x5.toNat * 2 + x6.toNat * 1 = n) :
    n < 4294967296 ∧ n / 268435456 % 4 = op / 64 ∧ n / 67108864 % 16 = op / 16 ∧ n / 4194304 % 16 = op % 16 ∧ bb n
        2147483648 = c ∧ bb n 1073741824 = u ∧ bf 6 n 65536 = x2 ∧ bf 2 n 16384 = x3 ∧ bf 6 n 256 = x4 ∧ bf 7 n 2 =
        x5 ∧ bb n 1 = x6 := by
  have bx2 : x2.toNat < 64 := x2.isLt
  have bx3 : x3.toNat < 4 := x3.isLt
  have bx4 : x4.toNat < 64 := x4.isLt
  have bx5 : x5.toNat < 128 := x5.isLt
  have bx6 : x6.toNat < 2 := x6.toNat_lt
  have w := word_head c u op (x2.toNat * 65536 + x3.toNat * 16384 + x4.toNat * 256 + x5.toNat * 2 + x6.toNat * 1) n o
      (by omega) (by simp only [← e, Nat.add_assoc])
  refine ⟨w.1, w.2.1, w.2.2.1, w.2.2.2.1, w.2.2.2.2.1, w.2.2.2.2.2, ?_, ?_, ?_, ?_, ?_⟩
  · exact bf_eq _ (field (H := op * 4194304 + c.toNat * 2147483648 + u.toNat * 1073741824) (L := x3.toNat * 16384 +
      x4.toNat * 256 + x5.toNat * 2 + x6.toNat * 1) (by rw [← e]; simp only [Nat.add_assoc]) (((dvd_term _ rfl).add
      (dvd_term _ rfl)).add (dvd_term _ rfl)) bx2 (by omega))
  · exact bf_eq _ (field (H := op * 4194304 + c.toNat * 2147483648 + u.toNat * 1073741824 + x2.toNat * 65536) (L :=
      x4.toNat * 256 + x5.toNat * 2 + x6.toNat * 1) (by rw [← e]; simp only [Nat.add_assoc]) ((((dvd_term _ rfl).add
      (dvd_term _ rfl)).add (dvd_term _ rfl)).add (dvd_term _ rfl)) bx3 (by omega))
  · exact bf_eq _ (field (H := op * 4194304 + c.toNat * 2147483648 + u.toNat * 1073741824 + x2.toNat * 65536 +
      x3.toNat * 16384) (L := x5.toNat * 2 + x6.toNat * 1) (by rw [← e]; simp only [Nat.add_assoc]) (((((dvd_term _
      rfl).add (dvd_term _ rfl)).add (dvd_term _ rfl)).add (dvd_term _ rfl)).add (dvd_term _ rfl)) bx4 (by omega))
  · exact bf_eq _ (field (H := op * 4194304 + c.toNat * 2147483648 + u.toNat * 1073741824 + x2.toNat * 65536 +
      x3.toNat * 16384 + x4.toNat * 256) (L := x6.toNat * 1) e.symm ((((((dvd_term _ rfl).add (dvd_term _ rfl)).add
      (dvd_term _ rfl)).add (dvd_term _ rfl)).add (dvd_term _ rfl)).add (dvd_term _ rfl)) bx5 (by omega))
  · exact bb_eq _ (field (H := op * 4194304 + c.toNat * 2147483648 + u.toNat * 1073741824 + x2.toNat * 65536 +
      x3.toNat * 16384 + x4.toNat * 256 + x5.toNat * 2) (L := 0) (by rw [Nat.add_zero]; exact e.symm) (((((((dvd_term
      _ rfl).add (dvd_term _ rfl)).add (dvd_term _ rfl)).add (dvd_term _ rfl)).add (dvd_term _ rfl)).add (dvd_term _
      rfl)).add (dvd_term _ rfl)) bx6 (by omega))

theorem Format.f68 (op n : Nat) (c : Bool) (x1 : BitVec 3) (x2 : BitVec 6) (x3 : BitVec 7) (x4 : Bool) (o : op < 256)
        (e : op * 4194304 + c.toNat * 2147483648 + x1.toNat * 524288 + x2.toNat * 256 + x3.toNat * 2 + x4.toNat * 1 = n)
        :
    n < 4294967296 ∧ n / 268435456 % 4 = op / 64 ∧ n / 67108864 % 16 = op / 16 ∧ n / 4194304 % 16 = op % 16 ∧ bb n
        2147483648 = c ∧ bf 3 n 524288 = x1 ∧ bf 6 n 256 = x2 ∧ bf 7 n 2 = x3 ∧ bb n 1 = x4 ∧ bf 2 n 16384 = 0#2 ∧ n
        / 65536 % 8 = 0 ∧ n / 1073741824 % 2 = 0 := by
  have bx1 : x1.toNat < 8 := x1.isLt
  have bx2 : x2.toNat < 64 := x2.isLt
  have bx3 : x3.toNat < 128 := x3.isLt
  have bx4 : x4.toNat < 2 := x4.toNat_lt
  have w := word_head_c c op (x1.toNat * 524288 + x2.toNat * 256 + x3.toNat * 2 + x4.toNat * 1) n o (by omega)
      (by simp only [← e, Nat.add_assoc])
  refine ⟨w.1, w.2.1, w.2.2.1, w.2.2.2.1, w.2.2.2.2.1, ?_, ?_, ?_, ?_, ?_, ?_, ?_⟩
  · exact bf_eq _ (field (H := op * 4194304 + c.toNat * 2147483648) (L := x2.toNat * 256 + x3.toNat * 2 + x4.toNat *
      1) (by rw [← e]; simp only [Nat.add_assoc]) ((dvd_term _ rfl).add (dvd_term _ rfl)) bx1 (by omega))
  · exact bf_eq _ (field (H := op * 4194304 + c.toNat * 2147483648 + x1.toNat * 524288) (L := x3.toNat * 2 + x4.toNat
      * 1) (by rw [← e]; simp only [Nat.add_assoc]) (((dvd_term _ rfl).add (dvd_term _ rfl)).add (dvd_term _ rfl))
      bx2 (by omega))
  · exact bf_eq _ (field (H := op * 4194304 + c.toNat * 2147483648 + x1.toNat * 524288 + x2.toNat * 256) (L :=
      x4.toNat * 1) e.symm ((((dvd_term _ rfl).add (dvd_term _ rfl)).add (dvd_term _ rfl)).add (dvd_term _ rfl)) bx3
      (by omega))
  · exact bb_eq _ (field (H := op * 4194304 + c.toNat * 2147483648 + x1.toNat * 524288 + x2.toNat * 256 + x3.toNat *
      2) (L := 0) (by rw [Nat.add_zero]; exact e.symm) (((((dvd_term _ rfl).add (dvd_term _ rfl)).add (dvd_term _
      rfl)).add (dvd_term _ rfl)).add (dvd_term _ rfl)) bx4 (by omega))
  · exact bf_eq _ (field (H := op * 4194304 + c.toNat * 2147483648 + x1.toNat * 524288) (v := 0) (L := x2.toNat * 256
      + x3.toNat * 2 + x4.toNat * 1) (by omega) (((dvd_term _ rfl).add (dvd_term _ rfl)).add (dvd_term _ rfl)) (by
      decide) (by omega))
  · exact field (H := op * 4194304 + c.toNat * 2147483648 + x1.toNat * 524288) (v := 0) (L := x2.toNat * 256 +
      x3.toNat * 2 + x4.toNat * 1) (by omega) (((dvd_term _ rfl).add (dvd_term _ rfl)).add (dvd_term _ rfl)) (by
      decide) (by omega)
  · exact w.2.2.2.2.2

theorem Format.f69 (op n : Nat) (c : Bool) (x1 : BitVec 6) (x2 : BitVec 7) (x3 : Bool) (o : op < 256) (e : op *
        4194304 + 16384 + c.toNat * 2147483648 + x1.toNat * 256 + x2.toNat * 2 + x3.toNat * 1 = n) :
    n < 4294967296 ∧ n / 268435456 % 4 = op / 64 ∧ n / 67108864 % 16 = op / 16 ∧ n / 4194304 % 16 = op % 16 ∧ bb n
        2147483648 = c ∧ bf 6 n 256 = x1 ∧ bf 7 n 2 = x2 ∧ bb n 1 = x3 ∧ bf 2 n 16384 = 1#2 ∧ n / 65536 % 64 = 0 ∧ n
        / 1073741824 % 2 = 0 := by
  have bx1 : x1.toNat < 64 := x1.isLt
  have bx2 : x2.toNat < 128 := x2.isLt
  have bx3 : x3.toNat < 2 := x3.toNat_lt
  have w := word_head_c c op (16384 + x1.toNat * 256 + x2.toNat * 2 + x3.toNat * 1) n o (by omega)
      (by rw [← e]; ac_rfl)
  refine ⟨w.1, w.2.1, w.2.2.1, w.2.2.2.1, w.2.2.2.2.1, ?_, ?_, ?_, ?_, ?_, ?_⟩
  · exact bf_eq _ (field (H := op * 4194304 + c.toNat * 2147483648 + 16384) (L := x2.toNat * 2 + x3.toNat * 1)
      (by rw [← e]; ac_rfl) (((dvd_term _ rfl).add (dvd_term _ rfl)).add (Nat.dvd_of_mod_eq_zero rfl)) bx1 (by
      omega))
  · exact bf_eq _ (field (H := op * 4194304 + c.toNat * 2147483648 + 16384 + x1.toNat * 256) (L := x3.toNat * 1)
      (by rw [← e]; ac_rfl) ((((dvd_term _ rfl).add (dvd_term _ rfl)).add (Nat.dvd_of_mod_eq_zero rfl)).add (dvd_term
      _ rfl)) bx2 (by omega))
  · exact bb_eq _ (field (H := op * 4194304 + c.toNat * 2147483648 + 16384 + x1.toNat * 256 + x2.toNat * 2) (L := 0)
      (by omega) (((((dvd_term _ rfl).add (dvd_term _ rfl)).add (Nat.dvd_of_mod_eq_zero rfl)).add (dvd_term _
      rfl)).add (dvd_term _ rfl)) bx3 (by omega))
  · exact bf_eq _ (field (H := op * 4194304 + c.toNat * 2147483648) (v := 1) (L := x1.toNat * 256 + x2.toNat * 2 +
      x3.toNat * 1) (by omega) ((dvd_term _ rfl).add (dvd_term _ rfl)) (by decide) (by omega))
  · exact field (H := op * 4194304 + c.toNat * 2147483648) (v := 0) (L := 16384 + x1.toNat * 256 + x2.toNat * 2 +
      x3.toNat * 1) (by omega) ((dvd_term _ rfl).add (dvd_term _ rfl)) (by decide) (by omega)
  · exact w.2.2.2.2.2

theorem Format.f70 (op n : Nat) (c : Bool) (x1 : BitVec 6) (x2 : BitVec 7) (x3 : Bool) (o : op < 256) (e : op *
        4194304 + c.toNat * 2147483648 + x1.toNat * 256 + x2.toNat * 2 + x3.toNat * 1 = n) :
    n < 4294967296 ∧ n / 268435456 % 4 = op / 64 ∧ n / 67108864 % 16 = op / 16 ∧ n / 4194304 % 16 = op % 16 ∧ bb n
        2147483648 = c ∧ bf 6 n 256 = x1 ∧ bf 7 n 2 = x2 ∧ bb n 1 = x3 ∧ n / 16384 % 256 = 0 ∧ n / 1073741824 % 2 = 0
        := by
  have bx1 : x1.toNat < 64 := x1.isLt
  have bx2 : x2.toNat < 128 := x2.isLt
  have bx3 : x3.toNat < 2 := x3.toNat_lt
  have w := word_head_c c op (x1.toNat * 256 + x2.toNat * 2 + x3.toNat * 1) n o (by omega)
      (by simp only [← e, Nat.add_assoc])
  refine ⟨w.1, w.2.1, w.2.2.1, w.2.2.2.1, w.2.2.2.2.1, ?_, ?_, ?_, ?_, ?_⟩
  · exact bf_eq _ (field (H := op * 4194304 + c.toNat * 2147483648) (L := x2.toNat * 2 + x3.toNat * 1)
      (by rw [← e]; simp only [Nat.add_assoc]) ((dvd_term _ rfl).add (dvd_term _ rfl)) bx1 (by omega))
  · exact bf_eq _ (field (H := op * 4194304 + c.toNat * 2147483648 + x1.toNat * 256) (L := x3.toNat * 1) e.symm
      (((dvd_term _ rfl).add (dvd_term _ rfl)).add (dvd_term _ rfl)) bx2 (by omega))
  · exact bb_eq _ (field (H := op * 4194304 + c.toNat * 2147483648 + x1.toNat * 256 + x2.toNat * 2) (L := 0)
      (by rw [Nat.add_zero]; exact e.symm) ((((dvd_term _ rfl).add (dvd_term _ rfl)).add (dvd_term _ rfl)).add
      (dvd_term _ rfl)) bx3 (by omega))
  · exact field (H := op * 4194304 + c.toNat * 2147483648) (v := 0) (L := x1.toNat * 256 + x2.toNat * 2 + x3.toNat *
      1) (by omega) ((dvd_term _ rfl).add (dvd_term _ rfl)) (by decide) (by omega)
  · exact w.2.2.2.2.2

theorem Format.f71 (op n : Nat) (c : Bool) (x1 : BitVec 6) (x2 : BitVec 7) (x3 : Bool) (o : op < 256) (e : op *
        4194304 + c.toNat * 2147483648 + x1.toNat * 65536 + x2.toNat * 2 + x3.toNat * 1 = n) :
    n < 4294967296 ∧ n / 268435456 % 4 = op / 64 ∧ n / 67108864 % 16 = op / 16 ∧ n / 4194304 % 16 = op % 16 ∧ bb n
        2147483648 = c ∧ bf 6 n 65536 = x1 ∧ bf 7 n 2 = x2 ∧ bb n 1 = x3 ∧ n / 256 % 256 = 0 ∧ n / 1073741824 % 2 = 0
        := by
  have bx1 : x1.toNat < 64 := x1.isLt
  have bx2 : x2.toNat < 128 := x2.isLt
  have bx3 : x3.toNat < 2 := x3.toNat_lt
  have w := word_head_c c op (x1.toNat * 65536 + x2.toNat * 2 + x3.toNat * 1) n o (by omega)
      (by simp only [← e, Nat.add_assoc])
  refine ⟨w.1, w.2.1, w.2.2.1, w.2.2.2.1, w.2.2.2.2.1, ?_, ?_, ?_, ?_, ?_⟩
  · exact bf_eq _ (field (H := op * 4194304 + c.toNat * 2147483648) (L := x2.toNat * 2 + x3.toNat * 1)
      (by rw [← e]; simp only [Nat.add_assoc]) ((dvd_term _ rfl).add (dvd_term _ rfl)) bx1 (by omega))
  · exact bf_eq _ (field (H := op * 4194304 + c.toNat * 2147483648 + x1.toNat * 65536) (L := x3.toNat * 1) e.symm
      (((dvd_term _ rfl).add (dvd_term _ rfl)).add (dvd_term _ rfl)) bx2 (by omega))
  · exact bb_eq _ (field (H := op * 4194304 + c.toNat * 2147483648 + x1.toNat * 65536 + x2.toNat * 2) (L := 0)
      (by rw [Nat.add_zero]; exact e.symm) ((((dvd_term _ rfl).add (dvd_term _ rfl)).add (dvd_term _ rfl)).add
      (dvd_term _ rfl)) bx3 (by omega))
  · exact field (H := op * 4194304 + c.toNat * 2147483648 + x1.toNat * 65536) (v := 0) (L := x2.toNat * 2 + x3.toNat
      * 1) (by omega) (((dvd_term _ rfl).add (dvd_term _ rfl)).add (dvd_term _ rfl)) (by decide) (by omega)
  · exact w.2.2.2.2.2

theorem Format.f72 (op n : Nat) (c : Bool) (x1 : BitVec 7) (x2 : Bool) (o : op < 256) (e : op * 4194304 + c.toNat *
        2147483648 + x1.toNat * 2 + x2.toNat * 1 = n) :
    n < 4294967296 ∧ n / 268435456 % 4 = op / 64 ∧ n / 67108864 % 16 = op / 16 ∧ n / 4194304 % 16 = op % 16 ∧ bb n
        2147483648 = c ∧ bf 7 n 2 = x1 ∧ bb n 1 = x2 ∧ n / 256 % 16384 = 0 ∧ n / 1073741824 % 2 = 0 := by
  have bx1 : x1.toNat < 128 := x1.isLt
  have bx2 : x2.toNat < 2 := x2.toNat_lt
  have w := word_head_c c op (x1.toNat * 2 + x2.toNat * 1) n o (by omega) (by simp only [← e, Nat.add_assoc])
  refine ⟨w.1, w.2.1, w.2.2.1, w.2.2.2.1, w.2.2.2.2.1, ?_, ?_, ?_, ?_⟩
  · exact bf_eq _ (field (H := op * 4194304 + c.toNat * 2147483648) (L := x2.toNat * 1) e.symm ((dvd_term _ rfl).add
      (dvd_term _ rfl)) bx1 (by omega))
  · exact bb_eq _ (field (H := op * 4194304 + c.toNat * 2147483648 + x1.toNat * 2) (L := 0)
      (by rw [Nat.add_zero]; exact e.symm) (((dvd_term _ rfl).add (dvd_term _ rfl)).add (dvd_term _ rfl)) bx2 (by
      omega))
  · exact field (H := op * 4194304 + c.toNat * 2147483648) (v := 0) (L := x1.toNat * 2 + x2.toNat * 1) (by omega)
      ((dvd_term _ rfl).add (dvd_term _ rfl)) (by decide) (by omega)
  · exact w.2.2.2.2.2

theorem Format.f73 (op n : Nat) (c : Bool) (x1 : BitVec 3) (x2 : BitVec 6) (o : op < 256) (e : op * 4194304 + c.toNat
        * 2147483648 + x1.toNat * 524288 + x2.toNat * 256 = n) :
    n < 4294967296 ∧ n / 268435456 % 4 = op / 64 ∧ n / 67108864 % 16 = op / 16 ∧ n / 4194304 % 16 = op % 16 ∧ bb n
        2147483648 = c ∧ bf 3 n 524288 = x1 ∧ bf 6 n 256 = x2 ∧ n % 256 = 0 ∧ n / 16384 % 32 = 0 ∧ n / 1073741824 % 2
        = 0 := by
  have bx1 : x1.toNat < 8 := x1.isLt
  have bx2 : x2.toNat < 64 := x2.isLt
  have w := word_head_c c op (x1.toNat * 524288 + x2.toNat * 256) n o (by omega) (by simp only [← e, Nat.add_assoc])
  refine ⟨w.1, w.2.1, w.2.2.1, w.2.2.2.1, w.2.2.2.2.1, ?_, ?_, ?_, ?_, ?_⟩
  · exact bf_eq _ (field (H := op * 4194304 + c.toNat * 2147483648) (L := x2.toNat * 256) e.symm ((dvd_term _
      rfl).add (dvd_term _ rfl)) bx1 (by omega))
  · exact bf_eq _ (field (H := op * 4194304 + c.toNat * 2147483648 + x1.toNat * 524288) (L := 0)
      (by rw [Nat.add_zero]; exact e.symm) (((dvd_term _ rfl).add (dvd_term _ rfl)).add (dvd_term _ rfl)) bx2 (by
      omega))
  · exact low_zero (H := op * 4194304 + c.toNat * 2147483648 + x1.toNat * 524288 + x2.toNat * 256) (by omega)
      ((((dvd_term _ rfl).add (dvd_term _ rfl)).add (dvd_term _ rfl)).add (dvd_term _ rfl))
  · exact field (H := op * 4194304 + c.toNat * 2147483648 + x1.toNat * 524288) (v := 0) (L := x2.toNat * 256) (by
      omega) (((dvd_term _ rfl).add (dvd_term _ rfl)).add (dvd_term _ rfl)) (by decide) (by omega)
  · exact w.2.2.2.2.2

theorem Format.f74 (op n : Nat) (c : Bool) (x1 : BitVec 7) (x2 : Bool) (o : op < 256) (e : op * 4194304 + 16384 +
        c.toNat * 2147483648 + x1.toNat * 2 + x2.toNat * 1 = n) :
    n < 4294967296 ∧ n / 268435456 % 4 = op / 64 ∧ n / 67108864 % 16 = op / 16 ∧ n / 4194304 % 16 = op % 16 ∧ bb n
        2147483648 = c ∧ bf 7 n 2 = x1 ∧ bb n 1 = x2 ∧ bf 2 n 16384 = 1#2 ∧ n / 256 % 64 = 0 ∧ n / 65536 % 64 = 0 ∧ n
        / 1073741824 % 2 = 0 := by
  have bx1 : x1.toNat < 128 := x1.isLt
  have bx2 : x2.toNat < 2 := x2.toNat_lt
  have w := word_head_c c op (16384 + x1.toNat * 2 + x2.toNat * 1) n o (by omega) (by rw [← e]; ac_rfl)
  refine ⟨w.1, w.2.1, w.2.2.1, w.2.2.2.1, w.2.2.2.2.1, ?_, ?_, ?_, ?_, ?_, ?_⟩
  · exact bf_eq _ (field (H := op * 4194304 + c.toNat * 2147483648 + 16384) (L := x2.toNat * 1) (by rw [← e]; ac_rfl)
      (((dvd_term _ rfl).add (dvd_term _ rfl)).add (Nat.dvd_of_mod_eq_zero rfl)) bx1 (by omega))
  · exact bb_eq _ (field (H := op * 4194304 + c.toNat * 2147483648 + 16384 + x1.toNat * 2) (L := 0) (by omega)
      ((((dvd_term _ rfl).add (dvd_term _ rfl)).add (Nat.dvd_of_mod_eq_zero rfl)).add (dvd_term _ rfl)) bx2 (by
      omega))
  · exact bf_eq _ (field (H := op * 4194304 + c.toNat * 2147483648) (v := 1) (L := x1.toNat * 2 + x2.toNat * 1) (by
      omega) ((dvd_term _ rfl).add (dvd_term _ rfl)) (by decide) (by omega))
  · exact field (H := op * 4194304 + c.toNat * 2147483648 + 16384) (v := 0) (L := x1.toNat * 2 + x2.toNat * 1) (by
      omega) (((dvd_term _ rfl).add (dvd_term _ rfl)).add (Nat.dvd_of_mod_eq_zero rfl)) (by decide) (by omega)
  · exact field (H := op * 4194304 + c.toNat * 2147483648) (v := 0) (L := 16384 + x1.toNat * 2 + x2.toNat * 1) (by
      omega) ((dvd_term _ rfl).add (dvd_term _ rfl)) (by decide) (by omega)
  · exact w.2.2.2.2.2

theorem Format.f75 (op n : Nat) (c : Bool) (x1 : BitVec 7) (x2 : Bool) (o : op < 256) (e : op * 4194304 + c.toNat *
        2147483648 + x1.toNat * 2 + x2.toNat * 1 = n) :
    n < 4294967296 ∧ n / 268435456 % 4 = op / 64 ∧ n / 67108864 % 16 = op / 16 ∧ n / 4194304 % 16 = op % 16 ∧ bb n
        2147483648 = c ∧ bf 7 n 2 = x1 ∧ bb n 1 = x2 ∧ bf 2 n 16384 = 0#2 ∧ n / 256 % 64 = 0 ∧ n / 65536 % 64 = 0 ∧ n
        / 1073741824 % 2 = 0 := by
  have bx1 : x1.toNat < 128 := x1.isLt
  have bx2 : x2.toNat < 2 := x2.toNat_lt
  have w := word_head_c c op (x1.toNat * 2 + x2.toNat * 1) n o (by omega) (by simp only [← e, Nat.add_assoc])
  refine ⟨w.1, w.2.1, w.2.2.1, w.2.2.2.1, w.2.2.2.2.1, ?_, ?_, ?_, ?_, ?_, ?_⟩
  · exact bf_eq _ (field (H := op * 4194304 + c.toNat * 2147483648) (L := x2.toNat * 1) e.symm ((dvd_term _ rfl).add
      (dvd_term _ rfl)) bx1 (by omega))
  · exact bb_eq _ (field (H := op * 4194304 + c.toNat * 2147483648 + x1.toNat * 2) (L := 0)
      (by rw [Nat.add_zero]; exact e.symm) (((dvd_term _ rfl).add (dvd_term _ rfl)).add (dvd_term _ rfl)) bx2 (by
      omega))
  · exact bf_eq _ (field (H := op * 4194304 + c.toNat * 2147483648) (v := 0) (L := x1.toNat * 2 + x2.toNat * 1) (by
      omega) ((dvd_term _ rfl).add (dvd_term _ rfl)) (by decide) (by omega))
  · exact field (H := op * 4194304 + c.toNat * 2147483648) (v := 0) (L := x1.toNat * 2 + x2.toNat * 1) (by omega)
      ((dvd_term _ rfl).add (dvd_term _ rfl)) (by decide) (by omega)
  · exact field (H := op * 4194304 + c.toNat * 2147483648) (v := 0) (L := x1.toNat * 2 + x2.toNat * 1) (by omega)
      ((dvd_term _ rfl).add (dvd_term _ rfl)) (by decide) (by omega)
  · exact w.2.2.2.2.2

theorem Format.f76 (op n : Nat) (c : Bool) (u : Bool) (x2 : BitVec 6) (x3 : BitVec 3) (x4 : BitVec 7) (x5 : Bool) (o
        : op < 256) (e : op * 4194304 + c.toNat * 2147483648 + u.toNat * 1073741824 + x2.toNat * 65536 + x3.toNat * 256 +
        x4.toNat * 2 + x5.toNat * 1 = n) :
    n < 4294967296 ∧ n / 268435456 % 4 = op / 64 ∧ n / 67108864 % 16 = op / 16 ∧ n / 4194304 % 16 = op % 16 ∧ bb n
        2147483648 = c ∧ bb n 1073741824 = u ∧ bf 6 n 65536 = x2 ∧ bf 3 n 256 = x3 ∧ bf 7 n 2 = x4 ∧ bb n 1 = x5 ∧ n
        / 2048 % 32 = 0 := by
  have bx2 : x2.toNat < 64 := x2.isLt
  have bx3 : x3.toNat < 8 := x3.isLt
  have bx4 : x4.toNat < 128 := x4.isLt
  have bx5 : x5.toNat < 2 := x5.toNat_lt
  have w := word_head c u op (x2.toNat * 65536 + x3.toNat * 256 + x4.toNat * 2 + x5.toNat * 1) n o (by omega)
      (by simp only [← e, Nat.add_assoc])
  refine ⟨w.1, w.2.1, w.2.2.1, w.2.2.2.1, w.2.2.2.2.1, w.2.2.2.2.2, ?_, ?_, ?_, ?_, ?_⟩
  · exact bf_eq _ (field (H := op * 4194304 + c.toNat * 2147483648 + u.toNat * 1073741824) (L := x3.toNat * 256 +
      x4.toNat * 2 + x5.toNat * 1) (by rw [← e]; simp only [Nat.add_assoc]) (((dvd_term _ rfl).add (dvd_term _
      rfl)).add (dvd_term _ rfl)) bx2 (by omega))
  · exact bf_eq _ (field (H := op * 4194304 + c.toNat * 2147483648 + u.toNat * 1073741824 + x2.toNat * 65536) (L :=
      x4.toNat * 2 + x5.toNat * 1) (by rw [← e]; simp only [Nat.add_assoc]) ((((dvd_term _ rfl).add (dvd_term _
      rfl)).add (dvd_term _ rfl)).add (dvd_term _ rfl)) bx3 (by omega))
  · exact bf_eq _ (field (H := op * 4194304 + c.toNat * 2147483648 + u.toNat * 1073741824 + x2.toNat * 65536 +
      x3.toNat * 256) (L := x5.toNat * 1) e.symm (((((dvd_term _ rfl).add (dvd_term _ rfl)).add (dvd_term _ rfl)).add
      (dvd_term _ rfl)).add (dvd_term _ rfl)) bx4 (by omega))
  · exact bb_eq _ (field (H := op * 4194304 + c.toNat * 2147483648 + u.toNat * 1073741824 + x2.toNat * 65536 +
      x3.toNat * 256 + x4.toNat * 2) (L := 0) (by rw [Nat.add_zero]; exact e.symm) ((((((dvd_term _ rfl).add
      (dvd_term _ rfl)).add (dvd_term _ rfl)).add (dvd_term _ rfl)).add (dvd_term _ rfl)).add (dvd_term _ rfl)) bx5
      (by omega))
  · exact field (H := op * 4194304 + c.toNat * 2147483648 + u.toNat * 1073741824 + x2.toNat * 65536) (v := 0) (L :=
      x3.toNat * 256 + x4.toNat * 2 + x5.toNat * 1) (by omega) ((((dvd_term _ rfl).add (dvd_term _ rfl)).add
      (dvd_term _ rfl)).add (dvd_term _ rfl)) (by decide) (by omega)

/-- The fields of a word of the F class (R212). -/
theorem Format.f (k n : Nat) (c u : Bool) (d : BitVec 7) (i : BitVec 20) (hk : k < 2)
    (e : 805306368 + k * 134217728 + c.toNat * 2147483648 + u.toNat * 1073741824 + d.toNat * 1048576 + i.toNat * 1 = n) :
    n < 4294967296 ∧ n / 268435456 % 4 = 3 ∧ n / 134217728 % 2 = k ∧ bb n 2147483648 = c ∧ bb n 1073741824 = u ∧
    bf 7 n 1048576 = d ∧ bf 20 n 1 = i := by
  have := c.toNat_lt; have := u.toNat_lt
  have hd : d.toNat < 128 := d.isLt
  have hi : i.toNat < 1048576 := i.isLt
  refine ⟨?_, ?_, ?_, bb_eq c ?_, bb_eq u ?_, bf_eq d ?_, bf_eq i ?_⟩ <;> omega

end Sys2Proof.Laws
end

