-- ==== Sys2Proof/Laws/PerInstr.lean ====
section
/-! SUPPORT. Decoding the word of an instruction gives the instruction back, one lemma for each constructor. An event has no
word. -/

namespace Sys2Proof.Laws

open Sys2Proof

/-- The word of a well-formed instruction has 32 bits and decodes to the instruction. -/
def RoundTrip.Statement (i : Instr) : Prop :=
  ∀ n, i.wellFormed = true → i.code = some n → n < 4294967296 ∧ decodeWord n = .ok i

theorem RoundTrip.clause (w : BitVec 12) (a : BitVec 4) (b : BitVec 4) (v : Bool) (x : Bool) : RoundTrip.Statement (.clause w a b v x) := by
  intro word wf enc
  have q := Format.f1 0 word w a b v x (by decide) (Option.some.inj enc)
  exact ⟨q.1, by simp [decodeWord, decodeRow0, row, wf, q]⟩

theorem RoundTrip.guard (p : BitVec 3) (s : Bool) (n : BitVec 2) : RoundTrip.Statement (.guard p s n) := by
  intro word wf enc
  have q := Format.f2 1 word p s n (by decide) (Option.some.inj enc)
  exact ⟨q.1, by simp [decodeWord, decodeRow0, row, wf, q]⟩

theorem RoundTrip.nop (c : Bool) : RoundTrip.Statement (.nop c) := by
  intro word wf enc
  have q := Format.f3 2 word c (by decide) (Option.some.inj enc)
  exact ⟨q.1, by simp [decodeWord, decodeRow0, row, wf, q]⟩

theorem RoundTrip.brk (k : BitVec 22) : RoundTrip.Statement (.brk k) := by
  intro word wf enc
  have q := Format.f4 3 word k (by decide) (Option.some.inj enc)
  exact ⟨q.1, by simp [decodeWord, decodeRow0, row, wf, q]⟩

theorem RoundTrip.iadd (c : Bool) (u : Bool) (d : BitVec 7) (a : BitVec 7) (b : BitVec 7) (x : Bool) : RoundTrip.Statement (.iadd c u d a b x) := by
  intro word wf enc
  have q := Format.f5 4 word c u d a b x (by decide) (Option.some.inj enc)
  exact ⟨q.1, by simp [decodeWord, decodeRow0, row, wf, q]⟩

theorem RoundTrip.isub (c : Bool) (u : Bool) (d : BitVec 7) (a : BitVec 7) (b : BitVec 7) (x : Bool) : RoundTrip.Statement (.isub c u d a b x) := by
  intro word wf enc
  have q := Format.f5 5 word c u d a b x (by decide) (Option.some.inj enc)
  exact ⟨q.1, by simp [decodeWord, decodeRow0, row, wf, q]⟩

theorem RoundTrip.imul (c : Bool) (u : Bool) (d : BitVec 7) (a : BitVec 7) (b : BitVec 7) (x : Bool) : RoundTrip.Statement (.imul c u d a b x) := by
  intro word wf enc
  have q := Format.f5 6 word c u d a b x (by decide) (Option.some.inj enc)
  exact ⟨q.1, by simp [decodeWord, decodeRow0, row, wf, q]⟩

theorem RoundTrip.imulh (c : Bool) (u : Bool) (g : Bool) (d : BitVec 6) (a : BitVec 7) (b : BitVec 7) (x : Bool) : RoundTrip.Statement (.imulh c u g d a b x) := by
  intro word wf enc
  have q := Format.f6 7 word c u g d a b x (by decide) (Option.some.inj enc)
  exact ⟨q.1, by simp [decodeWord, decodeRow0, row, wf, q]⟩

theorem RoundTrip.imad (c : Bool) (u : Bool) (d : BitVec 7) (a : BitVec 7) (b : BitVec 7) (x : Bool) : RoundTrip.Statement (.imad c u d a b x) := by
  intro word wf enc
  have q := Format.f5 8 word c u d a b x (by decide) (Option.some.inj enc)
  exact ⟨q.1, by simp [decodeWord, decodeRow0, row, wf, q]⟩

theorem RoundTrip.iabs (c : Bool) (u : Bool) (d : BitVec 7) (a : BitVec 7) : RoundTrip.Statement (.iabs c u d a) := by
  intro word wf enc
  have q := Format.f7 9 word c u d a (by decide) (Option.some.inj enc)
  exact ⟨q.1, by simp [decodeWord, decodeRow0, row, wf, q]⟩

theorem RoundTrip.imin (c : Bool) (u : Bool) (g : Bool) (d : BitVec 6) (a : BitVec 7) (b : BitVec 7) (x : Bool) : RoundTrip.Statement (.imin c u g d a b x) := by
  intro word wf enc
  have q := Format.f6 10 word c u g d a b x (by decide) (Option.some.inj enc)
  exact ⟨q.1, by simp [decodeWord, decodeRow0, row, wf, q]⟩

theorem RoundTrip.imax (c : Bool) (u : Bool) (g : Bool) (d : BitVec 6) (a : BitVec 7) (b : BitVec 7) (x : Bool) : RoundTrip.Statement (.imax c u g d a b x) := by
  intro word wf enc
  have q := Format.f6 11 word c u g d a b x (by decide) (Option.some.inj enc)
  exact ⟨q.1, by simp [decodeWord, decodeRow0, row, wf, q]⟩

theorem RoundTrip.ishl (c : Bool) (u : Bool) (d : BitVec 7) (a : BitVec 7) (b : BitVec 7) (x : Bool) : RoundTrip.Statement (.ishl c u d a b x) := by
  intro word wf enc
  have q := Format.f5 12 word c u d a b x (by decide) (Option.some.inj enc)
  exact ⟨q.1, by simp [decodeWord, decodeRow0, row, wf, q]⟩

theorem RoundTrip.ishr (c : Bool) (u : Bool) (g : Bool) (d : BitVec 6) (a : BitVec 7) (b : BitVec 7) (x : Bool) : RoundTrip.Statement (.ishr c u g d a b x) := by
  intro word wf enc
  have q := Format.f6 13 word c u g d a b x (by decide) (Option.some.inj enc)
  exact ⟨q.1, by simp [decodeWord, decodeRow0, row, wf, q]⟩

theorem RoundTrip.irot (c : Bool) (u : Bool) (d : BitVec 7) (a : BitVec 7) (b : BitVec 7) (x : Bool) : RoundTrip.Statement (.irot c u d a b x) := by
  intro word wf enc
  have q := Format.f5 14 word c u d a b x (by decide) (Option.some.inj enc)
  exact ⟨q.1, by simp [decodeWord, decodeRow0, row, wf, q]⟩

theorem RoundTrip.and (c : Bool) (u : Bool) (d : BitVec 7) (a : BitVec 7) (b : BitVec 7) (x : Bool) : RoundTrip.Statement (.and c u d a b x) := by
  intro word wf enc
  have q := Format.f5 15 word c u d a b x (by decide) (Option.some.inj enc)
  exact ⟨q.1, by simp [decodeWord, decodeRow0, row, wf, q]⟩

theorem RoundTrip.or (c : Bool) (u : Bool) (d : BitVec 7) (a : BitVec 7) (b : BitVec 7) (x : Bool) : RoundTrip.Statement (.or c u d a b x) := by
  intro word wf enc
  have q := Format.f5 16 word c u d a b x (by decide) (Option.some.inj enc)
  exact ⟨q.1, by simp [decodeWord, decodeRow1, row, wf, q]⟩

theorem RoundTrip.xor (c : Bool) (u : Bool) (d : BitVec 7) (a : BitVec 7) (b : BitVec 7) (x : Bool) : RoundTrip.Statement (.xor c u d a b x) := by
  intro word wf enc
  have q := Format.f5 17 word c u d a b x (by decide) (Option.some.inj enc)
  exact ⟨q.1, by simp [decodeWord, decodeRow1, row, wf, q]⟩

theorem RoundTrip.andn (c : Bool) (u : Bool) (d : BitVec 7) (a : BitVec 7) (b : BitVec 7) (x : Bool) : RoundTrip.Statement (.andn c u d a b x) := by
  intro word wf enc
  have q := Format.f5 18 word c u d a b x (by decide) (Option.some.inj enc)
  exact ⟨q.1, by simp [decodeWord, decodeRow1, row, wf, q]⟩

theorem RoundTrip.clz (c : Bool) (u : Bool) (d : BitVec 7) (a : BitVec 7) : RoundTrip.Statement (.clz c u d a) := by
  intro word wf enc
  have q := Format.f7 19 word c u d a (by decide) (Option.some.inj enc)
  exact ⟨q.1, by simp [decodeWord, decodeRow1, row, wf, q]⟩

theorem RoundTrip.popc (c : Bool) (u : Bool) (d : BitVec 7) (a : BitVec 7) : RoundTrip.Statement (.popc c u d a) := by
  intro word wf enc
  have q := Format.f7 20 word c u d a (by decide) (Option.some.inj enc)
  exact ⟨q.1, by simp [decodeWord, decodeRow1, row, wf, q]⟩

theorem RoundTrip.brev (c : Bool) (u : Bool) (d : BitVec 7) (a : BitVec 7) : RoundTrip.Statement (.brev c u d a) := by
  intro word wf enc
  have q := Format.f7 21 word c u d a (by decide) (Option.some.inj enc)
  exact ⟨q.1, by simp [decodeWord, decodeRow1, row, wf, q]⟩

theorem RoundTrip.bfx (c : Bool) (u : Bool) (g : Bool) (d : BitVec 6) (a : BitVec 7) (b : BitVec 7) (x : Bool) : RoundTrip.Statement (.bfx c u g d a b x) := by
  intro word wf enc
  have q := Format.f6 22 word c u g d a b x (by decide) (Option.some.inj enc)
  exact ⟨q.1, by simp [decodeWord, decodeRow1, row, wf, q]⟩

theorem RoundTrip.bfi (c : Bool) (u : Bool) (d : BitVec 7) (a : BitVec 7) (b : BitVec 7) (x : Bool) : RoundTrip.Statement (.bfi c u d a b x) := by
  intro word wf enc
  have q := Format.f5 23 word c u d a b x (by decide) (Option.some.inj enc)
  exact ⟨q.1, by simp [decodeWord, decodeRow1, row, wf, q]⟩

theorem RoundTrip.icmp (c : Bool) (u : Bool) (k : BitVec 4) (p : BitVec 3) (a : BitVec 7) (b : BitVec 7) (x : Bool) : RoundTrip.Statement (.icmp c u k p a b x) := by
  intro word wf enc
  have q := Format.f8 24 word c u k p a b x (by decide) (Option.some.inj enc)
  exact ⟨q.1, by simp [decodeWord, decodeRow1, row, wf, q]⟩

theorem RoundTrip.plog (c : Bool) (u : Bool) (l : BitVec 4) (d : BitVec 3) (a : BitVec 3) (b : BitVec 3) : RoundTrip.Statement (.plog c u l d a b) := by
  intro word wf enc
  have q := Format.f9 25 word c u l d a b (by decide) (Option.some.inj enc)
  exact ⟨q.1, by simp [decodeWord, decodeRow1, row, wf, q]⟩

theorem RoundTrip.movW32 (c : Bool) (u : Bool) (d : BitVec 7) (b : BitVec 7) (x : Bool) : RoundTrip.Statement (.movW32 c u d b x) := by
  intro word wf enc
  have q := Format.f10 26 word c u d b x (by decide) (Option.some.inj enc)
  exact ⟨q.1, by simp [decodeWord, decodeRow1, row, wf, q]⟩

theorem RoundTrip.movW64 (c : Bool) (u : Bool) (d : BitVec 7) (b : BitVec 7) (x : Bool) : RoundTrip.Statement (.movW64 c u d b x) := by
  intro word wf enc
  have q := Format.f11 26 word c u d b x (by decide) (Option.some.inj enc)
  exact ⟨q.1, by simp [decodeWord, decodeRow1, row, wf, q]⟩

theorem RoundTrip.movS (c : Bool) (u : Bool) (d : BitVec 7) (b : BitVec 7) (x : Bool) : RoundTrip.Statement (.movS c u d b x) := by
  intro word wf enc
  have q := Format.f12 26 word c u d b x (by decide) (Option.some.inj enc)
  exact ⟨q.1, by simp [decodeWord, decodeRow1, row, wf, q]⟩

theorem RoundTrip.movi (c : Bool) (u : Bool) (d : BitVec 7) (i : BitVec 15) : RoundTrip.Statement (.movi c u d i) := by
  intro word wf enc
  have q := Format.f13 27 word c u d i (by decide) (Option.some.inj enc)
  exact ⟨q.1, by simp [decodeWord, decodeRow1, row, wf, q]⟩

theorem RoundTrip.movhi (c : Bool) (u : Bool) (d : BitVec 7) (i : BitVec 15) : RoundTrip.Statement (.movhi c u d i) := by
  intro word wf enc
  have q := Format.f13 28 word c u d i (by decide) (Option.some.inj enc)
  exact ⟨q.1, by simp [decodeWord, decodeRow1, row, wf, q]⟩

theorem RoundTrip.add64 (c : Bool) (u : Bool) (d : BitVec 6) (k : Bool) (a : BitVec 6) (b : BitVec 7) (x : Bool) : RoundTrip.Statement (.add64 c u d k a b x) := by
  intro word wf enc
  have q := Format.f14 29 word c u d k a b x (by decide) (Option.some.inj enc)
  exact ⟨q.1, by simp [decodeWord, decodeRow1, row, wf, q]⟩

theorem RoundTrip.sub64 (c : Bool) (u : Bool) (d : BitVec 6) (k : Bool) (a : BitVec 6) (b : BitVec 7) (x : Bool) : RoundTrip.Statement (.sub64 c u d k a b x) := by
  intro word wf enc
  have q := Format.f14 30 word c u d k a b x (by decide) (Option.some.inj enc)
  exact ⟨q.1, by simp [decodeWord, decodeRow1, row, wf, q]⟩

theorem RoundTrip.mul64 (c : Bool) (u : Bool) (d : BitVec 6) (k : Bool) (a : BitVec 6) (b : BitVec 7) (x : Bool) : RoundTrip.Statement (.mul64 c u d k a b x) := by
  intro word wf enc
  have q := Format.f14 31 word c u d k a b x (by decide) (Option.some.inj enc)
  exact ⟨q.1, by simp [decodeWord, decodeRow1, row, wf, q]⟩

theorem RoundTrip.shl64 (c : Bool) (u : Bool) (d : BitVec 6) (k : Bool) (a : BitVec 6) (b : BitVec 7) (x : Bool) : RoundTrip.Statement (.shl64 c u d k a b x) := by
  intro word wf enc
  have q := Format.f14 32 word c u d k a b x (by decide) (Option.some.inj enc)
  exact ⟨q.1, by simp [decodeWord, decodeRow2, row, wf, q]⟩

theorem RoundTrip.shr64 (c : Bool) (u : Bool) (g : Bool) (d : BitVec 6) (k : Bool) (a : BitVec 6) (b : BitVec 7) (x : Bool) : RoundTrip.Statement (.shr64 c u g d k a b x) := by
  intro word wf enc
  have q := Format.f15 33 word c u g d k a b x (by decide) (Option.some.inj enc)
  exact ⟨q.1, by simp [decodeWord, decodeRow2, row, wf, q]⟩

theorem RoundTrip.cmp64 (c : Bool) (u : Bool) (n : BitVec 4) (p : BitVec 3) (k : Bool) (a : BitVec 6) (b : BitVec 7) (x : Bool) : RoundTrip.Statement (.cmp64 c u n p k a b x) := by
  intro word wf enc
  have q := Format.f16 34 word c u n p k a b x (by decide) (Option.some.inj enc)
  exact ⟨q.1, by simp [decodeWord, decodeRow2, row, wf, q]⟩

theorem RoundTrip.bra (c : Bool) (u : Bool) (p : BitVec 3) (s : Bool) (o : BitVec 18) : RoundTrip.Statement (.bra c u p s o) := by
  intro word wf enc
  have q := Format.f17 35 word c u p s o (by decide) (Option.some.inj enc)
  exact ⟨q.1, by simp [decodeWord, decodeRow2, row, wf, q]⟩

theorem RoundTrip.jmp (c : Bool) (u : Bool) (i : BitVec 22) : RoundTrip.Statement (.jmp c u i) := by
  intro word wf enc
  have q := Format.f18 36 word c u i (by decide) (Option.some.inj enc)
  exact ⟨q.1, by simp [decodeWord, decodeRow2, row, wf, q]⟩

theorem RoundTrip.call (c : Bool) (u : Bool) (i : BitVec 22) : RoundTrip.Statement (.call c u i) := by
  intro word wf enc
  have q := Format.f18 37 word c u i (by decide) (Option.some.inj enc)
  exact ⟨q.1, by simp [decodeWord, decodeRow2, row, wf, q]⟩

theorem RoundTrip.ret (c : Bool) (u : Bool) (a : BitVec 7) : RoundTrip.Statement (.ret c u a) := by
  intro word wf enc
  have q := Format.f19 38 word c u a (by decide) (Option.some.inj enc)
  exact ⟨q.1, by simp [decodeWord, decodeRow2, row, wf, q]⟩

theorem RoundTrip.exit (c : Bool) (u : Bool) : RoundTrip.Statement (.exit c u) := by
  intro word wf enc
  have q := Format.f20 39 word c u (by decide) (Option.some.inj enc)
  exact ⟨q.1, by simp [decodeWord, decodeRow2, row, wf, q]⟩

theorem RoundTrip.brx (c : Bool) (u : Bool) (a : BitVec 7) (b : BitVec 7) (x : Bool) : RoundTrip.Statement (.brx c u a b x) := by
  intro word wf enc
  have q := Format.f21 40 word c u a b x (by decide) (Option.some.inj enc)
  exact ⟨q.1, by simp [decodeWord, decodeRow2, row, wf, q]⟩

theorem RoundTrip.vote (c : Bool) (u : Bool) (d : BitVec 7) (f : BitVec 3) (p : BitVec 3) : RoundTrip.Statement (.vote c u d f p) := by
  intro word wf enc
  have q := Format.f22 41 word c u d f p (by decide) (Option.some.inj enc)
  exact ⟨q.1, by simp [decodeWord, decodeRow2, row, wf, q]⟩

theorem RoundTrip.rdsr (c : Bool) (u : Bool) (d : BitVec 7) (k : BitVec 7) (m : BitVec 8) : RoundTrip.Statement (.rdsr c u d k m) := by
  intro word wf enc
  have q := Format.f23 42 word c u d k m (by decide) (Option.some.inj enc)
  exact ⟨q.1, by simp [decodeWord, decodeRow2, row, wf, q]⟩

theorem RoundTrip.wrsr (c : Bool) (u : Bool) (k : BitVec 7) (a : BitVec 7) (m : BitVec 8) : RoundTrip.Statement (.wrsr c u k a m) := by
  intro word wf enc
  have q := Format.f23 43 word c u k a m (by decide) (Option.some.inj enc)
  exact ⟨q.1, by simp [decodeWord, decodeRow2, row, wf, q]⟩

theorem RoundTrip.taskSpawn (c : Bool) (u : Bool) (l : Bool) (f : Bool) (a : BitVec 7) (b : BitVec 7) (x : Bool) : RoundTrip.Statement (.taskSpawn c u l f a b x) := by
  intro word wf enc
  have q := Format.f24 44 word c u l f a b x (by decide) (Option.some.inj enc)
  exact ⟨q.1, by simp [decodeWord, decodeRow2, row, wf, q]⟩

theorem RoundTrip.taskDone (c : Bool) : RoundTrip.Statement (.taskDone c) := by
  intro word wf enc
  have q := Format.f3 45 word c (by decide) (Option.some.inj enc)
  exact ⟨q.1, by simp [decodeWord, decodeRow2, row, wf, q]⟩

theorem RoundTrip.ctrAdd (c : Bool) (u : Bool) (d : BitVec 7) (a : BitVec 7) (b : BitVec 7) (x : Bool) : RoundTrip.Statement (.ctrAdd c u d a b x) := by
  intro word wf enc
  have q := Format.f5 46 word c u d a b x (by decide) (Option.some.inj enc)
  exact ⟨q.1, by simp [decodeWord, decodeRow2, row, wf, q]⟩

theorem RoundTrip.wqPop (c : Bool) (u : Bool) (d : BitVec 7) (a : BitVec 7) (w : Bool) : RoundTrip.Statement (.wqPop c u d a w) := by
  intro word wf enc
  have q := Format.f25 47 word c u d a w (by decide) (Option.some.inj enc)
  exact ⟨q.1, by simp [decodeWord, decodeRow2, row, wf, q]⟩

theorem RoundTrip.wqPush (c : Bool) (u : Bool) (d : BitVec 7) (a : BitVec 7) (b : BitVec 7) (x : Bool) : RoundTrip.Statement (.wqPush c u d a b x) := by
  intro word wf enc
  have q := Format.f5 48 word c u d a b x (by decide) (Option.some.inj enc)
  exact ⟨q.1, by simp [decodeWord, decodeRow3, row, wf, q]⟩

theorem RoundTrip.bar (c : Bool) (u : Bool) (a : BitVec 7) (s : BitVec 3) (n : BitVec 4) : RoundTrip.Statement (.bar c u a s n) := by
  intro word wf enc
  have q := Format.f26 49 word c u a s n (by decide) (Option.some.inj enc)
  exact ⟨q.1, by simp [decodeWord, decodeRow3, row, wf, q]⟩

theorem RoundTrip.barArrive (c : Bool) (u : Bool) (d : BitVec 7) (a : BitVec 7) (s : BitVec 3) (n : BitVec 4) : RoundTrip.Statement (.barArrive c u d a s n) := by
  intro word wf enc
  have q := Format.f27 50 word c u d a s n (by decide) (Option.some.inj enc)
  exact ⟨q.1, by simp [decodeWord, decodeRow3, row, wf, q]⟩

theorem RoundTrip.barWait (c : Bool) (u : Bool) (a : BitVec 7) (s : BitVec 3) (n : BitVec 4) : RoundTrip.Statement (.barWait c u a s n) := by
  intro word wf enc
  have q := Format.f26 51 word c u a s n (by decide) (Option.some.inj enc)
  exact ⟨q.1, by simp [decodeWord, decodeRow3, row, wf, q]⟩

theorem RoundTrip.roleGive (c : Bool) (u : Bool) (n : BitVec 15) : RoundTrip.Statement (.roleGive c u n) := by
  intro word wf enc
  have q := Format.f28 52 word c u n (by decide) (Option.some.inj enc)
  exact ⟨q.1, by simp [decodeWord, decodeRow3, row, wf, q]⟩

theorem RoundTrip.roleClaim (c : Bool) (u : Bool) (n : BitVec 15) : RoundTrip.Statement (.roleClaim c u n) := by
  intro word wf enc
  have q := Format.f28 53 word c u n (by decide) (Option.some.inj enc)
  exact ⟨q.1, by simp [decodeWord, decodeRow3, row, wf, q]⟩

theorem RoundTrip.park (c : Bool) (u : Bool) (d : BitVec 7) (a : BitVec 7) (b : BitVec 7) (x : Bool) : RoundTrip.Statement (.park c u d a b x) := by
  intro word wf enc
  have q := Format.f5 54 word c u d a b x (by decide) (Option.some.inj enc)
  exact ⟨q.1, by simp [decodeWord, decodeRow3, row, wf, q]⟩

theorem RoundTrip.trap (k : BitVec 22) : RoundTrip.Statement (.trap k) := by
  intro word wf enc
  have q := Format.f4 55 word k (by decide) (Option.some.inj enc)
  exact ⟨q.1, by simp [decodeWord, decodeRow3, row, wf, q]⟩

theorem RoundTrip.sysret (c : Bool) (f : BitVec 2) (a : BitVec 7) : RoundTrip.Statement (.sysret c f a) := by
  intro word wf enc
  have q := Format.f29 56 word c f a (by decide) (Option.some.inj enc)
  exact ⟨q.1, by simp [decodeWord, decodeRow3, row, wf, q]⟩

theorem RoundTrip.watch (c : Bool) (u : Bool) (n : BitVec 2) (e : BitVec 2) (t : BitVec 2) (a : BitVec 7) : RoundTrip.Statement (.watch c u n e t a) := by
  intro word wf enc
  have q := Format.f30 57 word c u n e t a (by decide) (Option.some.inj enc)
  exact ⟨q.1, by simp [decodeWord, decodeRow3, row, wf, q]⟩

theorem RoundTrip.clock (c : Bool) (u : Bool) (d : BitVec 7) (s : Bool) (m : Bool) : RoundTrip.Statement (.clock c u d s m) := by
  intro word wf enc
  have q := Format.f31 58 word c u d s m (by decide) (Option.some.inj enc)
  exact ⟨q.1, by simp [decodeWord, decodeRow3, row, wf, q]⟩

theorem RoundTrip.pmark (c : Bool) (i : BitVec 22) : RoundTrip.Statement (.pmark c i) := by
  intro word wf enc
  have q := Format.f32 59 word c i (by decide) (Option.some.inj enc)
  exact ⟨q.1, by simp [decodeWord, decodeRow3, row, wf, q]⟩

theorem RoundTrip.hold (c : Bool) (u : Bool) (d : BitVec 7) (a : BitVec 7) : RoundTrip.Statement (.hold c u d a) := by
  intro word wf enc
  have q := Format.f7 60 word c u d a (by decide) (Option.some.inj enc)
  exact ⟨q.1, by simp [decodeWord, decodeRow3, row, wf, q]⟩

theorem RoundTrip.cap (c : Bool) (u : Bool) (d : BitVec 7) (b : BitVec 7) (x : Bool) : RoundTrip.Statement (.cap c u d b x) := by
  intro word wf enc
  have q := Format.f33 61 word c u d b x (by decide) (Option.some.inj enc)
  exact ⟨q.1, by simp [decodeWord, decodeRow3, row, wf, q]⟩

theorem RoundTrip.sleep (c : Bool) (u : Bool) (n : BitVec 15) : RoundTrip.Statement (.sleep c u n) := by
  intro word wf enc
  have q := Format.f28 62 word c u n (by decide) (Option.some.inj enc)
  exact ⟨q.1, by simp [decodeWord, decodeRow3, row, wf, q]⟩

theorem RoundTrip.fadd (c : Bool) (u : Bool) (d : BitVec 7) (a : BitVec 7) (b : BitVec 7) (x : Bool) : RoundTrip.Statement (.fadd c u d a b x) := by
  intro word wf enc
  have q := Format.f5 64 word c u d a b x (by decide) (Option.some.inj enc)
  exact ⟨q.1, by simp [decodeWord, decodeRow4, row, wf, q]⟩

theorem RoundTrip.fsub (c : Bool) (u : Bool) (d : BitVec 7) (a : BitVec 7) (b : BitVec 7) (x : Bool) : RoundTrip.Statement (.fsub c u d a b x) := by
  intro word wf enc
  have q := Format.f5 65 word c u d a b x (by decide) (Option.some.inj enc)
  exact ⟨q.1, by simp [decodeWord, decodeRow4, row, wf, q]⟩

theorem RoundTrip.fmul (c : Bool) (u : Bool) (d : BitVec 7) (a : BitVec 7) (b : BitVec 7) (x : Bool) : RoundTrip.Statement (.fmul c u d a b x) := by
  intro word wf enc
  have q := Format.f5 66 word c u d a b x (by decide) (Option.some.inj enc)
  exact ⟨q.1, by simp [decodeWord, decodeRow4, row, wf, q]⟩

theorem RoundTrip.ffma (c : Bool) (u : Bool) (d : BitVec 7) (a : BitVec 7) (b : BitVec 7) (x : Bool) : RoundTrip.Statement (.ffma c u d a b x) := by
  intro word wf enc
  have q := Format.f5 67 word c u d a b x (by decide) (Option.some.inj enc)
  exact ⟨q.1, by simp [decodeWord, decodeRow4, row, wf, q]⟩

theorem RoundTrip.fmin (c : Bool) (u : Bool) (d : BitVec 7) (a : BitVec 7) (b : BitVec 7) (x : Bool) : RoundTrip.Statement (.fmin c u d a b x) := by
  intro word wf enc
  have q := Format.f5 68 word c u d a b x (by decide) (Option.some.inj enc)
  exact ⟨q.1, by simp [decodeWord, decodeRow4, row, wf, q]⟩

theorem RoundTrip.fmax (c : Bool) (u : Bool) (d : BitVec 7) (a : BitVec 7) (b : BitVec 7) (x : Bool) : RoundTrip.Statement (.fmax c u d a b x) := by
  intro word wf enc
  have q := Format.f5 69 word c u d a b x (by decide) (Option.some.inj enc)
  exact ⟨q.1, by simp [decodeWord, decodeRow4, row, wf, q]⟩

theorem RoundTrip.fcmp (c : Bool) (u : Bool) (k : BitVec 4) (p : BitVec 3) (a : BitVec 7) (b : BitVec 7) (x : Bool) : RoundTrip.Statement (.fcmp c u k p a b x) := by
  intro word wf enc
  have q := Format.f8 70 word c u k p a b x (by decide) (Option.some.inj enc)
  exact ⟨q.1, by simp [decodeWord, decodeRow4, row, wf, q]⟩

theorem RoundTrip.frcp (c : Bool) (u : Bool) (d : BitVec 7) (a : BitVec 7) : RoundTrip.Statement (.frcp c u d a) := by
  intro word wf enc
  have q := Format.f7 71 word c u d a (by decide) (Option.some.inj enc)
  exact ⟨q.1, by simp [decodeWord, decodeRow4, row, wf, q]⟩

theorem RoundTrip.frsq (c : Bool) (u : Bool) (d : BitVec 7) (a : BitVec 7) : RoundTrip.Statement (.frsq c u d a) := by
  intro word wf enc
  have q := Format.f7 72 word c u d a (by decide) (Option.some.inj enc)
  exact ⟨q.1, by simp [decodeWord, decodeRow4, row, wf, q]⟩

theorem RoundTrip.fsqrt (c : Bool) (u : Bool) (d : BitVec 7) (a : BitVec 7) : RoundTrip.Statement (.fsqrt c u d a) := by
  intro word wf enc
  have q := Format.f7 73 word c u d a (by decide) (Option.some.inj enc)
  exact ⟨q.1, by simp [decodeWord, decodeRow4, row, wf, q]⟩

theorem RoundTrip.fdiv (c : Bool) (u : Bool) (d : BitVec 7) (a : BitVec 7) (b : BitVec 7) (x : Bool) : RoundTrip.Statement (.fdiv c u d a b x) := by
  intro word wf enc
  have q := Format.f5 74 word c u d a b x (by decide) (Option.some.inj enc)
  exact ⟨q.1, by simp [decodeWord, decodeRow4, row, wf, q]⟩

theorem RoundTrip.fexp2 (c : Bool) (u : Bool) (d : BitVec 7) (a : BitVec 7) : RoundTrip.Statement (.fexp2 c u d a) := by
  intro word wf enc
  have q := Format.f7 75 word c u d a (by decide) (Option.some.inj enc)
  exact ⟨q.1, by simp [decodeWord, decodeRow4, row, wf, q]⟩

theorem RoundTrip.flog2 (c : Bool) (u : Bool) (d : BitVec 7) (a : BitVec 7) : RoundTrip.Statement (.flog2 c u d a) := by
  intro word wf enc
  have q := Format.f7 76 word c u d a (by decide) (Option.some.inj enc)
  exact ⟨q.1, by simp [decodeWord, decodeRow4, row, wf, q]⟩

theorem RoundTrip.fsin (c : Bool) (u : Bool) (d : BitVec 7) (a : BitVec 7) : RoundTrip.Statement (.fsin c u d a) := by
  intro word wf enc
  have q := Format.f7 77 word c u d a (by decide) (Option.some.inj enc)
  exact ⟨q.1, by simp [decodeWord, decodeRow4, row, wf, q]⟩

theorem RoundTrip.fcos (c : Bool) (u : Bool) (d : BitVec 7) (a : BitVec 7) : RoundTrip.Statement (.fcos c u d a) := by
  intro word wf enc
  have q := Format.f7 78 word c u d a (by decide) (Option.some.inj enc)
  exact ⟨q.1, by simp [decodeWord, decodeRow4, row, wf, q]⟩

theorem RoundTrip.frnd (c : Bool) (u : Bool) (d : BitVec 7) (a : BitVec 7) (m : BitVec 3) : RoundTrip.Statement (.frnd c u d a m) := by
  intro word wf enc
  have q := Format.f34 79 word c u d a m (by decide) (Option.some.inj enc)
  exact ⟨q.1, by simp [decodeWord, decodeRow4, row, wf, q]⟩

theorem RoundTrip.fclass (c : Bool) (u : Bool) (d : BitVec 7) (a : BitVec 7) : RoundTrip.Statement (.fclass c u d a) := by
  intro word wf enc
  have q := Format.f7 80 word c u d a (by decide) (Option.some.inj enc)
  exact ⟨q.1, by simp [decodeWord, decodeRow5, row, wf, q]⟩

theorem RoundTrip.fscale (c : Bool) (u : Bool) (d : BitVec 7) (a : BitVec 7) (b : BitVec 7) (x : Bool) : RoundTrip.Statement (.fscale c u d a b x) := by
  intro word wf enc
  have q := Format.f5 81 word c u d a b x (by decide) (Option.some.inj enc)
  exact ⟨q.1, by simp [decodeWord, decodeRow5, row, wf, q]⟩

theorem RoundTrip.dadd (c : Bool) (u : Bool) (f : Bool) (d : BitVec 6) (a : BitVec 7) (b : BitVec 7) (x : Bool) : RoundTrip.Statement (.dadd c u f d a b x) := by
  intro word wf enc
  have q := Format.f6 82 word c u f d a b x (by decide) (Option.some.inj enc)
  exact ⟨q.1, by simp [decodeWord, decodeRow5, row, wf, q]⟩

theorem RoundTrip.dmul (c : Bool) (u : Bool) (d : BitVec 6) (a : BitVec 7) (b : BitVec 7) (x : Bool) : RoundTrip.Statement (.dmul c u d a b x) := by
  intro word wf enc
  have q := Format.f35 83 word c u d a b x (by decide) (Option.some.inj enc)
  exact ⟨q.1, by simp [decodeWord, decodeRow5, row, wf, q]⟩

theorem RoundTrip.dfma (c : Bool) (u : Bool) (d : BitVec 6) (a : BitVec 7) (b : BitVec 7) (x : Bool) : RoundTrip.Statement (.dfma c u d a b x) := by
  intro word wf enc
  have q := Format.f35 84 word c u d a b x (by decide) (Option.some.inj enc)
  exact ⟨q.1, by simp [decodeWord, decodeRow5, row, wf, q]⟩

theorem RoundTrip.dminmax (c : Bool) (u : Bool) (f : Bool) (d : BitVec 6) (a : BitVec 7) (b : BitVec 7) (x : Bool) : RoundTrip.Statement (.dminmax c u f d a b x) := by
  intro word wf enc
  have q := Format.f6 85 word c u f d a b x (by decide) (Option.some.inj enc)
  exact ⟨q.1, by simp [decodeWord, decodeRow5, row, wf, q]⟩

theorem RoundTrip.dcmp (c : Bool) (u : Bool) (k : BitVec 4) (p : BitVec 3) (a : BitVec 7) (b : BitVec 7) (x : Bool) : RoundTrip.Statement (.dcmp c u k p a b x) := by
  intro word wf enc
  have q := Format.f8 86 word c u k p a b x (by decide) (Option.some.inj enc)
  exact ⟨q.1, by simp [decodeWord, decodeRow5, row, wf, q]⟩

theorem RoundTrip.hadd2 (c : Bool) (u : Bool) (d : BitVec 7) (a : BitVec 7) (b : BitVec 7) (x : Bool) : RoundTrip.Statement (.hadd2 c u d a b x) := by
  intro word wf enc
  have q := Format.f5 87 word c u d a b x (by decide) (Option.some.inj enc)
  exact ⟨q.1, by simp [decodeWord, decodeRow5, row, wf, q]⟩

theorem RoundTrip.hmul2 (c : Bool) (u : Bool) (d : BitVec 7) (a : BitVec 7) (b : BitVec 7) (x : Bool) : RoundTrip.Statement (.hmul2 c u d a b x) := by
  intro word wf enc
  have q := Format.f5 88 word c u d a b x (by decide) (Option.some.inj enc)
  exact ⟨q.1, by simp [decodeWord, decodeRow5, row, wf, q]⟩

theorem RoundTrip.hfma2 (c : Bool) (u : Bool) (d : BitVec 7) (a : BitVec 7) (b : BitVec 7) (x : Bool) : RoundTrip.Statement (.hfma2 c u d a b x) := by
  intro word wf enc
  have q := Format.f5 89 word c u d a b x (by decide) (Option.some.inj enc)
  exact ⟨q.1, by simp [decodeWord, decodeRow5, row, wf, q]⟩

theorem RoundTrip.bfma2 (c : Bool) (u : Bool) (d : BitVec 7) (a : BitVec 7) (b : BitVec 7) (x : Bool) : RoundTrip.Statement (.bfma2 c u d a b x) := by
  intro word wf enc
  have q := Format.f5 90 word c u d a b x (by decide) (Option.some.inj enc)
  exact ⟨q.1, by simp [decodeWord, decodeRow5, row, wf, q]⟩

theorem RoundTrip.cvt (c : Bool) (u : Bool) (t : BitVec 4) (s : BitVec 4) (m : BitVec 2) (d : BitVec 6) (a : BitVec 6) : RoundTrip.Statement (.cvt c u t s m d a) := by
  intro word wf enc
  have q := Format.f36 91 word c u t s m d a (by decide) (Option.some.inj enc)
  exact ⟨q.1, by simp [decodeWord, decodeRow5, row, wf, q]⟩

theorem RoundTrip.cvtpk (c : Bool) (u : Bool) (f : BitVec 5) (m : BitVec 2) (a : BitVec 7) (b : BitVec 7) (x : Bool) : RoundTrip.Statement (.cvtpk c u f m a b x) := by
  intro word wf enc
  have q := Format.f37 92 word c u f m a b x (by decide) (Option.some.inj enc)
  exact ⟨q.1, by simp [decodeWord, decodeRow5, row, wf, q]⟩

theorem RoundTrip.cvtupk (c : Bool) (u : Bool) (f : BitVec 5) (a : BitVec 7) (b : BitVec 7) (x : Bool) : RoundTrip.Statement (.cvtupk c u f a b x) := by
  intro word wf enc
  have q := Format.f38 93 word c u f a b x (by decide) (Option.some.inj enc)
  exact ⟨q.1, by simp [decodeWord, decodeRow5, row, wf, q]⟩

theorem RoundTrip.shfl (c : Bool) (u : Bool) (d : BitVec 7) (a : BitVec 7) (b : BitVec 7) (x : Bool) : RoundTrip.Statement (.shfl c u d a b x) := by
  intro word wf enc
  have q := Format.f5 94 word c u d a b x (by decide) (Option.some.inj enc)
  exact ⟨q.1, by simp [decodeWord, decodeRow5, row, wf, q]⟩

theorem RoundTrip.bcast (c : Bool) (u : Bool) (d : BitVec 7) (a : BitVec 7) (p : BitVec 3) : RoundTrip.Statement (.bcast c u d a p) := by
  intro word wf enc
  have q := Format.f34 95 word c u d a p (by decide) (Option.some.inj enc)
  exact ⟨q.1, by simp [decodeWord, decodeRow5, row, wf, q]⟩

theorem RoundTrip.lred (c : Bool) (u : Bool) (d : BitVec 7) (a : BitVec 7) (o : BitVec 4) : RoundTrip.Statement (.lred c u d a o) := by
  intro word wf enc
  have q := Format.f39 96 word c u d a o (by decide) (Option.some.inj enc)
  exact ⟨q.1, by simp [decodeWord, decodeRow6, row, wf, q]⟩

theorem RoundTrip.lscan (c : Bool) (u : Bool) (d : BitVec 7) (a : BitVec 7) (o : BitVec 4) (e : Bool) : RoundTrip.Statement (.lscan c u d a o e) := by
  intro word wf enc
  have q := Format.f40 97 word c u d a o e (by decide) (Option.some.inj enc)
  exact ⟨q.1, by simp [decodeWord, decodeRow6, row, wf, q]⟩

theorem RoundTrip.cellkey (c : Bool) (u : Bool) (d : BitVec 7) (a : BitVec 7) (b : BitVec 7) (x : Bool) : RoundTrip.Statement (.cellkey c u d a b x) := by
  intro word wf enc
  have q := Format.f5 98 word c u d a b x (by decide) (Option.some.inj enc)
  exact ⟨q.1, by simp [decodeWord, decodeRow6, row, wf, q]⟩

theorem RoundTrip.fdot2 (c : Bool) (u : Bool) (t : Bool) (d : BitVec 6) (a : BitVec 7) (b : BitVec 7) (x : Bool) : RoundTrip.Statement (.fdot2 c u t d a b x) := by
  intro word wf enc
  have q := Format.f6 99 word c u t d a b x (by decide) (Option.some.inj enc)
  exact ⟨q.1, by simp [decodeWord, decodeRow6, row, wf, q]⟩

theorem RoundTrip.ldg (c : Bool) (u : Bool) (d : BitVec 7) (a : BitVec 7) (s : BitVec 3) (o : BitVec 5) : RoundTrip.Statement (.ldg c u d a s o) := by
  intro word wf enc
  have q := Format.f41 128 word c u d a s o (by decide) (Option.some.inj enc)
  exact ⟨q.1, by simp [decodeWord, decodeRow8, row, wf, q]⟩

theorem RoundTrip.stg (c : Bool) (u : Bool) (d : BitVec 7) (a : BitVec 7) (s : BitVec 3) (o : BitVec 5) : RoundTrip.Statement (.stg c u d a s o) := by
  intro word wf enc
  have q := Format.f41 129 word c u d a s o (by decide) (Option.some.inj enc)
  exact ⟨q.1, by simp [decodeWord, decodeRow8, row, wf, q]⟩

theorem RoundTrip.lds (c : Bool) (u : Bool) (d : BitVec 7) (a : BitVec 7) (s : BitVec 3) (w : BitVec 3) (o : BitVec 2) : RoundTrip.Statement (.lds c u d a s w o) := by
  intro word wf enc
  have q := Format.f42 130 word c u d a s w o (by decide) (Option.some.inj enc)
  exact ⟨q.1, by simp [decodeWord, decodeRow8, row, wf, q]⟩

theorem RoundTrip.sts (c : Bool) (u : Bool) (d : BitVec 7) (a : BitVec 7) (s : BitVec 3) (w : BitVec 3) (o : BitVec 2) : RoundTrip.Statement (.sts c u d a s w o) := by
  intro word wf enc
  have q := Format.f42 131 word c u d a s w o (by decide) (Option.some.inj enc)
  exact ⟨q.1, by simp [decodeWord, decodeRow8, row, wf, q]⟩

theorem RoundTrip.ldp (c : Bool) (u : Bool) (d : BitVec 7) (a : BitVec 7) (s : BitVec 3) (o : BitVec 5) : RoundTrip.Statement (.ldp c u d a s o) := by
  intro word wf enc
  have q := Format.f41 132 word c u d a s o (by decide) (Option.some.inj enc)
  exact ⟨q.1, by simp [decodeWord, decodeRow8, row, wf, q]⟩

theorem RoundTrip.stp (c : Bool) (u : Bool) (d : BitVec 7) (a : BitVec 7) (s : BitVec 3) (o : BitVec 5) : RoundTrip.Statement (.stp c u d a s o) := by
  intro word wf enc
  have q := Format.f41 133 word c u d a s o (by decide) (Option.some.inj enc)
  exact ⟨q.1, by simp [decodeWord, decodeRow8, row, wf, q]⟩

theorem RoundTrip.ldacq (c : Bool) (u : Bool) (d : BitVec 7) (a : BitVec 7) (s : BitVec 3) (z : BitVec 3) : RoundTrip.Statement (.ldacq c u d a s z) := by
  intro word wf enc
  have q := Format.f43 134 word c u d a s z (by decide) (Option.some.inj enc)
  exact ⟨q.1, by simp [decodeWord, decodeRow8, row, wf, q]⟩

theorem RoundTrip.strel (c : Bool) (u : Bool) (d : BitVec 7) (a : BitVec 7) (s : BitVec 3) (z : BitVec 3) : RoundTrip.Statement (.strel c u d a s z) := by
  intro word wf enc
  have q := Format.f43 135 word c u d a s z (by decide) (Option.some.inj enc)
  exact ⟨q.1, by simp [decodeWord, decodeRow8, row, wf, q]⟩

theorem RoundTrip.atadd (c : Bool) (u : Bool) (d : BitVec 7) (a : BitVec 7) (s : BitVec 3) (o : BitVec 2) (w : Bool) (v : BitVec 2) : RoundTrip.Statement (.atadd c u d a s o w v) := by
  intro word wf enc
  have q := Format.f44 136 word c u d a s o w v (by decide) (Option.some.inj enc)
  exact ⟨q.1, by simp [decodeWord, decodeRow8, row, wf, q]⟩

theorem RoundTrip.atminmax (c : Bool) (u : Bool) (d : BitVec 7) (a : BitVec 7) (s : BitVec 3) (o : BitVec 2) (w : Bool) (v : BitVec 2) : RoundTrip.Statement (.atminmax c u d a s o w v) := by
  intro word wf enc
  have q := Format.f44 137 word c u d a s o w v (by decide) (Option.some.inj enc)
  exact ⟨q.1, by simp [decodeWord, decodeRow8, row, wf, q]⟩

theorem RoundTrip.atlogic (c : Bool) (u : Bool) (d : BitVec 7) (a : BitVec 7) (s : BitVec 3) (o : BitVec 2) (w : Bool) (v : BitVec 2) : RoundTrip.Statement (.atlogic c u d a s o w v) := by
  intro word wf enc
  have q := Format.f44 138 word c u d a s o w v (by decide) (Option.some.inj enc)
  exact ⟨q.1, by simp [decodeWord, decodeRow8, row, wf, q]⟩

theorem RoundTrip.atxchg (c : Bool) (u : Bool) (d : BitVec 7) (a : BitVec 7) (s : BitVec 3) (o : BitVec 2) (w : Bool) : RoundTrip.Statement (.atxchg c u d a s o w) := by
  intro word wf enc
  have q := Format.f45 139 word c u d a s o w (by decide) (Option.some.inj enc)
  exact ⟨q.1, by simp [decodeWord, decodeRow8, row, wf, q]⟩

theorem RoundTrip.atcas (c : Bool) (u : Bool) (d : BitVec 7) (a : BitVec 7) (s : BitVec 3) (o : BitVec 2) (w : Bool) : RoundTrip.Statement (.atcas c u d a s o w) := by
  intro word wf enc
  have q := Format.f45 140 word c u d a s o w (by decide) (Option.some.inj enc)
  exact ⟨q.1, by simp [decodeWord, decodeRow8, row, wf, q]⟩

theorem RoundTrip.bankAdd (c : Bool) (u : Bool) (d : BitVec 7) (a : BitVec 7) (t : BitVec 3) : RoundTrip.Statement (.bankAdd c u d a t) := by
  intro word wf enc
  have q := Format.f46 141 word c u d a t (by decide) (Option.some.inj enc)
  exact ⟨q.1, by simp [decodeWord, decodeRow8, row, wf, q]⟩

theorem RoundTrip.bankFx (c : Bool) (u : Bool) (d : BitVec 7) (a : BitVec 7) (t : BitVec 3) : RoundTrip.Statement (.bankFx c u d a t) := by
  intro word wf enc
  have q := Format.f46 142 word c u d a t (by decide) (Option.some.inj enc)
  exact ⟨q.1, by simp [decodeWord, decodeRow8, row, wf, q]⟩

theorem RoundTrip.bankFxread (c : Bool) (u : Bool) (d : BitVec 7) (a : BitVec 7) (t : BitVec 3) : RoundTrip.Statement (.bankFxread c u d a t) := by
  intro word wf enc
  have q := Format.f46 143 word c u d a t (by decide) (Option.some.inj enc)
  exact ⟨q.1, by simp [decodeWord, decodeRow8, row, wf, q]⟩

theorem RoundTrip.bankApp (c : Bool) (u : Bool) (d : BitVec 7) (a : BitVec 7) (t : BitVec 3) : RoundTrip.Statement (.bankApp c u d a t) := by
  intro word wf enc
  have q := Format.f46 144 word c u d a t (by decide) (Option.some.inj enc)
  exact ⟨q.1, by simp [decodeWord, decodeRow9, row, wf, q]⟩

theorem RoundTrip.bankAxpy (c : Bool) (u : Bool) (d : BitVec 7) (a : BitVec 7) (t : BitVec 2) (f : Bool) : RoundTrip.Statement (.bankAxpy c u d a t f) := by
  intro word wf enc
  have q := Format.f47 145 word c u d a t f (by decide) (Option.some.inj enc)
  exact ⟨q.1, by simp [decodeWord, decodeRow9, row, wf, q]⟩

theorem RoundTrip.bankRed (c : Bool) (u : Bool) (d : BitVec 7) (a : BitVec 7) (t : BitVec 2) (f : Bool) : RoundTrip.Statement (.bankRed c u d a t f) := by
  intro word wf enc
  have q := Format.f47 146 word c u d a t f (by decide) (Option.some.inj enc)
  exact ⟨q.1, by simp [decodeWord, decodeRow9, row, wf, q]⟩

theorem RoundTrip.fence (c : Bool) (u : Bool) (s : BitVec 3) (k : BitVec 2) : RoundTrip.Statement (.fence c u s k) := by
  intro word wf enc
  have q := Format.f48 147 word c u s k (by decide) (Option.some.inj enc)
  exact ⟨q.1, by simp [decodeWord, decodeRow9, row, wf, q]⟩

theorem RoundTrip.fenceRng (c : Bool) (u : Bool) (s : BitVec 3) (k : BitVec 2) (a : BitVec 7) (b : BitVec 7) : RoundTrip.Statement (.fenceRng c u s k a b) := by
  intro word wf enc
  have q := Format.f49 148 word c u s k a b (by decide) (Option.some.inj enc)
  exact ⟨q.1, by simp [decodeWord, decodeRow9, row, wf, q]⟩

theorem RoundTrip.cpyL (c : Bool) (u : Bool) (d : BitVec 6) (z : BitVec 2) (a : BitVec 6) (b : BitVec 6) (f : Bool) (n : Bool) : RoundTrip.Statement (.cpyL c u d z a b f n) := by
  intro word wf enc
  have q := Format.f50 149 word c u d z a b f n (by decide) (Option.some.inj enc)
  exact ⟨q.1, by simp [decodeWord, decodeRow9, row, wf, q]⟩

theorem RoundTrip.cpyT (c : Bool) (u : Bool) (d : BitVec 7) (a : BitVec 7) (w : BitVec 3) (i : Bool) (f : Bool) : RoundTrip.Statement (.cpyT c u d a w i f) := by
  intro word wf enc
  have q := Format.f51 150 word c u d a w i f (by decide) (Option.some.inj enc)
  exact ⟨q.1, by simp [decodeWord, decodeRow9, row, wf, q]⟩

theorem RoundTrip.trywait (c : Bool) (u : Bool) (p : BitVec 3) (f : BitVec 4) (n : BitVec 12) : RoundTrip.Statement (.trywait c u p f n) := by
  intro word wf enc
  have q := Format.f52 151 word c u p f n (by decide) (Option.some.inj enc)
  exact ⟨q.1, by simp [decodeWord, decodeRow9, row, wf, q]⟩

theorem RoundTrip.pref (c : Bool) (u : Bool) (t : BitVec 2) (a : BitVec 7) (s : BitVec 3) (o : BitVec 5) : RoundTrip.Statement (.pref c u t a s o) := by
  intro word wf enc
  have q := Format.f53 152 word c u t a s o (by decide) (Option.some.inj enc)
  exact ⟨q.1, by simp [decodeWord, decodeRow9, row, wf, q]⟩

theorem RoundTrip.ldk (c : Bool) (u : Bool) (a : BitVec 7) : RoundTrip.Statement (.ldk c u a) := by
  intro word wf enc
  have q := Format.f19 153 word c u a (by decide) (Option.some.inj enc)
  exact ⟨q.1, by simp [decodeWord, decodeRow9, row, wf, q]⟩

theorem RoundTrip.stkCtx (c : Bool) (u : Bool) (d : BitVec 7) (a : BitVec 7) (b : BitVec 7) : RoundTrip.Statement (.stkCtx c u d a b) := by
  intro word wf enc
  have q := Format.f54 154 word c u d a b (by decide) (Option.some.inj enc)
  exact ⟨q.1, by simp [decodeWord, decodeRow9, row, wf, q]⟩

theorem RoundTrip.flushl1 (c : Bool) (u : Bool) : RoundTrip.Statement (.flushl1 c u) := by
  intro word wf enc
  have q := Format.f20 155 word c u (by decide) (Option.some.inj enc)
  exact ⟨q.1, by simp [decodeWord, decodeRow9, row, wf, q]⟩

theorem RoundTrip.mma (c : Bool) (t : BitVec 4) (a : BitVec 7) (h : BitVec 6) (r : Bool) (z : Bool) (m : BitVec 3) : RoundTrip.Statement (.mma c t a h r z m) := by
  intro word wf enc
  have q := Format.f55 156 word c t a h r z m (by decide) (Option.some.inj enc)
  exact ⟨q.1, by simp [decodeWord, decodeRow9, row, wf, q]⟩

theorem RoundTrip.accLd (c : Bool) (t : BitVec 4) (s : Bool) (a : BitVec 7) (g : BitVec 2) (n : BitVec 2) (f : Bool) : RoundTrip.Statement (.accLd c t s a g n f) := by
  intro word wf enc
  have q := Format.f56 157 word c t s a g n f (by decide) (Option.some.inj enc)
  exact ⟨q.1, by simp [decodeWord, decodeRow9, row, wf, q]⟩

theorem RoundTrip.accSt (c : Bool) (t : BitVec 4) (s : Bool) (a : BitVec 7) (g : BitVec 2) (n : BitVec 2) (f : Bool) : RoundTrip.Statement (.accSt c t s a g n f) := by
  intro word wf enc
  have q := Format.f56 158 word c t s a g n f (by decide) (Option.some.inj enc)
  exact ⟨q.1, by simp [decodeWord, decodeRow9, row, wf, q]⟩

theorem RoundTrip.accStrows (c : Bool) (t : BitVec 4) (p : Bool) (a : BitVec 7) (f : Bool) : RoundTrip.Statement (.accStrows c t p a f) := by
  intro word wf enc
  have q := Format.f57 159 word c t p a f (by decide) (Option.some.inj enc)
  exact ⟨q.1, by simp [decodeWord, decodeRow9, row, wf, q]⟩

theorem RoundTrip.accZero (c : Bool) (t : BitVec 4) (p : Bool) : RoundTrip.Statement (.accZero c t p) := by
  intro word wf enc
  have q := Format.f58 160 word c t p (by decide) (Option.some.inj enc)
  exact ⟨q.1, by simp [decodeWord, decodeRow10, row, wf, q]⟩

theorem RoundTrip.resAlloc (c : Bool) (u : Bool) (d : BitVec 7) (a : BitVec 7) : RoundTrip.Statement (.resAlloc c u d a) := by
  intro word wf enc
  have q := Format.f7 161 word c u d a (by decide) (Option.some.inj enc)
  exact ⟨q.1, by simp [decodeWord, decodeRow10, row, wf, q]⟩

theorem RoundTrip.resLoad (c : Bool) (u : Bool) (d : BitVec 7) (a : BitVec 7) (f : Bool) : RoundTrip.Statement (.resLoad c u d a f) := by
  intro word wf enc
  have q := Format.f25 162 word c u d a f (by decide) (Option.some.inj enc)
  exact ⟨q.1, by simp [decodeWord, decodeRow10, row, wf, q]⟩

theorem RoundTrip.resPin (c : Bool) (u : Bool) (a : BitVec 7) (s : Bool) : RoundTrip.Statement (.resPin c u a s) := by
  intro word wf enc
  have q := Format.f59 163 word c u a s (by decide) (Option.some.inj enc)
  exact ⟨q.1, by simp [decodeWord, decodeRow10, row, wf, q]⟩

theorem RoundTrip.resFree (c : Bool) (u : Bool) (a : BitVec 7) : RoundTrip.Statement (.resFree c u a) := by
  intro word wf enc
  have q := Format.f19 164 word c u a (by decide) (Option.some.inj enc)
  exact ⟨q.1, by simp [decodeWord, decodeRow10, row, wf, q]⟩

theorem RoundTrip.resQuery (c : Bool) (u : Bool) (d : BitVec 7) (a : BitVec 7) : RoundTrip.Statement (.resQuery c u d a) := by
  intro word wf enc
  have q := Format.f7 165 word c u d a (by decide) (Option.some.inj enc)
  exact ⟨q.1, by simp [decodeWord, decodeRow10, row, wf, q]⟩

theorem RoundTrip.resHeat (c : Bool) (u : Bool) (d : BitVec 7) (a : BitVec 7) (b : BitVec 7) : RoundTrip.Statement (.resHeat c u d a b) := by
  intro word wf enc
  have q := Format.f54 166 word c u d a b (by decide) (Option.some.inj enc)
  exact ⟨q.1, by simp [decodeWord, decodeRow10, row, wf, q]⟩

theorem RoundTrip.resAge (c : Bool) (u : Bool) (a : BitVec 7) : RoundTrip.Statement (.resAge c u a) := by
  intro word wf enc
  have q := Format.f19 167 word c u a (by decide) (Option.some.inj enc)
  exact ⟨q.1, by simp [decodeWord, decodeRow10, row, wf, q]⟩

theorem RoundTrip.resMigrate (c : Bool) (u : Bool) (d : BitVec 7) (a : BitVec 7) (b : BitVec 7) (f : Bool) : RoundTrip.Statement (.resMigrate c u d a b f) := by
  intro word wf enc
  have q := Format.f5 168 word c u d a b f (by decide) (Option.some.inj enc)
  exact ⟨q.1, by simp [decodeWord, decodeRow10, row, wf, q]⟩

theorem RoundTrip.mfmt (c : Bool) (u : Bool) (d : BitVec 7) (a : BitVec 5) (b : BitVec 5) (s : BitVec 2) (i : Bool) : RoundTrip.Statement (.mfmt c u d a b s i) := by
  intro word wf enc
  have q := Format.f60 169 word c u d a b s i (by decide) (Option.some.inj enc)
  exact ⟨q.1, by simp [decodeWord, decodeRow10, row, wf, q]⟩

theorem RoundTrip.fireSet (c : Bool) (u : Bool) (g : BitVec 2) (a : BitVec 7) : RoundTrip.Statement (.fireSet c u g a) := by
  intro word wf enc
  have q := Format.f61 170 word c u g a (by decide) (Option.some.inj enc)
  exact ⟨q.1, by simp [decodeWord, decodeRow10, row, wf, q]⟩

theorem RoundTrip.budgetRd (c : Bool) (u : Bool) (d : BitVec 7) (s : BitVec 8) : RoundTrip.Statement (.budgetRd c u d s) := by
  intro word wf enc
  have q := Format.f62 171 word c u d s (by decide) (Option.some.inj enc)
  exact ⟨q.1, by simp [decodeWord, decodeRow10, row, wf, q]⟩

theorem RoundTrip.tag (c : Bool) (u : Bool) (d : BitVec 6) (a : BitVec 6) : RoundTrip.Statement (.tag c u d a) := by
  intro word wf enc
  have q := Format.f63 172 word c u d a (by decide) (Option.some.inj enc)
  exact ⟨q.1, by simp [decodeWord, decodeRow10, row, wf, q]⟩

theorem RoundTrip.mkt (c : Bool) (u : Bool) (d : BitVec 6) (t : BitVec 6) (b : BitVec 7) (x : Bool) : RoundTrip.Statement (.mkt c u d t b x) := by
  intro word wf enc
  have q := Format.f64 173 word c u d t b x (by decide) (Option.some.inj enc)
  exact ⟨q.1, by simp [decodeWord, decodeRow10, row, wf, q]⟩

theorem RoundTrip.mkvar (c : Bool) (d : BitVec 6) : RoundTrip.Statement (.mkvar c d) := by
  intro word wf enc
  have q := Format.f65 174 word c d (by decide) (Option.some.inj enc)
  exact ⟨q.1, by simp [decodeWord, decodeRow10, row, wf, q]⟩

theorem RoundTrip.mkstr (c : Bool) (d : BitVec 6) (m : BitVec 2) (a : BitVec 6) (b : BitVec 7) (x : Bool) : RoundTrip.Statement (.mkstr c d m a b x) := by
  intro word wf enc
  have q := Format.f66 175 word c d m a b x (by decide) (Option.some.inj enc)
  exact ⟨q.1, by simp [decodeWord, decodeRow10, row, wf, q]⟩

theorem RoundTrip.arg (c : Bool) (u : Bool) (d : BitVec 6) (m : BitVec 2) (a : BitVec 6) (b : BitVec 7) (x : Bool) : RoundTrip.Statement (.arg c u d m a b x) := by
  intro word wf enc
  have q := Format.f67 176 word c u d m a b x (by decide) (Option.some.inj enc)
  exact ⟨q.1, by simp [decodeWord, decodeRow11, row, wf, q]⟩

theorem RoundTrip.deref (c : Bool) (u : Bool) (d : BitVec 6) (a : BitVec 6) : RoundTrip.Statement (.deref c u d a) := by
  intro word wf enc
  have q := Format.f63 177 word c u d a (by decide) (Option.some.inj enc)
  exact ⟨q.1, by simp [decodeWord, decodeRow11, row, wf, q]⟩

theorem RoundTrip.unifyP (c : Bool) (p : BitVec 3) (a : BitVec 6) (b : BitVec 7) (x : Bool) : RoundTrip.Statement (.unifyP c p a b x) := by
  intro word wf enc
  have q := Format.f68 178 word c p a b x (by decide) (Option.some.inj enc)
  exact ⟨q.1, by simp [decodeWord, decodeRow11, row, wf, q]⟩

theorem RoundTrip.unifyF (c : Bool) (a : BitVec 6) (b : BitVec 7) (x : Bool) : RoundTrip.Statement (.unifyF c a b x) := by
  intro word wf enc
  have q := Format.f69 178 word c a b x (by decide) (Option.some.inj enc)
  exact ⟨q.1, by simp [decodeWord, decodeRow11, row, wf, q]⟩

theorem RoundTrip.bind (c : Bool) (a : BitVec 6) (b : BitVec 7) (x : Bool) : RoundTrip.Statement (.bind c a b x) := by
  intro word wf enc
  have q := Format.f70 179 word c a b x (by decide) (Option.some.inj enc)
  exact ⟨q.1, by simp [decodeWord, decodeRow11, row, wf, q]⟩

theorem RoundTrip.choice (c : Bool) (n : BitVec 6) (b : BitVec 7) (x : Bool) : RoundTrip.Statement (.choice c n b x) := by
  intro word wf enc
  have q := Format.f71 180 word c n b x (by decide) (Option.some.inj enc)
  exact ⟨q.1, by simp [decodeWord, decodeRow11, row, wf, q]⟩

theorem RoundTrip.retry (c : Bool) (b : BitVec 7) (x : Bool) : RoundTrip.Statement (.retry c b x) := by
  intro word wf enc
  have q := Format.f72 181 word c b x (by decide) (Option.some.inj enc)
  exact ⟨q.1, by simp [decodeWord, decodeRow11, row, wf, q]⟩

theorem RoundTrip.trust (c : Bool) : RoundTrip.Statement (.trust c) := by
  intro word wf enc
  have q := Format.f3 182 word c (by decide) (Option.some.inj enc)
  exact ⟨q.1, by simp [decodeWord, decodeRow11, row, wf, q]⟩

theorem RoundTrip.fail (c : Bool) : RoundTrip.Statement (.fail c) := by
  intro word wf enc
  have q := Format.f3 183 word c (by decide) (Option.some.inj enc)
  exact ⟨q.1, by simp [decodeWord, decodeRow11, row, wf, q]⟩

theorem RoundTrip.cut (c : Bool) (b : BitVec 7) (x : Bool) : RoundTrip.Statement (.cut c b x) := by
  intro word wf enc
  have q := Format.f72 184 word c b x (by decide) (Option.some.inj enc)
  exact ⟨q.1, by simp [decodeWord, decodeRow11, row, wf, q]⟩

theorem RoundTrip.adopt (c : Bool) (p : BitVec 3) (a : BitVec 6) : RoundTrip.Statement (.adopt c p a) := by
  intro word wf enc
  have q := Format.f73 185 word c p a (by decide) (Option.some.inj enc)
  exact ⟨q.1, by simp [decodeWord, decodeRow11, row, wf, q]⟩

theorem RoundTrip.publishOpen (c : Bool) (b : BitVec 7) (x : Bool) : RoundTrip.Statement (.publishOpen c b x) := by
  intro word wf enc
  have q := Format.f74 186 word c b x (by decide) (Option.some.inj enc)
  exact ⟨q.1, by simp [decodeWord, decodeRow11, row, wf, q]⟩

theorem RoundTrip.publishClose (c : Bool) (b : BitVec 7) (x : Bool) : RoundTrip.Statement (.publishClose c b x) := by
  intro word wf enc
  have q := Format.f75 186 word c b x (by decide) (Option.some.inj enc)
  exact ⟨q.1, by simp [decodeWord, decodeRow11, row, wf, q]⟩

theorem RoundTrip.btld (c : Bool) (u : Bool) (d : BitVec 6) (p : BitVec 3) (b : BitVec 7) (x : Bool) : RoundTrip.Statement (.btld c u d p b x) := by
  intro word wf enc
  have q := Format.f76 187 word c u d p b x (by decide) (Option.some.inj enc)
  exact ⟨q.1, by simp [decodeWord, decodeRow11, row, wf, q]⟩

theorem RoundTrip.faddi (c u : Bool) (d : BitVec 7) (i : BitVec 20) : RoundTrip.Statement (.faddi c u d i) := by
  intro word wf enc
  have q := Format.f 0 word c u d i (by decide) (Option.some.inj enc)
  exact ⟨q.1, by simp [decodeWord, decodeF, row, wf, (show bb word 134217728 = _ from bb_eq false q.2.2.1), q]⟩

theorem RoundTrip.fmuli (c u : Bool) (d : BitVec 7) (i : BitVec 20) : RoundTrip.Statement (.fmuli c u d i) := by
  intro word wf enc
  have q := Format.f 1 word c u d i (by decide) (Option.some.inj enc)
  exact ⟨q.1, by simp [decodeWord, decodeF, row, wf, (show bb word 134217728 = _ from bb_eq true q.2.2.1), q]⟩

theorem RoundTrip.groupAged (core : Nat) (slot : Nat) : RoundTrip.Statement (.groupAged core slot) := by
  intro _ _ e
  cases e

theorem RoundTrip.loadDataReturn (core : Nat) (id : Nat) : RoundTrip.Statement (.loadDataReturn core id) := by
  intro _ _ e
  cases e

theorem RoundTrip.storeAck (core : Nat) (id : Nat) : RoundTrip.Statement (.storeAck core id) := by
  intro _ _ e
  cases e

theorem RoundTrip.homeWrite (w : HomeWrite) : RoundTrip.Statement (.homeWrite w) := by
  intro _ _ e
  cases e

theorem RoundTrip.holdRelease (core : Nat) (id : Nat) : RoundTrip.Statement (.holdRelease core id) := by
  intro _ _ e
  cases e

theorem RoundTrip.slotReclaim (core : Nat) (slot : Nat) : RoundTrip.Statement (.slotReclaim core slot) := by
  intro _ _ e
  cases e

theorem RoundTrip.taskDoneDecrement (core : Nat) (team : Nat) : RoundTrip.Statement (.taskDoneDecrement core team) := by
  intro _ _ e
  cases e

theorem RoundTrip.readyPushAccept (quad : Nat) : RoundTrip.Statement (.readyPushAccept quad) := by
  intro _ _ e
  cases e

theorem RoundTrip.taskStart (quad : Nat) : RoundTrip.Statement (.taskStart quad) := by
  intro _ _ e
  cases e

theorem RoundTrip.parkRecheck (core : Nat) (pa : Nat) : RoundTrip.Statement (.parkRecheck core pa) := by
  intro _ _ e
  cases e

theorem RoundTrip.parkTimeout (core : Nat) (slot : Nat) (lane : Nat) : RoundTrip.Statement (.parkTimeout core slot lane) := by
  intro _ _ e
  cases e

theorem RoundTrip.wqRefillDone (core : Nat) (slot : Nat) (lane : Nat) : RoundTrip.Statement (.wqRefillDone core slot lane) := by
  intro _ _ e
  cases e

theorem RoundTrip.barrierDelivery (core : Nat) (id : Nat) : RoundTrip.Statement (.barrierDelivery core id) := by
  intro _ _ e
  cases e

theorem RoundTrip.sleepEnd (core : Nat) (slot : Nat) : RoundTrip.Statement (.sleepEnd core slot) := by
  intro _ _ e
  cases e

theorem RoundTrip.trywaitTimeout (core : Nat) (slot : Nat) : RoundTrip.Statement (.trywaitTimeout core slot) := by
  intro _ _ e
  cases e

theorem RoundTrip.runAheadEnd (core : Nat) (slot : Nat) : RoundTrip.Statement (.runAheadEnd core slot) := by
  intro _ _ e
  cases e

theorem RoundTrip.faultRecordWrite : RoundTrip.Statement (.faultRecordWrite) := by
  intro _ _ e
  cases e

theorem RoundTrip.matrixPassDone (core : Nat) (id : Nat) : RoundTrip.Statement (.matrixPassDone core id) := by
  intro _ _ e
  cases e

theorem RoundTrip.grottoRequest (core : Nat) (id : Nat) : RoundTrip.Statement (.grottoRequest core id) := by
  intro _ _ e
  cases e

theorem RoundTrip.grottoResult (core : Nat) (id : Nat) : RoundTrip.Statement (.grottoResult core id) := by
  intro _ _ e
  cases e

theorem RoundTrip.migrationComplete (core : Nat) (id : Nat) : RoundTrip.Statement (.migrationComplete core id) := by
  intro _ _ e
  cases e

theorem RoundTrip.resLoadProceed (core : Nat) (id : Nat) : RoundTrip.Statement (.resLoadProceed core id) := by
  intro _ _ e
  cases e

theorem RoundTrip.resLoadComplete (core : Nat) (id : Nat) : RoundTrip.Statement (.resLoadComplete core id) := by
  intro _ _ e
  cases e

theorem RoundTrip.copyComplete (p : EngineParty) (id : Nat) : RoundTrip.Statement (.copyComplete p id) := by
  intro _ _ e
  cases e

theorem RoundTrip.bankStreamComplete (core : Nat) (id : Nat) : RoundTrip.Statement (.bankStreamComplete core id) := by
  intro _ _ e
  cases e

theorem RoundTrip.contextImageComplete (core : Nat) (id : Nat) : RoundTrip.Statement (.contextImageComplete core id) := by
  intro _ _ e
  cases e

theorem RoundTrip.saveTeam (core : Nat) (mask : BitVec 32) : RoundTrip.Statement (.saveTeam core mask) := by
  intro _ _ e
  cases e

theorem RoundTrip.restoreTeam (core : Nat) : RoundTrip.Statement (.restoreTeam core) := by
  intro _ _ e
  cases e

theorem RoundTrip.teamReturn (core : Nat) : RoundTrip.Statement (.teamReturn core) := by
  intro _ _ e
  cases e

theorem RoundTrip.returnGroup (core : Nat) (mask : BitVec 32) : RoundTrip.Statement (.returnGroup core mask) := by
  intro _ _ e
  cases e

theorem RoundTrip.terminate (core : Nat) (mask : BitVec 32) : RoundTrip.Statement (.terminate core mask) := by
  intro _ _ e
  cases e

theorem RoundTrip.launchBundle (thread : Nat) : RoundTrip.Statement (.launchBundle thread) := by
  intro _ _ e
  cases e

theorem RoundTrip.waitPacket (thread : Nat) : RoundTrip.Statement (.waitPacket thread) := by
  intro _ _ e
  cases e

theorem RoundTrip.waitPacketTest (thread : Nat) : RoundTrip.Statement (.waitPacketTest thread) := by
  intro _ _ e
  cases e

theorem RoundTrip.waitPacketTimeout (thread : Nat) : RoundTrip.Statement (.waitPacketTimeout thread) := by
  intro _ _ e
  cases e

theorem RoundTrip.unknownCommand (thread : Nat) : RoundTrip.Statement (.unknownCommand thread) := by
  intro _ _ e
  cases e

theorem RoundTrip.subLaunchComplete (thread : Nat) (cmd : Nat) (sub : Nat) : RoundTrip.Statement (.subLaunchComplete thread cmd sub) := by
  intro _ _ e
  cases e

theorem RoundTrip.mcoffWrite (i : Nat) (value : BitVec 64) : RoundTrip.Statement (.mcoffWrite i value) := by
  intro _ _ e
  cases e

theorem RoundTrip.invalidate (value : BitVec 64) : RoundTrip.Statement (.invalidate value) := by
  intro _ _ e
  cases e

theorem RoundTrip.invalidationDone : RoundTrip.Statement (.invalidationDone) := by
  intro _ _ e
  cases e

theorem RoundTrip.staleMark (value : BitVec 64) : RoundTrip.Statement (.staleMark value) := by
  intro _ _ e
  cases e

theorem RoundTrip.staleMarkDone : RoundTrip.Statement (.staleMarkDone) := by
  intro _ _ e
  cases e

theorem RoundTrip.klockSet (value : BitVec 64) : RoundTrip.Statement (.klockSet value) := by
  intro _ _ e
  cases e

theorem RoundTrip.plimitWrite (value : BitVec 64) : RoundTrip.Statement (.plimitWrite value) := by
  intro _ _ e
  cases e

theorem RoundTrip.sfaultClear (value : BitVec 64) : RoundTrip.Statement (.sfaultClear value) := by
  intro _ _ e
  cases e

theorem RoundTrip.telemetryCounterClear (core : Nat) (reg : Nat) (value : BitVec 64) : RoundTrip.Statement (.telemetryCounterClear core reg value) := by
  intro _ _ e
  cases e

theorem RoundTrip.attestationRequest (value : BitVec 64) : RoundTrip.Statement (.attestationRequest value) := by
  intro _ _ e
  cases e

theorem RoundTrip.attestationDone : RoundTrip.Statement (.attestationDone) := by
  intro _ _ e
  cases e

theorem RoundTrip.flrDrainEnd : RoundTrip.Statement (.flrDrainEnd) := by
  intro _ _ e
  cases e

theorem RoundTrip.hostCompletion (core : Nat) (id : Nat) (err : Bool) : RoundTrip.Statement (.hostCompletion core id err) := by
  intro _ _ e
  cases e

theorem RoundTrip.remoteTimeout (core : Nat) (id : Nat) : RoundTrip.Statement (.remoteTimeout core id) := by
  intro _ _ e
  cases e

theorem RoundTrip.portDown (port : Nat) : RoundTrip.Statement (.portDown port) := by
  intro _ _ e
  cases e

theorem RoundTrip.fabricRead (port : Nat) : RoundTrip.Statement (.fabricRead port) := by
  intro _ _ e
  cases e

theorem RoundTrip.fabricWrite (port : Nat) : RoundTrip.Statement (.fabricWrite port) := by
  intro _ _ e
  cases e

theorem RoundTrip.fabricMaskedWrite (port : Nat) : RoundTrip.Statement (.fabricMaskedWrite port) := by
  intro _ _ e
  cases e

theorem RoundTrip.fabricAtomic (port : Nat) : RoundTrip.Statement (.fabricAtomic port) := by
  intro _ _ e
  cases e

theorem RoundTrip.fabricReply (port : Nat) : RoundTrip.Statement (.fabricReply port) := by
  intro _ _ e
  cases e

theorem RoundTrip.barrierArrivalMessage (port : Nat) : RoundTrip.Statement (.barrierArrivalMessage port) := by
  intro _ _ e
  cases e

theorem RoundTrip.barrierCompletionMessage (port : Nat) : RoundTrip.Statement (.barrierCompletionMessage port) := by
  intro _ _ e
  cases e

theorem RoundTrip.podBarrierTimeout (num : Nat) : RoundTrip.Statement (.podBarrierTimeout num) := by
  intro _ _ e
  cases e

theorem RoundTrip.stallSample (die : Nat) : RoundTrip.Statement (.stallSample die) := by
  intro _ _ e
  cases e

theorem RoundTrip.debugQuiescent (core : Nat) : RoundTrip.Statement (.debugQuiescent core) := by
  intro _ _ e
  cases e

theorem RoundTrip.notAnInstruction (w : BitVec 32) : RoundTrip.Statement (.notAnInstruction w) := by
  intro _ _ e
  cases e

theorem RoundTrip.literalLanding : RoundTrip.Statement (.literalLanding) := by
  intro _ _ e
  cases e

theorem RoundTrip.instructionFetchFault (c : FetchCause) : RoundTrip.Statement (.instructionFetchFault c) := by
  intro _ _ e
  cases e

theorem RoundTrip.prefetchFill (core : Nat) (line : Nat) : RoundTrip.Statement (.prefetchFill core line) := by
  intro _ _ e
  cases e

theorem RoundTrip.registerWrite (by_ : Writer) (off : Nat) (data : WriteData) :
    RoundTrip.Statement (.registerWrite by_ off data) := by
  intro _ _ e
  cases e

theorem RoundTrip.doorbell (by_ : Writer) (thread : Nat) (value : BitVec 64) : RoundTrip.Statement (.doorbell by_ thread value) := by
  intro _ _ e
  cases e

theorem RoundTrip.belvedereMismatch : RoundTrip.Statement (.belvedereMismatch) := by
  intro _ _ e
  cases e

theorem RoundTrip.issueControlMismatch (core : Nat) (sched : Nat) : RoundTrip.Statement (.issueControlMismatch core sched) := by
  intro _ _ e
  cases e

theorem RoundTrip.functionLevelReset : RoundTrip.Statement (.functionLevelReset) := by
  intro _ _ e
  cases e

theorem RoundTrip.hostLinkDown : RoundTrip.Statement (.hostLinkDown) := by
  intro _ _ e
  cases e

theorem RoundTrip.storageDma (d : Dma) : RoundTrip.Statement (.storageDma d) := by
  intro _ _ e
  cases e

theorem RoundTrip.flitReceive (port : Nat) (flit : List (BitVec 8)) : RoundTrip.Statement (.flitReceive port flit) := by
  intro _ _ e
  cases e

theorem RoundTrip.portRetrain (port : Nat) (t : Training) : RoundTrip.Statement (.portRetrain port t) := by
  intro _ _ e
  cases e

theorem RoundTrip.hbmRequest (stack : Nat) (r : HbmReq) : RoundTrip.Statement (.hbmRequest stack r) := by
  intro _ _ e
  cases e

theorem RoundTrip.activationAlert (stack : Nat) (pc : Nat) (bank : Nat) (late : Bool) : RoundTrip.Statement (.activationAlert stack pc bank late) := by
  intro _ _ e
  cases e

theorem RoundTrip.selfRefreshEntry (stack : Nat) (chan : Nat) (request : Bool) : RoundTrip.Statement (.selfRefreshEntry stack chan request) := by
  intro _ _ e
  cases e

theorem RoundTrip.scrubPass (errs : List ScrubError) : RoundTrip.Statement (.scrubPass errs) := by
  intro _ _ e
  cases e

theorem RoundTrip.powerWindow (watts : Nat) : RoundTrip.Statement (.powerWindow watts) := by
  intro _ _ e
  cases e

theorem RoundTrip.dieOver105 (die : Nat) : RoundTrip.Statement (.dieOver105 die) := by
  intro _ _ e
  cases e

theorem RoundTrip.dieBelow100 (die : Nat) : RoundTrip.Statement (.dieBelow100 die) := by
  intro _ _ e
  cases e

theorem RoundTrip.thermalTrip (die : Nat) : RoundTrip.Statement (.thermalTrip die) := by
  intro _ _ e
  cases e

theorem RoundTrip.debugHalt (core : Nat) : RoundTrip.Statement (.debugHalt core) := by
  intro _ _ e
  cases e

theorem RoundTrip.debugAccess (core : Nat) (a : DebugAccess) : RoundTrip.Statement (.debugAccess core a) := by
  intro _ _ e
  cases e

theorem RoundTrip.debugRelease (core : Nat) : RoundTrip.Statement (.debugRelease core) := by
  intro _ _ e
  cases e

theorem RoundTrip.powerGood (t : BringUp) : RoundTrip.Statement (.powerGood t) := by
  intro _ _ e
  cases e

theorem RoundTrip.packageReset : RoundTrip.Statement (.packageReset) := by
  intro _ _ e
  cases e

theorem RoundTrip.hostLinkUp (rate : BitVec 32) (width : BitVec 32) : RoundTrip.Statement (.hostLinkUp rate width) := by
  intro _ _ e
  cases e

theorem RoundTrip.hostAtomicop (off : Nat) : RoundTrip.Statement (.hostAtomicop off) := by
  intro _ _ e
  cases e

theorem RoundTrip.refreshDue (stack : Nat) (pc : Nat) (bank : Nat) (postpone : Bool) : RoundTrip.Statement (.refreshDue stack pc bank postpone) := by
  intro _ _ e
  cases e

end Sys2Proof.Laws
end

