-- ==== Sys2Proof/Tests/Slice0.lean ====
section
/-! SUPPORT. Tests of the model's own: words written out from the spec's encodings and examples decode to their instructions;
well-formedness refuses an ill-formed term for each of its checks; and for every statement of Certificates a state and
operands meet its hypotheses, at the ends of their ranges. -/

set_option maxRecDepth 100000
set_option Elab.async false

namespace Sys2Proof.Tests
open Sys2Proof Sys2Proof.Machine

/-! ## Small states -/

/-- One core in whose slot 0 a group of 64 registers of zeros is issuing a word in the lanes of `m`, with 1 KiB of
scratchpad; page 0 of its space is the frame at 0x10000. -/
def base (m : Word) : State :=
  let s := State.reset.withProgram
  let g := Group.launch 64 0 (List.replicate 48 0) 0 2 0
  let tm := { Team.lone with spadMap := [0], spadSize := 1024 }
  let c := { s.core 0 with groups := [some g], teams := [tm], freeBlocks := 504 }
  let i := { Issue.reset with pc := 3, after := 4, nextPc := 5, exec := m, act := m, src := g.rf, lanes := g.lanes }
  { s with cores := [c], issueQ := [], issue := i }

/-- The registers changed, and read so by the bundle. -/
def regs (s : State) (f : RegFile → RegFile) : State :=
  let s := s.onGrp fun g => { g with rf := f g.rf }
  { s with issue := { s.issue with src := f s.issue.src } }

/-- Vector register `r` holds `f` of its lane. -/
def withV (s : State) (r : Nat) (f : Nat → Word) : State := regs s (·.setV r 0xFFFFFFFF f)

/-- Pair `r`:`r + 1` holds `w` in every lane. -/
def withV2 (s : State) (r : Nat) (w : DWord) : State :=
  withV (withV s r fun _ => wordOf w.toNat 0) (r + 1) fun _ => wordOf w.toNat 1

/-- Scalar `n` holds `w`. -/
def withS (s : State) (n : Nat) (w : DWord) : State := regs s (·.setS n w)

/-- A fact of every lane of a mask needs to be shown of the 32 lanes alone. -/
theorem of_lanes {m : Word} {P : Nat → Prop} (h : ∀ l, l < 32 → m.getLsbD l → P l) : ∀ l, m.getLsbD l → P l :=
  fun l hl => h l (BitVec.lt_of_getLsbD hl) hl

/-- A read whose checks pass reaches its place on a core without operations in flight, where the data are sound. -/
theorem readsAt_of {s : State} {l n : Nat} {va : DWord} {pa : Nat}
    (h : (s.tryGlobal .read n l va).fault = none ∧ (s.tryGlobal .read n l va).access.loc = .phys pa ∧
      s.roomWait n [s.tryGlobal .read n l va] = none ∧ s.homeCode (.phys pa) n = 0 ∧ s.beyond (.phys pa) = none ∧
      s.overtakes (.phys pa) n = false)
    (q : s.cur.flight = [] ∧ s.weak = []) : ReadsAt s l n va pa :=
  ⟨⟨h.1, h.2.1, h.2.2.1⟩, ⟨h.2.2.2.1, by simp [q.2]⟩, h.2.2.2.2.1, by simp [q.1], h.2.2.2.2.2⟩

/-- A write whose checks pass reaches its place. -/
theorem writesTo_of {s : State} {l n : Nat} {va : DWord} {pa : Nat}
    (h : (s.tryGlobal .write n l va).fault = none ∧ (s.tryGlobal .write n l va).access.loc = .phys pa ∧
      s.roomWait n [s.tryGlobal .write n l va] = none) : WritesTo s l n va pa :=
  ⟨h.1, h.2.1, h.2.2⟩

/-- A read or write whose checks pass reaches its place in the package, where the data are sound. -/
theorem reaches_of {s : State} {want : Want} {l n : Nat} {va : DWord} {pa : Nat}
    (h : (s.tryGlobal want n l va).fault = none ∧ (s.tryGlobal want n l va).access.loc = .phys pa ∧
      s.roomWait n [s.tryGlobal want n l va] = none ∧ s.homeCode (.phys pa) n = 0 ∧ s.beyond (.phys pa) = none)
    (hw : s.weak = []) : Reaches s want l n va pa :=
  ⟨⟨h.1, h.2.1, h.2.2.1⟩, ⟨h.2.2.2.1, by simp [hw]⟩, h.2.2.2.2⟩

/-- No core watches a range, and no data are bad. -/
theorem plain_of {s : State} {pa n : Nat} (h : (∀ c ∈ s.cores, c.cares pa n = false) ∧ s.bad = [] ∧ s.weak = []) :
    s.plain pa n :=
  ⟨h.1, by simp [h.2.1], by simp [h.2.2]⟩

/-- A range is near when each of its bytes is. -/
theorem near_of {s : State} {pa n : Nat} (h : ∀ i ∈ List.range n, s.beyond (.phys (pa + i)) = none) : s.near pa n :=
  fun i hi => h i (List.mem_range.2 hi)

/-! ## Words of every family, written out from the encoding tables -/

theorem test_decode_packet :
  decodeWord 0x0039E7BB = .ok (.clause 0xe79 0xe 0xe true true) ∧
  decodeWord 0x00780000 = .ok (.guard 7 false 0) ∧
  decodeWord 0x80800000 = .ok (.nop true) ∧
  decodeWord 0x00E6D5DA = .ok (.brk 0x26d5da) := by
  decide +kernel

theorem test_decode_integer :
  decodeWord 0x0113BE54 = .ok (.iadd false false 0x27 0x3e 0x2a false) ∧
  decodeWord 0x0141B94E = .ok (.isub false false 3 0x39 0x27 false) ∧
  decodeWord 0xC1932253 = .ok (.imul true true 0x26 0x22 0x29 true) ∧
  decodeWord 0x81CA9B5D = .ok (.imulh true false false 0x15 0x1b 0x2e true) ∧
  decodeWord 0x82012534 = .ok (.imad true false 2 0x25 0x1a false) ∧
  decodeWord 0xC25F3700 = .ok (.iabs true true 0x3e 0x37) ∧
  decodeWord 0x02883F36 = .ok (.imin false false false 0x10 0x3f 0x1b false) ∧
  decodeWord 0x42E50162 = .ok (.imax false true true 0xa 1 0x31 false) ∧
  decodeWord 0x03009E18 = .ok (.ishl false false 1 0x1e 0xc false) ∧
  decodeWord 0x834A8836 = .ok (.ishr true false false 0x15 8 0x1b false) ∧
  decodeWord 0x439C8E34 = .ok (.irot false true 0x39 0xe 0x1a false) ∧
  decodeWord 0x03CE816D = .ok (.and false false 0x1d 1 0x36 true) ∧
  decodeWord 0x84032603 = .ok (.or true false 6 0x26 1 true) ∧
  decodeWord 0xC45F3671 = .ok (.xor true true 0x3e 0x36 0x38 true) ∧
  decodeWord 0x049DB55E = .ok (.andn false false 0x3b 0x35 0x2f false) ∧
  decodeWord 0x04DCA700 = .ok (.clz false false 0x39 0x27) ∧
  decodeWord 0x45038300 = .ok (.popc false true 7 3) ∧
  decodeWord 0x8548B500 = .ok (.brev true false 0x11 0x35) ∧
  decodeWord 0xC5829F24 = .ok (.bfx true true false 5 0x1f 0x12 false) ∧
  decodeWord 0x05C91D08 = .ok (.bfi false false 0x12 0x1d 4 false) := by
  decide +kernel

theorem test_decode_moves :
  decodeWord 0x462D1875 = .ok (.icmp false true 0xb 2 0x18 0x3a true) ∧
  decodeWord 0x8644070A = .ok (.plog true false 1 0 7 5) ∧
  decodeWord 0x8693803E = .ok (.movW32 true false 0x27 0x1f false) ∧
  decodeWord 0xC682813B = .ok (.movW64 true true 5 0x1d true) ∧
  decodeWord 0x068B8259 = .ok (.movS false false 0x17 0x2c true) ∧
  decodeWord 0x46DC7FFB = .ok (.movi false true 0x38 0x7ffb) ∧
  decodeWord 0x4713032F = .ok (.movhi false true 0x26 0x32f) := by
  decide +kernel

theorem test_decode_wide :
  decodeWord 0x074A9D5F = .ok (.add64 false false 0x15 false 0x1d 0x2f true) ∧
  decodeWord 0xC7878A3E = .ok (.sub64 true true 0xf false 0xa 0x1f false) ∧
  decodeWord 0x07CCDD31 = .ok (.mul64 false false 0x19 true 0x1d 0x18 true) ∧
  decodeWord 0x080CD02B = .ok (.shl64 false false 0x19 true 0x10 0x15 true) ∧
  decodeWord 0x886E881C = .ok (.shr64 true false true 0x1d false 8 0xe false) ∧
  decodeWord 0x48AC1B11 = .ok (.cmp64 false true 0xb 0 false 0x1b 8 true) := by
  decide +kernel

theorem test_decode_control :
  decodeWord 0xC8DF0F75 = .ok (.bra true true 3 true 0x30f75) ∧
  decodeWord 0xC939EAC7 = .ok (.jmp true true 0x39eac7) ∧
  decodeWord 0x894407B9 = .ok (.call true false 0x407b9) ∧
  decodeWord 0x89802500 = .ok (.ret true false 0x25) ∧
  decodeWord 0xC9C00000 = .ok (.exit true true) ∧
  decodeWord 0x0A001E05 = .ok (.brx false false 0x1e 2 true) ∧
  decodeWord 0x0A5F9700 = .ok (.vote false false 0x3f 1 7) ∧
  decodeWord 0x4A963266 = .ok (.rdsr false true 0x2c 0x32 0x66) ∧
  decodeWord 0xCAD6B1F1 = .ok (.wrsr true true 0x2d 0x31 0xf1) := by
  decide +kernel

theorem test_decode_task :
  decodeWord 0x0B20A334 = .ok (.taskSpawn false false true true 0x23 0x1a false) ∧
  decodeWord 0x0B400000 = .ok (.taskDone false) ∧
  decodeWord 0xCB8E8D33 = .ok (.ctrAdd true true 0x1d 0xd 0x19 true) ∧
  decodeWord 0xCBC38E00 = .ok (.wqPop true true 7 0xe false) ∧
  decodeWord 0x8C11912E = .ok (.wqPush true false 0x23 0x11 0x17 false) ∧
  decodeWord 0x4C4024D0 = .ok (.bar false true 0x24 6 8) ∧
  decodeWord 0x8C9A1C34 = .ok (.barArrive true false 0x34 0x1c 1 0xa) ∧
  decodeWord 0x4CC02264 = .ok (.barWait false true 0x22 3 2) ∧
  decodeWord 0x4D004A48 = .ok (.roleGive false true 0x4a48) ∧
  decodeWord 0x4D404FCB = .ok (.roleClaim false true 0x4fcb) ∧
  decodeWord 0x8D9BBE4B = .ok (.park true false 0x37 0x3e 0x25 true) := by
  decide +kernel

theorem test_decode_system :
  decodeWord 0x0DD9B94B = .ok (.trap 0x19b94b) ∧
  decodeWord 0x8E000027 = .ok (.sysret true 0 0x27) ∧
  decodeWord 0x8E4C0600 = .ok (.watch true false 0 3 0 6) ∧
  decodeWord 0x0E8D8003 = .ok (.clock false false 0x1b true true) ∧
  decodeWord 0x0EFC908E = .ok (.pmark false 0x3c908e) ∧
  decodeWord 0x8F0E2200 = .ok (.hold true false 0x1c 0x22) ∧
  decodeWord 0x8F4D8079 = .ok (.cap true false 0x1b 0x3c true) ∧
  decodeWord 0x0F80091E = .ok (.sleep false false 0x91e) := by
  decide +kernel

theorem test_decode_single :
  decodeWord 0x10009521 = .ok (.fadd false false 1 0x15 0x10 true) ∧
  decodeWord 0x505BAE5B = .ok (.fsub false true 0x37 0x2e 0x2d true) ∧
  decodeWord 0x509AA370 = .ok (.fmul false true 0x35 0x23 0x38 false) ∧
  decodeWord 0x10DDBA2B = .ok (.ffma false false 0x3b 0x3a 0x15 true) ∧
  decodeWord 0x111C8912 = .ok (.fmin false false 0x39 9 9 false) ∧
  decodeWord 0xD14E231B = .ok (.fmax true true 0x1c 0x23 0xd true) ∧
  decodeWord 0x119A8842 = .ok (.fcmp false false 6 5 8 0x21 false) ∧
  decodeWord 0x51C13100 = .ok (.frcp false true 2 0x31) ∧
  decodeWord 0x92060E00 = .ok (.frsq true false 0xc 0xe) ∧
  decodeWord 0x125E2600 = .ok (.fsqrt false false 0x3c 0x26) ∧
  decodeWord 0x1282953D = .ok (.fdiv false false 5 0x15 0x1e true) ∧
  decodeWord 0xD2D38100 = .ok (.fexp2 true true 0x27 1) ∧
  decodeWord 0x130D9800 = .ok (.flog2 false false 0x1b 0x18) ∧
  decodeWord 0xD3538700 = .ok (.fsin true true 0x27 7) ∧
  decodeWord 0x539A2500 = .ok (.fcos false true 0x34 0x25) ∧
  decodeWord 0x53C93004 = .ok (.frnd false true 0x12 0x30 2) ∧
  decodeWord 0x941CB200 = .ok (.fclass true false 0x39 0x32) ∧
  decodeWord 0x94470529 = .ok (.fscale true false 0xe 5 0x14 true) := by
  decide +kernel

theorem test_decode_double_and_packed :
  decodeWord 0x14A43D2C = .ok (.dadd false false true 8 0x3d 0x16 false) ∧
  decodeWord 0x94C6AA5A = .ok (.dmul true false 0xd 0x2a 0x2d false) ∧
  decodeWord 0x950A3023 = .ok (.dfma true false 0x14 0x30 0x11 true) ∧
  decodeWord 0x95409125 = .ok (.dminmax true false false 1 0x11 0x12 true) ∧
  decodeWord 0x95B89933 = .ok (.dcmp true false 0xe 1 0x19 0x19 true) ∧
  decodeWord 0x55CE1B45 = .ok (.hadd2 false true 0x1c 0x1b 0x22 true) ∧
  decodeWord 0xD60FA457 = .ok (.hmul2 true true 0x1f 0x24 0x2b true) ∧
  decodeWord 0x16532937 = .ok (.hfma2 false false 0x26 0x29 0x1b true) ∧
  decodeWord 0x56820539 = .ok (.bfma2 false true 4 5 0x1c true) := by
  decide +kernel

theorem test_decode_lanes :
  decodeWord 0x96C4F7D4 = .ok (.cvt true false 1 3 3 0x1f 0x14) ∧
  decodeWord 0x17068E2E = .ok (.cvtpk false false 3 1 0xe 0x17 false) ∧
  decodeWord 0x57782B3D = .ok (.cvtupk false true 0x1c 0x2b 0x1e true) ∧
  decodeWord 0xD79EAF21 = .ok (.shfl true true 0x3d 0x2f 0x10 true) ∧
  decodeWord 0x57C92806 = .ok (.bcast false true 0x12 0x28 3) ∧
  decodeWord 0x981EA160 = .ok (.lred true false 0x3d 0x21 6) ∧
  decodeWord 0x18491C00 = .ok (.lscan false false 0x12 0x1c 0 false) ∧
  decodeWord 0x1882BB48 = .ok (.cellkey false false 5 0x3b 0x24 false) ∧
  decodeWord 0xD8E39660 = .ok (.fdot2 true true true 7 0x16 0x30 false) := by
  decide +kernel

theorem test_decode_memory :
  decodeWord 0x201A1DB0 = .ok (.ldg false false 0x34 0x1d 5 0x10) ∧
  decodeWord 0xA0451377 = .ok (.stg true false 0xa 0x13 3 0x17) ∧
  decodeWord 0x60831CDE = .ok (.lds false true 6 0x1c 6 7 2) ∧
  decodeWord 0x20C72D76 = .ok (.sts false false 0xe 0x2d 3 5 2) ∧
  decodeWord 0x2115985C = .ok (.ldp false false 0x2b 0x18 2 0x1c) ∧
  decodeWord 0xE14F0FAF = .ok (.stp true true 0x1e 0xf 5 0xf) ∧
  decodeWord 0x61812C98 = .ok (.ldacq false true 2 0x2c 4 6) ∧
  decodeWord 0x61D1B624 = .ok (.strel false true 0x23 0x36 1 1) := by
  decide +kernel

theorem test_decode_atomics :
  decodeWord 0xE207A393 = .ok (.atadd true true 0xf 0x23 4 2 false 3) ∧
  decodeWord 0x624B1241 = .ok (.atminmax false true 0x16 0x12 2 0 false 1) ∧
  decodeWord 0x629720DE = .ok (.atlogic false true 0x2e 0x20 6 3 true 2) ∧
  decodeWord 0xE2D023A4 = .ok (.atxchg true true 0x20 0x23 5 0 true) ∧
  decodeWord 0xA31B3984 = .ok (.atcas true false 0x36 0x39 4 0 true) := by
  decide +kernel

theorem test_decode_engines :
  decodeWord 0x235E3B02 = .ok (.bankAdd false false 0x3c 0x3b 2) ∧
  decodeWord 0x23961503 = .ok (.bankFx false false 0x2c 0x15 3) ∧
  decodeWord 0xE3C91F04 = .ok (.bankFxread true true 0x12 0x1f 4) ∧
  decodeWord 0x64193B00 = .ok (.bankApp false true 0x32 0x3b 0) ∧
  decodeWord 0xA45D9500 = .ok (.bankAxpy true false 0x3b 0x15 0 false) ∧
  decodeWord 0x64932706 = .ok (.bankRed false true 0x26 0x27 3 false) ∧
  decodeWord 0xA4C00068 = .ok (.fence true false 3 1) ∧
  decodeWord 0xE51E2B3E = .ok (.fenceRng true true 3 3 0x2b 0x1f) ∧
  decodeWord 0x65475168 = .ok (.cpyL false true 7 1 0x11 0x1a false false) ∧
  decodeWord 0x658EAEC8 = .ok (.cpyT false true 0x1d 0x2e 6 false true) ∧
  decodeWord 0x65D40432 = .ok (.trywait false true 2 8 0x432) ∧
  decodeWord 0xA60081C9 = .ok (.pref true false 1 1 6 9) ∧
  decodeWord 0x26401200 = .ok (.ldk false false 0x12) ∧
  decodeWord 0x66830236 = .ok (.stkCtx false true 6 2 0x1b) ∧
  decodeWord 0x26C00000 = .ok (.flushl1 false false) := by
  decide +kernel

theorem test_decode_matrix :
  decodeWord 0xA7191E94 = .ok (.mma true 6 0x23 0x34 true false 4) ∧
  decodeWord 0xA76624B0 = .ok (.accLd true 9 true 0x24 2 3 false) ∧
  decodeWord 0xA7882BF0 = .ok (.accSt true 2 false 0x2b 3 3 false) ∧
  decodeWord 0xA7C21002 = .ok (.accStrows true 0 true 0x10 true) ∧
  decodeWord 0x28380000 = .ok (.accZero false 0xe false) ∧
  decodeWord 0x2854BC00 = .ok (.resAlloc false false 0x29 0x3c) ∧
  decodeWord 0xE8921100 = .ok (.resLoad true true 0x24 0x11 false) ∧
  decodeWord 0x68C01602 = .ok (.resPin false true 0x16 true) ∧
  decodeWord 0xE9001D00 = .ok (.resFree true true 0x1d) ∧
  decodeWord 0xA9450900 = .ok (.resQuery true false 0xa 9) ∧
  decodeWord 0x298D364C = .ok (.resHeat false false 0x1a 0x36 0x26) ∧
  decodeWord 0x29C00300 = .ok (.resAge false false 3) ∧
  decodeWord 0x2A0D9678 = .ok (.resMigrate false false 0x1b 0x16 0x3c false) ∧
  decodeWord 0x2A4FD744 = .ok (.mfmt false false 0x1f 0x15 0x1a 0 true) ∧
  decodeWord 0xAA801600 = .ok (.fireSet true false 0 0x16) ∧
  decodeWord 0x6AD500E1 = .ok (.budgetRd false true 0x2a 0xe1) := by
  decide +kernel

theorem test_decode_terms :
  decodeWord 0x6B111A00 = .ok (.tag false true 0x11 0x1a) ∧
  decodeWord 0xAB49262E = .ok (.mkt true false 9 0x26 0x17 false) ∧
  decodeWord 0x2B930000 = .ok (.mkvar false 0x13) ∧
  decodeWord 0x2BD9084B = .ok (.mkstr false 0x19 0 8 0x25 true) ∧
  decodeWord 0xEC1E0F3A = .ok (.arg true true 0x1e 0 0xf 0x1d false) ∧
  decodeWord 0x2C461400 = .ok (.deref false false 6 0x14) ∧
  decodeWord 0x2C880A21 = .ok (.unifyP false 1 0xa 0x10 true) ∧
  decodeWord 0x2C80543C = .ok (.unifyF false 0x14 0x1e false) ∧
  decodeWord 0xACC01A29 = .ok (.bind true 0x1a 0x14 true) ∧
  decodeWord 0x2D140037 = .ok (.choice false 0x14 0x1b true) ∧
  decodeWord 0x2D400045 = .ok (.retry false 0x22 true) ∧
  decodeWord 0x2D800000 = .ok (.trust false) ∧
  decodeWord 0xADC00000 = .ok (.fail true) ∧
  decodeWord 0x2E000044 = .ok (.cut false 0x22 false) ∧
  decodeWord 0xAE580200 = .ok (.adopt true 3 2) ∧
  decodeWord 0x2E804035 = .ok (.publishOpen false 0x1a true) ∧
  decodeWord 0x2E80002F = .ok (.publishClose false 0x17 true) ∧
  decodeWord 0xEEDD076B = .ok (.btld true true 0x1d 7 0x35 true) := by
  decide +kernel

theorem test_decode_literals :
  decodeWord 0x322DD4C8 = .ok (.faddi false false 0x22 0xdd4c8) ∧
  decodeWord 0xBBB1BFF1 = .ok (.fmuli true false 0x3b 0x1bff1) := by
  decide +kernel

/-! ## Words that the spec's examples give with their assembly -/

/-- The packet of chapter 08 and the word of R212. -/
theorem test_words_packet :
    decodeWord 0x81020161 = .ok (.iadd true false 4 1 48 true) ∧ decodeWord 0x10828207 = .ok (.fmul false false 5 2 3 true) ∧
    decodeWord 0x00800000 = .ok (.nop false) ∧ decodeWord 0x3033FA66 = .ok (.faddi false false 3 0x3FA66) := by
  decide +kernel

/-- The program of chapter 09: `%lid` is source 49, k0 to k2 are sources 0 to 2. -/
theorem test_words_loop :
    decodeWord 0x06808063 = .ok (.movW32 false false 1 49 true) ∧ decodeWord 0x03C10101 = .ok (.and false false 2 1 0 true) ∧
    decodeWord 0x06C18000 = .ok (.movi false false 3 0) ∧ decodeWord 0x060C8203 = .ok (.icmp false false 3 1 2 1 true) ∧
    decodeWord 0x08C80004 = .ok (.bra false false 1 false 4) ∧ decodeWord 0x01018305 = .ok (.iadd false false 3 3 2 true) ∧
    decodeWord 0x01410205 = .ok (.isub false false 2 2 2 true) ∧ decodeWord 0x093FFFFC = .ok (.jmp false false (-4)) ∧
    decodeWord 0x0A423700 = .ok (.vote false false 4 3 7) ∧ decodeWord 0x09C00000 = .ok (.exit false false) := by
  decide +kernel

/-- The words of chapters 10, 11 and 12. -/
theorem test_words_data :
    decodeWord 0x17240801 = .ok (.cvtpk false false 18 0 8 0 true) ∧
    decodeWord 0x17640801 = .ok (.cvtupk false false 18 8 0 true) ∧
    decodeWord 0x06880010 = .ok (.movW32 false false 16 8 false) ∧
    decodeWord 0x20418280 = .ok (.stg false false 3 2 4 0) ∧ decodeWord 0x218304B0 = .ok (.ldacq false false 6 4 5 4) ∧
    decodeWord 0x24018200 = .ok (.bankApp false false 3 2 0) ∧ decodeWord 0x24C000A8 = .ok (.fence false false 5 1) ∧
    decodeWord 0x27004108 = .ok (.mma false 0 8 8 false true 0) ∧ decodeWord 0x27C00C00 = .ok (.accStrows false 0 false 12 false) ∧
    decodeWord 0x28440400 = .ok (.resAlloc false false 8 4) ∧ decodeWord 0x28920800 = .ok (.resLoad false false 36 8 false) ∧
    decodeWord 0x2A442524 = .ok (.mfmt false false 8 9 9 0 true) := by
  decide +kernel

/-- The program of chapter 13. -/
theorem test_words_terms :
    decodeWord 0x06048165 = .ok (.icmp false false 1 1 1 50 true) ∧ decodeWord 0x08C80011 = .ok (.bra false false 1 false 17) ∧
    decodeWord 0x06810201 = .ok (.movS false false 2 0 true) ∧ decodeWord 0x06818205 = .ok (.movS false false 3 2 true) ∧
    decodeWord 0x0AC08218 = .ok (.wrsr false false 1 2 24) ∧ decodeWord 0x0AC08316 = .ok (.wrsr false false 1 3 22) ∧
    decodeWord 0x2B420161 = .ok (.mkt false false 2 1 48 true) ∧ decodeWord 0x2B810000 = .ok (.mkvar false 1) ∧
    decodeWord 0x2D000061 = .ok (.choice false 0 48 true) ∧ decodeWord 0x2C900108 = .ok (.unifyP false 2 1 4 false) ∧
    decodeWord 0x2DC00000 = .ok (.fail false) ∧ decodeWord 0x2D800000 = .ok (.trust false) ∧
    decodeWord 0x2C98010C = .ok (.unifyP false 3 1 6 false) ∧ decodeWord 0x2EC40465 = .ok (.btld false false 4 4 50 true) := by
  decide +kernel

/-! ## Ill-formed terms: one for each check -/

theorem test_ill_formed_fields :
    (Instr.clause 0 1 0 false true).wellFormed = false ∧ (Instr.clause 0 0 1 true false).wellFormed = false ∧
    (Instr.taskSpawn false false false false 0 1 false).wellFormed = false ∧
    (Instr.taskSpawn false false false false 0 0 true).wellFormed = false ∧
    (Instr.cvtpk false false 9 1 0 0 false).wellFormed = false ∧ (Instr.cvtpk false false 12 1 0 0 false).wellFormed = false ∧
    (Instr.mkstr false 0 1 0 1 false).wellFormed = false ∧ (Instr.mkstr false 0 1 0 0 true).wellFormed = false ∧
    (Instr.arg false false 0 1 0 1 false).wellFormed = false ∧ (Instr.arg false false 0 2 0 0 true).wellFormed = false := by
  decide

theorem test_ill_formed_scopes :
    (Instr.bar false false 0 7 0).wellFormed = false ∧ (Instr.barArrive false false 0 0 7 0).wellFormed = false ∧
    (Instr.barWait false false 0 7 0).wellFormed = false ∧ (Instr.ldacq false false 0 0 7 0).wellFormed = false ∧
    (Instr.strel false false 0 0 7 0).wellFormed = false ∧ (Instr.atadd false false 0 0 7 0 false 0).wellFormed = false ∧
    (Instr.atminmax false false 0 0 7 0 false 0).wellFormed = false ∧
    (Instr.atlogic false false 0 0 7 0 false 0).wellFormed = false ∧
    (Instr.atxchg false false 0 0 7 0 false).wellFormed = false ∧ (Instr.atcas false false 0 0 7 0 false).wellFormed = false ∧
    (Instr.fence false false 7 0).wellFormed = false ∧ (Instr.fenceRng false false 7 0 0 0).wellFormed = false := by
  decide

theorem test_ill_formed_core_events :
    (Instr.groupAged 384 0).wellFormed = false ∧ (Instr.groupAged 0 32).wellFormed = false ∧
    (Instr.loadDataReturn 384 0).wellFormed = false ∧ (Instr.storeAck 384 0).wellFormed = false ∧
    (Instr.homeWrite (.pending 384 0)).wellFormed = false ∧ (Instr.homeWrite (.outside (2 ^ 54) [0])).wellFormed = false ∧
    (Instr.holdRelease 384 0).wellFormed = false ∧ (Instr.slotReclaim 384 0).wellFormed = false ∧
    (Instr.slotReclaim 0 32).wellFormed = false ∧ (Instr.taskDoneDecrement 384 0).wellFormed = false ∧
    (Instr.readyPushAccept 96).wellFormed = false ∧ (Instr.taskStart 96).wellFormed = false ∧
    (Instr.parkRecheck 384 0).wellFormed = false ∧ (Instr.parkTimeout 0 0 32).wellFormed = false ∧
    (Instr.wqRefillDone 0 32 0).wellFormed = false ∧ (Instr.barrierDelivery 384 0).wellFormed = false ∧
    (Instr.sleepEnd 0 32).wellFormed = false ∧ (Instr.trywaitTimeout 384 0).wellFormed = false ∧
    (Instr.runAheadEnd 0 32).wellFormed = false ∧ (Instr.matrixPassDone 384 0).wellFormed = false ∧
    (Instr.grottoRequest 384 0).wellFormed = false ∧ (Instr.grottoResult 384 0).wellFormed = false ∧
    (Instr.migrationComplete 384 0).wellFormed = false ∧ (Instr.resLoadProceed 384 0).wellFormed = false ∧
    (Instr.resLoadComplete 384 0).wellFormed = false ∧ (Instr.copyComplete (.core 384) 0).wellFormed = false ∧
    (Instr.bankStreamComplete 384 0).wellFormed = false ∧ (Instr.contextImageComplete 384 0).wellFormed = false ∧
    (Instr.prefetchFill 384 0).wellFormed = false := by
  decide

theorem test_ill_formed_commands :
    (Instr.saveTeam 384 0).wellFormed = false ∧ (Instr.restoreTeam 384).wellFormed = false ∧
    (Instr.teamReturn 384).wellFormed = false ∧ (Instr.returnGroup 384 0).wellFormed = false ∧
    (Instr.terminate 384 0).wellFormed = false ∧ (Instr.registerWrite .host 0x4000000 ⟨8, 0⟩).wellFormed = false ∧
    (Instr.registerWrite .host 4 ⟨8, 0⟩).wellFormed = false ∧
    (Instr.registerWrite .host 0 ⟨3, 0⟩).wellFormed = false ∧ (Instr.doorbell .host 32 0).wellFormed = false ∧
    (Instr.launchBundle 32).wellFormed = false ∧ (Instr.waitPacket 32).wellFormed = false ∧
    (Instr.waitPacketTest 32).wellFormed = false ∧ (Instr.waitPacketTimeout 32).wellFormed = false ∧
    (Instr.unknownCommand 32).wellFormed = false ∧ (Instr.subLaunchComplete 32 0 0).wellFormed = false ∧
    (Instr.subLaunchComplete 0 0 4).wellFormed = false ∧ (Instr.issueControlMismatch 0 4).wellFormed = false ∧
    (Instr.mcoffWrite 6 0).wellFormed = false ∧ (Instr.telemetryCounterClear 0 6 0).wellFormed = false ∧
    (Instr.hostCompletion 385 0 false).wellFormed = false ∧ (Instr.remoteTimeout 385 0).wellFormed = false ∧
    (Instr.storageDma (.read (2 ^ 64) 1)).wellFormed = false ∧ (Instr.storageDma (.write (2 ^ 64) [0])).wellFormed = false ∧
    (Instr.hostAtomicop 0x4000000).wellFormed = false := by
  decide +kernel

theorem test_ill_formed_links_and_service :
    (Instr.flitReceive 64 []).wellFormed = false ∧ (Instr.flitReceive 0 [0]).wellFormed = false ∧
    (Instr.portDown 64).wellFormed = false ∧ (Instr.portRetrain 64 ⟨false, 0, false⟩).wellFormed = false ∧
    (Instr.fabricRead 64).wellFormed = false ∧ (Instr.fabricWrite 64).wellFormed = false ∧
    (Instr.fabricMaskedWrite 64).wellFormed = false ∧ (Instr.fabricAtomic 64).wellFormed = false ∧
    (Instr.fabricReply 64).wellFormed = false ∧ (Instr.barrierArrivalMessage 64).wellFormed = false ∧
    (Instr.barrierCompletionMessage 64).wellFormed = false ∧ (Instr.podBarrierTimeout 4).wellFormed = false ∧
    (Instr.hbmRequest 24 ⟨0, 0, 0, 0, 0, 0, 0, [], []⟩).wellFormed = false ∧
    (Instr.hbmRequest 0 ⟨0, 0, 0, 0, 0, 0, 0, [], List.replicate 129 0⟩).wellFormed = false ∧
    (Instr.activationAlert 0 64 0 false).wellFormed = false ∧ (Instr.selfRefreshEntry 0 32 false).wellFormed = false ∧
    (Instr.refreshDue 0 0 64 false).wellFormed = false ∧ (Instr.stallSample 3).wellFormed = false ∧
    (Instr.dieOver105 3).wellFormed = false ∧ (Instr.dieBelow100 3).wellFormed = false ∧
    (Instr.thermalTrip 3).wellFormed = false ∧ (Instr.debugHalt 384).wellFormed = false ∧
    (Instr.debugQuiescent 384).wellFormed = false ∧ (Instr.debugRelease 384).wellFormed = false ∧
    (Instr.debugAccess 0 (.readSpad 786432 1)).wellFormed = false ∧ (Instr.debugAccess 0 (.readTile 16 0 0)).wellFormed = false ∧
    (Instr.debugAccess 0 (.readTag 0 4 0)).wellFormed = false ∧ (Instr.debugAccess 0 (.writeTag 0 0 256 0)).wellFormed = false ∧
    (Instr.debugAccess 0 (.readV 0 128 0)).wellFormed = false ∧ (Instr.debugAccess 0 (.readGroup 32 0 0)).wellFormed = false ∧
    (Instr.debugAccess 0 (.setWatch 4 0 0 0 0 0 0 0)).wellFormed = false ∧
    (Instr.debugAccess 0 (.readVpc 0 32)).wellFormed = false ∧
    (Instr.powerGood ⟨none, none, 0, 0, 0, []⟩).wellFormed = false := by
  decide +kernel
/-! ## The hypotheses of the statements can be met -/

/-- Two lanes issue, and registers, scalars and predicates are all within the allotment. -/
abbrev two : State := base 3

theorem witness_IntegerArithmetic : two.issuing ∧ two.vOk 63 ∧ two.vOk 0 ∧ two.bOk 63 false ∧ two.bOk 127 true := by
  decide +kernel

theorem witness_ShiftsAndLogic : two.issuing ∧ two.vOk 63 ∧ two.vOk 0 ∧ two.bOk 50 true ∧ two.bOk 63 false := by
  decide +kernel

theorem witness_BitWords : two.issuing ∧ two.vOk 63 ∧ two.vOk 0 ∧ two.bOk 64 true ∧ two.bOk 0 false := by
  decide +kernel

theorem witness_Moves : two.issuing ∧ two.vOk 63 ∧ two.bOk 63 false ∧ two.v2Ok 62 ∧ two.b2Ok 62 false ∧
    two.b2Ok 46 true ∧ two.b2Ok 127 true ∧ (19#5).toNat < 20 := by
  decide +kernel

theorem witness_WideArithmetic : two.issuing ∧ two.b2Ok 62 false ∧ two.b2Ok 46 true ∧ two.v2Ok 62 ∧ two.v2Ok 0 ∧
    (9#4).toNat < 10 := by
  decide +kernel

theorem witness_Comparisons : two.issuing ∧ two.vOk 63 ∧ two.bOk 63 false ∧ two.v2Ok 62 ∧ two.b2Ok 62 false ∧
    (9#4).toNat < 10 ∧ (7#4).toNat < 8 := by
  decide +kernel

theorem witness_Branches : two.issuing ∧ two.vOk 0 ∧ two.vOk 63 ∧ two.bOk 63 false := by
  decide +kernel

theorem witness_LaneWords : two.issuing ∧ (7#7).toNat < 8 ∧ two.vOk 63 ∧ two.bOk 63 false ∧ two.vOk (61 + 2) ∧
    (lanesOf two.issue.exec).filter (two.issue.src.rp 0) = [] ∧
    (lanesOf two.issue.exec).filter (two.issue.src.rp 7) = [0, 1] := by
  decide +kernel

theorem witness_SpecialRegisters_read : two.issuing ∧ (0x1B#8).toNat < 0x1C ∧ srTerm 0x12 ∧ two.searchPending = false ∧
    two.v2Ok 62 ∧ srWide 0x18 ∧ two.vOk 63 ∧ srWide 0x1B = false := by
  decide +kernel

/-- R113, R233: a value that each term register takes. -/
theorem witness_SpecialRegisters_term :
    (∀ m ∈ [(0x12, 8), (0x13, 8), (0x14, 8), (0x15, 0), (0x16, 0)], ∀ l, l < 2 →
      srFault m.1 (two.issue.lane l) (BitVec.ofNat 64 m.2) = none) ∧
    two.issue.exec ≠ 0 ∧ (if srWide 0x12 then two.v2Ok 62 else two.vOk 62) ∧ (63#7).toNat < 64 := by
  decide +kernel

/-- `%fpm` takes the bits that are not reserved. -/
theorem witness_SpecialRegisters_fpm : (0x1F3 : Nat) / 2 ^ 9 % 2 ^ 23 = 0 ∧ (0x1F3 : Nat) / 4 % 4 = 0 := by decide

/-- Both lanes name the search descriptor at address 0x40. -/
abbrev searching : State := withV2 two 4 0x40

theorem witness_SpecialRegisters_search : searching.issuing ∧ searching.issue.exec ≠ 0 ∧
    searching.searchPending = false ∧ searching.v2Ok 4 ∧
    (∀ l, l ∈ lanesOf two.issue.exec → two.srSource false 0 4 0x18 l = 0) ∧
    searching.loadReady none 64 (((searching.doers false).filter fun l => searching.srSource false 0 4 0x18 l != 0).map
      fun l => searching.tryGlobal .read 64 l (searching.srSource false 0 4 0x18 l)) := by
  decide +kernel

/-- A clause may wait for any of the twelve flags. -/
theorem witness_PacketControl :
    (∀ i, i < 12 → (0xFFF#12).getLsbD i → two.grp.flags.getD i 0 = 0) ∧ (11#4).toNat < 12 ∧
    (∃ i, i < 12 ∧ (0x800#12).getLsbD i ∧
      (two.onGrp fun g => { g with flags := g.flags.set 11 1 }).grp.flags.getD i 0 ≠ 0) :=
  ⟨by decide +kernel, by decide, 11, by decide +kernel⟩

theorem witness_SinglePrecision : two.issuing ∧ two.vOk 63 ∧ two.vOk 0 ∧ two.bOk 63 false ∧ two.bOk 127 true := by
  decide +kernel

theorem witness_QuietFloatWords : two.issuing ∧ two.vOk 63 ∧ two.vOk 0 ∧ two.bOk 63 false ∧ (4#3).toNat < 5 := by
  decide +kernel

theorem witness_ApproximateWords : two.issuing ∧ two.vOk 63 ∧ decF 0x7FC00001 = .nan ∧ decF 0xFF800000 = .inf true ∧
    decF 0xBF800000 = .num true 8388608 (-23) ∧ decF 0x40400000 = .num false 12582912 (-22) ∧
    12582912 ≠ 2 ^ Nat.log2 12582912 := by
  decide +kernel

theorem witness_DoublePrecision : two.issuing ∧ two.v2Ok 62 ∧ two.v2Ok 0 ∧ two.b2Ok 62 false ∧ two.b2Ok 127 true := by
  decide +kernel

theorem witness_PackedHalves : two.issuing ∧ two.vOk 63 ∧ two.vOk 0 ∧ two.bOk 63 false ∧ two.bOk 48 true := by
  decide +kernel

/-- Every format of a packed block fits. -/
theorem witness_Conversions : two.issuing ∧ two.v2Ok 62 ∧ two.vOk 63 ∧ two.packOk 2 0 63 false ∧ two.packOk 19 0 48 true := by
  decide +kernel

theorem witness_ReductionsAndScans : two.issuing ∧ (10#4).toNat < 11 ∧ two.vOk 63 ∧ two.vOk 0 := by
  decide +kernel

/-! ## Effects that the spec's examples give -/

/-- The word answers a next state of which `f` holds. -/
def gives (i : Instr) (s : State) (f : State → Bool) : Bool :=
  match exec i s with
  | .next t => f t
  | _ => false

/-- Both lanes at entry of the example of chapter 10; the special byte of k0 is `special`. -/
def packing (k0 : Word) : State :=
  let vs := [0x3F800000, 0xC0000000, 0x41C00000, 0x3E800000, 0x40A00000, 0x80000000, 0x40533333, 0x42C80000]
  let s := (List.range 8).foldl (fun s i => withV s (8 + i) fun _ => BitVec.ofNat 32 (vs.getD i 0)) two
  regs s fun rf => { rf with k := rf.k.set 0 k0 }

/-- R255: eight values packed to bq4, with the flags of and nx; and with special byte 0. -/
theorem test_cvtpk_example :
    gives (.cvtpk false false 18 0 8 0 true) (packing 0x5C38) (fun t => t.grp.rf.rv 8 1 == 0x850608C2 && t.issue.fpFlags == 0x140) ∧
    gives (.cvtpk false false 18 0 8 0 true) (packing 0x0038) (fun t => t.grp.rf.rv 8 0 == 0x758607C2) := by
  decide +kernel

/-- R256: the packed word expanded. -/
theorem test_cvtupk_example :
    gives (.cvtupk false false 18 8 0 true) (withV (packing 0x5C38) 8 fun _ => 0x850608C2) fun t =>
      (List.range 8).map (fun i => (t.grp.rf.rv (8 + i) 0).toNat) ==
        [0x3F800000, 0xC0000000, 0x41C00000, 0, 0x40800000, 0, 0x40400000, 0x41C00000] := by
  decide +kernel

/-- R220: the absolute value of the least number is itself. -/
theorem test_iabs_least : gives (.iabs false false 9 8) (withV two 8 fun _ => 0x80000000) fun t =>
    t.grp.rf.rv 9 0 == 0x80000000 && t.grp.rf.rv 9 2 == 0 := by
  decide +kernel

/-- R212: `faddi` of 1.3 adds its leading bits. -/
theorem test_faddi_example : gives (.faddi false false 3 0x3FA66) two fun t => t.grp.rf.rv 3 1 == 0x3FA66000 := by
  decide +kernel

/-- R319: the format word of `mfmt v8, #9, #9, #0, #1`. -/
theorem test_mfmt_example : gives (.mfmt false false 8 9 9 0 true) two fun t => t.grp.rf.rv 8 1 == 0x1129 := by
  decide +kernel

/-- R228: the forward branch of chapter 9 by 4, where p1 holds in lane 0 alone. -/
theorem test_bra_example : gives (.bra false false 1 false 4) (regs two fun rf => rf.setP 1 1 fun _ => true) fun t =>
    (t.grp.lane 0).vpc == 7 && t.issue.moved == 1 := by
  decide +kernel

/-- Both lanes address byte 0x200 through v4, byte 0x40 of the allocation through v5, and Pavilion byte 0x80 through v6. -/
abbrev addressing : State := withV (withV (withV two 4 fun l => BitVec.ofNat 32 (0x200 + 16 * l)) 5 fun _ => 0x40) 6 fun _ => 0x80

/-- The largest accesses, at the ends of the offsets. -/
theorem witness_Loads : addressing.issuing ∧ addressing.szOk 60 6 ∧ addressing.vOk 4 ∧ addressing.szOk 63 4 ∧
    addressing.loadReady (some false) 16 (addressing.globalTries false .read 16 4 ((-16 : Int) * 16)) ∧
    addressing.loadReady (some false) 16 (addressing.spadTries false 16 5 7 (3 * 16)) ∧
    addressing.loadReady (some false) 16 (addressing.pavTries false 16 6 (15 * 16)) ∧
    addressing.loadReady (some false) 4 (addressing.globalTries false .read 4 4 0) := by
  decide +kernel

/-- s8 names the bank's source at address 0x100, s9 is zero. -/
abbrev banked : State := withS two 8 0x100

theorem witness_ConstantBankLoad : banked.issuing ∧ banked.issue.exec ≠ 0 ∧ banked.issue.src.rs 8 ≠ 0 ∧
    banked.issue.src.rs 63 = 0 ∧ banked.loadReady (some false) 4
      ((List.range 48).map fun i => banked.tryGlobal .read 4 (lowest banked.issue.exec) (banked.issue.src.rs 8 + BitVec.ofNat 64 (4 * i))) ∧
    (withS banked 8 0x120).issue.src.rs 8 % 64 ≠ 0 ∧ (withS banked 8 0x120).grp.report = none ∧
    (withS banked 8 0x120).accessWait (some false) 4 [.fail (lowest banked.issue.exec) 0x120 .misaligned false] = none := by
  decide +kernel

theorem witness_Stores : addressing.issuing ∧ addressing.szOk 60 6 ∧ addressing.vOk 4 ∧
    addressing.storeReady false 16 (addressing.globalTries false .write 16 4 (15 * 16)) ∧
    addressing.storeReady false 16 (addressing.spadTries false 16 5 0 0) ∧
    addressing.storeReady false 16 (addressing.pavTries false 16 6 ((-1 : Int) * 16)) ∧
    addressing.settled 6 ∧
    addressing.storeReady false 8 (addressing.globalTries false .write 8 4 0) := by
  decide +kernel

/-- A store of lane 0 to the location of byte 0x200 that is not performed. -/
def pending : Flight :=
  { Flight.blank 0 (.store [(⟨0, 0x200, .phys 0x10200, true⟩, [1, 2, 3, 4])]) with slot := 0, mask := 1, sent := 1 }

/-- The core has this operation in flight. -/
def flying (s : State) (f : Flight) : State := { s.onCore fun c => { c with flight := [f] } with nextId := 9, issue := { s.issue with first := 9 } }

theorem witness_Stores_wait : (flying addressing pending).issuing ∧ (flying addressing pending).szOk 63 4 ∧
    (flying addressing pending).settled 6 = false := by
  decide +kernel

/-- An aligned access of a mapped page, one of an address beyond it, and one that is not aligned. -/
theorem witness_LaneAddresses : (∃ m, two.translate two.space two.tenant .write 0xFF8 = (.ok 0x10FF8 false 4096, m)) ∧
    (∃ m, two.translate two.space two.tenant .read 0x1000 = (.fail .notPresent, m)) ∧ (0xFFF : Nat) % 8 ≠ 0 :=
  ⟨⟨false, by decide +kernel⟩, ⟨false, by decide +kernel⟩, by decide⟩

theorem witness_Atomics : addressing.issuing ∧ addressing.vOk 63 ∧ addressing.v2Ok 62 ∧ addressing.vOk 4 ∧
    addressing.settled 6 ∧ addressing.v4Ok 60 ∧ addressing.vOk (62 + 1) ∧
    addressing.rmwReady (fun l => .add 8 (addressing.A2 62 l)) (addressing.atomicTries false true true 4) ∧
    addressing.rmwReady (fun l => .addF32 (addressing.A 63 l)) (addressing.atomicTries false false false 4) ∧
    addressing.rmwReady (fun l => .minmax 4 3 (addressing.A2 62 l)) (addressing.atomicTries false false false 4) ∧
    addressing.rmwReady (fun l => .logic 8 2 (addressing.A2 62 l)) (addressing.atomicTries true false true 4) ∧
    addressing.rmwReady (fun l => .xchg 4 (addressing.A2 62 l)) (addressing.atomicTries false true false 4) ∧
    addressing.rmwReady (fun l => .cas 8 (addressing.A2 60 l) (addressing.A2 62 l)) (addressing.atomicTries false true true 4) ∧
    ([1, 2, 3, 4] : List Byte).length = 4 := by
  decide +kernel

theorem witness_BankOperations : addressing.issuing ∧ addressing.vOk 6 ∧ addressing.v2Ok 62 ∧ addressing.v4Ok 60 ∧
    addressing.rmwReady (fun l => .add 8 (addressing.A2 62 l)) (addressing.pavTries false 8 6 0) ∧
    addressing.rmwReady (fun l => .addF32 (addressing.A 63 l)) (addressing.pavTries false 4 6 0) ∧
    addressing.rmwReady (fun l => .fx true (addressing.A2 62 l)) (addressing.pavTries false 32 6 0) ∧
    addressing.rmwReady (fun _ => .fxread true) (addressing.pavTries true 32 6 0) ∧
    addressing.rmwReady (fun l => .append 8 (addressing.A2 62 l)) (addressing.pavTries false 8 6 0) := by
  decide +kernel

/-- A load of lane 0 from byte 0x200 that has not returned. -/
abbrev loading : Flight := { pending with kind := .load (.reg 4 4 false) [⟨0, 0x200, .phys 0x10200, true⟩], performed := false }

/-- Nothing, a store or a load of its lane is in flight: the fence that passes at once, the one that waits, the one that holds
back what comes behind it, and the range that meets the operation or not. -/
theorem witness_FencesAndPrefetch : addressing.issuing ∧ addressing.settled 6 ∧ addressing.fullSettled ∧ addressing.unreturned = [] ∧
    (flying addressing pending).issuing ∧ (flying addressing pending).settled 6 = false ∧
    (flying addressing pending).fullSettled = false ∧ (flying addressing loading).unreturned ≠ [] ∧
    (flying addressing pending).settled 2 ∧ (flying addressing loading).settled 2 = false ∧
    (∃ f ∈ (flying (withS (withS addressing 8 0x203) 9 0x100) pending).cur.flight, f.inRange 0x203 0x100 ∧
      f ∈ (flying addressing pending).mine ∧ (f.mask &&& addressing.issue.exec) ≠ 0 ∧ f.open_) ∧
    pending.inRange 0x204 0x100 = false ∧
    addressing.vOk 4 ∧ addressing.issue.exec ≠ 0 ∧ addressing.flagFull (some false) = false ∧ (base 0).issue.exec = 0 ∧
    (base 0).issuing := by
  decide +kernel

/-- s4 to s7 hold source, destination window and count (or its shape), scalar and counter. -/
abbrev engine (a b c d : DWord) : State := withS (withS (withS (withS two 4 a) 5 b) 6 c) 7 d

theorem witness_EngineWords_axpy : let s := engine 0x200 (4 * 2 ^ 32 + 0x7FFFFF0) 0xFFFFFFFF 0
    s.issuing ∧ s.engineReady true ∧ s.vOk 63 ∧ (s.issue.src.rs 5).toNat / 2 ^ 32 ≤ 2 ^ 24 ∧
    (s.issue.src.rs 7).toNat % 16 = 0 ∧ inWindow ((s.issue.src.rs 5).setWidth 32) (4 * 4) ∧
    (s.issue.src.rs 6).toNat < 2 ^ 32 ∧ (s.issue.src.rs 4).toNat % 4 = 0 ∧ ((s.issue.src.rs 5).setWidth 32 : Word).toNat % 4 = 0 ∧
    (s.tryRange .read (s.issue.src.rs 4).toNat (4 * 4)).2 = [] := by
  decide +kernel

theorem witness_EngineWords_red : let s := engine 0x40 (2 ^ 24 * 2 ^ 32 + 0x7FFFFE0) 0 16
    s.issuing ∧ s.engineReady false ∧ s.vOk 63 ∧ (s.issue.src.rs 5).toNat / 2 ^ 32 ≤ 2 ^ 24 ∧
    inWindow ((s.issue.src.rs 4).setWidth 32) (4 * 16) ∧ inWindow ((s.issue.src.rs 5).setWidth 32) 32 ∧
    (s.issue.src.rs 4).toNat < 2 ^ 32 ∧ s.issue.src.rs 6 = 0 ∧ ((s.issue.src.rs 4).setWidth 32 : Word).toNat % 4 = 0 ∧
    ((s.issue.src.rs 5).setWidth 32 : Word).toNat % 32 = 0 := by
  decide +kernel

theorem witness_EngineWords_lanes : addressing.issuing ∧ addressing.engineReady false ∧ addressing.v2Ok 62 ∧
    addressing.vOk 63 ∧ (addressing.A2 62 0).toNat % 16 = 0 ∧
    (∀ t ∈ ((addressing.doers false).map fun l => addressing.tryGlobal .read 16 l (addressing.globalVa 4 0 l)) ++
      (addressing.doers true).map fun l => addressing.tryGlobal .write 16 l (addressing.globalVa 4 0 l), t.fault = none) := by
  decide +kernel

theorem witness_EngineWords_tile : let s := engine 0x200 (32 * 2 ^ 32 + 0x20) (2 * 2 ^ 16 + 16) 0
    let q := fun i => (s.issue.src.rs (4 + i)).toNat
    s.engineReady true ∧ s.vOk 63 ∧ q 2 < 2 ^ 32 ∧ 1 ≤ q 2 / 2 ^ 16 % 2 ^ 16 ∧ q 2 / 2 ^ 16 % 2 ^ 16 ≤ 4096 ∧
    16 ≤ q 2 % 2 ^ 16 ∧ q 2 % 2 ^ 16 % 16 = 0 ∧ q 0 % 16 = 0 ∧ q 1 / 2 ^ 32 % 16 = 0 ∧ q 1 % 2 ^ 32 % 16 = 0 ∧
    q 3 % 16 = 0 ∧ q 1 % 2 ^ 32 + 2 * 16 ≤ s.curTeam.spadSize ∧
    (∀ t ∈ (tileChunks (q 0) 32 0x20 2 16).map fun x =>
      s.tryGlobal .write 16 (lowest s.issue.exec) (BitVec.ofNat 64 x.1), t.fault = none) := by
  decide +kernel

/-- A group of 8 registers has an image of 0x1240 bytes: its second page is the frame at 0x11000, its third that at 0x12000. -/
abbrev imaging : State :=
  let s := ((base 1).poke 0x6008 8 0x1100F).poke 0x6010 8 0x1200F
  let f := fun rf : RegFile => { rf with v := rf.v.take 8 }
  let t := s.onGrp fun g => { g with rf := f g.rf }
  withS { t with issue := { t.issue with src := f t.issue.src } } 8 0x40

theorem witness_EngineWords_context : imaging.issuing ∧ imaging.engineReady true ∧ imaging.vOk 7 ∧
    (imaging.issue.src.rs 8).toNat % 64 = 0 ∧ imaging.owesAny = false ∧
    (imaging.tryRange .write 0x40 (imageHead + 128 * 8 + 192)).2 = [] ∧
    (imaging.imaged.image 0 0 true).length = imageHead + 128 * 8 + 192 := by
  decide +kernel

/-- The group of the small states. -/
abbrev grp0 (s : State) : Group := ((s.core 0).group 0).getD Group.blank

/-- A load of two lanes into v4, for the bytes at 0x10200 and 0x10204. -/
def loadingTwo (d : LoadDest) : Flight :=
  { pending with
    mask := 3
    sent := 2
    kind := .load d [⟨0, 0x200, .phys 0x10200, true⟩, ⟨1, 0x204, .phys 0x10204, true⟩] }

theorem witness_LoadReturns : let f := loadingTwo (.reg 63 4 false)
    let s := flying two f
    let ls := f.kind.accesses
    (s.core 0).op 0 = some f ∧ f.kind = .load (.reg 63 4 false) ls ∧ s.awaits 0 0 = false ∧ (s.core 0).blocked f = false ∧
    (s.core 0).scTurn f ∧ s.weak = [] ∧ f.errs = [] ∧ (∀ x ∈ s.loadCodes f, x.2 = 0) ∧ (∀ x ∈ ls, s.locBad x.loc 4 = false) ∧ (s.core 0).saved = [] ∧
    (s.core 0).group 0 = some (grp0 s) ∧ (grp0 s).team = f.team ∧ (grp0 s).shaped ∧ (grp0 s).phase = .running ∧
    (((s.core 0).team f.team).all (·.live != [])) ∧ 63 + (4 + 3) / 4 ≤ (grp0 s).rf.v.length ∧ 1 < ls.length ∧
    (ls.map (·.lane)).Nodup ∧ (∀ x ∈ ls, x.lane < 32 ∧ f.mask.getLsbD x.lane) ∧
    [(⟨0, 0x200, .phys 0x10200, true⟩ : LaneAccess)].length = 1 := by
  decide +kernel

/-- No core has a migration in flight. -/
def still (s : State) : Bool := s.cores.all fun c => c.flight.all fun f => match f.kind with
  | .migrate _ _ _ _ => false
  | _ => true

theorem unmoved_of {s : State} (h : still s = true) : s.unmoved := by
  intro c hc f hf e w d o hk
  have := List.all_eq_true.1 (List.all_eq_true.1 h c hc) f hf
  rw [hk] at this
  cases this

/-- A store at the edge of an uncorrectable word of 32 bytes, and one that covers it. -/
theorem witness_StoreReachesHome : let s := { flying two pending with bad := [0x10240] }
    s.unmoved ∧ (s.core 0).op 0 = some pending ∧ s.canPerform 0 pending ∧ s.beyond (.phys 0x10200) = none ∧
    backed (paLocal 0x10200) ∧ (∀ w ∈ s.bad, overlap 0x10200 4 w 32 → 0x10200 ≤ w ∧ w + 32 ≤ 0x10200 + 4) ∧
    (∀ w ∈ s.bad, overlap 0x10238 48 w 32 → 0x10238 ≤ w ∧ w + 32 ≤ 0x10238 + 48) := by
  exact ⟨unmoved_of (by decide +kernel), by decide +kernel⟩

/-- An addition of -1 and a bank append that wait for their home. -/
abbrev adding (r : Rmw) : Flight :=
  { pending with kind := .rmw [(⟨0, 0x200, .phys 0x10200, true⟩, r)] (some (63, 1)) [] }

theorem witness_AtomicReachesHome : let f := adding (.add 4 0xFFFFFFFF)
    let s := flying two f
    still s ∧ (s.core 0).op 0 = some f ∧ f.id = 0 ∧ f.errs = [] ∧ f.born ≤ s.clk ∧ s.canPerform 0 f ∧
    s.beyond (.phys 0x10200) = none ∧ s.homeCode (.phys 0x10200) 4 = 0 ∧
    (Rmw.add 4 0xFFFFFFFF).write (s.readPa 0x10200 4) ≠ none ∧
    (Rmw.cas 4 1 2).write (s.readPa 0x10200 4) = none ∧ (Rmw.cas 4 1 2).span = 4 ∧ s.weak = [] := by
  decide +kernel

/-- An append to a bucket whose count is 0, and one whose count has come to its end. -/
theorem witness_AtomicReachesHome_append : let f := adding (.append 4 7)
    let s := { flying two f with mem := (flying two f).mem.write 0x10204 [1] }
    (s.core 0).op 0 = some f ∧ s.canPerform 0 f ∧ s.homeCode (.phys 0x10200) (Rmw.append 4 7).span = 0 ∧ (s.core 0).holds = [] ∧
    (∃ q, s.slotOf 0x10200 4 0 = some q ∧ s.masksBad q 4 = false) ∧ s.slotOf 0x10200 4 0xFFFFFFFF = none := by
  refine ⟨by decide +kernel, by decide +kernel, by decide +kernel, by decide +kernel, ⟨_, rfl, by decide +kernel⟩, by decide +kernel⟩

/-- The operation performed, its flag counting it. -/
abbrev landed (f : Flight) : State := (flying two f).onGrp fun g => { g with flags := g.flags.set 11 1 }

/-- The conditions of `Owned`, to be decided. -/
theorem owned_of {s : State} {k : Nat} {f : Flight} {g : Group}
    (h : (s.core k).group f.slot = some g ∧ g.team = f.team ∧ g.shaped ∧ g.phase = .running ∧ g.tryUntil = none ∧
      (s.core k).saved = []) : Owned s k f g :=
  ⟨h.1, h.2.1, h.2.2.1, h.2.2.2.1, h.2.2.2.2.1, h.2.2.2.2.2⟩

theorem witness_StoreAcknowledged : let f := fun k => { pending with performed := true, flag := some 11, kind := k }
    let r := FlightKind.rmw [(⟨0, 0x200, .phys 0x10200, true⟩, .add 4 1)] (some (63, 1)) [(0, 5)]
    (∀ k ∈ [pending.kind, r, .flush], ((landed (f k)).core 0).op 0 = some (f k) ∧ (f k).errs = [] ∧ (f k).acq = false) ∧
    ∀ k ∈ [pending.kind, r, .flush], Owned (landed (f k)) 0 (f k) (grp0 (landed (f k))) := by
  refine ⟨by decide +kernel, fun k hk => owned_of ?_⟩
  revert k
  decide +kernel

/-- v4:v5 names the record at address 0x40 in both lanes, v6 quad 95. -/
abbrev spawning : State := withV (withV2 two 4 0x40) 6 fun _ => 95

theorem witness_TaskWords_spawn : let s := spawning
    s.issuing ∧ s.issue.exec ≠ 0 ∧ s.fresh ∧ s.cur.saved = [] ∧ s.grp.tryUntil = none ∧ s.grp.phase = .running ∧
    s.issue.core < 384 ∧ s.v2Ok 4 ∧
    s.bOk 6 false ∧ s.releaseWait true = none ∧ s.quads.length = 96 ∧
    (∀ q, q < 96 → s.quadOn q ∧ (s.quad q).waiting = [] ∧ (s.quad q).ringLen = 0 ∧ (s.quad q).chip.length ≤ 224) ∧
    s.roomWait 64 (s.spawnTries false true 4 6 false) = none ∧ s.weak = [] ∧
    (∀ t ∈ s.spawnTries false true 4 6 false, t.fault = none ∧ s.beyond t.access.loc = none ∧ s.homeCode t.access.loc 64 = 0) := by
  unfold State.fresh
  decide +kernel

theorem witness_TaskWords_done : two.issuing ∧ two.issue.exec ≠ 0 ∧ two.cur.team two.grp.team ≠ none ∧
    two.grp.partDone = false := by
  decide +kernel

/-- Lane 0 issues; v4:v5 names address 0x200, v6 holds `w`, and the bytes there are `b`. -/
abbrev one (b : List Byte) (w : Word) : State :=
  let s := withV (withV2 (base 1) 4 0x200) 6 fun _ => w
  { s with mem := s.mem.write 0x10200 b }

/-- A counter with count 1 and successor 0: a decrement brings it down to zero. -/
theorem witness_TaskWords_counter : let s := one [1] 0xFFFFFFFF
    Reaches s .write 0 16 (s.A2 4 0) 0x10200 ∧ s.plain 0x10200 8 ∧ s.unwatched 0 ∧
    s.issuing ∧ s.fresh ∧ s.vOk 63 ∧ s.v2Ok 4 ∧ s.bOk 6 false ∧ s.releaseWait false = none ∧ s.doers false = [0] ∧ s.cur.passes s.nextId 0x10200 8 = false ∧
    s.holdFor [(false, (s.A2 4 0).toNat, 8)] = none ∧
    (leNat (s.mem.bytes 0x10200 4) : Int) + (s.B 6 false 0).toInt = 0 ∧
    leNat (s.mem.bytes (0x10200 + 8) 8) = 0 := by
  unfold State.fresh State.unwatched
  refine ⟨reaches_of (by decide +kernel) rfl, plain_of (by decide +kernel), ?_⟩
  decide +kernel

/-- A work queue's descriptor: base 0x300, tail, head and the logarithm of its capacity. -/
abbrev queueAt (tail head : Nat) (lcap : Nat) : List Byte :=
  leBytes 8 0x300 ++ leBytes 8 tail ++ leBytes 8 head ++ leBytes 8 (lcap * 2 ^ 58)

theorem witness_WorkQueues_push : let s := one (queueAt 1 0 1) 7
    let w := WqDesc.of (s.mem.bytes 0x10200 32)
    Reaches s .write 0 32 (s.A2 4 0) 0x10200 ∧ Reaches s .write 0 8 (s.A2 4 0 + 8) 0x10208 ∧
    WritesTo s 0 8 (w.slot w.tail) 0x10308 ∧ s.plain 0x10208 8 ∧
    s.issuing ∧ s.doers true = [0] ∧ s.unwatched 0 ∧ s.v2Ok 4 ∧ w.ok ∧ s.vOk 63 ∧
    s.b2Ok 6 false ∧ s.releaseWait false = none ∧ s.B2 6 false 0 ≠ emptyItem ∧ (w.tail - w.head).toNat ≠ 2 ^ w.lcap ∧
    s.wordPa 0x10208 8 = w.tail.toNat ∧ s.cur.passes s.nextId 0x10208 8 = false ∧
    s.holdFor [(false, (s.A2 4 0).toNat + 8, 8)] = none := by
  unfold State.unwatched
  refine ⟨reaches_of (by decide +kernel) rfl, reaches_of (by decide +kernel) rfl, writesTo_of (by decide +kernel),
    plain_of (by decide +kernel), ?_⟩
  decide +kernel

theorem witness_WorkQueues_full : let s := one (queueAt 2 0 1) 7
    let w := WqDesc.of (s.mem.bytes 0x10200 32)
    Reaches s .write 0 32 (s.A2 4 0) 0x10200 ∧ w.ok ∧ (w.tail - w.head).toNat = 2 ^ w.lcap :=
  ⟨reaches_of (by decide +kernel) rfl, by decide +kernel⟩

/-- The window of lane 0 holds these items of the queue at 0x200. -/
abbrev windowed (items : List DWord) : State :=
  (one (queueAt 3 1 24) 0).onGrp fun g => g.modLane 0 fun t =>
    { t with win := { desc := some 0x200, items := items, first := 1, refill := false, waiting := none } }

theorem witness_WorkQueues_pop : let s := windowed [5, 6]
    let w := WqDesc.of (s.coreRead s.issue.core s.nextId (.phys 0x10200) 32)
    Reaches s .write 0 32 (s.A2 4 0) 0x10200 ∧ WritesTo s 0 8 (w.slot w.head) 0x10308 ∧
    WritesTo s 0 8 (w.slot (s.grp.lane 0).win.first) 0x10308 ∧ WritesTo s 0 8 (s.A2 4 0 + 16) 0x10210 ∧
    s.issuing ∧ s.doers false = [0] ∧ s.unwatched 0 ∧ s.v2Ok 4 ∧ w.ok ∧ s.v2Ok 62 ∧
    s.memWait (some false) = none ∧ s.overtakes (.phys 0x10200) 32 = false ∧ s.grp.popping s.nextId = 0 ∧
    (s.grp.lane 0).win.desc = some (s.A2 4 0) ∧ (s.grp.lane 0).win.items = 5 :: [6] ∧
    ((windowed []).grp.lane 0).win.items = [] ∧ ((windowed []).grp.lane 0).win.desc = some (s.A2 4 0) := by
  unfold State.unwatched
  refine ⟨reaches_of (by decide +kernel) rfl, writesTo_of (by decide +kernel), writesTo_of (by decide +kernel),
    writesTo_of (by decide +kernel), ?_⟩
  decide +kernel

/-- An arrival with the largest count at the last barrier of the core, at a pod barrier, and a token to wait with. -/
theorem witness_BarrierWords : let s := withS (withS two 8 (2 ^ 20)) 9 0
    let t := { s with barTenants := s.barTenants.set 7 0x8000,
                      fabric := { s.fabric with podroot := s.fabric.podroot.set 3 0x8000 } }
    s.issuing ∧ s.issue.exec ≠ 0 ∧ s.arriveOk 2 15 8 ∧ t.arriveOk 6 3 8 ∧ 15 < barCount 2 ∧
    (s.barrier s.issue.core 2 15).completions ≠ BitVec.ofNat 32 ((s.issue.src.rs 8).toNat % 2 ^ 32) ∧
    (s.barrier s.issue.core 2 15).completions = BitVec.ofNat 32 ((s.issue.src.rs 9).toNat % 2 ^ 32) := by
  decide +kernel

/-- The team's pool holds four blocks. -/
abbrev pooled : State := two.onCore (·.modTeam 0 fun t => { t with pool := 4 })

theorem witness_PoolsAndPark_pool : let s := pooled
    s.issuing ∧ s.issue.exec ≠ 0 ∧ s.cur.team s.grp.team = some s.curTeam ∧ s.curTeam.claims = [] ∧
    8 * 7 + 8 ≤ s.grp.rf.v.length ∧ s.pendingFrom (s.grp.rf.v.length - 8 * 7) = false ∧
    s.grp.rf.v.length + 8 * 8 ≤ 128 ∧ s.grp.phase = .running ∧ 4 ≤ s.curTeam.pool ∧ s.curTeam.pool < 5 := by
  decide +kernel

/-- The word at 0x200 is 9: it is what v6 of the second state expects, with lane 1 not parked. -/
theorem witness_PoolsAndPark_park : let s := one [9] 8
    let t := one [9] 9
    Reaches s .read 0 4 (s.A2 4 0) 0x10200 ∧ Reaches t .read 0 4 (t.A2 4 0) 0x10200 ∧
    s.issuing ∧ s.doers false = [0] ∧ s.memHeld = none ∧ s.unwatched 0 ∧ s.vOk 63 ∧ s.v2Ok 4 ∧ s.bOk 6 false ∧
    s.overtakes (.phys 0x10200) 4 = false ∧ t.overtakes (.phys 0x10200) 4 = false ∧
    leNat (s.coreRead s.issue.core s.nextId (.phys 0x10200) 4) ≠ (s.B 6 false 0).toNat ∧
    leNat (t.coreRead t.issue.core t.nextId (.phys 0x10200) 4) = (t.B 6 false 0).toNat ∧
    (∀ k, k < 32 → (s.grp.lane k).park = none) ∧ t.issue.exec.getLsbD 1 = false ∧ (t.grp.lane 1).park = none ∧
    (t.grp.lane 1).vpc ≠ 0xFFFFFFFF := by
  unfold State.unwatched
  refine ⟨reaches_of (by decide +kernel) rfl, reaches_of (by decide +kernel) rfl, ?_⟩
  decide +kernel

theorem witness_TrapsAndReturns : two.issuing ∧ two.issue.exec ≠ 0 ∧ two.grp.report = none ∧ two.vOk 63 ∧
    (∀ l, l ∈ lanesOf two.issue.exec → two.codeMalformed two.space two.tenant (two.A 63 l) = 0 ∧
      two.afterTarget (two.A 63 l) = (two, .ok (1, 0))) := by
  decide +kernel

/-- s4 to s7 describe a comparator or a hold window. -/
theorem witness_SystemWords : let s := engine 0x200 64 (2 ^ 63 + 0xFFFFF) 0
    s.issuing ∧ s.issue.exec ≠ 0 ∧ (1#2) ≠ 3 ∧ s.cur.regs.cctl.getLsbD (4 + 3) = false ∧
    s.unfinished = [] ∧ s.vOk 63 ∧ bits (s.issue.src.rs 6).toNat 62 20 = 0 ∧ s.v2Ok 62 ∧
    s.bOk 63 false ∧ (0x7FFF#15) ≠ 0 ∧ s.grp.flags.getD 11 0 = 0 ∧
    (s.onGrp fun g => { g with flags := g.flags.set 11 1 }).grp.flags.getD 11 0 ≠ 0 ∧ (0xFFF#12) ≠ 0 ∧ (0#12) = 0 := by
  decide +kernel

/-! Matrix and residency words -/

/-- A residency of one 8-bit block, named by handle 127: entry 63, generation 1. -/
def resident : ResEntry :=
  { ResEntry.reset with st := .ready, bfmt := 4, kblk := 1, nblk := 1, rows := 256, slots := 1 }

/-- A row-split one of 257 rows of which row 0 is cold. -/
def splitting : ResEntry :=
  { resident with
    split := true
    rows := 257
    rowMap := (List.range 256).map (· + 1)
    heat := List.replicate 257 0
    watched := [(0x100000, 257 * 96)] }

/-- Lanes 0 and 8 issue; s8 names the residency `e`, v0 holds the format word, and row 0 fires. -/
def multiplying (e : ResEntry) : State :=
  let s := withS (withV (base 0x101) 0 fun _ => 0x84) 8 127
  (s.onCore (·.modEntry 63 fun _ => e)).onGrp fun g => { g with fire := g.fire.set 0 1 }

/-- What the statement asks of an `mma` of mode `m`. -/
abbrev mmaReady (s : State) (m : BitVec 3) (t : BitVec 4) : Prop :=
  let d := s.issue.src.rs 8
  let e := s.cur.entry (descEntry d)
  let split := m == 1
  let bs := (lanesOf s.issue.exec).map fun l => (l, (s.blockOf 0 (logicalK e.bfmt e.sp) false l).getD [])
  let qs := ((List.range 4).map fun q => bs.filter (·.1 / 8 == q)).filter (· != [])
  let cost := (qs.map fun q => charge (q.map (·.2))).sum
  s.issuing ∧ s.issue.exec ≠ 0 ∧ m.toNat < 2 ∧ s.vOk 0 ∧ s.issue.core < s.cores.length ∧ s.cur.names d s.tenant ∧
    descReserved d = false ∧ descKblk d < e.kblk ∧ descNblk d < e.nblk ∧
    (split → t ≠ 15 ∧ e.split ∧ (s.firedCold e).length ≤ 256) ∧ e.fault true = none ∧
    (∀ q, q < 4 → s.quarterCause 0 false true e q = none) ∧ s.mmaWait e (descEntry d) t.toNat split cost = none ∧
    t.toNat < s.cur.tiles.length

theorem witness_MatrixMultiply : mmaReady (multiplying resident) 0 15 := by decide +kernel

theorem witness_MatrixMultiply_split : mmaReady (multiplying splitting) 1 14 ∧
    (multiplying splitting).firedCold splitting = [0] := by
  decide +kernel

/-- s4:s5 give the output at 0x200 with a pitch of 16 bytes; tile 15 has tagged the first column of quarter 0; v4 addresses
0x200 and v5 the scratchpad. -/
abbrev tagged : State := (withS (withS addressing 4 0x200) 5 16).onCore fun c =>
  c.modTile 15 fun t => { t with tags := [[some 1]] }

/-- The elements that lane `l` stores. -/
abbrev elems (l : Nat) : List (DWord × Word) :=
  tagged.taggedElems [15] (tagged.issue.src.rs 4).toNat ((tagged.issue.src.rs 5).toNat % 2 ^ 32) l

theorem tagged_elems : elems 0 = [(0x204, 0)] ∧ elems 1 = [(0x214, 0)] := by decide +kernel

theorem witness_AccumulatorWords : let s := tagged
    s.issuing ∧ s.issue.exec ≠ 0 ∧ s.tileWait 15 = none ∧ s.tileWait (14 + 1) = none ∧ 15 < s.cur.tiles.length ∧
    (s.issue.src.rs 4).toNat % 4 = 0 ∧ (s.issue.src.rs 5).toNat % 2 ^ 32 % 4 = 0 ∧ s.memWait (some true) = none ∧
    3 + accGroups 0 ≤ 4 ∧ 0 + accGroups 2 ≤ 4 ∧ s.vOk 4 := by
  decide +kernel

theorem witness_AccumulatorWords_rows : tagged.unwatched 0 ∧ tagged.unwatched 1 ∧
    WritesTo tagged 0 4 0x204 0x10204 ∧ WritesTo tagged 1 4 0x214 0x10214 ∧
    tagged.crowdedBy ((lanesOf tagged.issue.exec).flatMap fun l =>
      (elems l).map fun x => ((tagged.tryGlobal .write 4 l x.1).access.loc, 4)) = false := by
  refine ⟨.inr (by decide +kernel), .inr (by decide +kernel), writesTo_of (by decide +kernel), writesTo_of (by decide +kernel), ?_⟩
  decide +kernel

/-- The accesses of the two smallest and the largest forms: 256 bytes a lane in the scratchpad, 1024 in memory. -/
theorem witness_AccumulatorWords_access : let s := base 1
    s.loadReady (some true) 256 (s.accTries true .read 5 256) ∧
    s.loadReady (some false) 1024 (s.accTries false .read 4 1024) ∧
    s.storeReady true 256 (s.accTries true .write 5 256) ∧
    s.storeReady false 1024 (s.accTries false .write 4 1024) := by
  decide +kernel

/-- s8 is a request for one block of format 4. -/
abbrev requesting (quota : DWord) (res : ResEntry) (n : Nat) : State :=
  (withS two 8 (4 * 2 ^ 46 + 2 ^ 22 + 2 ^ 16)).onCore fun c => { c with
    regs := { c.regs with quota := [quota] }
    res := (List.replicate n res) ++ List.replicate (64 - n) ResEntry.reset }

theorem witness_ResidencyTable_alloc : let s := requesting 0x8040 ResEntry.reset 0
    let want := allocEntry (s.issue.src.rs 8) s.tenant 0
    s.issuing ∧ s.issue.exec ≠ 0 ∧ descReserved (s.issue.src.rs 8) = false ∧ 62 % 2 = 0 ∧ want.illegal = false ∧
    s.cur.slotsOf s.tenant + want.slots ≤ s.cur.quota s.tenant ∧ s.cur.slotsHeld + want.slots ≤ 64 ∧
    s.cur.res.findIdx (·.st == .free) < s.cur.res.length ∧ s.cur.rowsHeld + want.rows ≤ 32768 := by
  decide +kernel

/-- No quota; every slot held; every row held. -/
theorem witness_ResidencyTable_full : let a := requesting 0x8000 ResEntry.reset 0
    let b := requesting 0x8040 { resident with tenant := 1 } 64
    let c := requesting 0x8040 { resident with tenant := 1, slots := 0, rows := 4096, split := true } 8
    let want := fun s : State => allocEntry (s.issue.src.rs 8) s.tenant 0
    ¬ a.cur.slotsOf a.tenant + (want a).slots ≤ a.cur.quota a.tenant ∧
    b.cur.slotsOf b.tenant + (want b).slots ≤ b.cur.quota b.tenant ∧ ¬ b.cur.slotsHeld + (want b).slots ≤ 64 ∧
    c.cur.slotsOf c.tenant + (want c).slots ≤ c.cur.quota c.tenant ∧ c.cur.slotsHeld + (want c).slots ≤ 64 ∧
    c.cur.res.findIdx (·.st == .free) < c.cur.res.length ∧ ¬ c.cur.rowsHeld + (want c).rows ≤ 32768 := by
  decide +kernel

theorem witness_ResidencyTable_entry : let s := multiplying resident
    let h := s.issue.src.rs 8
    s.issuing ∧ s.issue.exec ≠ 0 ∧ descReserved h = false ∧ s.cur.names h s.tenant ∧ s.cur.loads (descEntry h) = [] ∧
    s.cur.migrations (descEntry h) = [] ∧ s.cur.product (descEntry h) = false ∧ s.vOk 63 ∧
    (∀ l, l ∈ s.doers false → (s.A 0 l).toNat % 4096 < (s.cur.entry (descEntry h)).rows) := by
  decide +kernel

/-- A large page maps address 0x200000; s8 to s11 describe a load of the residency from there. -/
def loadingTable (e : ResEntry) (f : RegFile → RegFile) : State :=
  (regs ((base 1).poke 0x5008 8 0x20020F) fun rf =>
    f ((((rf.setS 8 127).setS 9 0x200000).setS 10 (BitVec.ofNat 64 e.sourceLen)).setS 11 0)).onCore
      (·.modEntry 63 fun _ => e)

theorem witness_ResidencyTransfers_load : let s := loadingTable resident id
    let r := fun i => s.issue.src.rs (8 + i)
    let ent := descEntry (r 0)
    let e := s.cur.entry ent
    s.issuing ∧ s.issue.exec ≠ 0 ∧ s.vOk 63 ∧ s.memWait (some true) = none ∧ descReserved (r 0) = false ∧
    s.cur.names (r 0) s.tenant ∧ ent < s.cur.res.length ∧ (r 2).toNat = e.sourceLen ∧ (r 1).toNat % 128 = 0 ∧
    (r 3).toNat % 16 = 0 ∧ (s.sourceTries e (r 1) e.sourceLen).2 = [] ∧
    s.cur.writesTo (s.sourceTries e (r 1) e.sourceLen).1 = false ∧ (∀ x ∈ e.ahead, x.1 ≠ s.nextId) := by
  decide +kernel

/-- Lane 0 swaps the cold row 0 with the hot row 256. -/
theorem witness_ResidencyTransfers_migrate : let s := loadingTable splitting (·.setV 6 1 fun _ => 0x01000000)
    let ent := descEntry (s.issue.src.rs 8)
    let e := s.cur.entry ent
    s.issuing ∧ s.fresh ∧ s.vOk 6 ∧ s.memWait (some true) = none ∧ descReserved (s.issue.src.rs 8) = false ∧
    ent < s.cur.res.length ∧ s.cur.names (s.issue.src.rs 8) s.tenant ∧ e.st = .ready ∧ e.stale = false ∧
    e.freeing = false ∧ e.split ∧
    e.swapsBad ((s.doers true).map fun l => ((s.A 6 l).toNat % 2 ^ 16, (s.A 6 l).toNat / 2 ^ 16)) = false ∧
    s.cur.writesTo e.watched = false ∧ s.cur.migrations ent = [] := by
  unfold State.fresh
  decide +kernel

/-! Term words -/

/-- A read that passes and what it reads, on a core without operations in flight. -/
theorem reads_of {s : State} {l n : Nat} {va : DWord} {w pa : Nat}
    (h : ((s.tryGlobal .read n l va).fault = none ∧ (s.tryGlobal .read n l va).access.loc = .phys pa ∧
      s.roomWait n [s.tryGlobal .read n l va] = none ∧ s.homeCode (.phys pa) n = 0 ∧ s.beyond (.phys pa) = none ∧
      s.overtakes (.phys pa) n = false) ∧ leNat (s.coreRead s.issue.core s.nextId (.phys pa) n) = w)
    (q : s.cur.flight = [] ∧ s.weak = []) : Reads s l n va w :=
  ⟨pa, readsAt_of h.1 q, h.2⟩

/-- Lane 0 issues: its descriptor lies at 0x40, its binding table of 16 entries at 0x300 (variable 0 unbound, variable 1 bound
to the constant 5), its heap at 0x400 (a structure of arity 2, then a list), its stack at 0x800; pair 2 holds `a` and
pair 3 holds `b`. -/
def solving (a b : DWord) (f : LaneState → LaneState) : State :=
  let s := withV2 (withV2 (base 1) 4 a) 6 b
  let lane := fun t : LaneState => { t with
    sd := 0x40
    bt := 0x1000000000000300
    vc := 2
    hbase := 0x400
    hlen := 1
    hp := 0x480
    floor := 0x400
    cbase := 0x800
    clen := 1
    tp := 0xC00 }
  let s := s.onGrp (·.modLane 0 fun t => f (lane t))
  let m := (s.mem.write 0x10300 (leBytes 8 emptyWord.toNat)).write 0x10308 (leBytes 8 0x1000000000000005)
  { s with mem := m.write 0x10400 (leBytes 8 0x6000000000000002), issue := { s.issue with lanes := s.grp.lanes } }

theorem solving_ready : (solving 0 0 id).issuing ∧ (solving 0 0 id).termReady false 0 ∧ (solving 0 0 id).termReady true 0 := by
  unfold State.termReady State.unwatched State.alone
  decide +kernel

theorem solving_owns : (solving 0 0 id).owns 0 :=
  ⟨by decide +kernel, 0, reads_of (pa := 0x10044) (by decide +kernel) (by decide +kernel), by decide⟩

/-- Variable 1 stands for the constant 5, variable 0 for itself. -/
theorem witness_TermBuilding_deref : Derefs (solving 0x4000000000000001 0 id) 0 4096 0x4000000000000001 0x1000000000000005 ∧
    Derefs (solving 0x4000000000000000 0 id) 0 4096 0x4000000000000000 0x4000000000000000 :=
  ⟨.bound (e := 0x308) (v := 0x1000000000000005) ⟨by decide, by decide⟩ (by decide)
      ⟨by decide +kernel, by decide +kernel, by decide +kernel⟩
      (reads_of (pa := 0x10308) (by decide +kernel) (by decide +kernel)) (by decide)
      (.value ⟨by decide, by decide⟩ (by decide) (by decide)),
   .unbound (w := 0x4000000000000000) (e := 0x300) (v := emptyWord) ⟨by decide, by decide⟩ (by decide)
      ⟨by decide +kernel, by decide +kernel, by decide +kernel⟩
      (reads_of (pa := 0x10300) (by decide +kernel) (by decide +kernel)) (by decide)⟩

theorem witness_TermBuilding : let s := solving 0x700000000FFFFFFF 0 id
    s.issuing ∧ s.issue.asked = false ∧ s.pairOk 31 ∧ s.pairOk 2 ∧ (∀ l, l ∈ s.doers false → MetOk (s.pair 2 l)) ∧
    s.searchPending = false ∧ s.memHeld = none ∧ s.b2Ok 62 false ∧ (8#6) ≠ 6 ∧ (8#6).toNat < 9 ∧
    (∀ l, l ∈ s.doers false → (s.issue.lane l).sd ≠ 0 ∧
      MetOk (BitVec.ofNat 64 (7 * 2 ^ 60 + (s.B2 62 false l).toNat % 2 ^ 60))) := by
  unfold MetOk
  decide +kernel

/-- The last entry of the table and what it holds. -/
theorem witness_TermBuilding_load : let s := solving 15 0 id
    s.bOk 4 false ∧ (s.issue.lane 0).entryAt (s.B 4 false 0).toNat 0x378 ∧ Reads s 0 8 0x378 (0#64).toNat :=
  ⟨by decide +kernel, ⟨by decide +kernel, by decide +kernel, by decide +kernel⟩,
    reads_of (pa := 0x10378) (by decide +kernel) (by decide +kernel)⟩

/-- The second argument of the structure at 0x400, and the tail of the list at 0x420. -/
theorem witness_TermBuilding_argument : let s := solving 0x2000000000000400 1 id
    let v : DWord := 0x2000000000000400
    let f : DWord := 0x6000000000000002
    s.pair 2 0 = v ∧ Derefs s 0 4096 v v ∧ payload v / 2 ^ 56 = 0 ∧ payload v % 8 = 0 ∧ tagOf v = 2 ∧
    Reads s 0 8 (BitVec.ofNat 64 (payload v)) f.toNat ∧ tagOf f = 6 ∧ (s.B 6 false 0).toNat < arity f ∧
    Reads s 0 8 (BitVec.ofNat 64 (payload v) + BitVec.ofNat 64 (8 + 8 * (s.B 6 false 0).toNat)) (0#64).toNat ∧ MetOk 0 ∧
    (let w : DWord := 0x3000000000000420
     tagOf w = 3 ∧ (s.B 6 false 0).toNat < 2 ∧ Derefs s 0 4096 w w ∧
     Reads s 0 8 (BitVec.ofNat 64 (payload w) + BitVec.ofNat 64 (8 * (s.B 6 false 0).toNat)) (0#64).toNat) :=
  ⟨by decide +kernel, .value ⟨by decide, by decide⟩ (by decide) (by decide), by decide, by decide, by decide,
    reads_of (pa := 0x10400) (by decide +kernel) (by decide +kernel), by decide, by decide +kernel,
    reads_of (pa := 0x10410) (by decide +kernel) (by decide +kernel), ⟨by decide, by decide⟩, by decide, by decide +kernel,
    .value ⟨by decide, by decide⟩ (by decide) (by decide), reads_of (pa := 0x10428) (by decide +kernel) (by decide +kernel)⟩

/-- Structures of arity 0 and 2 and a list fit in the heap; so does the next variable in the table. -/
theorem witness_TermBuilding_make : let s := solving 0x1000000000000001 2 id
    let h := (s.issue.lane 0).hp
    s.pairOk 3 ∧ s.b2Ok 6 false ∧ arity (termWord 6 (s.B2 6 false 0).toNat) = 2 ∧ 2 + 2 ≤ 64 ∧ s.pairOk (2 + 2 - 1) ∧
    arity (termWord 6 (s.B2 62 false 0).toNat) = 0 ∧
    MetOk (s.pair 2 0) ∧ MetOk (s.pair 3 0) ∧
    h.toNat + 8 * 3 ≤ (s.issue.lane 0).hbase.toNat + (s.issue.lane 0).hlen.toNat * 65536 ∧
    (∀ i, i < 3 → ∃ pa, WritesTo s 0 8 (h + BitVec.ofNat 64 (8 * i)) pa) ∧
    (s.issue.lane 0).entryAt (s.issue.lane 0).vc.toNat 0x310 ∧ WritesTo s 0 8 0x310 0x10310 := by
  refine ⟨by decide +kernel, by decide +kernel, by decide +kernel, by decide, by decide +kernel, by decide +kernel,
    (by unfold MetOk; decide +kernel), (by unfold MetOk; decide +kernel), by decide +kernel, fun i hi => ⟨0x10480 + 8 * i, ?_⟩,
    ⟨by decide +kernel, by decide +kernel, by decide +kernel⟩, writesTo_of (by decide +kernel)⟩
  match i, hi with
  | 0, _ => exact writesTo_of (by decide +kernel)
  | 1, _ => exact writesTo_of (by decide +kernel)
  | 2, _ => exact writesTo_of (by decide +kernel)

/-- Variable 0 is bound to a constant: no choice point, one that is younger than it, one that is older. -/
theorem witness_UnificationAndBinding : let s := solving 0x4000000000000000 0x1000000000000005 id
    Derefs s 0 4096 (s.pair 2 0) 0x4000000000000000 ∧ tagOf 0x4000000000000000 = 4 ∧ s.pairOk 2 ∧ s.b2Ok 6 false ∧
    (s.issue.lane 0).entryAt (varOf 0x4000000000000000) 0x300 ∧ WritesTo s 0 8 0x300 0x10300 ∧
    s.B2 6 false 0 = 0x1000000000000005 ∧ MetOk 0x1000000000000005 ∧ (s.issue.lane 0).cp = 0 ∧
    Derefs s 0 4096 (s.B2 6 false 0) 0x1000000000000005 ∧ tagOf 0x1000000000000005 ≠ 4 := by
  have h : (solving 0x4000000000000000 0x1000000000000005 id).pair 2 0 = 0x4000000000000000 := by decide +kernel
  have k : (solving 0x4000000000000000 0x1000000000000005 id).B2 6 false 0 = 0x1000000000000005 := by decide +kernel
  refine ⟨h ▸ .unbound (w := 0x4000000000000000) (e := 0x300) (v := emptyWord) ⟨by decide, by decide⟩ (by decide)
      ⟨by decide +kernel, by decide +kernel, by decide +kernel⟩
      (reads_of (pa := 0x10300) (by decide +kernel) (by decide +kernel)) (by decide), by decide, by decide +kernel, by decide +kernel,
    ⟨by decide +kernel, by decide +kernel, by decide +kernel⟩, writesTo_of (by decide +kernel), k, ⟨by decide, by decide⟩,
    by decide +kernel, k ▸ .value ⟨by decide, by decide⟩ (by decide) (by decide), by decide⟩

/-- The choice point at 0x800 was made before variable 0 was (its mark is 0), or after it (its mark is 1). -/
abbrev choosing (mark : Nat) : State :=
  let s := solving 0x4000000000000000 0x1000000000000005 fun t => { t with cp := 0x800 }
  let record := leBytes 4 7 ++ leBytes 4 0 ++ leBytes 8 0xC00 ++ leBytes 8 0x400 ++ leBytes 8 mark ++ leBytes 8 0x840
  { s with mem := s.mem.write 0x10800 record }

theorem witness_UnificationAndBinding_marks : let s := choosing 1
    let t := s.issue.lane 0
    t.cp ≠ 0 ∧ Reads s 0 4 (t.cp + 0x18) 1 ∧ varOf 0x4000000000000000 < 1 ∧ Reads (choosing 0) 0 4 (t.cp + 0x18) 0 ∧
    Reads s 0 4 (t.cp + 4) 0 ∧ t.cp.toNat + 40 + 8 * bits 0 12 8 + 8 ≤ t.tp.toNat ∧ WritesTo s 0 8 (t.tp - 8) 0x10BF8 :=
  ⟨by decide +kernel, reads_of (pa := 0x10818) (by decide +kernel) (by decide +kernel), by decide,
    reads_of (pa := 0x10818) (by decide +kernel) (by decide +kernel),
    reads_of (pa := 0x10804) (by decide +kernel) (by decide +kernel), by decide +kernel,
    writesTo_of (by decide +kernel)⟩

/-- Two constants, equal or not. -/
theorem witness_UnificationAndBinding_constants : tagOf 0x1000000000000005 ≠ 4 ∧ tagOf 0x1000000000000005 < 2 ∧
    (0x1000000000000005#64) ≠ 0x1000000000000004 := by
  decide

theorem witness_ChoicePoints : let s := choosing 0
    let t := s.issue.lane 0
    (0#6).toNat ≤ 16 ∧ s.pairOk (16 - 1) ∧ s.bOk 6 false ∧ Reads s 0 4 (t.cp + 4) 0 ∧
    0x828 = t.cp.toNat + 40 + 8 * bits 0 12 8 ∧ 0x828 + 40 + 8 * 16 ≤ t.tp.toNat ∧
    WritesTo s 0 8 (BitVec.ofNat 64 0x828 + BitVec.ofNat 64 (8 * 20)) 0x108C8 ∧ WritesTo s 0 4 t.cp 0x10800 ∧
    WritesTo s 0 4 (t.cp + 4) 0x10804 ∧ bit 0 1 = false ∧ Reads s 0 8 (t.cp + 0x20) (0x840#64).toNat ∧ t.clen.toNat ≠ 0 ∧
    (0x840#64) ≠ 0 ∧ s.v2Ok 6 ∧ ((solving 0 0 id).issue.lane 0).cp = 0 ∧
    0x800 = ((solving 0 0 id).issue.lane 0).cbase.toNat :=
  ⟨by decide, by decide +kernel, by decide +kernel, reads_of (pa := 0x10804) (by decide +kernel) (by decide +kernel),
    by decide +kernel, by decide +kernel, writesTo_of (by decide +kernel), writesTo_of (by decide +kernel),
    writesTo_of (by decide +kernel), by decide, reads_of (pa := 0x10820) (by decide +kernel) (by decide +kernel),
    by decide +kernel, by decide, by decide +kernel, by decide +kernel, by decide +kernel⟩

/-- `cut` to the record before the top one, which s8 names, and to no record, which s0 names. -/
theorem witness_ChoicePoints_cut : let s := withS (choosing 0) 8 0x840
    s.B2 72 true 0 = 0x840 ∧ s.B2 64 true 0 = 0 ∧ 64 ≤ (72#7).toNat ∧ 64 ≤ (64#7).toNat ∧ (s.issue.lane 0).cp = 0x800 := by
  decide +kernel

theorem witness_ChoicePoints_fail : let s := choosing 0
    let t := s.issue.lane 0
    Reads s 0 8 (t.cp + 8) t.tp.toNat ∧ Reads s 0 8 (t.cp + 0x10) (0x400#64).toNat ∧ Reads s 0 4 (t.cp + 0x18) 0 ∧
    bits 0 12 8 = 0 ∧ WritesTo s 0 4 (t.cp + 4) 0x10804 ∧ ReadsAt s 0 4 t.cp 0x10800 ∧
    leNat (s.coreRead s.issue.core s.nextId (.phys 0x10800) 4) = 7 ∧ overlap 0x10800 4 0x10804 4 = false :=
  ⟨reads_of (pa := 0x10808) (by decide +kernel) (by decide +kernel),
    reads_of (pa := 0x10810) (by decide +kernel) (by decide +kernel),
    reads_of (pa := 0x10818) (by decide +kernel) (by decide +kernel), by decide, writesTo_of (by decide +kernel),
    readsAt_of (by decide +kernel) (by decide +kernel), by decide +kernel, by decide⟩

/-- Every aligned word of `len` bytes from an address on can be read and written there. -/
theorem spot_of {s : State} {l len : Nat} {va : DWord} {pa : Nat} (q : s.cur.flight = [] ∧ s.weak = [])
    (h : ∀ o, o < len → ∀ n ∈ [4, 8], o % n = 0 → o + n ≤ len →
      let a := va + BitVec.ofNat 64 o
      ((s.tryGlobal .read n l a).fault = none ∧ (s.tryGlobal .read n l a).access.loc = .phys (pa + o) ∧
        s.roomWait n [s.tryGlobal .read n l a] = none ∧ s.homeCode (.phys (pa + o)) n = 0 ∧
        s.beyond (.phys (pa + o)) = none ∧ s.overtakes (.phys (pa + o)) n = false) ∧
      (s.tryGlobal .write n l a).fault = none ∧ (s.tryGlobal .write n l a).access.loc = .phys (pa + o) ∧
        s.roomWait n [s.tryGlobal .write n l a] = none) :
    ∀ o n, (n = 4 ∨ n = 8) → o % n = 0 → o + n ≤ len →
      ReadsAt s l n (va + BitVec.ofNat 64 o) (pa + o) ∧ WritesTo s l n (va + BitVec.ofNat 64 o) (pa + o) := by
  intro o n hn ho hl
  have := h o (by omega) n (by simp; exact hn) ho hl
  exact ⟨readsAt_of this.1 q, writesTo_of this.2⟩

/-- At 0x80 another lane's descriptor stands, open where `open_` is 1, with one choice point at 0x900; s63 is 0x20. -/
abbrev publishing (open_ : Nat) : State :=
  let s := withS (solving 0x80 0 id) 63 0x20
  { s with mem := s.mem.write 0x10080 (leBytes 4 0 ++ leBytes 4 open_ ++ leBytes 8 0x900 ++ leBytes 12 0 ++ leBytes 4 0x10001) }

theorem publishing_spot (o va pa len : Nat) (h : (o, va, pa, len) ∈
      [(0, 0x40, 0x10040, 64), (0, 0x20, 0x10020, 4), (0, 0x80, 0x10080, 64), (1, 0x80, 0x10080, 64), (1, 0x900, 0x10900, 40),
        (1, 0x800, 0x10800, 40)]) :
    ∀ i n, (n = 4 ∨ n = 8) → i % n = 0 → i + n ≤ len →
      ReadsAt (publishing o) 0 n (BitVec.ofNat 64 va + BitVec.ofNat 64 i) (pa + i) ∧
      WritesTo (publishing o) 0 n (BitVec.ofNat 64 va + BitVec.ofNat 64 i) (pa + i) := by
  simp only [List.mem_cons, Prod.mk.injEq, List.not_mem_nil, or_false] at h
  rcases h with h | h | h | h | h | h <;> obtain ⟨rfl, rfl, rfl, rfl⟩ := h <;>
    exact spot_of (by decide +kernel) (by decide +kernel)

theorem witness_PublicationAndAdoption : let s := publishing 1
    let word := fun pa n => leNat (s.mem.bytes pa n)
    s.issuing ∧ s.termReady false 0 ∧ s.cur.flight = [] ∧ s.cur.holds = [] ∧ (s.issue.lane 0).sd ≠ 0 ∧
    word 0x10040 4 = 0 ∧ overlap 0x10020 4 0x10040 64 = false ∧ s.pairOk 2 ∧ (s.issue.lane 0).cp = 0 ∧
    s.pair 2 0 ≠ (s.issue.lane 0).sd ∧ (s.pair 2 0).toNat % 64 = 0 ∧ word 0x10080 4 = 0 ∧
    word 0x10084 4 % 2 = 1 ∧ word 0x1009E 2 ≠ 0 ∧ word 0x1009C 2 ≠ 0 ∧ word 0x10088 8 = 0x900 ∧
    bits (word 0x10904 4) 2 1 = 0 ∧ bits (word 0x10904 4) 12 8 = 0 ∧ word 0x10918 4 = 0 ∧ word 0x10920 8 = 0 ∧
    word 0x10908 8 = word 0x10090 8 ∧ 40 ≤ (s.issue.lane 0).clen.toNat * 4096 ∧ (s.issue.lane 0).cbase = 0x800 ∧
    overlap 0x10900 40 0x10080 64 = false ∧ overlap 0x10800 40 0x10080 64 = false ∧
    overlap 0x10800 40 0x10900 40 = false ∧ leNat ((publishing 0).mem.bytes 0x10084 4) % 2 = 0 := by
  unfold State.termReady State.unwatched State.alone
  decide +kernel

theorem witness_PublicationAndAdoption_plain (pa n : Nat) (h : (pa, n) ∈
    [(0x10040, 64), (0x10020, 4), (0x10080, 64), (0x10900, 40), (0x10800, 40)]) : (publishing 1).plain pa n := by
  simp only [List.mem_cons, Prod.mk.injEq, List.not_mem_nil, or_false] at h
  rcases h with h | h | h | h | h <;> obtain ⟨rfl, rfl⟩ := h <;> exact plain_of (by decide +kernel)

/-- s63 names the work-available word. -/
theorem witness_PublicationAndAdoption_word : (publishing 0).B2 127 true 0 = 0x20 ∧ 64 ≤ (127#7).toNat := by decide +kernel

/-! Operations in flight -/

/-- An operation of this kind for both lanes, in flight for the small states' group. -/
def operation (k : FlightKind) : Flight := { pending with mask := 3, kind := k }

/-- The conditions of `Runs`, to be decided. -/
theorem runs_of {s : State} {k : Nat} {f : Flight}
    (h : k < 384 ∧ f.stage = 0 ∧ (s.core k).engineReady f ∧ f.held = none ∧ f.errs = [] ∧ s.unanswered k f.id = false ∧
      s.issue.asked = false) : Runs s k f :=
  ⟨h.1, h.2.1, h.2.2.1, h.2.2.2.1, h.2.2.2.2.1, h.2.2.2.2.2.1, h.2.2.2.2.2.2⟩

/-- What the statements of operations in flight ask of the operation and its core: what `Owned` and `Runs` ask. -/
abbrev engineDone (s : State) (f : Flight) : Prop :=
  (s.core 0).op f.id = some f ∧ ((s.core 0).group f.slot = some (grp0 s) ∧ (grp0 s).team = f.team ∧ (grp0 s).shaped ∧
    (grp0 s).phase = .running ∧ (grp0 s).tryUntil = none ∧ (s.core 0).saved = []) ∧
  (f.stage = 0 ∧ (s.core 0).engineReady f ∧ f.held = none ∧ f.errs = [] ∧ s.unanswered 0 f.id = false ∧
    s.issue.asked = false) ∧ 63 < (grp0 s).rf.v.length

theorem owned_done {s : State} {f : Flight} (h : engineDone s f) : Owned s 0 f (grp0 s) ∧ Runs s 0 f :=
  ⟨owned_of h.2.1, runs_of ⟨by decide, h.2.2.1⟩⟩

theorem witness_EngineCompletions_copy : let f := operation (.copy [(.phys 0x10400, .phys 0x10200, 16)] [] (some 63) 0 none)
    let s := flying two f
    engineDone s f ∧ s.homeCode (.phys 0x10400) 16 = 0 ∧ backed (paLocal 0x10200) ∧ s.weak = [] ∧
    s.near 0x10400 16 ∧ s.near 0x10200 16 ∧ s.plain 0x10200 16 := by
  refine ⟨by decide +kernel, by decide +kernel, by decide +kernel, rfl, near_of (by decide +kernel), near_of (by decide +kernel), ?_⟩
  exact plain_of (by decide +kernel)

theorem witness_EngineCompletions_axpy :
    let f := operation (.axpy 1 0x3F803F80 [(0x10200, 4 * 2)] 0x8000000010000 2 63 0)
    let s := flying two f
    engineDone s f ∧ s.near 0x10200 (4 * 2) ∧ s.plain 0x8000000010000 (4 * 2) ∧
    ∀ i, i < 2 → s.homeCode (.phys (0x10200 + 4 * i)) 4 = 0 ∧ s.homeCode (.phys (0x8000000010000 + 4 * i)) 4 = 0 := by
  refine ⟨by decide +kernel, near_of (by decide +kernel), ?_, by decide +kernel⟩
  exact plain_of (by decide +kernel)

theorem witness_EngineCompletions_red : let f := operation (.red 0 0x80000000000 3 0x80000000100 63 0)
    let s := flying two f
    engineDone s f ∧ s.near 0x80000000000 (4 * 3) ∧ s.plain 0x80000000100 32 ∧
    s.homeCode (.phys 0x80000000100) 32 = 0 ∧ ∀ i, i < 3 → s.homeCode (.phys (0x80000000000 + 4 * i)) 4 = 0 := by
  refine ⟨by decide +kernel, near_of (by decide +kernel), ?_, by decide +kernel⟩
  exact plain_of (by decide +kernel)

theorem witness_EngineCompletions_image : let f := operation (.image [(0x10200, 4)] [1, 2, 3, 4] 63)
    let s := flying two f
    engineDone s f ∧ s.near 0x10200 4 ∧ s.plain 0x10200 4 ∧ backed (paLocal 0x10200) := by
  refine ⟨by decide +kernel, near_of (by decide +kernel), ?_, by decide +kernel⟩
  exact plain_of (by decide +kernel)

/-- A core with a residency at entry 63 and one operation in flight. -/
abbrev holding (e : ResEntry) (f : Flight) : State := flying (two.onCore (·.modEntry 63 fun _ => e)) f

/-- A row of the source lies in the package and can be read. -/
def readable (s : State) (f : Flight) (ps : List (Nat × Nat)) (row : Nat) : Bool :=
  let e := (s.core 0).entry 63
  s.weak == [] && !s.sourceBad f e ps row && (e.rowParts ps row).all fun p => (List.range p.2).all fun i => s.beyond (.phys (p.1 + i)) == none

theorem readable_of {s : State} {f : Flight} {ps : List (Nat × Nat)} {row : Nat} (h : readable s f ps row) :
    s.sourceBad f ((s.core 0).entry 63) ps row = false ∧
    ∀ p ∈ ((s.core 0).entry 63).rowParts ps row, s.near p.1 p.2 ∧ ∀ w ∈ s.weak, overlap p.1 p.2 w 16 = false := by
  simp only [readable, Bool.and_eq_true, Bool.not_eq_true', List.all_eq_true, beq_iff_eq] at h
  exact ⟨h.1.2, fun p hp => ⟨near_of fun i hi => h.2 p hp i hi, by simp [h.1.1]⟩⟩

theorem witness_EngineCompletions_migrate : let f := operation (.migrate 63 [(0, 256)] 63 true)
    let s := holding splitting f
    engineDone s f ∧ s.still 0 63 f ∧ ∀ x ∈ [(0, 256)], readable s f ((s.core 0).entry 63).watched x.1 := by
  unfold State.still
  decide +kernel

theorem witness_MatrixEvents_pass : let f := operation (.pass 63 15 0 [(0, [0x84]), (1, [0x84])] true false [(0, 0)])
    let s := holding resident f
    engineDone s f ∧ s.still 0 63 f ∧ (s.core 0).tileTurn f := by
  unfold State.still
  decide +kernel

/-- A cold row at its stack, asked for and read. -/
abbrev cold (rows : Option (List (Nat × List Byte))) : Flight :=
  operation (.grotto 63 15 0 0 [(0, [0x84])] [(0, 0)] splitting.watched rows)

theorem witness_MatrixEvents_grotto : let s := holding splitting (cold none)
    let t := holding splitting (cold (some [(0, [])]))
    engineDone s (cold none) ∧ (∀ x ∈ [((0 : Nat), 0)], readable s (cold none) splitting.watched x.2) ∧
    engineDone t (cold (some [(0, [])])) ∧ t.still 0 63 (cold (some [(0, [])])) ∧
    [((0 : Nat), ([] : List Byte))].map (·.1) = [((0 : Nat), (0 : Nat))].map (·.2) ∧
    (∀ o ∈ (t.core 0).flight, o.id < 0 → o.tiles = []) ∧
    ∀ o ∈ (t.core 0).flight, o.word = 0 → o.mask = 3 → o.tiles ≠ [] → o.kind = (cold (some [(0, [])])).kind := by
  unfold State.still
  decide +kernel

/-- A load of the residency that waits, and one that goes on. -/
abbrev filling (w : Nat) : Flight := operation (.resLoad 63 1 0x200000 32768 [(0x200000, 32768)] (some 63) 0 w false none)

theorem witness_MatrixEvents_load : let s := holding { resident with st := .empty } (filling 2)
    let t := holding { resident with st := .loading } (filling 0)
    engineDone s (filling 2) ∧ (∀ x ∈ (s.core 0).loads 63, 0 ≤ x.id) ∧ ((s.core 0).entry 63).st ≠ .loading ∧
    (s.core 0).loadWaits 63 = 0 ∧ engineDone t (filling 0) ∧ t.still 0 63 (filling 0) ∧ t.weak = [] := by
  unfold State.still
  decide +kernel

/-- A source of one block of 8-bit rows, of which every byte has its home in the package and can be read. -/
theorem witness_MatrixEvents_source : let t := holding { resident with st := .loading } (filling 0)
    t.near 0x200000 32768 ∧ t.loadCode (filling 0) ((t.core 0).entry 63) [(0x200000, 32768)] = 0 := by
  refine ⟨fun i hi => ?_, by decide +kernel⟩
  have h1 : paNode (0x200000 + i) = 0 := by unfold paNode; omega
  have h2 : paLocal (0x200000 + i) = 0x200000 + i := by unfold paLocal; omega
  have h3 : (holding { resident with st := .loading } (filling 0)).node = 0 := by decide +kernel
  have h4 : region (0x200000 + i) = .hbm 0 := by
    unfold region
    rw [if_pos (by omega), show (0x200000 + i) / 0x1000000000 = 0 by omega]
  simp [State.beyond, h1, h2, h3, h4]

/-- A team whose group has done its part, with a successor counter at 0x200 that stands at 2. -/
abbrev ended (succ : DWord) : State :=
  let s := two.onCore (·.modTeam 0 fun t => { t with succ := succ })
  let t := s.onGrp fun g => { g with partDone := true }
  { t with mem := t.mem.write 0x10200 [2] }

theorem witness_TaskEvents_done : let s := ended 0x200
    0 < s.cores.length ∧ (s.core 0).team 0 = some s.curTeam ∧ s.curTeam.live ≠ [] ∧ (s.core 0).doneDue 0 ∧
    (s.core 0).saved = [] ∧ (ended 0).curTeam.succ = 0 ∧ s.curTeam.succ ≠ 0 ∧
    s.issue.asked = false ∧ s.askedBy [2, 0, 0] = false ∧
    (s.core 0).passes s.nextId 0x10200 8 = false ∧
    s.translate ((s.core 0).regs.space.toNat % 2 ^ 16) s.curTeam.origin.tenant .write s.curTeam.succ.toNat =
      (.ok 0x10200 false 4096, false) ∧ s.homeCode (.phys 0x10200) 16 = 0 ∧ s.homeCode (.phys 0x10200) 8 = 0 ∧
    1 < leNat (s.mem.bytes 0x10200 4) := by
  decide +kernel

theorem witness_TaskEvents_counter : (ended 0x200).near 0x10200 16 ∧ (ended 0x200).plain 0x10200 16 := by
  refine ⟨near_of (by decide +kernel), ?_⟩
  exact plain_of (by decide +kernel)

/-- An entry of a ready queue for the record at 0x40. -/
def entry : RqEntry := RqEntry.of 0x40 7 Origin.zero

/-- Quad 95 with entries and waiting pushes; the record at 0x40 asks for two groups, one block of registers each. -/
abbrev queued (q : Nat) (chip : List RqEntry) (waiting : List WaitingPush) : State :=
  let s := two.modQuad q fun x => { x with chip := chip, waiting := waiting }
  { s with mem := s.mem.write 0x10060 [2] }

theorem witness_TaskEvents_accept : let s := queued 95 (List.replicate 255 entry) [⟨entry, 0, none⟩]
    95 < s.quads.length ∧ (s.quad 95).waiting = [⟨entry, 0, none⟩] ∧ s.quadOn 95 ∧ (s.quad 95).chip.length < 256 ∧
    (s.quad 95).ringLen = 0 := by
  decide +kernel

/-- The dispatcher's quad has an idle core. -/
abbrev idle : State :=
  let s := queued 0 [entry] []
  { s with cores := [{ Core.reset with regs := (s.core 0).regs }] }

theorem witness_TaskEvents_start : let t := idle
    let p := t.dispatcher 0 0 entry
    let r := (t.readRecord p entry.trec).2.getD (TaskRecord.of [])
    t.issue.asked = false ∧ (t.quad 0).choice = some entry ∧ t.rotation 0 = [0, 1, 2, 3] ∧ 0 < t.cores.length ∧
    0 < t.quads.length ∧ (t.readRecord p entry.trec).2 ≠ none ∧ r.bad entry.origin.tenant = false ∧ r.groups = 2 ∧
    [0, 1, 2, 3].find? (fun k => (t.core k).fits r && !(t.core k).quiescent) = some 0 ∧ (t.quad 0).ringLen = 0 ∧
    r.cbank = 0 := by
  decide +kernel

/-- What is read from this package's memory changes nothing. -/
theorem witness_TaskEvents_reads : (idle.readRecord (idle.dispatcher 0 0 entry) entry.trec).1 = idle ∧
    ∀ p, idle.startBank p 0 = (idle, List.replicate 48 0) :=
  ⟨by decide +kernel, fun _ => rfl⟩

/-- Two groups of one team, the first of which has ended. -/
abbrev leaving : State := two.onCore fun c => { c with
  groups := [some { grp0 two with lanes := List.replicate 32 (LaneState.init 0xFFFFFFFF) }, some (grp0 two)]
  teams := [{ two.curTeam with slots := [0, 1], live := [0, 1] }] }

theorem witness_TaskEvents_reclaim : let s := leaving
    (s.core 0).group 0 = some (grp0 s) ∧ (s.core 0).reclaimable 0 ∧ (s.core 0).team 0 = some s.curTeam ∧
    (∃ j ∈ s.curTeam.live, j ≠ 0) ∧ s.curTeam.origin.sub = none ∧ s.fabric.requests = [] := by
  decide +kernel

/-! Waits and exceptions -/

/-- The group of the small states, changed. -/
abbrev grouped (f : Group → Group) : State := two.onGrp f

/-- A wait of lane 0 for the word at 0x200, which is 9. -/
def parked (expected : DWord) : ParkRec where
  pop := false
  va := 0x200
  pa := 0x10200
  width := 4
  expected := expected
  deadline := 0
  dest := 63
  desc := 0
  mask := 1
  pc := 3
  event := none
  word := 0

theorem witness_WaitEvents_times : let s := grouped fun g => { g with
      age := 48, sleepUntil := some 0, tryUntil := some (11, 6, 3, 0) }
    (s.core 0).group 0 = some (grp0 s) ∧ 48 ≤ (grp0 s).age ∧ (grp0 s).sleepUntil = some 0 ∧ 0 ≤ s.clk ∧
    (grp0 s).tryUntil = some (11, 6, 3, 0) ∧ (grp0 s).phase = .running ∧ (s.core 0).saved = [] := by
  decide +kernel

theorem witness_WaitEvents_park :
    let u := grouped (·.modLane 0 fun t => { t with park := some (parked 8) })
    let s := u.onCore fun c => { c with rechecks := [0x10200] }
    let t := { s with mem := s.mem.write 0x10200 [9] }
    (∃ j, j < 32 ∧ ((grp0 t).lane j).park = none ∧ ((grp0 t).lane j).vpc ≠ 0xFFFFFFFF) ∧
    (∀ j, j ≠ 0 → (t.core 0).group j = none) ∧
    (grp0 t).shaped ∧ ((grp0 t).lane 0).park = some (parked 8) ∧ (parked 8).pop = false ∧ (grp0 t).phase = .running ∧
    (parked 8).deadline ≤ t.clk ∧
    (t.core 0).rechecks = [(parked 8).pa] ∧ (t.core 0).saved = [] ∧
    (∀ j, j < 32 → j ≠ 0 → ((grp0 t).lane j).park = none) ∧
    leNat (t.coreRead 0 t.nextId (.phys 0x10200) 4) ≠ (parked 8).expected.toNat % 2 ^ (8 * 4) ∧
    (parked 8).pa ∉ (u.core 0).rechecks ∧ t.issue.asked = false ∧ t.askedBy [12, 0, 0x10200] = false ∧
    t.beyond (.phys 0x10200) = none ∧ t.homeCode (.phys 0x10200) 4 = 0 ∧ t.weak = [] := by
  refine ⟨⟨1, by decide +kernel⟩, fun j hj => ?_, ?_⟩
  · cases j with
    | zero => exact absurd rfl hj
    | succ n => rfl
  · decide +kernel

/-- Lane 0 waits for a refill from the queue at 0x200, of which item 1 is 7. -/
abbrev refilling : State :=
  let s := grouped (·.modLane 0 fun t =>
    { t with win := { desc := some 0x200, items := [], first := 0, refill := true, waiting := none } })
  { s with mem := (s.mem.write 0x10200 (queueAt 3 1 24)).write 0x10308 [7] }

theorem witness_RefillsArrivalsAndRecords_refill : let t := refilling
    let p := t.refiller 0 0 0 (grp0 t)
    let w := WqDesc.of (t.coreRead 0 t.nextId (.phys 0x10200) 32)
    (grp0 t).shaped ∧ (grp0 t).phase = .running ∧ ((grp0 t).lane 0).win.refill ∧
    ((grp0 t).lane 0).win.desc = some 0x200 ∧ ((grp0 t).lane 0).win.waiting = none ∧ t.issue.asked = false ∧
    t.askedBy [6, 0, 0, 0] = false ∧
    t.translate p.space p.origin.tenant .read 0x200 = (.ok 0x10200 false 4096, false) ∧ t.beyond (.phys 0x10200) = none ∧
    t.homeCode (.phys 0x10200) 32 = 0 ∧ t.weak = [] ∧ w.ok ∧ (t.refillItems p w 4 w.head).2.take 1 = [7] ∧
    (t.refillItems p w 4 w.head).1 = t := by
  decide +kernel

/-- The arrival that completes a phase of barrier 15, and the one that starts it. -/
theorem witness_RefillsArrivalsAndRecords_arrival : let f := operation (.arrive 2 15 2 (some 63))
    let s := flying two f
    let t := s.onCore fun c => { c with bars := c.bars.set 15 ⟨0, 1, 2⟩ }
    engineDone s f ∧ (2#3).toNat = 2 ∧ (s.core 0).arrivalHeld f 2 = false ∧ s.awaits 0 0 = false ∧
    (15#4).toNat < (s.core 0).bars.length ∧ ((s.core 0).bars.getD 15 Barrier.reset).arrivals = 0 ∧
    ((t.core 0).bars.getD 15 Barrier.reset).expected = 2 ∧ (grp0 s).barWait = none := by
  decide +kernel

theorem witness_RefillsArrivalsAndRecords_hold : let f := { pending with held := some 0, sent := 0 }
    let s := flying two f
    (s.core 0).op 0 = some f ∧ 0 ≤ s.clk ∧ f.unsent ∧ (s.core 0).scTurn f ∧ (∀ o ∈ (s.core 0).flight, o.id ≠ 0 → o.unsent = false) ∧
    s.unanswered 0 0 = false ∧ (∀ p ∈ f.kind.parts, s.beyond p.1 = none) := by
  decide +kernel

theorem witness_RefillsArrivalsAndRecords_record :
    let s := { two with fq := { two.fq with base := 0x20000, ctl := 0x106, pending := [(none, List.replicate 64 1)] } }
    s.fq.pending = [(none, List.replicate 64 1)] ∧ s.fq.free ≠ 0 ∧
    s.localPa (s.fq.base.toNat / 64 * 64 % 2 ^ 44 + 64 * (s.fq.tail.toNat % 2 ^ (s.fq.ctl.toNat % 32))) = 0x20000 ∧
    s.plain 0x20000 64 := by
  refine ⟨by decide +kernel, by decide +kernel, by decide +kernel, plain_of (by decide +kernel)⟩

theorem witness_WordFaults : two.issuing ∧ two.issue.exec ≠ 0 ∧ two.grp.report = none ∧
    (two.vOk 127 && two.vOk 0 && two.bOk 0 false) = false ∧ (two.vOk 0 && two.vOk 64 && two.bOk 0 false) = false ∧
    (two.vOk 0 && two.vOk 0 && two.bOk 51 true) = false ∧ decodeWord 0x0FC00000 = .error .illegalOpcode ∧
    decodeWord 0x00800001 = .error .reservedField ∧
    ({ two with issue := { two.issue with pc := 0x1000 } } : State).codeSpots two.space two.tenant 0x1000 =
      .error (.notPresent, 0x4000) := by
  decide +kernel

/-! The package -/

/-- A report of a missing page, and a run-ahead that has found another. -/
def report : Report where
  cause := .notPresent
  pc := 3
  mask := 3
  unfin := 3
  va := 0x2000
  code := 0
  imprecise := false
  exited := false
  pages := [(0x2000, true)]
  comps := []
  after := 4
  tick := 0

theorem witness_SwitchOut : let s := grouped fun g => { g with report := some report }
    let r : RunAhead := ⟨0, grp0 s, 5, [], [0x3000, 0x2000], true⟩
    let t := s.onCore fun c => { c with runs := [r], regs := { c.regs with fsave := 0x40000 } }
    0 < t.cores.length ∧ (t.core 0).group 0 = some (grp0 t) ∧ (grp0 t).shaped ∧ (grp0 t).report = some report ∧
    (t.core 0).flight = [] ∧ (t.core 0).quiescent = false ∧ (t.core 0).regs.cctl.getLsbD 0 = false ∧ (t.core 0).runs = [r] ∧ r.slot = 0 ∧ r.ended ∧
    (grp0 t).missed = [] ∧ t.localPa ((t.core 0).regs.fsave.toNat % 2 ^ 44 / 4096 * 4096 + 20480 * 0) = 0x40000 ∧
    t.plain 0x40000 20480 := by
  and_intros <;> first | exact plain_of (by decide +kernel) | decide +kernel

/-- The image that the statement writes fits in a slot's area. -/
theorem witness_SwitchOut_image : ((grp0 two).image 0 0 false).length ≤ 20480 := by decide +kernel

/-- A team whose group waits at a barrier, without scratchpad and tiles, with a save area at 0x80000. -/
abbrev waitingTeam : State :=
  let s := grouped fun g => { g with barWait := some ⟨2, 0, some 0, 3, 3⟩ }
  s.onCore fun c => { c with
    teams := [Team.lone]
    regs := { c.regs with carg := 0x80000 } }

theorem witness_CoreCommands_save : let s := waitingTeam
    0 < s.cores.length ∧ (s.core 0).flight = [] ∧ (s.core 0).named 1 = [0] ∧ (s.core 0).group 0 = some (grp0 s) ∧
    (s.core 0).team (grp0 s).team = some Team.lone ∧ s.mayPreempt 0 Team.lone ∧ s.saveWaits 0 Team.lone = false ∧
    Team.lone.live = [0] ∧ (grp0 s).phase = .running ∧ Team.lone.spadSize = 0 ∧ Team.lone.spadMap = [] ∧
    (s.core 0).ownTiles 0 = [] ∧ still s ∧ s.bad = [] ∧ (s.core 0).replays = [] ∧ imageHead + 128 * 64 + 192 ≤ imagePlace := by
  decide +kernel

/-- The team away, its return wanted. -/
def away (s : State) : SavedTeam := ⟨Team.lone, 0x80000, [], [(0, grp0 s)], true, []⟩

theorem witness_CoreCommands_return : let t := away waitingTeam
    let s := waitingTeam.onCore fun c => { c with teams := [], groups := [none], saved := [t] }
    s.cargPa 0 = 0x80000 ∧ (∃ x ∈ (s.core 0).saved, x.area = 0x80000) ∧
    (s.core 0).saved.find? (·.wanted) = some t ∧ (s.core 0).canReturn t ∧ (t.groups.map (·.1)).Nodup ∧ t.replays = [] ∧
    (∀ x ∈ t.groups, x.1 < (s.core 0).groups.length) := by
  refine ⟨by decide +kernel, ⟨_, List.mem_singleton.2 rfl, rfl⟩, by decide +kernel⟩

/-- A switched-out group whose image at 0x80000 holds one register block, with every lane at word 3. -/
abbrev switched : State :=
  let s := (grouped fun g => { g with phase := .switchedOut, report := some report, unfin := 3 }).onCore fun c =>
    { c with teams := [Team.lone], regs := { c.regs with carg := 0x80000 } }
  { s with mem := s.mem.write 0x80000 (leBytes 8 (1 + 8 * 2 ^ 8)) }

theorem witness_CoreCommands_group : let s := switched
    let n := s.wordPa 0x80000 8 / 256 % 256
    let g := ((grp0 s).restore (s.readPa 0x80000 (imageHead + 128 * n + 192))).resumeWith
    (lanesOf 1).find? (fun j => ((s.core 0).group j).any (·.phase == .switchedOut)) = some 0 ∧
    (grp0 s).errors = [] ∧ (grp0 s).claim = none ∧ g.barWait = none ∧ s.fq.pending = [] ∧ s.midBundle 0 0 = false ∧
    (∀ l, l < 32 → (g.lane l).park = none ∧ (g.lane l).sd = 0) ∧
    ((s.core 0).team (grp0 s).team).all (·.claims = []) := by
  decide +kernel

/-- Thread 31's queue of two commands at 0x400, which translates under space 1. -/
abbrev threaded (f : BThread → BThread) (command : List Byte) : State :=
  let s := two.modThread 31 fun b => f { b with qbase := 0x400, qctl := 0x301, qtail := 1 }
  { s with mc := { s.mc with pspace := s.mc.pspace.set 31 1 }, mem := s.mem.write 0x10400 command }

theorem witness_BelvedereEvents_doorbell : let s := threaded id []
    let t := { s with host := { s.host with up := true } }
    31 < s.belv.threads.length ∧ t.host.up ∧ (t.thread 31).qctl.getLsbD 9 := by
  decide +kernel

theorem witness_BelvedereEvents_unknown : let s := threaded id [3]
    let bs := (s.nextCommand 31).2.getD []
    s.nextCommand 31 = (s, some bs) ∧ s.mayStart 31 ∧ s.issue.asked = false ∧ s.askedBy [4, 31] = false ∧ field bs 0 % 256 ≠ 1 ∧ waitKind bs = false := by
  decide +kernel

/-- A bundle without slots is malformed. -/
theorem witness_BelvedereEvents_malformed : let s := threaded id [1]
    let bs := (s.nextCommand 31).2.getD []
    s.nextCommand 31 = (s, some bs) ∧ s.mayStart 31 ∧ s.issue.asked = false ∧ s.askedBy [4, 31] = false ∧ field bs 0 % 256 = 1 ∧ bundleBad bs ∧ field bs 8 = 0 ∧
    field bs 0x10 = 0 ∧ bit (field bs 0) 16 = false ∧ (s.thread 31).inflight = [] ∧ (s.thread 31).retired = [] ∧
    (s.thread 31).qhead.toNat = (s.thread 31).started := by
  decide +kernel

/-- A bundle of one task set of one task for quad 95. -/
theorem witness_BelvedereEvents_set :
    let s := threaded id (leBytes 8 (1 + 256) ++ leBytes 24 0 ++ leBytes 8 (1 + 95 * 2 ^ 11) ++ leBytes 8 0x40)
    let bs := (s.nextCommand 31).2.getD []
    s.nextCommand 31 = (s, some bs) ∧ s.mayStart 31 ∧ s.issue.asked = false ∧ s.askedBy [4, 31] = false ∧ field bs 0 % 256 = 1 ∧ bundleBad bs = false ∧
    bits (field bs 0) 10 8 = 1 ∧ (slotAt bs 0).type = 1 ∧ s.quads.length = 96 ∧ bits (slotAt bs 0).w0 17 11 = 95 ∧
    (s.readRecord (s.belvParty 31 [4, 31] (BitVec.ofNat 32 (field bs 0 / 2 ^ 32)) s.threadPc) (slotAt bs 0).w1).1 = s ∧
    s.quadOn 95 ∧ (s.quad 95).waiting = [] ∧ (s.quad 95).ringLen = 0 ∧ bits (slotAt bs 0).w0 47 32 = 0 ∧
    (s.quad 95).chip.length < 256 ∧ (s.thread 31).bundleRoom ∧ (s.thread 31).inflight = [] := by
  decide +kernel

/-- A wait packet for the word at 0x200 to be 1, which it is not. -/
abbrev waiting : State := threaded id (leBytes 8 2 ++ leBytes 8 0x200 ++ leBytes 8 1 ++ leBytes 8 0xFFFFFFFF)

theorem witness_BelvedereEvents_wait : let s := waiting
    let bs := (s.nextCommand 31).2.getD []
    s.nextCommand 31 = (s, some bs) ∧ s.mayStart 31 ∧ s.issue.asked = false ∧ s.askedBy [4, 31] = false ∧ waitKind bs := by
  decide +kernel

/-- A test that reads a word of the package's own memory, in which there is no error, changes nothing. -/
theorem waitTest_same {s : State} {t : Nat} {c : Command} {pa hb : Nat} {sc : Bool}
    (h : s.translate (s.belvSpace t) (s.thread t).tenant .read c.addr.toNat = (.ok pa sc hb, false))
    (near : s.beyond (.phys pa) = none) (q : s.bad = [] ∧ s.weak = []) : (s.waitTest t c).1 = s := by
  have read : ∀ w n, (s.belvRead t w c.addr n).1 = s := by
    intro w n
    have e := s.readAt_here belvedere 0 w pa n near (by simp [q.1]) (by simp [q.2])
    simp only [State.belvRead, State.look, h, Bool.false_eq_true, if_false, State.noteMalformed_zero, e]
    split <;> simp_all
  simp only [State.waitTest]
  split
  · rfl
  · exact read _ _

theorem witness_BelvedereEvents_waits : let s := waiting
    let bs := (s.nextCommand 31).2.getD []
    let c := waitCommand bs (s.thread 31).started s.clk s.threadPc
    ((s.begin 31 c).waitTest 31 c).2 = false ∧ ((s.begin 31 c).waitTest 31 c).1 = s.begin 31 c :=
  ⟨by decide +kernel, waitTest_same (pa := 0x10200) (sc := false) (hb := 4096) (by decide +kernel) (by decide +kernel) (by decide +kernel)⟩

/-- The wait packet in flight: for the word at 0x200 to have the value `v`, with its record at `crec`. -/
def waitingFor (v crec : DWord) : Command where
  index := 0
  wait := true
  lseq := 0
  crec := crec
  ctr := 0
  irq := false
  refused := false
  start := 0
  cpc := 0
  subs := [⟨0, 0, 0, 7, false⟩]
  cond := 0
  width := 4
  addr := 0x200
  value := v
  vmask := 0xFFFFFFFF
  deadline := some 0
  ctrs := []
  todo := []

/-- The thread with that packet in flight. -/
abbrev testing (v crec : DWord) : State := threaded (fun b => { b with started := 1, inflight := [waitingFor v crec] }) []

theorem witness_BelvedereEvents_test : let s := testing
    (s 0 0).belv.dead = false ∧ ((s 0 0).thread 31).retired = [] ∧ ((s 0 0).thread 31).qhead.toNat = 0 ∧
    (s 0 0).issue.asked = false ∧ (s 0 0).waitTest 31 (waitingFor 0 0) = (s 0 0, true) ∧
    (s 1 0).waitTest 31 (waitingFor 1 0) = (s 1 0, false) ∧ (s 1 0).askedBy [4, 31, 0] = false := by
  decide +kernel

theorem witness_BelvedereEvents_timeout : let s := testing 1 0xFE0
    (waitingFor 1 0xFE0).crec ≠ 0 ∧ (waitingFor 1 0xFE0).crec.toNat % 32 = 0 ∧ 0 ≤ s.clk ∧
    s.translate (s.belvSpace 31) (s.thread 31).tenant .write 0xFE0 = (.ok 0x10FE0 false 4096, false) ∧
    s.beyond (.phys 0x10FE0) = none ∧ s.homeCode (.phys 0x10FE0) 32 = 0 ∧ s.plain 0x10FE0 32 := by
  and_intros <;> first | exact plain_of (by decide +kernel) | decide +kernel

/-- A bundle of two sub-launches, the first of which has no work left. -/
theorem witness_BelvedereEvents_close : let c := { waitingFor 0 0 with
      wait := false, subs := [⟨1, 0, 0, 7, false⟩, ⟨1, 1, 0, 7, false⟩] }
    let s := threaded (fun b => { b with started := 1, inflight := [c] }) []
    s.command 31 0 = some c ∧ c.subs[0]? = some ⟨1, 0, 0, 7, false⟩ ∧ c.ctrs.length ≤ 7 ∧ s.issue.asked = false ∧
    s.askedBy [4, 31, 0, 0] = false ∧
    (∃ n y, n ≠ 0 ∧ c.subs[n]? = some y ∧ y.closed = false) ∧ (∀ o ∈ (s.thread 31).inflight, o.index = 0 → o = c) := by
  refine ⟨by decide +kernel, rfl, by decide, by decide +kernel, by decide +kernel, ⟨1, _, by decide, rfl, rfl⟩, by decide +kernel⟩

/-- A store in flight that was translated under space 1, and its invalidation; the invalidation of operations that are gone. -/
theorem witness_WindowEvents : let f := { pending with space := 1 }
    let s := flying two f
    let t := { two with mc := { two.mc with mstat := 1, invWait := [(0, 0), (384, 0)] } }
    (∀ q, q < 96 → two.quadOn q) ∧ s.mc.mstat.toNat % 4 ≠ 1 ∧ (0x1FFFFFFFF0001#64).toNat % 4 = 1 ∧
    f ∈ (s.core 0).flight ∧ f.space = (0x1FFFFFFFF0001#64).toNat / 2 ^ 48 ∧
    f.kind.within s.mc.invva.toNat ((0x1FFFFFFFF0001#64).toNat / 2 ^ 16 % 2 ^ 32) ∧
    t.mc.mstat.toNat % 4 = 1 ∧
    (∀ w ∈ t.mc.invWait, t.opOf w.1 w.2 = none ∧ (∀ f ∈ (t.core w.1).allOps, f.id ≠ w.2) ∧
      ∀ r ∈ t.fabric.requests, r.core = w.1 → r.flight = w.2 → r.answer ≠ none) ∧
    (1#64).toNat % 2 ^ 32 ≠ 0 ∧ (∀ c ∈ two.cores, c.flight = []) ∧ bits (4#64).toNat 3 2 = 1 ∧ 383 < 384 := by
  decide +kernel

/-- The host link is up, and a report is to be written at 0x10000 of host memory, or it is asked for; the drain is over. -/
abbrev reporting : State :=
  { two with host := { two.host with up := true, reportAddr := 0x10000, attest := 1, report := [1, 2, 3, 4], flr := some 0 } }

/-- The writes of a report. -/
abbrev reportWrites (s : State) : State × Option Nat :=
  let n := s.host.report.length
  s.writeAll [11] (cutWrites (n / 512 + 1) (s.localPa (0xC0000000000 + s.host.reportAddr.toNat)) s.host.report)

/-- The host has answered the writes. -/
abbrev reported : State :=
  let s := (reportWrites reporting).1
  { s with
    issue := { s.issue with asked := false }
    fabric := { s.fabric with requests := s.fabric.requests.map fun r => { r with answer := some (0, []) } } }

theorem witness_WindowEvents_attestation : reporting.host.up ∧ two.host.attest ≠ 1 ∧ reporting.host.attest = 1 ∧
    0x40000000000 < 0x3FFFFFFFFFD + reporting.host.report.length ∧
    reporting.host.reportAddr.toNat + reporting.host.report.length ≤ 0x40000000000 ∧
    (reportWrites reporting).2 = none ∧ (reportWrites reporting).1.issue.asked ∧
    reported.host = reporting.host ∧ (reportWrites reported).2 = some 0 ∧ (reportWrites reported).1.issue.asked = false ∧
    reporting.host.flr = some 0 ∧ 0 ≤ reporting.clk ∧ reporting.askedBy [11] = false := by
  decide +kernel

/-- The report of a state without a log has 17152 bytes. -/
theorem witness_WindowEvents_report : two.report.length = 17152 ∧ 0x10000 + 17152 ≤ 2 ^ 42 := by
  have h : two.host.log = [] ∧ two.host.nonce = [0, 0, 0, 0] := by decide +kernel
  simp [State.report, secret, h]

/-- A request of the load in flight that waits for the host. -/
def asking : Request where
  tag := 0
  core := 0
  flight := 0
  part := 0
  host := true
  op := 1
  sub := 0
  aop := 0
  pa := 0xC0000010000
  len := 4
  data := []
  sent := 0
  port := some 32
  asker := none
  answer := none
  laid := []
  space := 0
  relaxed := false

theorem witness_HostEvents : let f := loadingTwo (.reg 63 4 false)
    let s := flying { two with clk := 1500000, fabric := { two.fabric with requests := [asking] } } f
    s.fabric.requests = [asking] ∧ asking.core = 0 ∧ asking.flight = 0 ∧ asking.host ∧ asking.port.isSome ∧ asking.answer = none ∧
    0 < s.cores.length ∧ s.unmoved ∧ (∀ c ∈ s.cores, c.cares asking.pa 4 = false) ∧
    (s.core 0).op 0 = some f ∧ asking.sent + s.dtimeout ≤ s.clk ∧ f.kind.arrives = false ∧
    (∀ f ∈ (s.core 0).flight, f.unsent = false) ∧ s.plain 0xC0000010000 4 ∧ backed (paLocal 0xC0000010000) ∧
    Rmw.ofMessage 0 0 [1, 0, 0, 0] = some (.add 4 1) ∧ (Rmw.add 4 1).write (s.mem.bytes 0xC0000010000 4) = some [1, 0, 0, 0] := by
  and_intros <;> first | exact plain_of (by decide +kernel) | exact unmoved_of (by decide +kernel) | decide +kernel

/-- The storage port translates under space 1. -/
abbrev storing : State := { two with mc := { two.mc with pspace := two.mc.pspace.set 64 1 } }

theorem witness_HostEvents_dma : storing.near 0x10FFC 4 ∧ (∀ i, i < 4 → backed (paLocal (0x10FFC + i))) ∧
    storing.homeCode (.phys 0x10FFC) 4 = 0 ∧ storing.weak = [] ∧ (storing.core 384).flight = [] ∧ storing.fabric.dmas = [] ∧
    (∀ d ∈ [Dma.write 0xFFC [1, 2, 3, 4], .read 0xFFC 4], storing.askedBy (dmaName d) = false) ∧
    storing.dmaParts .write 0xFFC 4 = (some [(0x10FFC, 4)], 0) ∧
    storing.dmaParts .read 0xFFC 4 = (some [(0x10FFC, 4)], 0) ∧ storing.plain 0x10FFC 4 := by
  and_intros <;> first | exact plain_of (by decide +kernel) | exact near_of (by decide +kernel) | decide +kernel

/-- Port 63 is up, with these messages received. -/
abbrev linked (inbox : List Message) : State :=
  { two with fabric := { two.fabric with ports := two.fabric.ports.set 63 { Port.reset with stat := 2, inbox := inbox } } }

/-- The first 56 bytes of a write of 64 bytes. -/
def longMessage : List Byte := leBytes 16 (2 * 2 ^ 120 + 64 * 2 ^ 72) ++ leBytes 40 0

theorem witness_FabricEvents_flit : let s := linked []
    63 < s.fabric.ports.length ∧ (s.port 63).up ∧ longMessage.length = 56 ∧ (s.port 63).replay = [] ∧
    (s.port 63).stream = [] ∧ (s.port 63).backlog = [] ∧ (s.port 63).expect < 4096 ∧
    splitStream 4 longMessage = ([], longMessage) := by
  decide +kernel

/-- A message of node 7 for 4 bytes at 0x10200. -/
def message (op sub : Nat) (data : List Byte) : Message where
  op := op
  src := 7
  dst := 0
  tag := 0
  len := 4
  sub := sub
  status := 0
  aop := 0
  pa := 0x10200
  data := data

theorem witness_FabricEvents_home : let s := linked [message 4 0 [1, 0, 0, 0]]
    let m := message 4 0 [1, 0, 0, 0]
    (s.port 63).inbox.head? = some m ∧ s.serves m.pa ∧ region (paLocal m.pa) ≠ .host ∧ s.issue.asked = false ∧
    s.askedBy [10, 63, m.tag, m.src] = false ∧ s.homeCode (.phys m.pa) m.len = 0 ∧ s.weak = [] ∧ s.plain m.pa 4 ∧
    Rmw.ofMessage m.aop m.sub m.data = some (.add 4 1) ∧ (Rmw.add 4 1).write (s.mem.bytes m.pa 4) = some [1, 0, 0, 0] ∧
    (Rmw.add 4 1).span = 4 := by
  and_intros <;> first | exact plain_of (by decide +kernel) | decide +kernel

theorem witness_FabricEvents_reply : let f := loadingTwo (.reg 63 4 false)
    let q := { asking with host := false, port := some 63 }
    let s := linked [message 5 0 [1, 2, 3, 4]]
    let t := flying { s with fabric := { s.fabric with requests := [q] } } f
    (t.port 63).inbox.head? = some (message 5 0 [1, 2, 3, 4]) ∧ t.fabric.requests = [q] ∧ q.tag = 0 ∧ q.host = false ∧
    q.answer = none ∧ q.asker = none ∧ q.op = 1 ∧ (∀ f ∈ (t.core 0).flight, f.unsent = false) ∧
    (t.core q.core).op q.flight = some f ∧ f.kind.arrives = false ∧ t.fabric.kept = [] := by
  decide +kernel

/-- The package is the root of pod barrier 3, whose phase has one arrival of three. -/
theorem witness_FabricEvents_barrier : let s := linked [message 6 3 [3, 0, 0, 0]]
    let t := { s with
      fabric := { s.fabric with podroot := s.fabric.podroot.set 3 0x8000 }
      podBars := s.podBars.set 3 ⟨5, 1, 3⟩ }
    3 < t.podBars.length ∧ t.fabric.counted = [] ∧ (t.fabric.podroot.getD 3 0).getLsbD 15 ∧ t.rootOf 3 = t.node ∧
    (t.podBars.getD 3 Barrier.reset).expected = leNat [3, 0, 0, 0] ∧
    (t.podBars.getD 3 Barrier.reset).arrivals + 1 ≠ leNat [3, 0, 0, 0] ∧ (6#32) ≠ 5 ∧ ((6#32) - 5).toNat < 2 ^ 31 := by
  decide +kernel

/-- An arrival that no port can carry, and the group that waits for it. -/
theorem witness_FabricEvents_timeout :
    let s := grouped fun g => { g with barWait := some ⟨6, 3, none, 3, 3⟩ }
    let a : Kept := ⟨3, message 6 3 [3, 0, 0, 0], none, 0⟩
    let t := { s with fabric := { s.fabric with kept := [a] } }
    t.fabric.kept = [a] ∧ a.num = 3 ∧ a.deadline ≤ t.clk ∧ t.fabric.requests = [] ∧ (t.core 0).group 0 = some (grp0 t) ∧
    (grp0 t).phase = .running ∧ (grp0 t).report = none ∧ (grp0 t).barWait = some ⟨6, 3, none, 3, 3⟩ ∧
    (t.core 0).flight = [] ∧ t.midBundle 0 0 = false ∧ t.cores.length = 1 ∧ (t.core 0).groups.length = 1 := by
  decide +kernel

/-- A port that trains, its partner aligned. -/
theorem witness_FabricEvents_train : let s := { two with
      fabric := { two.fabric with ports := two.fabric.ports.set 63 { Port.reset with stat := 1 } } }
    (s.port 63).stat.toNat % 4 = 1 ∧ (⟨true, 5, false⟩ : Training).aligned ∧ (5#10).toNat ≠ two.node ∧ two.fabric.kept = [] ∧
    two.fabric.requests = [] := by
  decide +kernel

/-- The last bank of the last stack owes 7 refreshes; a scrub finds an error; samples are on; a core and a die stop. -/
theorem witness_ServiceEvents : let s := two.modStack 23 (·.setOwed 63 63 7)
    23 < s.hbm.length ∧ (s.hbm.getD 23 ⟨[], [], 0⟩).owes 63 63 < 8 ∧ s.mc.sridle.toNat % 2 ^ 20 ≠ 0 ∧
    s.badAt (s.localPa (23 * 0x1000000000)) 128 = false ∧ s.weak = [] ∧ s.plain (s.localPa (23 * 0x1000000000)) 128 ∧
    s.mc.faqctl.getLsbD 8 = false ∧ 0x10200 / 32 * 32 ∉ s.bad ∧ s.rel.pstat.toNat % 512 ≤ 256 ∧
    0 < s.cores.length ∧ 0 / 64 < s.rel.mcoff.length := by
  and_intros <;> first | exact plain_of (by decide +kernel) | decide +kernel

theorem witness_ServiceEvents_sample :
    let s := { State.reset with rel := { State.reset.rel with samples := List.replicate 3 [0, 0x100, 0, 0, 0] } }
    ((s.rel.samples.getD 2 []).getD 1 0).getLsbD 8 ∧ 128 * 2 + 128 ≤ s.cores.length := by
  decide +kernel

/-- A halted core, then a quiescent one; a line that has been asked for. -/
theorem witness_DebugAndReset : let s := two.onCore fun c => { c with halted := true }
    let t := s.onCore fun c => { c with quiescent := true, pref := [(5, 0, false)] }
    (s.core 0).halted ∧ (∀ f ∈ (s.core 0).flight, False) ∧ (s.core 0).runs = [] ∧ s.midBundle 0 0 = false ∧ (t.core 0).quiescent ∧ (t.core 0).group 0 = some (grp0 t) ∧
    (t.core 0).pref = (5, 0, false) :: [] ∧ two.boot.accepts two.boot.slotA = false ∧
    two.boot.accepts two.boot.slotB = false := by
  decide +kernel

/-- FIPS 180-4: the digest of the three bytes "abc". -/
theorem test_sha256_abc : sha256 [0x61, 0x62, 0x63] =
    [0xBA, 0x78, 0x16, 0xBF, 0x8F, 0x01, 0xCF, 0xEA, 0x41, 0x41, 0x40, 0xDE, 0x5D, 0xAE, 0x22, 0x23, 0xB0, 0x03, 0x61, 0xA3, 0x96,
      0x17, 0x7A, 0x9C, 0xB4, 0x10, 0xFF, 0x61, 0xF2, 0x00, 0x15, 0xAD] := by
  decide +kernel

/-- A boot image of 7856 bytes behind 64 bytes of header, signed for key slot 3. -/
def bootImage : List Byte :=
  leBytes 8 (0x46575954 + 3 * 2 ^ 32) ++ leBytes 8 1 ++ leBytes 8 64 ++ leBytes 40 0 ++ List.replicate 7856 0

/-- It is accepted where its signature verifies (assumption 14). -/
theorem witness_DebugAndReset_boot (h : Config.verifies (leBytes 32 0) (bootImage.take 64) (bootImage.drop 64)) :
    { Boot.reset with slotA := bootImage, keyHashes := [0, 0, 0, BitVec.ofNat 256 (leNat (sha256 (leBytes 32 0)))] }.accepts bootImage := by
  have key : (bootImage.drop 0x18).take 32 = leBytes 32 0 := by decide +kernel
  have len : leNat ((bootImage.drop 0x10).take 8) = 64 := by decide +kernel
  have rest : leNat (bootImage.take 4) = 0x46575954 ∧ leNat ((bootImage.drop 4).take 4) = 3 ∧
      64 + 7856 = bootImage.length := by decide +kernel
  have ver : Boot.reset.version ≤ leNat ((bootImage.drop 8).take 8) := by decide +kernel
  simp [Boot.accepts, key, len, rest, h, Boot.reset]
  exact decide_eq_true ver

/-- A group at the packet of `nop`s at word 0 has been selected for its first word. -/
theorem witness_StepRunsTheDecodedInstruction : let s := State.reset.withFetchWord 32 0x00800000
    let g := grp0 s
    let u := { s with issueQ := [] }
    let ws := [0x00800000, 0, 0]
    let b : Bundle := { pc := g.firstPc, act := g.active, ws := ws, at_ := [0] }
    let v := (u.openBundle 0 0 b).openWord b 0
    s.agenda = [] ∧ s.issueQ = [(0, 0)] ∧ (s.core 0).group 0 = some g ∧ g.phase = .running ∧ g.part = none ∧
    (s.core 0).held s.clk 0 g = none ∧ g.errors = [] ∧ g.firstPc ≠ 0xFFFFFFFF ∧
    s.codeSpots ((s.core 0).regs.space.toNat % 2 ^ 16) (((s.core 0).team g.team).getD Team.blank).origin.tenant g.firstPc =
      .ok [0x10000, 0x10004, 0x10008] ∧ s.codeOf g [0x10000, 0x10004, 0x10008] = some (ws, 0) ∧
    0 = g.firstPc.toNat % 3 ∧ roleOf (roles ws) 0 = .instr (.nop false) ∧ bundleAt ws (roles ws) 0 = [0] ∧
    b.packetCauses 0 = [] ∧ b.chainConflict = false ∧ (u.openBundle 0 0 b).pendingFor b = none ∧
    (u.openBundle 0 0 b).mustWait b = false ∧ exec (.nop false) v = .next v ∧ v.issue.stall = none := by
  and_intros <;> first | decide +kernel | rfl

theorem witness_EncodingRoundTrip : (Instr.iadd true false 4 1 0x30 true).wellFormed ∧
    encode (.iadd true false 4 1 0x30 true) = [0x81020161] := by
  decide +kernel

theorem witness_EveryStepKeepsMemoryCanonical : State.reset.withProgram.mem.wf ∧
    ∃ t, step State.reset.withProgram = .next t :=
  ⟨by decide +kernel, _, rfl⟩

end Sys2Proof.Tests
end

section
/-! SUPPORT and PROOF. Branches (O7): every branch is the one branch of the model. -/

namespace Sys2Proof.Machine

/-! ## Branches -/

/-- A word address moved by a signed field (R228). -/
theorem add_signExtend_eq_ofInt {n : Nat} (pc : Word) (o : BitVec n) :
    pc + o.signExtend 32 = BitVec.ofInt 32 (pc.toNat + o.toInt) := by
  rw [BitVec.ofInt_add, BitVec.ofInt_natCast, BitVec.ofNat_toNat, BitVec.setWidth_eq]
  rfl

/-- A word whose effect is a branch takes the lanes of its mask to their targets (R31, R228). -/
theorem State.branch_branches (s : State) (u : Bool) (m m' : Word) (f f' : Nat → Word) (hi : s.issuing = true)
    (hm : m = m') (hf : ∀ l, f (s.from u l) = f' l) : Machine.Branches s (.next (s.branch u m f)) m' f' := by
  subst hm
  obtain rfl : (fun l => f (s.from u l)) = f' := funext hf
  exact ⟨_, rfl, s.branch_branched u m f hi⟩

@[simp] theorem RegFile.setV_row_length (rf : RegFile) (d : Nat) (m : Word) (f : Nat → Word) :
    (rf.setV d m f).v.map List.length = rf.v.map List.length := by
  apply List.ext_getElem?
  intro i
  rw [RegFile.setV, List.getElem?_map, List.getElem?_map, List.getElem?_modify]
  cases rf.v[i]? with
  | none => rfl
  | some row => by_cases e : d = i <;> simp [e]

/-- A register write keeps the shape of its group. -/
theorem Group.shaped_setV (g : Group) (d : Nat) (m : Word) (f : Nat → Word) (h : g.shaped = true) :
    ({ g with rf := g.rf.setV d m f } : Group).shaped = true := by
  rw [Group.shaped_iff] at h ⊢
  refine ⟨fun row hr => ?_, h.2⟩
  have hmem : row.length ∈ (g.rf.setV d m f).v.map List.length := List.mem_map_of_mem hr
  rw [RegFile.setV_row_length] at hmem
  obtain ⟨row', hr', e⟩ := List.mem_map.1 hmem
  rw [← e, h.1 row' hr']

/-- A register write leaves the group as the bundle's later effects need it. -/
theorem State.putV_issuing (s : State) (u : Bool) (d : Nat) (f : Nat → Word) (hi : s.issuing = true) :
    (s.putV u d f).issuing = true := by
  obtain ⟨g, hg, sh, len⟩ := State.issuing_elim s hi
  have hp : ((s.putV u d f).core s.issue.core).group s.issue.slot =
      some { g with rf := g.rf.setV d s.issue.exec fun l => f (s.from u l) } :=
    State.group_modGroup s s.issue.core s.issue.slot _ g hg
  change Option.any _ (((s.putV u d f).core s.issue.core).group s.issue.slot) = true
  rw [hp, Option.any_some, Group.shaped_setV g _ _ _ sh, Bool.true_and, RegFile.setV_length]
  exact beq_iff_eq.2 len

/-- The lanes that `bra` takes: those whose predicate, as a bit, is 1 less the sense (R228). -/
theorem bra_taken_eq (exec : Word) (p : Nat → Bool) (sense : Bool) :
    (exec &&& maskOf fun l => p l == !sense) =
      maskOf fun l => exec.getLsbD l && decide ((p l).toNat = 1 - sense.toNat) := by
  apply BitVec.eq_of_getLsbD_eq
  intro l hl
  rw [BitVec.getLsbD_and, maskOf_getLsbD, maskOf_getLsbD]
  cases p l <;> cases sense <;> simp [hl]

/-- Settles O7: each branch is the one branch of the model, which places its lanes and keeps the rest; `call` writes v0
before it. -/
theorem branches : Obligations.Branches := by
  unfold Obligations.Branches
  intro s c u sense x p o imm a b hi
  refine ⟨?bra, ?jmp, ?exit, fun h0 => ?call, fun ha => ?ret, fun ha hb => ?brx⟩
  case bra =>
    exact s.branch_branches u _ _ _ _ hi (bra_taken_eq _ _ _) fun _ => add_signExtend_eq_ofInt _ _
  case jmp => exact s.branch_branches u _ _ _ _ hi rfl fun _ => add_signExtend_eq_ofInt _ _
  case exit => exact s.branch_branches u _ _ _ _ hi rfl fun _ => rfl
  case call =>
    refine ⟨s.putV u 0 fun _ => s.issue.nextPc, _, State.checked_ok s _ _ h0, s.putV_vectors u 0 _ hi h0, ?_⟩
    have hb := State.branch_branched _ u s.issue.exec (fun _ => s.issue.pc + imm.signExtend 32)
      (s.putV_issuing u 0 (fun _ => s.issue.nextPc) hi)
    simpa only [add_signExtend_eq_ofInt] using hb
  case ret =>
    have he : exec (.ret c u a) s = .next (s.branch u s.issue.exec fun l => s.A a.toNat l) := State.checked_ok s _ _ ha
    rw [he]
    exact s.branch_branches u _ _ _ _ hi rfl fun _ => rfl
  case brx =>
    have he : exec (.brx c u a b x) s =
        .next (s.branch u s.issue.exec fun l => s.A a.toNat l + s.B b.toNat x l) :=
      State.checked_ok s _ _ (by rw [ha, hb]; rfl)
    rw [he]
    refine s.branch_branches u _ _ _ _ hi rfl fun l => ?_
    rw [BitVec.ofNat_add, BitVec.ofNat_toNat, BitVec.ofNat_toNat, BitVec.setWidth_eq, BitVec.setWidth_eq]

end Sys2Proof.Machine
end

section
/-! SUPPORT. Teams, their register pools and what serving a claim does (R45, R46). -/

namespace Sys2Proof.Machine

/-! ## Teams -/

/-- A change of a team that keeps its number, as the number finds it. -/
theorem Core.team_modTeam (c : Core) (id : Nat) (f : Team → Team) (hf : ∀ t, (f t).id = t.id) :
    (c.modTeam id f).team id = (c.team id).map f := by
  unfold Core.team Core.modTeam
  induction c.teams with
  | nil => rfl
  | cons t ts ih =>
    by_cases h : t.id = id
    · simp [h, hf]
    · simp [h, ih]

@[simp] theorem Core.group_modTeam (c : Core) (id j : Nat) (f : Team → Team) : (c.modTeam id f).group j = c.group j := rfl
@[simp] theorem Core.team_modGroup (c : Core) (id j : Nat) (f : Group → Group) : (c.modGroup j f).team id = c.team id := rfl

/-- A pool without claims serves none (R46). -/
theorem Core.serve_of_claims_nil (c : Core) (n id : Nat) (t : Team) (ht : c.team id = some t) (hc : t.claims = []) :
    c.serve n id = c := by
  cases n with
  | zero => rfl
  | succ n => rw [Core.serve, ht]; simp only [hc]

/-- The oldest claim keeps its turn while the pool is smaller (R46). -/
theorem Core.serve_of_pool_lt (c : Core) (n id slot m : Nat) (t : Team) (rest : List (Nat × Nat))
    (ht : c.team id = some t) (hc : t.claims = (slot, m) :: rest) (hp : t.pool < m) : c.serve n id = c := by
  cases n with
  | zero => rfl
  | succ n => rw [Core.serve, ht]; simp only [hc, hp, true_or, if_true]

/-- The only claim of a team, of a running group, is served where the pool allows (R46). -/
theorem Core.serve_one (c : Core) (n id slot m : Nat) (t : Team) (g : Group) (ht : c.team id = some t)
    (hc : t.claims = [(slot, m)]) (hp : m ≤ t.pool) (hg : c.group slot = some g) (hr : g.stopped = false) :
    c.serve (n + 1) id =
      (c.modGroup slot (·.grow m)).modTeam id fun t => { t with pool := t.pool - m, claims := [] } := by
  have hgo : ¬(t.pool < m ∨ ((c.group slot).map Group.stopped).getD true = true) := by
    rw [hg, Option.map_some, Option.getD_some, hr]; simp [hp]
  rw [Core.serve, ht]
  simp only [hc, if_neg hgo]
  refine Core.serve_of_claims_nil _ n id { t with pool := t.pool - m, claims := [] } ?_ rfl
  rw [Core.team_modTeam _ id _ (by intros; rfl), Core.team_modGroup, ht]
  rfl

/-! ## The group and the team being issued after a change of their core -/

/-- The core being issued after a change of its group and of the core. -/
theorem State.cur_onGrp_onCore (s : State) (f : Group → Group) (h : Core → Core) (hi : s.issuing = true) :
    ((s.onGrp f).onCore h).cur = h (s.cur.modGroup s.issue.slot f) := by
  obtain ⟨g, hg, -, -⟩ := State.issuing_elim s hi
  have hk := State.core_lt_of_group s _ _ g hg
  have hk' : s.issue.core < (s.onGrp f).cores.length := by simpa [State.onGrp, State.modGroup, State.modCore] using hk
  change ((s.onGrp f).modCore s.issue.core h).core s.issue.core = _
  rw [State.core_modCore _ _ _ hk']
  exact congrArg h (State.core_modCore s s.issue.core _ hk)

/-- The group and the team being issued, read from the core being issued. -/
theorem State.grp_curTeam_of_cur (s t : State) (c : Core) (g : Group) (tm : Team) (hi : t.issue = s.issue)
    (hc : t.cur = c) (hg : c.group s.issue.slot = some g) (ht : c.team g.team = some tm) :
    t.grp = g ∧ t.curTeam = tm := by
  subst hc
  have hgrp : t.grp = g := State.grp_eq t g (by rw [← hi] at hg; exact hg)
  exact ⟨hgrp, by rw [State.curTeam, hgrp, ht]; rfl⟩

/-- A change of the group and of its core that leaves the group `g` and the team `tm` in place. -/
theorem State.onGrp_onCore_next (s : State) (f : Group → Group) (h : Core → Core) (g : Group) (tm : Team)
    (hi : s.issuing = true) (hg : (h (s.cur.modGroup s.issue.slot f)).group s.issue.slot = some g)
    (ht : (h (s.cur.modGroup s.issue.slot f)).team g.team = some tm) :
    SameMemory s ((s.onGrp f).onCore h) ∧ ((s.onGrp f).onCore h).grp = g ∧ ((s.onGrp f).onCore h).curTeam = tm :=
  ⟨fun _ => rfl, State.grp_curTeam_of_cur s _ _ g tm rfl (s.cur_onGrp_onCore f h hi) hg ht⟩

/-! ## Register pools -/

/-- `role.give` where no claim waits (R45). -/
theorem roleGive_next (s : State) (c u : Bool) (n : BitVec 15) (tm : Team) (hi : s.issuing = true)
    (he : s.issue.exec ≠ 0) (ht : s.cur.team s.grp.team = some tm) (hc : tm.claims = []) (h1 : 1 ≤ n.toNat)
    (h15 : n.toNat ≤ 15) (hlen : 8 * n.toNat + 8 ≤ s.grp.rf.v.length)
    (hp : s.pendingFrom (s.grp.rf.v.length - 8 * n.toNat) = false) :
    ∃ t, exec (.roleGive c u n) s = .next t ∧ SameMemory s t ∧
      t.grp = { s.grp with rf := { s.grp.rf with v := s.grp.rf.v.take (s.grp.rf.v.length - 8 * n.toNat) } } ∧
      t.curTeam = { tm with pool := tm.pool + n.toNat } := by
  obtain ⟨g, hg, -, len⟩ := State.issuing_elim s hi
  obtain rfl := State.grp_eq s g hg
  let less := fun (g : Group) => { g with rf := { g.rf with v := g.rf.v.take (s.grp.rf.v.length - 8 * n.toNat) } }
  let give := fun (t : Team) => { t with pool := t.pool + n.toNat }
  have hteam : ((s.cur.modGroup s.issue.slot less).modTeam s.grp.team give).team s.grp.team = some (give tm) := by
    rw [Core.team_modTeam _ _ _ (by intros; rfl), Core.team_modGroup, ht]; rfl
  have hserve := Core.serve_of_claims_nil _ 16 s.grp.team (give tm) hteam hc
  refine ⟨(s.onGrp less).onCore fun c => (c.modTeam s.grp.team give).serveClaims s.grp.team, ?_,
    s.onGrp_onCore_next _ _ _ _ hi ?_ ?_⟩
  · have hok : (1 ≤ n.toNat && n.toNat ≤ 15 && 8 * n.toNat + 8 ≤ s.grp.rf.v.length) = true := by simp [h1, h15, hlen]
    change execRoleGive c u n s = _
    rw [execRoleGive, ← len]
    simp only [hok, hp, Bool.false_eq_true, and_false, if_false, State.checked, if_true, if_neg he]
    rfl
  · simp only [Core.serveClaims, hserve]
    exact (Core.group_modGroup s.cur s.issue.slot less).trans (by rw [show s.cur.group s.issue.slot = some s.grp from hg]; rfl)
  · simp only [Core.serveClaims, hserve]
    exact hteam

/-- A claim of the group being issued, as `role.claim` enters it (R46). -/
def State.claiming (s : State) (n : Nat) (g : Group) : Group := { g with claim := some n, heldPc := s.issue.pc }

/-- The claims of a team with one more, of the group being issued. -/
def State.claimed (s : State) (n : Nat) (t : Team) : Team := { t with claims := t.claims ++ [(s.issue.slot, n)] }

/-- `role.claim` takes its turn, and its team's pool is served (R46). -/
theorem roleClaim_eq (s : State) (c u : Bool) (n : BitVec 15) (hi : s.issuing = true) (he : s.issue.exec ≠ 0)
    (h1 : 1 ≤ n.toNat) (h15 : n.toNat ≤ 15) (hlen : s.grp.rf.v.length + 8 * n.toNat ≤ 128) :
    exec (.roleClaim c u n) s = .next ((s.onGrp (s.claiming n.toNat)).onCore fun c =>
      (c.modTeam s.grp.team (s.claimed n.toNat)).serveClaims s.grp.team) := by
  obtain ⟨g, hg, -, len⟩ := State.issuing_elim s hi
  obtain rfl := State.grp_eq s g hg
  change execRoleClaim c u n s = _
  rw [execRoleClaim, ← len, State.checked_ok _ _ _ (by simp [h1, h15, hlen]), if_neg he]
  rfl

/-- The team of the group being issued once its claim stands. -/
theorem State.team_claimed (s : State) (n : Nat) (tm : Team) (ht : s.cur.team s.grp.team = some tm) :
    ((s.cur.modGroup s.issue.slot (s.claiming n)).modTeam s.grp.team (s.claimed n)).team s.grp.team =
      some (s.claimed n tm) := by
  rw [Core.team_modTeam _ _ _ (by intros; rfl), Core.team_modGroup, ht]; rfl

/-- The group being issued once its claim stands. -/
theorem State.group_claimed (s : State) (n : Nat) (hi : s.issuing = true) :
    ((s.cur.modGroup s.issue.slot (s.claiming n)).modTeam s.grp.team (s.claimed n)).group s.issue.slot =
      some (s.claiming n s.grp) := by
  obtain ⟨g, hg, -, -⟩ := State.issuing_elim s hi
  obtain rfl := State.grp_eq s g hg
  have hg' : s.cur.group s.issue.slot = some s.grp := hg
  rw [Core.group_modTeam, Core.group_modGroup, hg']; rfl

/-- `role.claim` of a running group whose team has no older claim and room in its pool (R46). -/
theorem roleClaim_served (s : State) (c u : Bool) (n : BitVec 15) (tm : Team) (hi : s.issuing = true)
    (he : s.issue.exec ≠ 0) (ht : s.cur.team s.grp.team = some tm) (hc : tm.claims = []) (h1 : 1 ≤ n.toNat)
    (h15 : n.toNat ≤ 15) (hlen : s.grp.rf.v.length + 8 * n.toNat ≤ 128) (hr : s.grp.phase = .running)
    (hp : n.toNat ≤ tm.pool) :
    ∃ t, exec (.roleClaim c u n) s = .next t ∧ SameMemory s t ∧
      t.grp = { s.grp with claim := none, heldPc := s.issue.pc, rf := { s.grp.rf with
        v := s.grp.rf.v ++ List.replicate (8 * n.toNat) (List.replicate 32 0) } } ∧
      t.curTeam = { tm with pool := tm.pool - n.toNat } := by
  have hteam := s.team_claimed n.toNat tm ht
  have hgroup := s.group_claimed n.toNat hi
  have hserve := Core.serve_one _ 15 s.grp.team s.issue.slot n.toNat _ _ hteam (by rw [State.claimed, hc]; rfl) hp hgroup
    (by rw [Group.stopped, State.claiming, hr]; rfl)
  have hnext := s.onGrp_onCore_next (s.claiming n.toNat)
    (fun c => (c.modTeam s.grp.team (s.claimed n.toNat)).serveClaims s.grp.team)
    ((s.claiming n.toNat s.grp).grow n.toNat) { tm with pool := tm.pool - n.toNat } hi
  refine ⟨_, roleClaim_eq s c u n hi he h1 h15 hlen, hnext ?_ ?_⟩
  · rw [Core.serveClaims, hserve, Core.group_modTeam, Core.group_modGroup, hgroup]; rfl
  · rw [Core.serveClaims, hserve]
    refine (Core.team_modTeam _ s.grp.team _ (by intros; rfl)).trans ?_
    rw [Core.team_modGroup, hteam, ← hc]; rfl

/-- `role.claim` of a group whose team's pool is too small: it takes its turn (R46). -/
theorem roleClaim_waits (s : State) (c u : Bool) (n : BitVec 15) (tm : Team) (hi : s.issuing = true)
    (he : s.issue.exec ≠ 0) (ht : s.cur.team s.grp.team = some tm) (hc : tm.claims = []) (h1 : 1 ≤ n.toNat)
    (h15 : n.toNat ≤ 15) (hlen : s.grp.rf.v.length + 8 * n.toNat ≤ 128) (hp : tm.pool < n.toNat) :
    ∃ t, exec (.roleClaim c u n) s = .next t ∧ SameMemory s t ∧
      t.grp = { s.grp with claim := some n.toNat, heldPc := s.issue.pc } ∧
      t.curTeam = { tm with claims := [(s.issue.slot, n.toNat)] } := by
  have hteam := s.team_claimed n.toNat tm ht
  have hserve := Core.serve_of_pool_lt _ 16 s.grp.team s.issue.slot n.toNat _ [] hteam (by rw [State.claimed, hc]; rfl) hp
  have hnext := s.onGrp_onCore_next (s.claiming n.toNat)
    (fun c => (c.modTeam s.grp.team (s.claimed n.toNat)).serveClaims s.grp.team)
    (s.claiming n.toNat s.grp) { tm with claims := [(s.issue.slot, n.toNat)] } hi
  refine ⟨_, roleClaim_eq s c u n hi he h1 h15 hlen, hnext ?_ ?_⟩
  · rw [Core.serveClaims, hserve]; exact s.group_claimed n.toNat hi
  · rw [Core.serveClaims, hserve]
    refine hteam.trans ?_
    rw [State.claimed, hc]; rfl

end Sys2Proof.Machine
end

section
/-! SUPPORT and PROOF. One lane's read at once, parked lanes, and the words of O30 (R34, R353). -/

namespace Sys2Proof.Machine

/-! ## One lane's read at once -/

/-- A check that passes is the access of its lane at its address (R263). -/
theorem State.tryGlobal_of_passes (s : State) (want : Want) (n l : Nat) (va : DWord)
    (h : (s.tryGlobal want n l va).fault = none) :
    ∃ pa sc, s.tryGlobal want n l va = .pass l va (.phys pa) sc true := by
  unfold State.tryGlobal at h ⊢
  split at h
  · simp [Try.fail] at h
  · next ha =>
    rw [if_neg ha]
    split at h
    · simp [Try.fail] at h
    · next pa sc _ _ he => exact ⟨pa, sc, rfl⟩

/-- The same, where the access is known to lie at `pa`. -/
theorem Lies.try_eq {s : State} {want : Want} {l n : Nat} {va : DWord} {pa : Nat} (h : Lies s want l n va pa) :
    ∃ sc, s.tryGlobal want n l va = .pass l va (.phys pa) sc true := by
  obtain ⟨qa, sc, he⟩ := s.tryGlobal_of_passes want n l va h.passes
  have hp := h.place
  rw [he] at hp
  obtain rfl : qa = pa := by simpa [Try.pass] using hp
  exact ⟨sc, he⟩

/-- Sound data have no uncorrectable ECC word (R161, R436). -/
theorem State.sound.no_bad {s : State} {pa n : Nat} (h : s.sound pa n) : ∀ w ∈ s.bad, overlap pa n w 32 = false := by
  intro w hw
  have hc := h.good
  unfold State.homeCode at hc
  by_cases hb : s.badAt pa n
  · cases hk : backed (paLocal pa) <;> simp [hb, hk] at hc
  · have hw' : ¬(w < pa + n ∧ pa < w + 32) := by
      simp only [State.badAt, List.any_eq_true, Bool.and_eq_true, decide_eq_true_eq, not_exists, not_and] at hb ⊢
      exact hb w hw
    simp only [overlap, decide_eq_false_iff_not]
    omega

/-- A read of sound data of the package answers at once and changes nothing (R161, R441). -/
theorem State.sound.readAt_eq {s : State} {pa n : Nat} (h : s.sound pa n) (hh : s.beyond (.phys pa) = none) (k id : Nat)
    (who : List Nat) : s.readAt k id who pa n = (s, some (0, s.coreRead k id (.phys pa) n)) := by
  rw [State.readAt_here s k id who pa n hh h.no_bad h.strong, h.good]

/-- What one lane reads at once, where the data are sound. -/
theorem State.readLanes_one (s : State) (n pa : Nat) (x : LaneAccess) (hx : x.loc = .phys pa) (h : s.sound pa n)
    (hh : s.beyond (.phys pa) = none) :
    (s.readLanes n [x]).1 = s ∧ (s.readLanes n [x]).2.1 x = 0 ∧
      (s.readLanes n [x]).2.2 x = s.coreRead s.issue.core s.nextId (.phys pa) n := by
  simp [State.readLanes, hx, h.readAt_eq hh]

/-- No comparator matches an access of a lane that none compares (R170, R355). -/
theorem State.watchers_of_unwatched (s : State) (l : Nat) (h : s.unwatched l) (store : Bool) (x : LaneAccess) (n : Nat)
    (hx : x.lane = l) (hg : x.global = true) (new old : List Byte) : s.watchers store x n new old = [] := by
  refine (s.unseen_spec store x n ?_ new old).2
  subst hx
  rcases h with h | h
  · simp [State.unseen, h]
  · have hoff : s.cur.watch.any (fun w => s.watches { w with data := 0 } store x n [] []) = false := by
      rw [List.any_eq_false]
      intro w hw
      simp [State.watches, State.seenAt, hg, Comparator.hits, Comparator.compares, h w hw]
    rw [State.unseen, hoff, Bool.not_false, Bool.or_true]

/-- One lane's access that passes and that no comparator matches goes on (R154, R263). -/
theorem State.access_one (s : State) (u sc : Bool) (l : Nat) (va : DWord) (loc : Loc) (global : Bool)
    (watch : LaneAccess → List Nat) (go : List LaneAccess → Bool → State → State)
    (h : watch ⟨l, va, loc, global⟩ = []) :
    s.access u [.pass l va loc sc global] watch go = go [⟨l, va, loc, global⟩] sc s := by
  simp [State.access, Try.pass, h, State.noteMalformed_zero, State.raiseLanes, lowestCause]

/-! ## A word in which one lane acts -/

/-- The lanes that one acting lane stands for are the executing ones, and they take its result (R37, R59). -/
theorem State.doers_one (s : State) (u : Bool) (l : Nat) (h : s.doers u = [l]) :
    s.issue.exec ≠ 0 ∧ (∀ k, s.issue.exec.getLsbD k → s.from u k = l) ∧
      ∀ x : LaneAccess, x.lane = l → s.accessMask u [x] = s.issue.exec := by
  unfold State.doers at h
  by_cases he : s.issue.exec = 0
  · rw [if_pos he] at h; simp at h
  rw [if_neg he] at h
  refine ⟨he, ?_⟩
  cases u with
  | true =>
    obtain rfl : lowest s.issue.exec = l := by simpa using h
    exact ⟨fun _ _ => rfl, fun _ _ => rfl⟩
  | false =>
    have hl : lanesOf s.issue.exec = [l] := by simpa using h
    have hone : ∀ k, s.issue.exec.getLsbD k = true ↔ k = l := fun k => by rw [← mem_lanesOf, hl, List.mem_singleton]
    refine ⟨fun k hk => (hone k).1 hk, fun x hx => ?_⟩
    apply BitVec.eq_of_getLsbD_eq
    intro k hk
    rw [State.accessMask, if_neg Bool.false_ne_true, maskOf_getLsbD, Bool.eq_iff_iff, hone k]
    simpa [hk, hx] using eq_comm

/-! ## Parked lanes -/

/-- A group one of whose lanes neither waits nor has exited is not all parked (R35). -/
theorem Group.allParked_of_free (g : Group) (changed : ParkRec → Bool) (k : Nat) (hk : k < g.lanes.length)
    (hp : (g.lane k).park = none) (hv : (g.lane k).vpc ≠ 0xFFFFFFFF) : g.allParked changed = g := by
  unfold Group.allParked
  have hm : g.lane k ∈ g.lanes := by
    simp only [Group.lane, List.getD_eq_getElem?_getD, List.getElem?_eq_getElem hk, Option.getD_some]
    exact List.getElem_mem hk
  rw [if_neg]
  rintro ⟨-, h⟩
  have := List.all_eq_true.1 h _ hm
  simp [hp] at this
  exact hv this

/-- A group none of whose lanes waits is not all parked (R35). -/
theorem Group.allParked_of_unparked (g : Group) (changed : ParkRec → Bool)
    (h : ∀ k, k < g.lanes.length → (g.lane k).park = none) : g.allParked changed = g := by
  unfold Group.allParked
  rw [if_neg]
  rintro ⟨h1, -⟩
  obtain ⟨t, ht, hp⟩ := List.any_eq_true.1 h1
  obtain ⟨k, hk, rfl⟩ := List.getElem_of_mem ht
  have := h k hk
  simp only [Group.lane, List.getD_eq_getElem?_getD, List.getElem?_eq_getElem hk, Option.getD_some] at this
  simp [this] at hp

/-- The wait that lane `l` takes when it parks on the word at `pa` (R34, R353). -/
def State.parkRec (s : State) (va : DWord) (pa d : Nat) (expected : DWord) (l : Nat) : ParkRec :=
  ⟨false, va, pa, 4, expected, s.clk + 65536, d, 0, BitVec.ofNat 32 (2 ^ l), s.issue.pc, none, 0⟩

/-- Lanes that take waits. -/
def Group.parkAll (g : Group) (r : Nat → ParkRec) (ls : List Nat) : Group :=
  ls.foldl (fun g l => g.modLane l fun t => { t with park := some (r l) }) g

theorem Group.parkAll_lanes (g : Group) (r : Nat → ParkRec) (ls : List Nat) :
    g.parkAll r ls = { g with lanes := (g.parkAll r ls).lanes } ∧ (g.parkAll r ls).lanes.length = g.lanes.length := by
  induction ls generalizing g with
  | nil => exact ⟨rfl, rfl⟩
  | cons l ls ih =>
    obtain ⟨h1, h2⟩ := ih (g.modLane l fun t => { t with park := some (r l) })
    exact ⟨h1, h2.trans (by simp [Group.modLane])⟩

/-- Each lane of the list has its wait, every other lane is as before. -/
theorem Group.lane_parkAll (g : Group) (r : Nat → ParkRec) (ls : List Nat) (hn : ls.Nodup)
    (hl : ∀ l ∈ ls, l < g.lanes.length) (k : Nat) :
    (g.parkAll r ls).lane k = if k ∈ ls then { g.lane k with park := some (r k) } else g.lane k := by
  induction ls generalizing g with
  | nil => simp [Group.parkAll]
  | cons l ls ih =>
    obtain ⟨hnl, hn⟩ := List.nodup_cons.1 hn
    let g' := g.modLane l fun t => { t with park := some (r l) }
    have hlen : g'.lanes.length = g.lanes.length := by simp [g', Group.modLane]
    have h : (g.parkAll r (l :: ls)).lane k = _ := ih g' hn fun j hj => by rw [hlen]; exact hl j (List.mem_cons_of_mem _ hj)
    rw [h, Group.lane_modLane g l _ k (hl l List.mem_cons_self)]
    by_cases e : k = l
    · subst e; simp [hnl]
    · simp [e]

/-- The executing lanes park one after another: one change of the group. -/
theorem State.parkLane_fold (s : State) (va : DWord) (pa d : Nat) (global : Bool) (lane : Nat) (want : Word)
    (ls : List Nat) : ∀ f : Group → Group,
    ls.foldl (fun t l => t.parkLane l d ⟨lane, va, .phys pa, global⟩ want) (s.onGrp f) =
      s.onGrp fun g => (f g).parkAll (s.parkRec va pa d (want.setWidth 64)) ls := by
  induction ls with
  | nil => intro f; rfl
  | cons l ls ih =>
    intro f
    rw [List.foldl_cons, State.parkLane]
    simp only [State.onGrp_clk, State.onGrp_issue, State.onGrp_onGrp]
    exact ih _

/-! ## `park` -/

/-- What `park` does in the lane that acts, once it has read (R353). -/
def State.parkOn (s : State) (u : Bool) (d l : Nat) (va : DWord) (pa : Nat) (want : Word) : State :=
  if leNat (s.coreRead s.issue.core s.nextId (.phys pa) 4) = want.toNat then
    (lanesOf s.issue.exec).foldl (fun t k => t.parkLane k d ⟨l, va, .phys pa, true⟩ want) s
  else s.putV u d fun _ => 0

/-- `park` with what then becomes of a group all of whose lanes wait (R35). -/
def State.parkWord (s : State) (u : Bool) (d l : Nat) (va : DWord) (pa : Nat) (want : Word) : State :=
  (s.parkOn u d l va pa want).onGrp (·.allParked (s.parkChanged s.issue.core))

/-- What `park` answers where one lane acts and its read passes. -/
theorem park_eq (s : State) (c u x : Bool) (d a b : BitVec 7) (l pa : Nat) (hd : s.doers u = [l])
    (hm : s.memHeld = none) (hu : s.unwatched l) (vd : s.vOk d.toNat = true) (va : s.v2Ok a.toNat = true)
    (vb : s.bOk b.toNat x = true) (hr : Reaches s .read l 4 (s.A2 a.toNat l) pa)
    (ho : s.overtakes (.phys pa) 4 = false) :
    exec (.park c u d a b x) s = .next (s.parkWord u d.toNat l (s.A2 a.toNat l) pa (s.B b.toNat x l)) := by
  obtain ⟨he, -, hmask⟩ := s.doers_one u l hd
  obtain ⟨sc, htry⟩ := hr.toLies.try_eq
  obtain ⟨hq, hcode, hbytes⟩ := s.readLanes_one 4 pa ⟨l, s.A2 a.toNat l, .phys pa, true⟩ rfl hr.tosound hr.here
  have hroom := hr.room
  have hpass : passed [s.tryGlobal .read 4 l (s.A2 a.toNat l)] = [⟨l, s.A2 a.toNat l, .phys pa, true⟩] := by
    rw [htry]; rfl
  change execPark c u d a b x s = _
  rw [execPark, State.checked_ok _ _ _ (by rw [vd, va, vb]; rfl), hd]
  simp only [List.map_cons, List.map_nil, hpass, List.any_cons, List.any_nil, ho, hroom, if_neg he, hm, Option.orElse,
    Bool.or_false, Bool.false_eq_true, if_false, State.after]
  rw [hq, htry, State.access_one _ _ _ _ _ _ _ _ _ (s.watchers_of_unwatched l hu _ _ _ rfl rfl _ _)]
  simp only [List.foldl_cons, List.foldl_nil, hcode, hbytes, hmask]
  rfl

/-- `park` on a word that differs answers 0 at once (R353). -/
theorem State.parkWord_differs (s : State) (u : Bool) (d l : Nat) (va : DWord) (pa : Nat) (want : Word)
    (hi : s.issuing = true) (hd : s.vOk d = true)
    (hw : leNat (s.coreRead s.issue.core s.nextId (.phys pa) 4) ≠ want.toNat)
    (hp : ∀ k, k < 32 → (s.grp.lane k).park = none) :
    WritesV s (.next (s.parkWord u d l va pa want)) u d fun _ => 0 := by
  obtain ⟨g, hg, sh, -⟩ := State.issuing_elim s hi
  obtain rfl := State.grp_eq s g hg
  have hlen : s.grp.lanes.length = 32 := (Group.shaped_iff _ |>.1 sh).2.2.2.1
  have hkeep : s.parkWord u d l va pa want = s.putV u d fun _ => 0 := by
    rw [State.parkWord, State.parkOn, if_neg hw]
    exact State.onGrp_id _ _ _ (State.group_modGroup s _ _ _ _ hg)
      (Group.allParked_of_unparked _ _ fun k hk => hp k (hk.trans_eq hlen))
  rw [hkeep]
  exact s.putV_writesV u d _ _ hi hd fun _ => rfl

/-- `park` on a word that holds what is expected parks the executing lanes (R34, R353). -/
theorem State.parkWord_waits (s : State) (u : Bool) (d l : Nat) (va : DWord) (pa : Nat) (want : Word)
    (hi : s.issuing = true) (hw : leNat (s.coreRead s.issue.core s.nextId (.phys pa) 4) = want.toNat)
    (hfree : ∃ k, k < 32 ∧ s.issue.exec.getLsbD k = false ∧ (s.grp.lane k).park = none ∧ (s.grp.lane k).vpc ≠ 0xFFFFFFFF) :
    OnlyGroup s (s.parkWord u d l va pa want) (fun g => { g with lanes := (s.parkWord u d l va pa want).grp.lanes }) ∧
      ∀ k, (s.parkWord u d l va pa want).grp.lane k = if s.issue.exec.getLsbD k then
        { s.grp.lane k with park := some (s.parkRec va pa d (want.setWidth 64) k) } else s.grp.lane k := by
  obtain ⟨g, hg, sh, -⟩ := State.issuing_elim s hi
  obtain rfl := State.grp_eq s g hg
  have hlen : s.grp.lanes.length = 32 := (Group.shaped_iff _ |>.1 sh).2.2.2.1
  obtain ⟨j, hj, hje, hjp, hjv⟩ := hfree
  let r := s.parkRec va pa d (want.setWidth 64)
  let t := s.onGrp fun g => g.parkAll r (lanesOf s.issue.exec)
  have hgrp : t.grp = s.grp.parkAll r (lanesOf s.issue.exec) := State.grp_onGrp s _ _ hg
  obtain ⟨hlanes, hlanesLen⟩ := s.grp.parkAll_lanes r (lanesOf s.issue.exec)
  have hlane : ∀ k, t.grp.lane k =
      if s.issue.exec.getLsbD k then { s.grp.lane k with park := some (r k) } else s.grp.lane k := by
    intro k
    rw [hgrp, Group.lane_parkAll _ _ _ (lanesOf_nodup _)
      (fun i hi => by rw [hlen]; exact BitVec.lt_of_getLsbD ((mem_lanesOf _ _).1 hi))]
    simp only [mem_lanesOf]
  have hparked : s.parkOn u d l va pa want = t := by
    have hid : s.onGrp id = s := State.onGrp_id s id s.grp hg rfl
    have hfold := s.parkLane_fold va pa d true l want (lanesOf s.issue.exec) id
    rw [hid] at hfold
    rw [State.parkOn, if_pos hw, hfold]
    rfl
  have hkeep : s.parkWord u d l va pa want = t := by
    have ht : (t.core t.issue.core).group t.issue.slot = some (s.grp.parkAll r (lanesOf s.issue.exec)) :=
      State.group_modGroup s _ _ _ _ hg
    rw [State.parkWord, hparked]
    refine State.onGrp_id t _ _ ht (Group.allParked_of_free _ _ j (by rw [hlanesLen, hlen]; exact hj) ?_ ?_)
    · rw [← hgrp, hlane, if_neg (by simp [hje])]; exact hjp
    · rw [← hgrp, hlane, if_neg (by simp [hje])]; exact hjv
  rw [hkeep]
  refine ⟨⟨State.onGrp_congr s _ _ _ hg ?_, fun _ => rfl⟩, hlane⟩
  rw [hgrp]
  exact hlanes

/-- Settles O30: the pools by what serving a team's claims does, `park` by the read of its one acting lane. -/
theorem poolsAndPark : Obligations.PoolsAndPark := by
  unfold Obligations.PoolsAndPark
  refine ⟨fun s c u n tm hi he ht hc h1 h15 => ⟨fun hlen hp => ?_, fun hlen hr => ⟨fun hp => ?_, fun hp => ?_⟩⟩, ?_⟩
  · exact roleGive_next s c u n tm hi he ht hc h1 h15 hlen hp
  · exact roleClaim_served s c u n tm hi he ht hc h1 h15 hlen hr hp
  · exact roleClaim_waits s c u n tm hi he ht hc h1 h15 hlen hp
  · intro s c u x d a b l w pa hi hd _ hm hu vd va vb hr ho hw
    subst hw
    rw [park_eq s c u x d a b l pa hd hm hu vd va vb hr ho]
    refine ⟨fun hne hp => s.parkWord_differs u d.toNat l _ pa _ hi vd hne hp, fun heq hfree => ?_⟩
    obtain ⟨honly, hlane⟩ := s.parkWord_waits u d.toNat l (s.A2 a.toNat l) pa (s.B b.toNat x l) hi heq hfree
    rw [← BitVec.ofNat_toNat, ← heq] at hlane
    exact ⟨_, rfl, honly, fun k _ => hlane k⟩

end Sys2Proof.Machine
end

section
/-! SUPPORT and PROOF. Causes of word extent (O46). -/

namespace Sys2Proof.Machine

/-! ## Causes of word extent -/

/-- What a taken exception leaves holds whatever the issue register notes of the word's operands (R155, R476). -/
theorem Taken.noteOperand {s t : State} {c : Cause} {mask unfin : Word} {va : DWord} {code : BitVec 22}
    (h : Taken s t c mask unfin va code) (b : Bool) :
    Taken s { t with issue := { t.issue with operand := b } } c mask unfin va code where
  report := h.report
  cause := h.cause
  resume := h.resume
  unfinished := h.unfinished
  placed := h.placed
  registers := h.registers
  frame := congrArg (fun t : State => { t with issue := { t.issue with operand := b } }) h.frame
  issue := congrArg (fun i : Issue => { i with operand := b }) h.issue
  memory := h.memory

/-- A cause of word extent is taken by the executing lanes (R151, R154). -/
theorem State.raise_takes (s : State) (c : Cause) (hi : s.issuing = true) (he : s.issue.exec ≠ 0)
    (hr : s.grp.report = none) : Takes s (.next (s.raise c)) c 0 := by
  have ht := s.takeFault_taken c s.issue.exec s.issue.exec 0 0 [] [] hi hr
  refine ⟨_, rfl, ?_⟩
  rw [State.raise, if_neg he]
  by_cases hc : c = .illegalOperand
  · simp only [hc, if_true] at ht ⊢
    exact ht.noteOperand true
  · simp only [if_neg hc]
    exact ht

/-- A word whose operands fail their check raises illegal-operand (R44, R213). -/
theorem State.checked_takes (s : State) (ok : Bool) (t : State) (hok : ok = false) (hi : s.issuing = true)
    (he : s.issue.exec ≠ 0) (hr : s.grp.report = none) : Takes s (s.checked ok t) .illegalOperand 0 := by
  rw [State.checked, hok, if_neg Bool.false_ne_true]
  exact s.raise_takes _ hi he hr

/-- The cause that a rejected pattern raises (R213). -/
theorem Reject.cause_eq (r : Reject) : Reject.cause r = if r = .reservedField then .reservedField
    else if r = .illegalOperand then .illegalOperand else .illegalOpcode := by
  cases r <;> rfl

/-- Settles O46: an operand check that fails and the words that cannot issue raise their causes for the whole word. -/
theorem wordFaults : Obligations.WordFaults := by
  unfold Obligations.WordFaults
  intro s c u x d a b w f hi he hr
  refine ⟨fun hok => ?operands, fun r hd => ?pattern, s.raise_takes _ hi he hr, fun e va hs => ?fetch⟩
  case operands =>
    have h := fun t => s.checked_takes _ t hok hi he hr
    exact ⟨h _, h _, h _, h _, h _, h _, h _⟩
  case pattern =>
    have hx : exec (.notAnInstruction w) s = .next (s.raise (Reject.cause r)) := by
      change execNotAnInstruction w s = _
      rw [execNotAnInstruction, hd]
    rw [hx, ← Reject.cause_eq]
    exact s.raise_takes _ hi he hr
  case fetch =>
    refine ⟨_, rfl, ?_⟩
    rw [if_neg he, hs]
    exact s.takeFault_taken _ _ _ _ _ _ _ hi hr

end Sys2Proof.Machine
end

section
/-! SUPPORT and PROOF. A bundle of one word, from the selected group to its end (O56). -/

namespace Sys2Proof.Machine

/-! ## Issuing one word -/

/-- The groups that are selected to issue play no part in where code lies. -/
theorem State.codeSpots_issueQ (s : State) (q : List (Nat × Nat)) (space : Nat) (tenant : BitVec 16) (pc : Word) :
    { s with issueQ := q }.codeSpots space tenant pc = s.codeSpots space tenant pc := rfl

/-- The bundle that stands at the issue address of a live group whose packet can be read (R30, R196). -/
theorem State.front_bundle (s : State) (k : Nat) (g : Group) (pas ws : List Nat) (hl : g.firstPc ≠ 0xFFFFFFFF)
    (hs : s.codeSpots ((s.core k).codeSpace g).1 ((s.core k).codeSpace g).2 g.firstPc = .ok pas)
    (hc : s.codeOf g pas = some (ws, 0)) (hr : roleOf (roles ws) (g.firstPc.toNat % 3) ≠ .literal) :
    s.front k g = .bundle { pc := g.firstPc, act := g.active, ws := ws,
                            at_ := bundleAt ws (roles ws) (g.firstPc.toNat % 3) } := by
  have ha : g.alive = true := by simpa [Group.alive] using hl
  simp [State.front, ha, hs, hc, hr]

/-- A bundle of one word without a cause of its packet raises nothing before it (R155, R213). -/
theorem State.decoded_single (s : State) (b : Bundle) (n : Nat) (ha : b.at_ = [n]) (hc : b.packetCauses n = [])
    (hk : b.chainConflict = false) : s.decoded b = (s, [n]) := by
  have h : s.decodeCause b = none := by simp [State.decodeCause, ha, hc, hk]
  rw [State.decoded, h, ha]

/-- The only word of a bundle runs its instruction, with the issue register at the word (R31, R200). -/
theorem State.runWords_single (s t : State) (b : Bundle) (n : Nat) (i : Instr) (hr : b.role n = .instr i)
    (hx : exec i (s.openWord b n) = .next t) (ht : t.issue.stall = none) : s.runWords b [n] = (t.wordDone, none) := by
  have hw : s.runWord b n = t := by rw [State.runWord, hr, Role.run, hx]; rfl
  simp [State.runWords, hw, ht]

/-- A bundle of one word that nothing keeps back issues: its instruction is carried out, it holds its pipes, and the lanes
advance (R31, R39, R214). -/
theorem State.issueBundle_single (s t : State) (k j : Nat) (b : Bundle) (n : Nat) (i : Instr) (ha : b.at_ = [n])
    (hc : b.packetCauses n = []) (hk : b.chainConflict = false) (hp : (s.openBundle k j b).pendingFor b = none)
    (hm : (s.openBundle k j b).mustWait b = false) (hr : b.role n = .instr i)
    (hx : exec i ((s.openBundle k j b).openWord b n) = .next t) (ht : t.issue.stall = none) :
    s.issueBundle k j b = .inl ((t.wordDone.occupied b).closeBundle k j b.pc) := by
  have hb : ({ b with at_ := [n] } : Bundle) = b := by rw [← ha]
  simp only [State.issueBundle, hp, State.decoded_single _ b n ha hc hk, State.tryWords,
    State.runWords_single _ t b n i hr hx ht, hm, hb, Bool.false_eq_true, if_false]

/-- A selected group that runs, has no bundle begun, waits for nothing and has met no error issues its bundle (R28). -/
theorem State.issueGroup_bundle (s : State) (k j : Nat) (g : Group) (b : Bundle) (hg : (s.core k).group j = some g)
    (hr : g.phase = .running) (hp : g.part = none) (hh : (s.core k).held s.clk j g = none) (he : g.errors = [])
    (hf : s.front k g = .bundle b) : s.issueGroup k j = s.took k j (s.issueBundle k j b) := by
  simp [State.issueGroup, hg, hr, hp, hh, he, hf]

/-- The first word of a packet has the role of the instruction that it decodes to (R196). -/
theorem roles_head (w : Nat) (ws : List Nat) (i : Instr) (h : decodeWord w = .ok i) :
    roleOf (roles (w :: ws)) 0 = .instr i := by
  simp [roleOf, roles, rolesFrom, h]

/-- With no input waiting, the next selected group issues. -/
theorem step_issues (s : State) (p : Nat × Nat) (ps : List (Nat × Nat)) (ha : s.agenda = []) (hq : s.issueQ = p :: ps) :
    step s = .next ({ s with issueQ := ps }.issueGroup p.1 p.2) := by
  unfold step
  split
  · next h => rw [ha] at h; cases h
  · next h => rw [hq] at h; cases h; rfl
  · next h => rw [hq] at h; cases h

/-- Settles O56: with no input the selected group's front is the word's bundle, which runs that word alone. -/
theorem stepRunsTheDecodedInstruction : Obligations.StepRunsTheDecodedInstruction := by
  unfold Obligations.StepRunsTheDecodedInstruction
  refine ⟨?_, roles_head⟩
  intro s t k j n q g pas ws i u b v hagenda hq hg hr hp hh he hl hs hc hn hi hb hpc hk hpend hm hx ht
  subst hn
  have hf : u.front k g = .bundle b := by
    have := u.front_bundle k g pas ws hl ((s.codeSpots_issueQ q _ _ _).trans hs) hc (by rw [hi]; nofun)
    rw [hb] at this
    exact this
  rw [step_issues s (k, j) q hagenda hq]
  change Host.Outcome.next (u.issueGroup k j) = _
  rw [u.issueGroup_bundle k j g b hg hr hp hh he hf,
    u.issueBundle_single t k j b _ i rfl hpc hk hpend hm hi hx ht]
  rfl

end Sys2Proof.Machine
end

section
/-! SUPPORT and PROOF. What ends a wait (O44): changes of one core or group, a lane that wakes, and the recheck of a word. -/

namespace Sys2Proof.Machine

/-! ## A change decided by what it makes of one core or one group -/

/-- A change of a core is decided by what it makes of that core. -/
theorem State.modCore_congr (s : State) (k : Nat) (f h : Core → Core) (e : f (s.core k) = h (s.core k)) :
    s.modCore k f = s.modCore k h :=
  congrArg (fun t : State => { t with issue := s.issue })
    (State.onCore_congr { s with issue := { s.issue with core := k } } f h e)

/-- A change of a group is decided by what it makes of that group. -/
theorem State.modGroup_congr (s : State) (k j : Nat) (f f' : Group → Group) (g : Group)
    (h : (s.core k).group j = some g) (e : f g = f' g) : s.modGroup k j f = s.modGroup k j f' :=
  congrArg (fun t : State => { t with issue := s.issue })
    (State.onGrp_congr { s with issue := { s.issue with core := k, slot := j } } f f' g h e)

theorem State.modCore_modCore (s : State) (k : Nat) (f h : Core → Core) :
    (s.modCore k f).modCore k h = s.modCore k (h ∘ f) := by
  simp only [State.modCore, modify_modify_same]

/-- A group that stands in its slot, changed where it is, on a core of which no team is away. -/
theorem Core.modOwner_eq (c : Core) (slot : Nat) (f : Group → Group) (g : Group) (hg : c.group slot = some g)
    (hs : c.saved = []) : c.modOwner slot g.team f = c.modGroup slot f := by
  have hmod : c.groups.modify slot (Option.map fun h => if h.team = g.team then f h else h) =
      c.groups.modify slot (Option.map f) := by
    apply modify_congr
    intro x hx
    obtain rfl : x = some g := by rw [← hg]; simp [Core.group, List.getD_eq_getElem?_getD, hx]
    simp
  unfold Core.modOwner Core.modGroup
  rw [hmod, hs, List.map_nil]

/-- No image holds a group that runs, on a core of which no team is away. -/
theorem Core.patch_running (c : Core) (slot off : Nat) (bs : List Byte) (g : Group) (hg : c.group slot = some g)
    (hr : g.phase = .running) (hs : c.saved = []) : c.patch slot g.team off bs = [] := by
  simp [Core.patch, Core.owner, hg, hr, hs, Option.filter]

/-- A `trywait` of a running group ends where the group is (R289). -/
theorem State.endTry_running (s : State) (k slot p : Nat) (m : Word) (val : Bool) (g : Group)
    (hg : (s.core k).group slot = some g) (hr : g.phase = .running) (hs : (s.core k).saved = []) :
    s.endTry k slot g.team p m val =
      s.modGroup k slot fun g => { g with tryUntil := none, rf := g.rf.setP p m fun _ => val } := by
  have hpatch : ∀ off bs, (s.core k).patch slot g.team off bs = [] := fun off bs =>
    Core.patch_running _ _ _ _ g hg hr hs
  rw [State.endTry]
  simp only [hpatch, ite_self, State.patchMem, List.foldl_nil]
  exact State.modCore_congr s k _ _ (Core.modOwner_eq _ _ _ g hg hs)

/-! ## Lists with one entry that matters -/

/-- A fold that one entry moves and every other leaves, before and behind it. -/
theorem foldl_eq_of_only {α β : Type} (f : β → α → β) (b b' : β) (l : List α) (a : α) (hn : l.Nodup) (ha : a ∈ l)
    (hmove : f b a = b') (hbefore : ∀ x, x ≠ a → f b x = b) (hbehind : ∀ x, x ≠ a → f b' x = b') :
    l.foldl f b = b' := by
  have hkeep : ∀ (c : β) (xs : List α), (∀ x, x ≠ a → f c x = c) → a ∉ xs → xs.foldl f c = c := by
    intro c xs h hx
    induction xs with
    | nil => rfl
    | cons x xs ih =>
      rw [List.mem_cons, not_or] at hx
      rw [List.foldl_cons, h x (Ne.symm hx.1), ih hx.2]
  obtain ⟨xs, ys, rfl⟩ := List.append_of_mem ha
  obtain ⟨-, hys, hdis⟩ := List.nodup_append.1 hn
  have hxs : a ∉ xs := fun h => hdis a h a List.mem_cons_self rfl
  rw [List.foldl_append, hkeep b xs hbefore hxs, List.foldl_cons, hmove,
    hkeep b' ys hbehind (List.nodup_cons.1 hys).1]

/-- A list of which one entry alone has an image. -/
theorem filterMap_eq_singleton {α β : Type} (f : α → Option β) (l : List α) (i : Nat) (a : α) (b : β)
    (hi : l[i]? = some a) (hb : f a = some b) (hn : ∀ j x, j ≠ i → l[j]? = some x → f x = none) :
    l.filterMap f = [b] := by
  obtain ⟨hlt, rfl⟩ := List.getElem?_eq_some_iff.1 hi
  have hbefore : (l.take i).filterMap f = [] := by
    rw [List.filterMap_eq_nil_iff]
    intro x hx
    obtain ⟨j, hj, rfl⟩ := List.mem_take_iff_getElem.1 hx
    exact hn j _ (by omega) (List.getElem?_eq_getElem (by omega))
  have hbehind : (l.drop (i + 1)).filterMap f = [] := by
    rw [List.filterMap_eq_nil_iff]
    intro x hx
    obtain ⟨j, hj, rfl⟩ := List.mem_drop_iff_getElem.1 hx
    exact hn (i + 1 + j) _ (by omega) (List.getElem?_eq_getElem _)
  rw [← List.take_append_drop i l, List.drop_eq_getElem_cons hlt, List.filterMap_append, List.filterMap_cons, hb, hbefore,
    hbehind]
  rfl

/-- Every group of a core changed, where one slot alone holds one. -/
theorem map_groups_eq_modify (l : List (Option Group)) (i : Nat) (f : Group → Group)
    (hn : ∀ j, j ≠ i → l.getD j none = none) : l.map (Option.map f) = l.modify i (Option.map f) := by
  apply List.ext_getElem?
  intro j
  rw [List.getElem?_map, List.getElem?_modify]
  cases hx : l[j]? with
  | none => rfl
  | some x =>
    by_cases e : i = j
    · simp [e]
    · have hj := hn j (Ne.symm e)
      rw [List.getD_eq_getElem?_getD, hx, Option.getD_some] at hj
      subst hj
      simp

/-! ## Waking a parked lane -/

/-- A lane that waits by `park` wakes: its wait is over and its result is written (R34, R353). -/
theorem Group.wake_of_park (g : Group) (l how : Nat) (p : ParkRec) (hp : (g.lane l).park = some p)
    (hpop : p.pop = false) :
    g.wake l how = { g.modLane l (fun t => { t with park := none }) with
      rf := (g.modLane l fun t => { t with park := none }).rf.setV p.dest p.mask fun _ => BitVec.ofNat 32 how } := by
  simp [Group.wake, hp, hpop]

/-- The other lanes of a group in which a lane has woken. -/
theorem Group.lane_wake_ne (g : Group) (l how j : Nat) (p : ParkRec) (hp : (g.lane l).park = some p)
    (hpop : p.pop = false) (hl : l < g.lanes.length) (hj : j ≠ l) : (g.wake l how).lane j = g.lane j := by
  rw [Group.wake_of_park g l how p hp hpop]
  exact (Group.lane_modLane g l _ j hl).trans (if_neg hj)

theorem Group.length_wake (g : Group) (l how : Nat) (p : ParkRec) (hp : (g.lane l).park = some p)
    (hpop : p.pop = false) : (g.wake l how).lanes.length = g.lanes.length := by
  rw [Group.wake_of_park g l how p hp hpop]
  simp [Group.modLane]

/-- A lane that wakes beside one that neither waits nor has exited wakes alone (R35). -/
theorem Group.allParked_wake (g : Group) (l how : Nat) (p : ParkRec) (changed : ParkRec → Bool)
    (hp : (g.lane l).park = some p) (hpop : p.pop = false) (hl : l < g.lanes.length)
    (hfree : ∃ j, j < g.lanes.length ∧ (g.lane j).park = none ∧ (g.lane j).vpc ≠ 0xFFFFFFFF) :
    (g.wake l how).allParked changed = g.wake l how := by
  obtain ⟨j, hj, hjp, hjv⟩ := hfree
  have hne : j ≠ l := by rintro rfl; simp [hp] at hjp
  have hlane := g.lane_wake_ne l how j p hp hpop hl hne
  exact Group.allParked_of_free _ _ j (by rw [g.length_wake l how p hp hpop]; exact hj) (by rw [hlane]; exact hjp)
    (by rw [hlane]; exact hjv)

/-- The lanes of a group look at a word again that only lane `l` waits on and that has changed: that lane wakes (R34). -/
theorem Group.recheck_one (g : Group) (clk l : Nat) (p : ParkRec) (val : Nat → Nat) (changed : ParkRec → Bool)
    (hp : (g.lane l).park = some p) (hpop : p.pop = false) (hl : l < 32) (hlen : g.lanes.length = 32)
    (hfree : ∃ j, j < 32 ∧ (g.lane j).park = none ∧ (g.lane j).vpc ≠ 0xFFFFFFFF)
    (hother : ∀ j o, j < 32 → j ≠ l → (g.lane j).park = some o → o.pa ≠ p.pa)
    (hval : val p.width ≠ p.expected.toNat % 2 ^ (8 * p.width)) :
    g.recheck clk p.pa false val changed = g.wake l (if p.deadline < clk then 3 else 1) := by
  have hother' : ∀ j, j ≠ l → ∀ o, (g.lane j).park = some o → (o.pa == p.pa) = false := by
    intro j hj o ho
    by_cases hj32 : j < 32
    · simpa using hother j o hj32 hj ho
    · have : g.lane j = LaneState.init 0 := by
        simp [Group.lane, List.getD_eq_getElem?_getD, List.getElem?_eq_none (by omega : g.lanes.length ≤ j)]
      rw [this] at ho
      simp [LaneState.init] at ho
  have hval' : (val p.width != p.expected.toNat % 2 ^ (8 * p.width)) = true := by simpa using hval
  unfold Group.recheck
  simp only [Bool.false_eq_true, if_false]
  rw [foldl_eq_of_only _ g (g.wake l (if p.deadline < clk then 3 else 1)) (List.range 32) l List.nodup_range
    (List.mem_range.2 hl)]
  · exact g.allParked_wake l _ p changed hp hpop (by omega) (by rw [hlen]; exact hfree)
  · simp only [hp, hval', beq_self_eq_true, Bool.and_self, Bool.not_true, Bool.false_eq_true, if_false]
  · intro j hj
    cases ho : (g.lane j).park with
    | none => simp only
    | some o => simp only [hother' j hj o ho, Bool.false_and, Bool.not_false, if_true]
  · intro j hj
    rw [g.lane_wake_ne l _ j p hp hpop (by omega) hj]
    cases ho : (g.lane j).park with
    | none => simp only
    | some o => simp only [hother' j hj o ho, Bool.false_and, Bool.not_false, if_true]

/-! ## The recheck of a watched word -/

/-- The lanes of a core that wait on the word that lane `l` of its only group waits on: that lane alone. -/
theorem Core.watchers_one (c : Core) (slot l : Nat) (g : Group) (p : ParkRec) (hg : c.group slot = some g)
    (hs : c.saved = []) (hn : ∀ j, j ≠ slot → c.group j = none) (hl : l < g.lanes.length)
    (hp : (g.lane l).park = some p)
    (hother : ∀ j o, j < g.lanes.length → j ≠ l → (g.lane j).park = some o → o.pa ≠ p.pa) :
    c.watchers.filter (·.pa == p.pa) = [p] := by
  have hgroups : c.groups.filterMap id = [g] := by
    have hx : c.groups[slot]? = some (some g) := by
      rw [Core.group, List.getD_eq_getElem?_getD] at hg
      cases hx : c.groups[slot]? with
      | none => simp [hx] at hg
      | some x => rw [hx, Option.getD_some] at hg; rw [hg]
    refine filterMap_eq_singleton id c.groups slot (some g) g hx rfl fun j x hj hx => ?_
    have := hn j hj
    rwa [Core.group, List.getD_eq_getElem?_getD, hx, Option.getD_some] at this
  have hlane : ∀ j t, g.lanes[j]? = some t → g.lane j = t := fun j t h => by
    simp [Group.lane, List.getD_eq_getElem?_getD, h]
  have hl' : g.lanes[l]? = some (g.lane l) := by
    rw [List.getElem?_eq_getElem hl, hlane l _ (List.getElem?_eq_getElem hl)]
  rw [Core.watchers, hgroups, hs]
  simp only [List.flatMap_nil, List.append_nil, List.flatMap_cons, List.filter_filterMap]
  refine filterMap_eq_singleton _ g.lanes l (g.lane l) p hl' (by simp [hp]) fun j t hj ht => ?_
  have hjl := (List.getElem?_eq_some_iff.1 ht).1
  cases ho : t.park with
  | none => rfl
  | some o =>
    have hne := hother j o hjl hj (by rw [hlane j t ht]; exact ho)
    simp [Option.filter, hne]

/-- Nothing is asked under a name under which nothing is asked. -/
theorem State.dropAsks_of_not_askedBy (s : State) (who : List Nat) (h : s.askedBy who = false) : s.dropAsks who = s := by
  have hf : s.fabric.requests.filter (·.asker != some who) = s.fabric.requests := by
    rw [List.filter_eq_self]
    intro r hr
    have := List.any_eq_false.1 h r hr
    simpa using this
  rw [State.dropAsks, hf]

/-- What is done under a name under which nothing is asked stands, where it asks nothing (R420). -/
theorem State.settle_of_quiet (s t : State) (who : List Nat) (ha : t.issue.asked = false)
    (hq : t.askedBy who = false) : s.settle who t = t := by
  rw [State.settle, ha, if_neg Bool.false_ne_true, State.dropAsks_of_not_askedBy t who hq]

/-- The only group of a core looks at a word again that holds `b`. -/
theorem State.recheckAll_one (s : State) (k slot pa : Nat) (b : List Byte) (g : Group)
    (hg : (s.core k).group slot = some g) (hr : g.phase = .running) (hs : (s.core k).saved = [])
    (hn : ∀ j, j ≠ slot → (s.core k).group j = none) (hq : (s.core k).rechecks = [pa]) (g' : Group)
    (hg' : ∀ changed, g.recheck s.clk pa false (fun n => leNat (b.take n)) changed = g') :
    s.recheckAll k pa b = (s.modGroup k slot fun _ => g').modCore k fun c => { c with rechecks := [] } := by
  unfold State.recheckAll State.modGroup
  rw [State.modCore_modCore, State.modCore_modCore]
  apply State.modCore_congr
  simp only [Function.comp, State.modCore_clk, Core.modGroup, hs, hq, List.map_nil, List.filter_cons, List.filter_nil,
    bne_self_eq_false, Bool.false_eq_true, if_false]
  congr 1
  rw [map_groups_eq_modify (s.core k).groups slot _ hn]
  apply modify_congr
  intro x hx
  obtain rfl : x = some g := by rw [← hg]; simp [Core.group, List.getD_eq_getElem?_getD, hx]
  simp only [Option.map_some, hr]
  exact congrArg some (hg' _)

/-- A changed word wakes the one lane that waits on it (R34, R353). -/
theorem parkRecheck_wakes (s : State) (k slot l : Nat) (g : Group) (p : ParkRec)
    (hg : (s.core k).group slot = some g) (hsh : g.shaped = true) (hl : l < 32) (hp : (g.lane l).park = some p)
    (hpop : p.pop = false) (hr : g.phase = .running)
    (hfree : ∃ j, j < 32 ∧ (g.lane j).park = none ∧ (g.lane j).vpc ≠ 0xFFFFFFFF)
    (hq : (s.core k).rechecks = [p.pa]) (hs : (s.core k).saved = []) (hn : ∀ j, j ≠ slot → (s.core k).group j = none)
    (hother : ∀ j o, j < 32 → j ≠ l → (g.lane j).park = some o → o.pa ≠ p.pa)
    (ha : s.issue.asked = false) (hk : s.askedBy [12, k, p.pa] = false) (hb : s.beyond (.phys p.pa) = none)
    (hsound : s.sound p.pa (max 4 p.width))
    (hval : leNat ((s.coreRead k s.nextId (.phys p.pa) (max 4 p.width)).take p.width) ≠
      p.expected.toNat % 2 ^ (8 * p.width)) :
    exec (.parkRecheck k p.pa) s =
      .next ((s.modGroup k slot fun _ => g.wake l (if p.deadline < s.clk then 3 else 1)).modCore k fun c =>
        { c with rechecks := [] }) := by
  have hlen : g.lanes.length = 32 := (Group.shaped_iff _ |>.1 hsh).2.2.2.1
  have hwidth : ((s.core k).watchers.filter (·.pa == p.pa)).foldl (fun n p => max n p.width) 4 = max 4 p.width := by
    rw [Core.watchers_one _ slot l g p hg hs hn (by omega) hp (by rw [hlen]; exact hother)]; rfl
  have hdue : s.recheckDue k p.pa = true := by simp [State.recheckDue, hq]
  have hall := s.recheckAll_one k slot p.pa (s.coreRead k s.nextId (.phys p.pa) (max 4 p.width)) g hg hr hs hn hq _
    fun changed => g.recheck_one s.clk l p _ changed hp hpop hl hlen hfree hother hval
  change execParkRecheck k p.pa s = _
  unfold execParkRecheck
  simp only [hwidth, hdue, Bool.not_true, Bool.false_eq_true, if_false, hsound.readAt_eq hb, hall]
  exact congrArg Host.Outcome.next (State.settle_of_quiet s _ _ ha hk)

/-- A parked lane whose time is over wakes with 3, where no change of its word is due (R35, R353). -/
theorem parkTimeout_wakes (s : State) (k slot l : Nat) (g : Group) (p : ParkRec)
    (hg : (s.core k).group slot = some g) (hsh : g.shaped = true) (hl : l < 32) (hp : (g.lane l).park = some p)
    (hpop : p.pop = false) (hr : g.phase = .running)
    (hfree : ∃ j, j < 32 ∧ (g.lane j).park = none ∧ (g.lane j).vpc ≠ 0xFFFFFFFF) (hd : p.deadline ≤ s.clk)
    (hq : p.pa ∉ (s.core k).rechecks) :
    exec (.parkTimeout k slot l) s = .next (s.modGroup k slot fun _ => g.wake l 3) := by
  have hlen : g.lanes.length = 32 := (Group.shaped_iff _ |>.1 hsh).2.2.2.1
  have hgo : p.deadline ≤ s.clk ∧ g.phase ≠ .switchedOut ∧ (!(s.core k).rechecks.contains p.pa) = true := by
    refine ⟨hd, by rw [hr]; nofun, ?_⟩
    simpa using hq
  refine congrArg Host.Outcome.next (s.modGroup_congr k slot _ _ g hg ?_)
  simp only [hp, if_pos hgo]
  exact g.allParked_wake l 3 p _ hp hpop (by omega) (by rw [hlen]; exact hfree)

/-- Settles O44: each event changes the one group whose time has come; a lane that wakes beside a free one wakes alone. -/
theorem waitEvents : Obligations.WaitEvents := by
  unfold Obligations.WaitEvents
  intro s k slot l g hg
  refine ⟨fun h => ?aged, fun c hc hle => ?sleep, fun f p m c ht hle hr hs => ?trywait,
    fun p hsh hl hp hpop hr hfree => ⟨fun hd hq => ?timeout, ?recheck⟩⟩
  case aged => exact congrArg Host.Outcome.next (s.modGroup_congr k slot _ _ g hg (if_pos h))
  case sleep =>
    refine congrArg Host.Outcome.next (s.modGroup_congr k slot _ _ g hg ?_)
    simp only [hc, if_pos hle]
  case trywait =>
    change execTrywaitTimeout k slot s = _
    simp only [execTrywaitTimeout, hg, ht, if_pos hle, s.endTry_running k slot p m _ g hg hr hs]
    exact congrArg Host.Outcome.next (s.modGroup_congr k slot _ _ g hg rfl)
  case timeout =>
    rw [parkTimeout_wakes s k slot l g p hg hsh hl hp hpop hr hfree hd hq]
    exact congrArg Host.Outcome.next (s.modGroup_congr k slot _ _ g hg (g.wake_of_park l 3 p hp hpop))
  case recheck =>
    intro hq hs hn hother ha hk hb hsound hval
    rw [parkRecheck_wakes s k slot l g p hg hsh hl hp hpop hr hfree hq hs hn hother ha hk hb hsound hval]
    refine congrArg (fun t : State => Host.Outcome.next (t.modCore k fun c => { c with rechecks := [] })) ?_
    exact s.modGroup_congr k slot _ _ g hg (g.wake_of_park l _ p hp hpop)

end Sys2Proof.Machine
end

section
/-! SUPPORT. The done event (R131, R135): a counter record in the package and its one exchange. -/

namespace Sys2Proof.Machine

/-! ## Little-endian numbers in two parts -/

/-- The bytes of a number whose low part has `m` bytes (R12). -/
theorem leBytes_add_mul (m n a b : Nat) (ha : a < 256 ^ m) :
    leBytes (m + n) (a + 256 ^ m * b) = leBytes m a ++ leBytes n b := by
  induction m generalizing a with
  | zero =>
    have : a = 0 := by simpa using ha
    subst this
    simp [leBytes]
  | succ m ih =>
    have hq : a / 256 < 256 ^ m := by rw [Nat.div_lt_iff_lt_mul (by omega), ← pow_succ]; exact ha
    have e : a + 256 ^ (m + 1) * b = a + 256 * (256 ^ m * b) := by ring
    have hhead : BitVec.ofNat 8 (a + 256 * (256 ^ m * b)) = BitVec.ofNat 8 a := by
      apply BitVec.eq_of_toNat_eq
      simp
    rw [show m + 1 + n = m + n + 1 by omega, e, leBytes, leBytes, List.cons_append, hhead,
      Nat.add_mul_div_left _ _ (by omega : 0 < 256), ih _ hq]

theorem leNat_append (xs ys : List Byte) : leNat (xs ++ ys) = leNat xs + 256 ^ xs.length * leNat ys := by
  induction xs with
  | nil => simp [leNat]
  | cons x xs ih => simp only [List.cons_append, leNat, ih, List.length_cons, pow_succ]; ring

theorem Memory.bytes_add (m : Memory) (a n k : Nat) : m.bytes a (n + k) = m.bytes a n ++ m.bytes (a + n) k := by
  simp only [Memory.bytes, List.range_add, List.map_append, List.map_map, Function.comp_def, Nat.add_assoc]

/-! ## A counter record that lies in the package -/

/-- A write of fewer bytes meets nothing where a longer one meets nothing. -/
theorem State.plain.mono {s : State} {pa n m : Nat} (h : s.plain pa n) (hm : m ≤ n) : s.plain pa m := by
  have hov : ∀ b k, overlap pa m b k = true → overlap pa n b k = true := by
    intro b k ho
    simp only [overlap, decide_eq_true_eq] at ho ⊢
    omega
  refine ⟨fun c hc => ?_, fun w hw => ?_, fun w hw => ?_⟩
  · by_contra hne
    have hcares : c.cares pa m = true := by simpa using hne
    have hmono : c.cares pa n = true := by
      simp only [Core.cares, ResEntry.watches, Bool.or_eq_true, List.any_eq_true, Bool.and_eq_true] at hcares ⊢
      rcases hcares with ⟨e, he, hst, r, hr, ho⟩ | ⟨p, hp, ho⟩
      · exact .inl ⟨e, he, hst, r, hr, hov _ _ ho⟩
      · exact .inr ⟨p, hp, hov _ _ ho⟩
    rw [h.unwatched c hc] at hmono
    cases hmono
  · exact Bool.eq_false_iff.2 fun ho => Bool.eq_false_iff.1 (h.bad w hw) (hov _ _ ho)
  · exact Bool.eq_false_iff.2 fun ho => Bool.eq_false_iff.1 (h.weak w hw) (hov _ _ ho)

/-- A change of a core in which it cares for the same bytes. -/
theorem State.plain_modCore (s : State) (k pa n : Nat) (f : Core → Core) (hf : ∀ c, (f c).cares pa n = c.cares pa n)
    (h : s.plain pa n) : (s.modCore k f).plain pa n := by
  refine ⟨fun c hc => ?_, h.bad, h.weak⟩
  obtain ⟨i, hi, rfl⟩ := List.getElem_of_mem hc
  have hi' : i < s.cores.length := by simpa [State.modCore] using hi
  have hmem := h.unwatched _ (List.getElem_mem hi')
  by_cases e : k = i
  · subst e; simpa [State.modCore, hf] using hmem
  · simpa [State.modCore, e] using hmem

/-- Before the first operation a core sees memory as it stands (R60). -/
theorem State.coreRead_zero (s : State) (k : Nat) (a : Loc) (n : Nat) : s.coreRead k 0 a n = s.readLoc k a n := by
  simp [State.coreRead, State.overlaid]

/-- A translation that succeeds has met no malformed entry (R426, R427). -/
theorem State.translate_ok_snd (s : State) (space : Nat) (tenant : BitVec 16) (want : Want) (va pa : Nat) (sc : Bool)
    (page : Nat) (m : Bool) (h : s.translate space tenant want va = (.ok pa sc page, m)) : m = false := by
  unfold State.translate at h
  split at h
  · cases h
  · dsimp only at h
    split at h
    · cases h
    · split at h
      · cases h
      · split at h
        · cases h
        · have hsnd := congrArg Prod.snd h
          simp only [apply_ite Prod.snd, ite_self] at hsnd
          exact hsnd.symm

/-- A virtual address that translates is looked up without a trace (R426). -/
theorem State.look_ok (s : State) (space : Nat) (tenant : BitVec 16) (want : Want) (va : DWord) (pa : Nat) (sc : Bool)
    (page : Nat) (m : Bool) (h : s.translate space tenant want va.toNat = (.ok pa sc page, m)) :
    s.look space tenant want va = (s, some pa) := by
  obtain rfl := s.translate_ok_snd _ _ _ _ _ _ _ _ h
  simp [State.look, h, State.noteMalformed_zero]

section Counter

variable (s : State) (p : Party) (pa : Nat) (delta : Int) (err : Bool)

/-- The first doubleword of a counter record: its count and its flag word (R134). -/
def State.ctrOld (s : State) (pa : Nat) : Nat := leNat (s.mem.bytes pa 8)

/-- What an update makes of a counter record. -/
def State.ctrNew (s : State) (pa : Nat) (delta : Int) (err : Bool) : Nat × Nat × Bool :=
  ctrWords (s.ctrOld pa % 2 ^ 32) (s.ctrOld pa / 2 ^ 32) delta err

/-- A counter record in the package, without errors and behind no access of the core, is updated in one exchange (R135). -/
theorem State.ctrSwap_here (n : Nat) (hb : s.beyond (.phys pa) = none) (h16 : s.homeCode (.phys pa) 16 = 0)
    (h8 : s.homeCode (.phys pa) 8 = 0) (hp : s.plain pa 16) (hq : (s.core p.core).passes s.nextId pa 8 = false) :
    State.ctrSwap (n + 1) s p pa delta err =
      (s.performWrite pa (leBytes 8 ((s.ctrNew pa delta err).1 + (s.ctrNew pa delta err).2.1 * 2 ^ 32)),
        some (s.ctrOld pa % 2 ^ 32, BitVec.ofNat 64 (leNat ((s.mem.bytes pa 16).drop 8)), (s.ctrNew pa delta err).2)) := by
  have hread : s.readAt p.core 0 p.who pa 16 = (s, some (0, s.mem.bytes pa 16)) := by
    rw [State.readAt_here s _ _ _ _ _ hb hp.bad hp.weak, h16, State.coreRead_zero]; rfl
  have htake : (s.mem.bytes pa 16).take 8 = s.mem.bytes pa 8 := by
    rw [show (16 : Nat) = 8 + 8 from rfl, Memory.bytes_add]
    exact List.take_left' (Memory.bytes_length _ _ _)
  have hlt : s.ctrOld pa < 2 ^ (8 * 8) := by
    have := leNat_lt (s.mem.bytes pa 8)
    rwa [Memory.bytes_length] at this
  have hswap : ∀ new, s.swapAt p.core s.nextId p.who pa 8 (s.ctrOld pa) new =
      (s.performWrite pa (leBytes 8 new), some (0, s.ctrOld pa)) := by
    intro new
    have hv : s.wordPa pa 8 = s.ctrOld pa := rfl
    rw [State.swapAt, hq, hb]
    simp only [Bool.false_eq_true, if_false, Option.isSome_none, h8, hv, Nat.mod_eq_of_lt hlt, and_self, if_true]
  rw [State.ctrSwap, hread]
  simp only [htake]
  rw [show leNat (s.mem.bytes pa 8) = s.ctrOld pa from rfl, hswap]
  simp only [if_true]
  rfl

/-- An update that does not bring the count to zero is that exchange alone (R135). -/
theorem State.counter_here (va : DWord) (sc : Bool) (page : Nat) (m : Bool)
    (ht : s.translate p.space p.origin.tenant .write va.toNat = (.ok pa sc page, m))
    (hb : s.beyond (.phys pa) = none) (h16 : s.homeCode (.phys pa) 16 = 0)
    (h8 : s.homeCode (.phys pa) 8 = 0) (hp : s.plain pa 16) (hq : (s.core p.core).passes s.nextId pa 8 = false)
    (hz : (s.ctrNew pa delta err).2.2 = false) :
    (s.counter p va delta err).1 =
      s.performWrite pa (leBytes 8 ((s.ctrNew pa delta err).1 + (s.ctrNew pa delta err).2.1 * 2 ^ 32)) := by
  rw [State.counter, State.ctrUpdate, State.look_ok _ _ _ _ _ _ _ _ _ ht]
  simp only [State.ctrSwap_here s p pa delta err _ hb h16 h8 hp hq, hz, Bool.false_eq_true, false_and, if_false]

end Counter

/-- A decrement of a count above one leaves the count one less, sets err where it is asked to, and does not reach zero
(R135). -/
theorem ctrWords_decrement (count flags : Nat) (err : Bool) (h1 : 1 < count) (h : count < 2 ^ 32) :
    ctrWords count flags (-1) err = (count - 1, flags ||| if err then 2 ^ 31 else 0, false) := by
  have hin : ¬((count : Int) + -1 < 0 ∨ 2 ^ 32 ≤ (count : Int) + -1) := by omega
  have hnz : ¬((-1 : Int) < 0 ∧ (count : Int) + -1 = 0) := by omega
  have hnat : ((count : Int) + -1).toNat = count - 1 := by omega
  unfold ctrWords
  simp only [if_neg hin, if_neg hnz, hnat]
  cases err <;> simp

/-- The count and the flag word of a counter record, as its two words hold them (R134). -/
theorem State.ctrOld_words (s : State) (pa : Nat) :
    s.ctrOld pa % 2 ^ 32 = leNat (s.mem.bytes pa 4) ∧ s.ctrOld pa / 2 ^ 32 = leNat (s.mem.bytes (pa + 4) 4) := by
  have hlow : leNat (s.mem.bytes pa 4) < 2 ^ 32 := by
    have := leNat_lt (s.mem.bytes pa 4)
    rwa [Memory.bytes_length] at this
  have hsum : s.ctrOld pa = leNat (s.mem.bytes pa 4) + 2 ^ 32 * leNat (s.mem.bytes (pa + 4) 4) := by
    rw [State.ctrOld, show (8 : Nat) = 4 + 4 from rfl, Memory.bytes_add, leNat_append, Memory.bytes_length]
    norm_num
  omega

/-! ## The done event -/

/-- The state in which a team's done event has occurred. -/
def State.doneMarked (s : State) (k id : Nat) : State :=
  s.modCore k (·.modTeam id fun t => { t with doneSent := true })

/-- A team that has groups left stays (R133). -/
theorem State.endTeam_of_live (s : State) (k id : Nat) (t : Team) (ht : (s.core k).team id = some t) (hl : t.live ≠ []) :
    s.endTeam k id = s := by
  rw [State.endTeam, ht]
  simp only [hl, ne_eq, not_false_iff, true_or, if_true]

/-- What lets no push wait and asks nothing stands (R139, R420). -/
theorem State.withheld_of_quiet (s t : State) (who : List Nat) (hp : t.quads = s.quads) (ha : t.issue.asked = false)
    (hq : t.askedBy who = false) : s.withheld who t = t := by
  have hw : ¬ s.waitingPushes < t.waitingPushes := by rw [State.waitingPushes, State.waitingPushes, hp]; omega
  rw [State.withheld, if_neg hw, State.settle_of_quiet s t who ha hq]

/-- A done event whose decrement leaves the core, asks nothing and lets no push wait is that decrement (R131). -/
theorem taskDoneDecrement_next (s u : State) (k id : Nat) (tm : Team) (hk : k < s.cores.length)
    (ht : (s.core k).team id = some tm) (hl : tm.live ≠ []) (hd : (s.core k).doneDue id = true)
    (hs : (s.core k).saved = [])
    (hu : (s.doneMarked k id).decrement (s.partyOf k [2, k, id] tm.origin none) tm.succ tm.err = u)
    (hc : u.cores = (s.doneMarked k id).cores) (hq : u.quads = s.quads) (ha : u.issue.asked = false)
    (hn : u.askedBy [2, k, id] = false) : exec (.taskDoneDecrement k id) s = .next u := by
  have hmark : (s.modCore k (·.modAnyTeam id fun t => { t with doneSent := true })) = s.doneMarked k id := by
    refine State.modCore_congr s k _ _ ?_
    simp only [Core.modAnyTeam, hs, List.map_nil]
    exact congrArg (fun x => { (s.core k).modTeam id fun t => { t with doneSent := true } with saved := x }) hs.symm
  have hteam : (u.core k).team id = some { tm with doneSent := true } := by
    have hcore : u.core k = (s.doneMarked k id).core k := by rw [State.core, State.core, hc]
    rw [hcore, State.doneMarked, State.core_modCore s k _ hk, Core.team_modTeam _ _ _ (by intros; rfl), ht]
    rfl
  have hend : u.endTeam k id = u := u.endTeam_of_live k id _ hteam hl
  change execTaskDoneDecrement k id s = _
  rw [execTaskDoneDecrement, Core.teamWith, ht]
  simp only [hd, Bool.not_true, Bool.false_eq_true, if_false, hmark, hu, hend]
  rw [s.withheld_of_quiet u _ hq ha hn]

/-- A done event of a task that names no successor (R131). -/
theorem taskDoneDecrement_none (s : State) (k id : Nat) (tm : Team) (hk : k < s.cores.length)
    (ht : (s.core k).team id = some tm) (hl : tm.live ≠ []) (hd : (s.core k).doneDue id = true)
    (hs : (s.core k).saved = []) (ha : s.issue.asked = false) (hn : s.askedBy [2, k, id] = false) (h0 : tm.succ = 0) :
    exec (.taskDoneDecrement k id) s = .next (s.doneMarked k id) :=
  taskDoneDecrement_next s _ k id tm hk ht hl hd hs (if_pos h0) rfl rfl ha hn

/-- A done event decrements the successor counter once, with the error flag of a task in error (R131, R133, R135). -/
theorem taskDoneDecrement_writesAt (s : State) (k id : Nat) (tm : Team) (hk : k < s.cores.length)
    (ht : (s.core k).team id = some tm) (hl : tm.live ≠ []) (hd : (s.core k).doneDue id = true)
    (hs : (s.core k).saved = []) (ha : s.issue.asked = false) (hn : s.askedBy [2, k, id] = false) (h0 : tm.succ ≠ 0)
    (pa : Nat) (sc : Bool) (page : Nat) (m : Bool)
    (hx : s.translate ((s.core k).regs.space.toNat % 2 ^ 16) tm.origin.tenant .write tm.succ.toNat = (.ok pa sc page, m))
    (hb : s.beyond (.phys pa) = none) (h16 : s.homeCode (.phys pa) 16 = 0) (h8 : s.homeCode (.phys pa) 8 = 0)
    (hp : s.plain pa 16) (hq : (s.core k).passes s.nextId pa 8 = false) (h1 : 1 < leNat (s.mem.bytes pa 4)) :
    ∃ t, exec (.taskDoneDecrement k id) s = .next t ∧ WritesAt (s.doneMarked k id) t pa
      (leBytes 4 (leNat (s.mem.bytes pa 4) - 1) ++
        leBytes 4 (leNat (s.mem.bytes (pa + 4) 4) ||| if tm.err then 2 ^ 31 else 0)) := by
  let d := s.doneMarked k id
  let p := s.partyOf k [2, k, id] tm.origin none
  have hplain : d.plain pa 16 := State.plain_modCore s k pa 16 _ (fun _ => rfl) hp
  have hpass : (d.core p.core).passes d.nextId pa 8 = false := by
    have hcore : d.core k = (s.core k).modTeam id fun t => { t with doneSent := true } := State.core_modCore s k _ hk
    change (d.core k).passes s.nextId pa 8 = false
    rw [hcore]; exact hq
  obtain ⟨hcount, hflags⟩ := d.ctrOld_words pa
  have hlow : leNat (s.mem.bytes pa 4) < 256 ^ 4 := by
    have := leNat_lt (s.mem.bytes pa 4)
    rwa [Memory.bytes_length] at this
  have hnew : d.ctrNew pa (-1) tm.err = (leNat (s.mem.bytes pa 4) - 1,
      leNat (s.mem.bytes (pa + 4) 4) ||| if tm.err then 2 ^ 31 else 0, false) := by
    rw [State.ctrNew, hcount, hflags]
    exact ctrWords_decrement _ _ _ h1 hlow
  have hbytes : leBytes 8 ((d.ctrNew pa (-1) tm.err).1 + (d.ctrNew pa (-1) tm.err).2.1 * 2 ^ 32) =
      leBytes 4 (leNat (s.mem.bytes pa 4) - 1) ++
        leBytes 4 (leNat (s.mem.bytes (pa + 4) 4) ||| if tm.err then 2 ^ 31 else 0) := by
    rw [hnew, Nat.mul_comm]
    exact leBytes_add_mul 4 4 _ _ (by omega)
  have hu : d.decrement p tm.succ tm.err = d.performWrite pa (leBytes 8
      ((d.ctrNew pa (-1) tm.err).1 + (d.ctrNew pa (-1) tm.err).2.1 * 2 ^ 32)) := by
    rw [State.decrement, if_neg h0]
    exact d.counter_here p pa (-1) tm.err tm.succ sc page m hx hb h16 h8 hplain hpass (by rw [hnew])
  rw [hbytes] at hu
  have h8 : d.plain pa (leBytes 4 (leNat (s.mem.bytes pa 4) - 1) ++
      leBytes 4 (leNat (s.mem.bytes (pa + 4) 4) ||| if tm.err then 2 ^ 31 else 0)).length :=
    hplain.mono (by simp)
  have hwrite := d.performWrite_plain pa _ h8
  refine ⟨_, taskDoneDecrement_next s _ k id tm hk ht hl hd hs hu ?_ ?_ ?_ ?_, d.performWrite_writesAt pa _ h8⟩
  · rw [hwrite]
  · rw [hwrite]; rfl
  · rw [hwrite]; exact ha
  · rw [hwrite]; exact hn

end Sys2Proof.Machine
end

section
/-! SUPPORT and PROOF. Ready queues, reclaimed slots and started tasks (O43). -/

namespace Sys2Proof.Machine

/-! ## Ready queues -/

/-- A change of a quad is decided by what it makes of that quad. -/
theorem State.modQuad_congr (s : State) (q : Nat) (f h : Quad → Quad) (e : f (s.quad q) = h (s.quad q)) :
    s.modQuad q f = s.modQuad q h := by
  unfold State.modQuad
  congr 1
  apply modify_congr
  intro x hx
  obtain rfl : s.quad q = x := by simp [State.quad, List.getD_eq_getElem?_getD, hx]
  exact e

theorem State.modQuad_modQuad (s : State) (q : Nat) (f h : Quad → Quad) :
    (s.modQuad q f).modQuad q h = s.modQuad q (h ∘ f) := by
  simp only [State.modQuad, modify_modify_same]

theorem State.quad_modQuad (s : State) (q : Nat) (f : Quad → Quad) (h : q < s.quads.length) :
    (s.modQuad q f).quad q = f (s.quad q) := by
  simp [State.quad, State.modQuad, List.getD_eq_getElem?_getD, h]

/-- No entry moves up from an empty ring (R139). -/
theorem State.refillChip_of_empty (s : State) (q : Nat) (h : (s.quad q).ringLen = 0) : s.refillChip q = s := by
  have hid : s.modQuad q id = s := by simp [State.modQuad]
  rw [State.refillChip]
  simp only [h, Nat.min_zero, ite_self]
  rw [State.modQuad_congr s q _ id]
  · exact hid
  · simp [State.ringEntries]

/-- The oldest waiting push goes on chip where there is room and no operation waits with it (R139). -/
theorem readyPushAccept_next (s : State) (q : Nat) (w : WaitingPush) (ws : List WaitingPush) (hq : q < s.quads.length)
    (hw : (s.quad q).waiting = w :: ws) (hon : s.quadOn q = true) (hlen : (s.quad q).chip.length < 256)
    (hring : (s.quad q).ringLen = 0) (hf : w.flight = none) :
    exec (.readyPushAccept q) s =
      .next (s.modQuad q fun r => { r with chip := r.chip ++ [w.entry], waiting := ws }) := by
  let drop := fun (r : Quad) => { r with waiting := ws }
  have hdrop : (s.modQuad q drop).quad q = drop (s.quad q) := s.quad_modQuad q drop hq
  have hroom : (s.quad q).room = true := by simp [Quad.room, Quad.onChip, hlen, hring]
  have hchip : ((s.modQuad q drop).quad q).onChip = true := by
    rw [hdrop]; change (s.quad q).onChip = true; simp [Quad.onChip, hlen, hring]
  have haccept : (s.modQuad q drop).accept q w.entry =
      s.modQuad q fun r => { r with chip := r.chip ++ [w.entry], waiting := ws } := by
    rw [State.accept]
    simp only [hchip, if_true, State.modQuad_modQuad]
    rfl
  change execReadyPushAccept q s = _
  rw [execReadyPushAccept, hw]
  simp only [hon, hroom, Bool.not_true, Bool.false_eq_true, or_self, if_false, hf]
  refine congrArg Host.Outcome.next ?_
  rw [show (fun r : Quad => { r with waiting := ws }) = drop from rfl, haccept]
  exact State.refillChip_of_empty _ q (by rw [State.quad_modQuad s q _ hq]; exact hring)

/-! ## A slot that is reclaimed -/

/-- What the reclaiming of its slot means to a group's team (R46, R47). -/
def Team.leave (slot : Nat) (t : Team) : Team :=
  { t with live := t.live.filter (· != slot), claims := t.claims.filter (·.1 != slot) }

/-- A slot reclaimed of a team that has groups left: its blocks return to the core (R47). -/
theorem Core.reclaim_of_live (c : Core) (slot : Nat) (g : Group) (t : Team) (hg : c.group slot = some g)
    (ht : c.team g.team = some t) (hl : (t.leave slot).live ≠ []) :
    c.reclaim slot = { c.modTeam g.team (Team.leave slot) with
      groups := c.groups.set slot none, freeBlocks := c.freeBlocks + g.rf.v.length / 8 } := by
  let c1 : Core := { c with groups := c.groups.set slot none, freeBlocks := c.freeBlocks + g.rf.v.length / 8 }
  have hteam : (c1.modTeam g.team (Team.leave slot)).team g.team = some (t.leave slot) := by
    rw [Core.team_modTeam c1 _ _ (by intros; rfl)]
    exact congrArg (Option.map (Team.leave slot)) ht
  have hgo : c.reclaim slot = c1.modTeam g.team (Team.leave slot) := by
    unfold Core.reclaim
    rw [hg]
    change (match (c1.modTeam g.team (Team.leave slot)).team g.team with | none => _ | some t => _) = _
    rw [hteam]
    exact if_pos hl
  rw [hgo]
  rfl

/-- A slot is reclaimed, of a team that has groups left and belongs to no sub-launch (R32, R47). -/
theorem slotReclaim_next (s : State) (k slot : Nat) (g : Group) (tm : Team) (hg : (s.core k).group slot = some g)
    (hr : (s.core k).reclaimable slot = true) (ht : (s.core k).team g.team = some tm)
    (hl : ∃ j ∈ tm.live, j ≠ slot) (ho : tm.origin.sub = none)
    (hq : ∀ r ∈ s.fabric.requests, ∀ w, r.asker = some w → w.getD 1 0 ≠ k ∨ w.getD 2 0 ≠ slot) :
    exec (.slotReclaim k slot) s = .next (s.modCore k fun c => { c.modTeam g.team (Team.leave slot) with
      groups := c.groups.set slot none, freeBlocks := c.freeBlocks + g.rf.v.length / 8 }) := by
  have hk := State.core_lt_of_group s k slot g hg
  have hlive : (tm.leave slot).live ≠ [] := by
    obtain ⟨j, hj, hne⟩ := hl
    exact List.ne_nil_of_mem (List.mem_filter.2 ⟨hj, by simpa using hne⟩)
  let u := s.modCore k fun c => { c.modTeam g.team (Team.leave slot) with
    groups := c.groups.set slot none, freeBlocks := c.freeBlocks + g.rf.v.length / 8 }
  have hreclaim : s.modCore k (·.reclaim slot) = u :=
    State.modCore_congr s k _ _ (Core.reclaim_of_live _ slot g tm hg ht hlive)
  have hasks : u.dropGroupAsks k slot = u := by
    have hkeep : s.fabric.requests.filter (fun r => !r.asker.any fun w =>
        [0, 6, 7].contains (w.getD 0 9) && w.getD 1 0 == k && w.getD 2 0 == slot) = s.fabric.requests := by
      rw [List.filter_eq_self]
      intro r hr
      cases ha : r.asker with
      | none => rfl
      | some w =>
        rcases hq r hr w ha with h | h <;>
          simp only [Option.any_some, beq_eq_false_iff_ne.2 h, Bool.and_false, Bool.false_and, Bool.not_false]
    exact congrArg (fun rs => { u with fabric := { s.fabric with requests := rs } }) hkeep
  have hteam : (u.core k).team g.team = some (tm.leave slot) := by
    rw [State.core_modCore s k _ hk]
    refine (Core.team_modTeam (s.core k) g.team (Team.leave slot) (by intros; rfl)).trans ?_
    rw [ht]; rfl
  change execSlotReclaim k slot s = _
  rw [execSlotReclaim, hg]
  simp only [hr, Bool.not_true, Bool.false_eq_true, if_false, hreclaim, hasks, ht, Option.getD_some, ho,
    u.endTeam_of_live k g.team _ hteam hlive]
  rfl

/-! ## A task that starts -/

/-- Groups placed in slots, index by index. -/
def placeGroups (f : Nat → Group) (gs : List (Option Group)) (xs : List (Nat × Nat)) : List (Option Group) :=
  xs.foldl (fun gs x => gs.set x.1 (some (f x.2))) gs

theorem placeGroups_of_not_mem (f : Nat → Group) (slots : List Nat) (n slot : Nat) (gs : List (Option Group))
    (h : slot ∉ slots) : (placeGroups f gs (slots.zipIdx n)).getD slot none = gs.getD slot none := by
  induction slots generalizing n gs with
  | nil => rfl
  | cons a as ih =>
    rw [List.mem_cons, not_or] at h
    refine (ih (n + 1) (gs.set a (some (f n))) h.2).trans ?_
    simp [List.getD_eq_getElem?_getD, List.getElem?_set_ne (Ne.symm h.1)]

/-- Each slot holds the group that was placed in it. -/
theorem placeGroups_getD (f : Nat → Group) (slots : List Nat) (n i slot : Nat) (gs : List (Option Group))
    (hn : slots.Nodup) (hlt : ∀ j ∈ slots, j < gs.length) (hi : slots[i]? = some slot) :
    (placeGroups f gs (slots.zipIdx n)).getD slot none = some (f (n + i)) := by
  induction slots generalizing n i gs with
  | nil => simp at hi
  | cons a as ih =>
    obtain ⟨ha, hn⟩ := List.nodup_cons.1 hn
    cases i with
    | zero =>
      obtain rfl : a = slot := by simpa using hi
      refine (placeGroups_of_not_mem f as (n + 1) a (gs.set a (some (f n))) ha).trans ?_
      simp [List.getD_eq_getElem?_getD, hlt a List.mem_cons_self]
    | succ i =>
      have h := ih (n + 1) i (gs.set a (some (f n))) hn
        (fun j hj => by rw [List.length_set]; exact hlt j (List.mem_cons_of_mem _ hj)) (by simpa using hi)
      rw [show n + 1 + i = n + (i + 1) by omega] at h
      exact h

/-- The team of a task that starts on a core (R19, R128). -/
def Core.startTeam (c : Core) (e : RqEntry) (r : TaskRecord) : Team where
  id := c.nextTeam
  slots := c.freeSlots.take r.groups
  live := c.freeSlots.take r.groups
  origin := if e.origin.sub.isSome then { e.origin with lseq := r.lseq } else e.origin
  trec := e.trec
  arg := r.arg
  coord := r.coord
  succ := r.succ
  spadMap := c.freeSpad.take r.spad
  spadSize := 1024 * r.spad
  pool := 0
  claims := []
  cover := []
  doneSent := false
  err := false

/-- The group with index `i` of a task that starts on a core (R20, R44). -/
def Core.startGroup (c : Core) (r : TaskRecord) (bank : List Word) (i : Nat) : Group :=
  Group.launch (8 * (r.rblk + 1)) r.entry bank i (BitVec.ofNat 2 (r.role i)) c.nextTeam

/-- A core on which a task has started (R128). -/
def Core.start (c : Core) (e : RqEntry) (r : TaskRecord) (bank : List Word) : Core :=
  { c.takeSpad (c.freeSpad.take r.spad) e.origin.tenant r.szero with
    groups := placeGroups (c.startGroup r bank) c.groups (c.freeSlots.take r.groups).zipIdx
    teams := c.teams ++ [c.startTeam e r]
    nextTeam := c.nextTeam + 1
    freeBlocks := c.freeBlocks - r.groups * (r.rblk + 1) }

/-- A start whose bank has been read changes its core alone, and makes one free choice. -/
theorem State.startOn_eq (s : State) (p : Party) (k : Nat) (e : RqEntry) (r : TaskRecord) (bank : List Word)
    (h : s.startBank { p with space := (s.core k).regs.space.toNat % 2 ^ 16 } r.cbank = (s, bank)) :
    s.startOn p k e r = { s.modCore k (·.start e r bank) with choice := s.choice + 1 } := by
  rw [State.startOn]
  simp only [h]
  rw [State.modCore_congr s k _ (·.start e r bank)]
  rfl

/-- The groups of a task stand in its slots (R20). -/
theorem Core.group_start (c : Core) (e : RqEntry) (r : TaskRecord) (bank : List Word) (i slot : Nat)
    (hi : (c.freeSlots.take r.groups)[i]? = some slot) :
    (c.start e r bank).group slot = some (c.startGroup r bank i) := by
  have hn : (c.freeSlots.take r.groups).Nodup :=
    (List.Nodup.filter _ List.nodup_range).sublist (List.take_sublist _ _)
  have hlt : ∀ j ∈ c.freeSlots.take r.groups, j < c.groups.length := fun j hj =>
    List.mem_range.1 (List.mem_filter.1 (List.mem_of_mem_take hj)).1
  have h := placeGroups_getD (c.startGroup r bank) _ 0 i slot c.groups hn hlt hi
  rwa [Nat.zero_add] at h

/-- The state in which a quad's chosen task has started on a core (R139, R140). -/
def State.taskStarted (s : State) (q k : Nat) (e : RqEntry) (r : TaskRecord) (bank : List Word) : State :=
  ({ s.modCore k (·.start e r bank) with choice := s.choice + 1 }.modQuad q fun x =>
    { x with last := k % 4, chip := x.chip.erase e, chosen := none }).dropAsks [3, q]

/-- The dispatcher starts the task that it has chosen on the first core that can take it (R128, R140). -/
theorem taskStart_next (s : State) (q k j : Nat) (ks : List Nat) (e : RqEntry) (r : TaskRecord) (bank : List Word)
    (ha : s.issue.asked = false) (he : (s.quad q).choice = some e) (hrot : s.rotation q = j :: ks)
    (hq : q < s.quads.length) (hrec : s.readRecord (s.dispatcher q j e) e.trec = (s, some r))
    (hbad : r.bad e.origin.tenant = false)
    (hfind : (j :: ks).find? (fun k => (s.core k).fits r && !(s.core k).quiescent) = some k)
    (hring : (s.quad q).ringLen = 0)
    (hbank : s.startBank { s.dispatcher q j e with space := (s.core k).regs.space.toNat % 2 ^ 16 } r.cbank = (s, bank)) :
    exec (.taskStart q) s = .next (s.taskStarted q k e r bank) := by
  let t : State := { s.modCore k (·.start e r bank) with choice := s.choice + 1 }
  let u := t.modQuad q fun x => { x with last := k % 4, chip := x.chip.erase e, chosen := none }
  have htake : (t.modQuad q fun x => { x with last := k % 4 }).takeEntry q e = u := by
    rw [State.takeEntry, State.modQuad_modQuad]
    refine State.refillChip_of_empty u q ?_
    rw [State.quad_modQuad t q _ hq]
    exact hring
  have hsettle : s.settle [3, q] u = u.dropAsks [3, q] := if_neg (by rw [show u.issue.asked = false from ha]; nofun)
  change execTaskStart q s = _
  unfold execTaskStart
  simp only [he, hrot, List.head?_cons, hrec, hbad, Bool.false_eq_true, if_false, hfind, s.startOn_eq _ k e r bank hbank]
  rw [show (s.dispatcher q j e).who = [3, q] from rfl, htake, hsettle]
  rfl

theorem State.taskStarted_quad (s : State) (q k : Nat) (e : RqEntry) (r : TaskRecord) (bank : List Word)
    (hq : q < s.quads.length) : (s.taskStarted q k e r bank).quad q =
      { s.quad q with last := k % 4, chip := (s.quad q).chip.erase e, chosen := none } :=
  State.quad_modQuad { s.modCore k (·.start e r bank) with choice := s.choice + 1 } q _ hq

theorem State.taskStarted_core (s : State) (q k : Nat) (e : RqEntry) (r : TaskRecord) (bank : List Word)
    (hk : k < s.cores.length) : (s.taskStarted q k e r bank).core k = (s.core k).start e r bank :=
  State.core_modCore s k _ hk

/-- A task without a bank of constants starts with zeros (R54). -/
theorem State.startBank_zero (s t : State) (p : Party) (bank : List Word) (h : s.startBank p 0 = (t, bank)) :
    bank = List.replicate 48 0 := by
  rw [State.startBank, if_pos rfl] at h
  exact (Prod.mk.inj h).2.symm

/-- Settles O43: the done event by the exchange of its counter record, the others by what they make of one quad or core. -/
theorem taskEvents : Obligations.TaskEvents := by
  unfold Obligations.TaskEvents
  intro s k q id slot ha
  refine ⟨fun tm hk ht hl hd hs hn => ⟨fun h0 => ?done, ?counted⟩, fun w ws hq hw hon hlen hring hf => ?accept, ?start,
    fun g tm hg hr ht hl ho hq => ?reclaim⟩
  case done => exact taskDoneDecrement_none s k id tm hk ht hl hd hs ha hn h0
  case counted =>
    intro pa sc hb m h0 hx hnear h16 h8 hp hpass h1
    exact taskDoneDecrement_writesAt s k id tm hk ht hl hd hs ha hn h0 pa sc hb m hx (hnear 0 (by omega)) h16 h8 hp hpass h1
  case accept => exact readyPushAccept_next s q w ws hq hw hon hlen hring hf
  case start =>
    intro e r j ks bank he hrot hk hq p hrec hbad hfind hring hbank
    refine ⟨fun h0 => s.startBank_zero s _ bank (by rw [h0] at hbank; exact hbank),
      _, taskStart_next s q k j ks e r bank ha he hrot hq hrec hbad hfind hring hbank, fun _ => rfl, ?_⟩
    rw [s.taskStarted_quad q k e r bank hq, s.taskStarted_core q k e r bank hk]
    exact ⟨rfl, rfl, rfl, rfl, (s.core k).startTeam e r, rfl, rfl, rfl, rfl, rfl, rfl, rfl,
      fun i slot hi => (s.core k).group_start e r bank i slot hi⟩
  case reclaim => exact slotReclaim_next s k slot g tm hg hr ht hl ho hq

end Sys2Proof.Machine
end

section
/-! SUPPORT. Memory in canonical form (O60): the operations that the meanings share keep it. -/

namespace Sys2Proof.Machine

/-- A state's memory is in its canonical form. -/
def State.Canonical (s : State) : Prop := s.mem.wf

/-- What a meaning answers has its memory in canonical form. -/
def Result.Canonical : Result → Prop
  | .next t => t.Canonical
  | _ => True

namespace State.Canonical

variable {s t : State} {α β : Type} {k j id slot team n m pa part code : Nat} {bs : List Byte} {f : Flight} {fs : List Flight}
  {mask : Word} {va : DWord} {r : Request} {who : List Nat} {kind : FlightKind} {tries : List Try} {u b : Bool}
  {p : Party} {loc : Loc} {i : Instr}

/-- The first part of a pair that is known by its parts. -/
theorem of_eq {x : State × α} {a : α} (h : x.1.Canonical) (e : x = (t, a)) : t.Canonical := by
  subst e; exact h

/-- A state with the memory of a canonical one. -/
theorem of_mem (h : s.Canonical) (e : t.mem = s.mem) : t.Canonical := by
  rw [State.Canonical, e]
  exact h

theorem ite {c : Prop} [Decidable c] (h : s.Canonical) (ht : t.Canonical) : (if c then s else t).Canonical := by
  split <;> assumption

theorem foldl {f : State → α → State} {l : List α} (h : s.Canonical) (hf : ∀ t x, t.Canonical → (f t x).Canonical) :
    (l.foldl f s).Canonical :=
  List.foldlRecOn (motive := State.Canonical) l f h fun t ht x _ => hf t x ht

theorem foldl_fst {f : State × β → α → State × β} {l : List α} {b : β} (h : s.Canonical)
    (hf : ∀ r x, r.1.Canonical → (f r x).1.Canonical) : (l.foldl f (s, b)).1.Canonical :=
  List.foldlRecOn (motive := fun r : State × β => r.1.Canonical) l f h fun r hr x _ => hf r x hr

theorem modCore {f : Core → Core} (h : s.Canonical) : (s.modCore k f).Canonical := h

theorem modGroup {f : Group → Group} (h : s.Canonical) : (s.modGroup k j f).Canonical := h

/-! ## Writes -/

theorem rawWrite (h : s.Canonical) : (s.rawWrite pa bs).Canonical := Memory.wf_write _ _ _ h

theorem faultAddress (h : s.Canonical) : (s.faultAddress k n pa).Canonical := by
  unfold State.faultAddress
  dsimp only
  split_ifs
  · exact rawWrite h
  · exact h
  · exact rawWrite h

theorem recordErrors {xs : List (Loc × Nat)} (h : s.Canonical) : (s.recordErrors k xs).Canonical := by
  refine foldl h fun t x ht => ?_
  split
  · exact foldl ht fun _ _ => faultAddress
  · exact ht

theorem recordWeak {xs : List (Loc × Nat)} (h : s.Canonical) : (s.recordWeak xs).Canonical := by
  refine foldl h fun t x ht => ?_
  split
  · exact foldl ht fun _ _ hu => faultAddress hu
  · exact ht

theorem ownWrite (h : s.Canonical) : (s.ownWrite pa bs).Canonical := ite (recordErrors h) (rawWrite h)

theorem patchMem {ps : List (Nat × List Byte)} (h : s.Canonical) : (s.patchMem ps).Canonical :=
  foldl h fun _ _ => ownWrite

theorem endTry (h : s.Canonical) : (s.endTry k slot team n mask b).Canonical := patchMem h

theorem tryPasses (h : s.Canonical) : (s.tryPasses k slot team n).Canonical := by
  unfold State.tryPasses
  dsimp only
  split
  · exact ite (endTry h) h
  · exact h

theorem lowerFlag (h : s.Canonical) : (s.lowerFlag k f).Canonical := by
  unfold State.lowerFlag
  split
  · exact h
  · exact tryPasses (patchMem h)

theorem fill {g : Nat → Word} (h : s.Canonical) : (s.fill k slot team n mask g).Canonical := patchMem h

theorem finishOp (h : s.Canonical) : (s.finishOp k f).Canonical := ite h (lowerFlag h)

theorem endOp {status : Option Nat} {w : Word} (h : s.Canonical) : (s.endOp k f status w).Canonical := by
  cases status with
  | none => exact finishOp h
  | some d => exact finishOp (fill h)

theorem abandon (h : s.Canonical) : (s.abandon k).Canonical := by
  refine foldl h fun t f ht => ?_
  split
  · exact ite (endOp ht) ht
  · exact ht

theorem performWrite (h : s.Canonical) : (s.performWrite pa bs).Canonical := foldl (rawWrite h) fun _ _ => abandon

theorem deviceWrite (h : s.Canonical) : (s.deviceWrite pa bs).Canonical := ite (recordErrors h) (performWrite h)

theorem touched (h : s.Canonical) : (s.touched pa n).Canonical := foldl h fun _ _ => abandon

theorem storePa (h : s.Canonical) : (s.storePa pa bs).1.Canonical := by
  unfold State.storePa
  split
  · exact h
  · exact performWrite h

theorem storeLoc (h : s.Canonical) : (s.storeLoc k loc bs).1.Canonical := by
  cases loc with
  | phys pa => exact storePa h
  | spad o => exact h

/-! ## Data that return -/

theorem fillWords {g : Nat → Nat} (h : s.Canonical) : (s.fillWords k slot team m n mask g).Canonical :=
  foldl h fun _ _ => fill

theorem setDescriptor {x : LaneAccess} (h : s.Canonical) : (s.setDescriptor k slot team x bs).Canonical :=
  patchMem (patchMem h)

theorem deliver {dest : LoadDest} {ls : List LaneAccess} (h : s.Canonical) : (s.deliver k f dest ls).Canonical := by
  cases dest with
  | reg d n sg => exact fillWords h
  | bank => exact ite h (patchMem h)
  | descriptor => exact foldl h fun t x ht => ite ht (foldl ht fun _ _ => setDescriptor)
  | hidden => exact foldl h fun t x ht => ite ht ht
  | tile t start n => exact foldl h fun t x ht => ite ht ht

theorem acquire (h : s.Canonical) : (s.acquire k f).Canonical := ite h h

theorem loadBack {dest : LoadDest} {ls : List LaneAccess} (h : s.Canonical) : (s.loadBack k f dest ls).1.Canonical :=
  acquire (recordWeak (recordErrors (finishOp (deliver h))))

theorem drainLoads (h : s.Canonical) : (s.drainLoads k slot team).Canonical := by
  refine foldl h fun t f ht => ?_
  split
  · exact ite (loadBack ht) ht
  · exact ht

/-! ## Exceptions and returns -/

theorem queueReport {o : Origin} {r : Report} (h : s.Canonical) : (s.queueReport k slot o va r).Canonical := by
  unfold State.queueReport
  dsimp only
  split_ifs <;> exact h

theorem raise {c : Cause} (h : s.Canonical) : (s.raise c).Canonical := by
  unfold State.raise
  dsimp only
  split_ifs <;> exact h

theorem raiseLanes {faults : List LaneFault} {cs : List Nat} (h : s.Canonical) : (s.raiseLanes u b faults cs).Canonical := by
  unfold State.raiseLanes
  split <;> exact h

theorem switchOut (h : s.Canonical) : (s.switchOut k slot).Canonical := by
  unfold State.switchOut
  split
  · exact h
  · refine ite (drainLoads h) ?_
    dsimp only
    split
    · exact drainLoads h
    · split
      · exact deviceWrite (drainLoads h)
      · exact queueReport (deviceWrite (drainLoads h))

theorem stopImprecise {r : Report} (h : s.Canonical) : (s.stopImprecise k slot r).Canonical := switchOut h

theorem look {space : Nat} {tenant : BitVec 16} {want : Want} (h : s.Canonical) :
    (s.look space tenant want va).1.Canonical := by
  unfold State.look
  split <;> exact h

theorem reload {g : Group} (h : s.Canonical) : (s.reload k slot g).1.Canonical := by
  unfold State.reload
  extract_lets team space seek parks descs
  have hparks : parks.1.Canonical := foldl_fst h fun r l hr => by
    split
    · exact hr
    · exact look hr
  have hdescs : descs.1.Canonical := foldl_fst hparks fun r l hr => by
    dsimp only
    split
    · exact hr
    · split <;> next e => exact of_eq (look hr) e
  clear_value descs parks
  split <;> exact hdescs

theorem returnFrom (h : s.Canonical) : (s.returnFrom k slot pa).Canonical := by
  unfold State.returnFrom
  split
  · exact h
  · refine ite h ?_
    extract_lets head b r g₁ g₂ u
    have hu : u.Canonical := modCore (modGroup (reload h))
    clear_value u
    split
    · exact hu
    · exact stopImprecise hu

/-! ## What is asked beyond the package -/

theorem askWith (h : s.Canonical) : (s.askWith r).1.Canonical := by
  unfold State.askWith
  split_ifs
  · exact h
  · exact h
  · split
    · exact h
    · split <;> exact h

theorem settle (h : s.Canonical) (ht : t.Canonical) : (s.settle who t).Canonical := ite h ht

theorem readAt (h : s.Canonical) : (s.readAt k id who pa n).1.Canonical := by
  unfold State.readAt
  split
  · exact askWith h
  · exact recordWeak (recordErrors h)

theorem swapAt {old new : Nat} (h : s.Canonical) : (s.swapAt k id who pa n old new).1.Canonical := by
  unfold State.swapAt
  split
  · exact h
  · split
    · exact askWith h
    · exact ite (performWrite h) (recordErrors h)

theorem writeAt (h : s.Canonical) : (s.writeAt k id who b pa bs).1.Canonical := by
  unfold State.writeAt
  split_ifs
  · exact h
  · exact askWith h
  · split
    · exact h
    · dsimp only
      split
      · exact recordErrors (storePa h)
      · exact storePa h

end State.Canonical
end Sys2Proof.Machine
end

section
/-! SUPPORT. Memory in canonical form (O60): accesses of lanes, read-modify-writes, requests and engine operations. -/

namespace Sys2Proof.Machine.State.Canonical

variable {s t : State} {α β : Type} {k j id slot team n m pa part code : Nat} {bs : List Byte} {f : Flight} {mask : Word}
  {va : DWord} {r : Request} {who : List Nat} {kind : FlightKind} {tries : List Try} {u b : Bool} {loc : Loc}
  {stall : Option Stall} {fs : Option Bool} {op : Nat → Rmw} {dest : Option (Nat × Nat)} {data : List Byte}

/-! ## Dispatch -/

theorem after (h : s.Canonical) (ht : t.Canonical) : (s.after stall t).Canonical := by
  cases stall with
  | none => exact ht
  | some r => exact h

theorem enterAll {word : Nat} {flag : Option Nat} {acq sc : Bool} {ps : List Part1} (h : s.Canonical) :
    (s.enterAll word flag acq sc ps).Canonical := foldl h fun _ _ ht => ht

theorem countFlag {flag : Option Nat} (h : s.Canonical) : (s.countFlag flag).Canonical := by
  cases flag <;> exact h

theorem dispatch {held : Option Nat} {acq sc : Bool} (h : s.Canonical) : (s.dispatch fs mask held acq sc kind).Canonical :=
  countFlag h

theorem dispatchAll {acq sc : Bool} {ps : List Part1} (h : s.Canonical) : (s.dispatchAll fs acq sc ps).Canonical :=
  countFlag (enterAll h)

theorem access {watch : LaneAccess → List Nat} {go : List LaneAccess → Bool → State → State} (h : s.Canonical)
    (hgo : ∀ ls sc t, t.Canonical → (go ls sc t).Canonical) : (s.access u tries watch go).Canonical :=
  ite (raiseLanes h) (hgo _ _ _ (raiseLanes h))

theorem sampled {len : LaneAccess → Nat} {ls : List LaneAccess} (h : s.Canonical) : (s.sampled b len ls).1.Canonical := by
  refine foldl_fst h fun r x hr => ?_
  split
  · exact hr
  · split
    · exact hr
    · split <;> next e => exact of_eq (readAt hr) e

theorem readLanes {ls : List LaneAccess} (h : s.Canonical) : (s.readLanes n ls).1.Canonical := by
  refine foldl_fst h fun r x hr => ?_
  split
  · exact hr
  · split <;> next e => exact of_eq (readAt hr) e

theorem load {acq : Bool} {dest : LoadDest} (h : s.Canonical) : (s.load u n acq fs dest tries).Canonical :=
  after h (access (sampled h) fun _ _ _ => dispatchAll)

theorem storeOn {data : Nat → List Byte} (h : s.Canonical) : (s.storeOn u b n data tries).Canonical :=
  after h (access (sampled h) fun _ _ _ => dispatchAll)

theorem store {data : Nat → List Byte} (h : s.Canonical) : (s.store u n data tries).Canonical := storeOn h

theorem podRelease (h : s.Canonical) : (s.podRelease n).Canonical := ite h h

/-! ## Read-modify-writes -/

theorem performRmw {x : LaneAccess} {w : Rmw} (h : s.Canonical) : (s.performRmw k x w).1.Canonical := by
  unfold State.performRmw
  split
  · dsimp only
    split <;> exact h
  · split
    · exact h
    · split
      · exact h
      · extract_lets old t
        have ht : t.Canonical := by
          unfold t
          split
          · exact storePa h
          · exact h
        clear_value t
        split
        · split
          · split
            · exact recordErrors h
            · exact storePa ht
          · exact ht
        · exact ht

theorem performRmws {errs : List (Nat × Nat)} {ls : List (LaneAccess × Rmw)} (h : s.Canonical) :
    (s.performRmws k errs n ls).1.Canonical := by
  induction ls generalizing s n with
  | nil => exact h
  | cons x xs ih =>
    unfold State.performRmws
    split
    · exact ih h
    · dsimp only
      split <;> exact ih (performRmw h)

theorem rmwNow {x : LaneAccess} {w : Rmw} (h : s.Canonical) : (State.rmwNow n s x w).1.Canonical := by
  induction n generalizing s with
  | zero => exact h
  | succ n ih =>
    unfold State.rmwNow
    split
    · exact h
    · split
      · exact h
      · split
        case h_1 e =>
          have ht := of_eq (readAt h) e
          dsimp only
          split
          · exact ht
          · split
            · exact performRmw ht
            · split
              · exact ht
              · split
                case h_1 e =>
                  have hu := of_eq (swapAt ht) e
                  split
                  · exact hu
                  · exact ih hu
                case h_2 e => exact of_eq (swapAt ht) e
                case h_3 e => exact of_eq (swapAt ht) e
        case h_2 e => exact of_eq (readAt h) e
        case h_3 e => exact of_eq (readAt h) e

theorem rmwWatchedWord {acq : Bool} (h : s.Canonical) : (s.rmwWatchedWord u acq op dest tries).Canonical := by
  refine access (foldl_fst h fun r x hr => ?_) fun _ _ _ ht => recordErrors (dispatchAll ht)
  split <;> next e => exact of_eq (rmwNow hr) e

theorem rmw {acq : Bool} {rel : Option Nat} (h : s.Canonical) : (s.rmw u acq rel op dest tries).Canonical :=
  after h (ite (rmwWatchedWord (podRelease h)) (access (podRelease h) fun _ _ _ => dispatchAll))

/-! ## Requests and their answers -/

theorem modOpOf {g : Flight → Flight} (h : s.Canonical) : (s.modOpOf k id g).Canonical := ite h h

theorem answered (h : s.Canonical) : (s.answered r code data).Canonical := by
  unfold State.answered
  extract_lets t
  have ht : t.Canonical := ite h (touched h)
  split
  · exact ite ht ht
  · exact modOpOf ht

theorem tryRequest (h : s.Canonical) : (s.tryRequest r).Canonical := by
  unfold State.tryRequest
  split
  · exact ite (answered h) (ite h h)
  · split
    · exact answered h
    · exact ite h h

theorem retryRequests (h : s.Canonical) : s.retryRequests.Canonical := foldl h fun _ _ ht => ite ht (tryRequest ht)

theorem request {laid : List (Nat × List Byte)} {w : Want1} {strict : Bool} (h : s.Canonical) :
    (s.request k id part pa b laid strict w).Canonical := tryRequest h

theorem sendParts (h : s.Canonical) : (s.sendParts k f).Canonical := by
  refine modCore (foldl h fun t p ht => ?_)
  split
  · exact foldl ht fun _ _ hu => ite hu (request hu)
  · exact ht

theorem sendRequests (h : s.Canonical) : (s.sendRequests k).Canonical := by
  refine foldl h fun t f ht => ?_
  split
  · exact ite (sendParts ht) ht
  · exact ht

theorem storeMasked (h : s.Canonical) : (s.storeMasked pa m data).1.Canonical := by
  unfold State.storeMasked
  dsimp only
  split
  · exact h
  · exact foldl h fun _ _ => performWrite

theorem hostEffect (h : s.Canonical) : (s.hostEffect r).1.Canonical := by
  unfold State.hostEffect
  split
  · exact h
  · exact storePa h
  · exact storeMasked h
  · split
    · exact h
    · exact performRmw h

theorem loseRequest (h : s.Canonical) : (s.loseRequest r).Canonical := answered (ite (hostEffect h) h)

theorem afterAnswer (h : s.Canonical) : (s.afterAnswer k).Canonical := retryRequests (sendRequests h)

theorem loseHost (h : s.Canonical) : s.loseHost.Canonical :=
  foldl h fun _ _ ht => ite (ite (loseRequest ht) (answered ht)) ht

/-! ## Engine operations -/

theorem askReads {rs : List (Nat × Nat)} (h : s.Canonical) : (s.askReads k f rs).Canonical := by
  refine foldl h fun t c ht => ?_
  split
  · exact request ht
  · exact ht

theorem engineWrite (h : s.Canonical) : (s.engineWrite k f loc bs).1.Canonical := by
  unfold State.engineWrite
  split
  · exact storeLoc h
  · split
    · exact foldl h fun _ _ => request
    · split
      · exact h
      · dsimp only
        split
        · exact recordErrors (storePa h)
        · exact storePa h

theorem engineRun {ready : Flight → Bool} {reads : Flight → List (Nat × Nat)} {write : State → Flight → State × List Nat}
    {finish : State → Flight → State} (h : s.Canonical) (hw : ∀ t f, t.Canonical → (write t f).1.Canonical)
    (hf : ∀ t f, t.Canonical → (finish t f).Canonical) : (s.engineRun k id ready reads write finish).Canonical := by
  unfold State.engineRun
  extract_lets t u
  have ht : t.Canonical := by
    unfold t
    split
    · exact h
    · exact ite (modOpOf (askReads h)) h
  have hu : u.Canonical := by
    unfold u
    split
    · exact ht
    · exact ite (modOpOf (hw _ _ ht)) ht
  split
  · exact hu
  · exact ite (hf _ _ hu) hu

theorem engine {fs : Bool} {held : Option Nat} (h : s.Canonical) : (s.engine fs tries held kind).Canonical :=
  after h (ite h (ite (dispatch h) (raiseLanes h)))

/-! ## Fences and special registers -/

theorem fenced {range : Option (Nat × Nat)} {loads : List Flight} (h : s.Canonical) : (s.fenced n m range loads).Canonical :=
  ite h (ite (ite h (podRelease h)) (ite (ite h (podRelease h)) (ite h (podRelease h))))

theorem setSearchDescriptors {val : Nat → DWord} (h : s.Canonical) : (s.setSearchDescriptors u val).Canonical :=
  ite (s := s) h (load h)

theorem writeSpecial {a : Nat} (h : s.Canonical) : (s.writeSpecial u k a m).Canonical := by
  unfold State.writeSpecial
  refine ite h ?_
  split
  · exact h
  · exact ite (raise h) h
  · exact setSearchDescriptors h
  · exact raiseLanes h

end Sys2Proof.Machine.State.Canonical
end

section
/-! SUPPORT. Memory in canonical form (O60): tasks, counters, late errors, barriers, and words whose lanes act one after
another. -/

namespace Sys2Proof.Machine.State.Canonical

variable {s t : State} {k j q id slot team n m pa scope code : Nat} {f : Flight} {mask : Word} {va : DWord}
  {r : Report} {who : List Nat} {u b : Bool} {p : Party} {w : Walk}

/-! ## Ready queues and counters -/

theorem readRecord (h : s.Canonical) : (s.readRecord p va).1.Canonical := by
  unfold State.readRecord
  split
  · exact h
  · split
    case h_1 e => exact of_eq (look h) e
    case h_2 e =>
      have ht := of_eq (look h) e
      split <;> next e => exact of_eq (readAt ht) e

theorem accept {e : RqEntry} (h : s.Canonical) : (s.accept q e).Canonical := ite h (deviceWrite h)

theorem push {e : RqEntry} {waiter : Option (Nat × Nat)} (h : s.Canonical) : (s.push q e waiter).Canonical :=
  ite (accept h) h

theorem withheld (h : s.Canonical) (ht : t.Canonical) : (s.withheld who t).Canonical := ite h (settle h ht)

theorem markSub {sub : Option SubRef} (h : s.Canonical) : (s.markSub sub b).Canonical := by
  cases sub <;> exact h

theorem reject {o : Origin} {rec_ : Option TaskRecord} (h : s.Canonical) : (s.reject o va rec_).Canonical := markSub h

theorem release {flags : Nat} (h : s.Canonical) : (s.release p va flags).1.Canonical := by
  unfold State.release
  extract_lets home rd succ
  clear_value home
  split
  · exact reject (readRecord h)
  · split
    · exact readRecord h
    · exact push (readRecord h)

theorem ctrSwap {delta : Int} (h : s.Canonical) : (State.ctrSwap n s p pa delta b).1.Canonical := by
  induction n generalizing s with
  | zero => exact h
  | succ n ih =>
    unfold State.ctrSwap
    split
    case h_1 e =>
      have ht := of_eq (readAt h) e
      dsimp only
      split
      case h_1 e =>
        have hu := of_eq (swapAt ht) e
        split
        · exact hu
        · exact ih hu
      case h_2 e => exact of_eq (swapAt ht) e
    case h_2 e => exact of_eq (readAt h) e

theorem ctrUpdate {delta : Int} (h : s.Canonical) : (State.ctrUpdate n s p va delta b).1.Canonical := by
  induction n generalizing s p va delta b with
  | zero => exact h
  | succ n ih =>
    unfold State.ctrUpdate
    split
    case h_1 e => exact of_eq (look h) e
    case h_2 e =>
      have ht := of_eq (look h) e
      split
      case h_1 e => exact of_eq (ctrSwap ht) e
      case h_2 e =>
        have hu := of_eq (ctrSwap ht) e
        split
        · split
          case h_1 e => exact of_eq (release hu) e
          case h_2 e => exact ih (of_eq (release hu) e)
        · exact hu

theorem counter {delta : Int} (h : s.Canonical) : (s.counter p va delta b).1.Canonical := ctrUpdate h

theorem decrement (h : s.Canonical) : (s.decrement p va b).Canonical := ite h (counter h)

theorem payOwed (h : s.Canonical) : s.payOwed.Canonical := foldl h fun _ _ ht => withheld ht (decrement ht)

theorem owe (h : s.Canonical) : (s.owe p va b).Canonical := ite h h

theorem setErr (h : s.Canonical) : (s.setErr p va).Canonical := by
  unfold State.setErr
  refine ite h ?_
  split
  · next e => exact of_eq (look h) e
  · next e =>
    have ht := of_eq (look h) e
    exact ite ht (ite ht (performWrite ht))

/-! ## Tasks that end, and errors that come late -/

theorem teamError (h : s.Canonical) : (s.teamError k id).Canonical := by
  unfold State.teamError
  split
  · exact h
  · exact ite (setErr h) h

theorem endTeam (h : s.Canonical) : (s.endTeam k id).Canonical := by
  unfold State.endTeam
  split
  · exact h
  · exact ite h (markSub h)

theorem lateError (h : s.Canonical) : (s.lateError k f r).Canonical := by
  have hexited := teamError (k := k) (id := f.team)
    (queueReport (k := k) (slot := f.slot) (o := f.origin) (va := f.trec) (r := { r with exited := true }) h)
  unfold State.lateError
  dsimp only
  split
  · exact ite hexited (ite (stopImprecise h) h)
  · exact ite h hexited

theorem lateErrors {rs : List Report} (h : s.Canonical) : (s.lateErrors k f rs).Canonical := foldl h fun _ _ => lateError

theorem reportNoted (h : s.Canonical) : (s.reportNoted k slot).Canonical := by
  unfold State.reportNoted
  split
  · exact h
  · exact ite h (lateErrors h)

/-! ## Barriers -/

theorem setBarrier {c : Barrier} (h : s.Canonical) : (s.setBarrier k scope n c).Canonical := by
  unfold State.setBarrier
  split <;> exact h

theorem giveToken {dest : Option Nat} {count : Word} (h : s.Canonical) : (s.giveToken k f dest count).Canonical := by
  cases dest <;> exact patchMem h

theorem refuseArrival {dest : Option Nat} (h : s.Canonical) : (s.refuseArrival k f dest).Canonical :=
  lateError (ite (patchMem h) h)

theorem deliverArrival {count : Nat} {dest : Option Nat} (h : s.Canonical) :
    (s.deliverArrival k f scope n count dest).Canonical := by
  unfold State.deliverArrival
  dsimp only
  split
  · exact refuseArrival h
  · exact setBarrier (giveToken h)

/-! ## Code, and what a push ends with -/

theorem fetchWords {pas : List Nat} (h : s.Canonical) : (s.fetchWords k who pas).1.Canonical := by
  induction pas generalizing s with
  | nil => exact h
  | cons pa pas ih =>
    unfold State.fetchWords
    split
    case h_1 e => exact of_eq (readAt h) e
    case h_2 e =>
      have ht := of_eq (readAt h) e
      split <;> next e => exact of_eq (ih ht) e

theorem endPush (h : s.Canonical) : (s.endPush k id).Canonical := by
  unfold State.endPush
  split
  · exact h
  · split
    · dsimp only
      refine modCore (lowerFlag ?_)
      split
      · exact fillWords h
      · exact h
    · exact h

theorem afterTarget {pc : Word} (h : s.Canonical) : (s.afterTarget pc).1.Canonical := by
  unfold State.afterTarget
  split
  · exact h
  · split <;> next e => exact of_eq (fetchWords h) e

theorem sysTargets {a : Nat} (h : s.Canonical) : (s.sysTargets b a).1.Canonical := by
  refine foldl_fst h fun r l hr => ?_
  dsimp only
  split
  · exact afterTarget hr
  · exact hr

/-! ## Lanes that act one after another -/

theorem check {t : Try} {watch : List Nat} {go : Nat → Walk → Walk} (h : w.st.Canonical)
    (hgo : ∀ pa v, v.st.Canonical → (go pa v).st.Canonical) : (w.check n t watch go).st.Canonical := by
  unfold Walk.check
  split
  · exact h
  · split
    · exact h
    · split
      · exact h
      · exact hgo _ _ h
  · exact h

theorem write {l : Nat} {new : List Byte} {go : Nat → Walk → Walk} (h : w.st.Canonical)
    (hgo : ∀ pa v, v.st.Canonical → (go pa v).st.Canonical) : (w.write l va new go).st.Canonical :=
  check (sampled h) hgo

theorem read {l : Nat} {go : List Byte → Walk → Walk} (h : w.st.Canonical)
    (hgo : ∀ b v, v.st.Canonical → (go b v).st.Canonical) : (w.read l id pa n go).st.Canonical := by
  unfold Walk.read
  split
  · exact h
  · split
    case h_1 e => exact hgo _ _ (of_eq (readAt h) e)
    case h_2 e =>
      have ht := of_eq (readAt h) e
      exact ht
    case h_3 e => exact of_eq (readAt h) e

theorem walkPush {l : Nat} {item : DWord} (h : w.st.Canonical) : (Walk.push n w l va item).st.Canonical := by
  induction n generalizing w with
  | zero => exact h
  | succ n ih =>
    unfold Walk.push
    refine check h fun _ v hv => read hv fun b v hv => ?_
    dsimp only
    split
    · exact hv
    · split
      · exact hv
      · refine write hv fun tpa v hv => write hv fun spa v hv => ?_
        split
        · exact hv
        · split
          case h_1 e =>
            have ht := of_eq (swapAt hv) e
            split
            · exact ht
            · exact ih ht
          case h_2 e =>
            have ht := of_eq (swapAt hv) e
            exact ht
          case h_3 e => exact of_eq (swapAt hv) e

theorem walkPop {l d : Nat} (h : w.st.Canonical) : (w.pop l va d b).st.Canonical := by
  refine check h fun _ v hv => read hv fun bs v hv => ?_
  dsimp only
  split
  · exact hv
  · refine write hv fun _ v hv => ?_
    split
    · exact write hv fun _ _ hx => hx
    · exact hv

theorem rowStores {l : Nat} {xs : List (DWord × Word)} (h : w.st.Canonical) : (w.rowStores l xs).st.Canonical := by
  induction xs generalizing w with
  | nil => exact h
  | cons x xs ih => exact write h fun _ _ hv => ih hv

/-- The lanes of a word act one after another on a state that stays canonical. -/
theorem walk {ls : List Nat} {step : Walk → Nat → Walk} (h : s.Canonical)
    (hstep : ∀ w l, w.st.Canonical → (step w l).st.Canonical) : (ls.foldl step (Walk.start s u)).st.Canonical :=
  List.foldlRecOn (motive := fun w : Walk => w.st.Canonical) ls step h fun w hw l _ => hstep w l hw

theorem finish {d : Nat} (h : w.st.Canonical) : (w.finish d n mask).Canonical :=
  ite (enterAll (ite (raiseLanes h) (raiseLanes h))) (countFlag (enterAll (ite (raiseLanes h) (raiseLanes h))))

theorem finishStores (h : w.st.Canonical) : (w.finishStores b).Canonical :=
  ite (raiseLanes h) (ite (raiseLanes h) (dispatchAll (raiseLanes h)))

end Sys2Proof.Machine.State.Canonical
end

section
/-! SUPPORT. Memory in canonical form (O60): what is in flight ends, tasks start, and waits end. -/

namespace Sys2Proof.Machine.State.Canonical

variable {s t : State} {k j q id slot lane n pa : Nat} {f : Flight} {who : List Nat} {p : Party} {bs : List Byte} {va : DWord}

/-! ## Loads, stores and atomics -/

theorem drained {team : Nat} (h : s.Canonical) : (s.drained k slot team).Canonical := ite (switchOut h) h

theorem loadReturned {dest : LoadDest} {ls : List LaneAccess} (h : s.Canonical) : (s.loadReturned k f dest ls).Canonical :=
  endTeam (drained (sendRequests (lateErrors (loadBack h))))

theorem exec_loadDataReturn (h : s.Canonical) : (execLoadDataReturn k id s).Canonical := by
  change State.Canonical _
  split
  · exact h
  · split
    · exact ite h (loadReturned h)
    · exact h

theorem performStores {ls : List (LaneAccess × List Byte)} (h : s.Canonical) : (s.performStores k n ls).1.Canonical := by
  induction ls generalizing s n with
  | nil => exact h
  | cons x xs ih =>
    unfold State.performStores
    split
    · exact ih h
    · extract_lets t r
      have hr : r.1.Canonical := by
        refine ih ?_
        unfold t
        split
        · exact storeLoc h
        · exact h
      split <;> exact hr

theorem performOp (h : s.Canonical) : (s.performOp k f).Canonical := by
  unfold State.performOp
  split
  · exact recordErrors (performStores h)
  · exact recordWeak (recordErrors (performRmws h))
  · exact h

theorem noteEntry (h : s.Canonical) : (s.noteEntry pa bs).Canonical := ite h h

theorem exec_homeWrite {w : HomeWrite} (h : s.Canonical) : (execHomeWrite w s).Canonical := by
  change State.Canonical _
  split
  · exact noteEntry (deviceWrite h)
  · split
    · exact h
    · refine ite h ?_
      split
      · exact h
      · exact sendRequests (performOp h)

theorem exec_holdRelease (h : s.Canonical) : (execHoldRelease k id s).Canonical := by
  change State.Canonical _
  split
  · exact h
  · split
    · exact h
    · exact ite h (sendRequests h)

theorem acked (h : s.Canonical) : (s.acked k f).Canonical := by
  refine lateErrors (acquire (finishOp ?_))
  split
  · exact fillWords h
  · exact h

theorem exec_storeAck (h : s.Canonical) : (execStoreAck k id s).Canonical := by
  change State.Canonical _
  split
  · exact h
  · split
    · exact finishOp h
    · exact ite (finishOp h) h
    · exact ite (acked h) h

/-! ## Engine operations -/

theorem copyPiece {x : CopyPiece} (h : s.Canonical) : (s.copyPiece k f x).1.Canonical := by
  unfold State.copyPiece
  split
  · exact engineWrite (recordWeak h)
  · exact recordErrors h

theorem copyPieces {xs : List CopyPiece} (h : s.Canonical) : (s.copyPieces k f xs).1.Canonical := by
  induction xs generalizing s with
  | nil => exact h
  | cons x xs ih => exact ih (copyPiece h)

theorem engineCounter {b : Bool} (h : s.Canonical) : (s.engineCounter k f va b).Canonical := decrement h

theorem copyDone {pieces : List CopyPiece} {lanes : List Nat} {d : Option Nat} (h : s.Canonical) :
    (s.copyDone k f pieces lanes d va).Canonical := by
  refine withheld h (engineCounter (finishOp ?_))
  split
  · exact fill h
  · exact h

theorem axpy {type y : Nat} {alpha : Word} {xs : List (Except Nat Nat)} (h : s.Canonical) :
    (s.axpy type alpha y n xs).1.Canonical := by
  induction xs generalizing s n with
  | nil => exact h
  | cons x xs ih =>
    cases x with
    | error e => exact ih h
    | ok x =>
      refine ih ?_
      split
      · exact performWrite h
      · exact recordErrors h

theorem red {type dst : Nat} {xs : List (Except Nat Nat)} (h : s.Canonical) : (s.red type dst xs).1.Canonical := by
  unfold State.red
  dsimp only
  split
  · exact ite h (performWrite h)
  · exact recordErrors h

theorem stream (h : s.Canonical) : (s.stream k f).1.Canonical := by
  unfold State.stream
  split
  · exact axpy h
  · split
    · exact h
    · exact red h
  · exact h

theorem exec_bankStreamComplete (h : s.Canonical) : (execBankStreamComplete k id s).Canonical := by
  change State.Canonical _
  split
  · exact h
  · split
    · exact engineRun h (fun _ _ ht => stream ht) fun _ _ ht => withheld ht (engineCounter (endOp ht))
    · exact engineRun h (fun _ _ ht => stream ht) fun _ _ ht => withheld ht (engineCounter (endOp ht))
    · exact h

theorem writePieces {ps : List (Nat × Nat)} (h : s.Canonical) : (s.writePieces k f bs ps).1.Canonical := by
  induction ps generalizing s bs with
  | nil => exact h
  | cons p ps ih => exact ih (engineWrite h)

theorem exec_contextImageComplete (h : s.Canonical) : (execContextImageComplete k id s).Canonical := by
  change State.Canonical _
  split
  · exact h
  · split
    · exact engineRun h (fun _ _ ht => writePieces ht) fun _ _ ht => endOp ht
    · exact h

/-! ## Tasks -/

theorem exec_taskDoneDecrement (h : s.Canonical) : (execTaskDoneDecrement k id s).Canonical := by
  change State.Canonical _
  split
  · exact h
  · exact ite h (withheld h (endTeam (decrement h)))

theorem pushed (h : s.Canonical) : (s.pushed k id).Canonical := endPush h

theorem modQuad {g : Quad → Quad} (h : s.Canonical) : (s.modQuad q g).Canonical := h

theorem takeEntry {e : RqEntry} (h : s.Canonical) : (s.takeEntry q e).Canonical := h

theorem exec_readyPushAccept (h : s.Canonical) : (execReadyPushAccept q s).Canonical := by
  change State.Canonical _
  split
  · exact h
  · refine ite h ?_
    split
    · exact pushed (accept h)
    · exact accept h

theorem pushAgain {w : WaitingPush} (h : s.Canonical) : (s.pushAgain q w).Canonical := by
  refine ite (push h) ?_
  split
  · exact pushed (push h)
  · exact push h

theorem forward (h : s.Canonical) : (s.forward q).Canonical :=
  ite h (foldl (foldl h fun _ _ => push) fun _ _ => pushAgain)

theorem startBank (h : s.Canonical) : (s.startBank p va).1.Canonical := by
  unfold State.startBank
  split
  · exact h
  · refine foldl_fst h fun r i hr => ?_
    split
    case h_1 e => exact of_eq (look hr) e
    case h_2 e =>
      have ht := of_eq (look hr) e
      split <;> next e => exact of_eq (readAt ht) e

theorem startOn {e : RqEntry} {r : TaskRecord} (h : s.Canonical) : (s.startOn p k e r).Canonical := startBank h

theorem rejectStart {e : RqEntry} {r : Option TaskRecord} (h : s.Canonical) : (s.rejectStart q p e r).Canonical := by
  unfold State.rejectStart
  dsimp only
  split
  · exact payOwed (owe (reject h))
  · exact reject h

theorem exec_taskStart (h : s.Canonical) : (execTaskStart q s).Canonical := by
  change State.Canonical _
  split
  · refine settle h ?_
    have hrd := fun p va => readRecord (p := p) (va := va) h
    split
    · exact rejectStart (hrd _ _)
    · refine ite (rejectStart (hrd _ _)) ?_
      split
      · exact hrd _ _
      · exact takeEntry (modQuad (startOn (hrd _ _)))
  · exact h

/-! ## Waits that end -/

theorem recheckFailed {code : Nat} (h : s.Canonical) : (s.recheckFailed k pa code).Canonical := by
  unfold State.recheckFailed
  refine ite h (foldl h fun t j ht => ?_)
  split
  · exact ht
  · exact ite ht (lateError ht)

theorem exec_parkRecheck (h : s.Canonical) : (execParkRecheck k pa s).Canonical := by
  change State.Canonical _
  refine ite h (settle h ?_)
  split
  case h_1 e => exact of_eq (readAt h) e
  case h_2 e =>
    have ht := of_eq (readAt h) e
    exact ht
  case h_3 e => exact recheckFailed (of_eq (readAt h) e)

theorem exec_trywaitTimeout (h : s.Canonical) : (execTrywaitTimeout k slot s).Canonical := by
  change State.Canonical _
  split
  · exact h
  · split
    · exact h
    · exact ite (endTry h) h

theorem exec_runAheadEnd (h : s.Canonical) : (execRunAheadEnd k slot s).Canonical := by
  change State.Canonical _
  split
  · exact h
  · exact ite h (switchOut h)

theorem exec_faultRecordWrite (h : s.Canonical) : (execFaultRecordWrite s).Canonical := by
  change State.Canonical _
  split
  · exact h
  · exact ite h (deviceWrite h)

/-! ## Windows -/

theorem refillItems {w : WqDesc} {first : DWord} (h : s.Canonical) : (s.refillItems p w n first).1.Canonical := by
  induction n generalizing s first with
  | zero => exact h
  | succ n ih =>
    unfold State.refillItems
    split
    case h_1 e => exact of_eq (look h) e
    case h_2 e =>
      have ht := of_eq (look h) e
      split
      case h_1 e =>
        have hu := of_eq (readAt ht) e
        dsimp only
        split
        · exact hu
        · exact ih hu
      case h_2 e => exact of_eq (readAt ht) e

theorem popStores {x : PopWait} {w : WqDesc} (h : s.Canonical) : (s.popStores k slot lane x w).Canonical := by
  unfold State.popStores
  dsimp only
  split
  · exact sendRequests (enterAll h)
  · exact h

theorem refillDesc (h : s.Canonical) : (s.refillDesc p va).1.Canonical := by
  unfold State.refillDesc
  split
  case h_1 e => exact of_eq (look h) e
  case h_2 e =>
    have ht := of_eq (look h) e
    split <;> next e => exact of_eq (readAt ht) e

theorem exec_wqRefillDone (h : s.Canonical) : (execWqRefillDone k slot lane s).Canonical := by
  change State.Canonical _
  split
  · exact h
  · refine ite h ?_
    split
    · exact h
    · extract_lets p d w first new full
      have hnew : new.1.Canonical := by
        unfold new
        split
        · exact refillItems (refillDesc h)
        · exact refillDesc h
      refine settle h ?_
      clear_value new
      split
      · exact hnew
      · exact hnew
      · exact popStores hnew

end Sys2Proof.Machine.State.Canonical
end

section
/-! SUPPORT. Memory in canonical form (O60): matrix passes, residencies, and teams that are saved and returned. -/

namespace Sys2Proof.Machine.State.Canonical

variable {s t : State} {k j id slot team n pa ent : Nat} {f : Flight} {mask : Word} {d va : DWord} {b : Bool}

/-! ## Residencies -/

theorem endLoad {code : Nat} (h : s.Canonical) : (s.endLoad k f code).Canonical := by
  unfold State.endLoad
  split
  · refine decrement (endOp ?_)
    split <;> exact h
  · exact h

theorem instant (h : s.Canonical) : (s.instant k ent).Canonical := by
  unfold State.instant
  dsimp only
  refine ite h ?_
  split
  · exact ite (foldl h fun _ _ => endOp) (foldl h fun _ _ => endOp)
  · exact foldl h fun _ _ => modCore

theorem exec_matrixPassDone (h : s.Canonical) : (execMatrixPassDone k id s).Canonical := by
  change State.Canonical _
  split
  · exact h
  · split
    · exact ite h (instant (finishOp h))
    · exact h

theorem grottoRead {cold src : List (Nat × Nat)} (h : s.Canonical) : (s.grottoRead k f ent cold src).Canonical :=
  lateErrors (recordWeak (recordErrors h))

theorem exec_grottoRequest (h : s.Canonical) : (execGrottoRequest k id s).Canonical := by
  change State.Canonical _
  split
  · exact h
  · split
    · exact engineRun h (fun _ _ ht => grottoRead ht) fun _ _ ht => ht
    · exact h

theorem exec_grottoResult (h : s.Canonical) : (execGrottoResult k id s).Canonical := by
  change State.Canonical _
  split
  · exact h
  · split
    · exact ite h (instant (finishOp h))
    · exact h

theorem readRows {e : ResEntry} {ps : List (Nat × Nat)} {rows : List Nat} (h : s.Canonical) :
    (s.readRows e ps rows).Canonical := recordWeak (recordErrors h)

theorem exec_migrationComplete (h : s.Canonical) : (execMigrationComplete k id s).Canonical := by
  change State.Canonical _
  split
  · exact h
  · split
    · exact engineRun h (fun _ _ ht => readRows ht) fun _ _ ht =>
        ite (instant (endOp ht)) (ite (instant (endOp ht)) (instant (endOp ht)))
    · exact h

theorem exec_resLoadProceed (h : s.Canonical) : (execResLoadProceed k id s).Canonical := by
  change State.Canonical _
  split
  · exact h
  · split
    · exact ite h h
    · exact h

theorem resLoadDone (h : s.Canonical) : (s.resLoadDone k f).Canonical := by
  unfold State.resLoadDone
  split
  · exact engineRun h (fun _ _ ht => ite ht (readRows ht)) fun _ _ ht => withheld ht (instant (endLoad ht))
  · exact h

/-! ## Matrix products -/

theorem dispatchPart {word : Nat} {kind : FlightKind} (h : s.Canonical) : (s.dispatchPart word mask kind).Canonical := h

theorem issueQuarter {word tile kb nb : Nat} {z split : Bool} {bs : List (Nat × List Word)} (h : s.Canonical) :
    (s.issueQuarter word ent tile kb nb z split bs).Canonical :=
  ite (dispatchPart h) (modCore (foldl (dispatchPart h) fun _ _ => dispatchPart))

theorem mmaIssue {tile kb nb : Nat} {reuse z split : Bool} {bs : List (Nat × List Word)} (h : s.Canonical) :
    (s.mmaIssue ent tile kb nb reuse z split bs).Canonical := foldl h fun _ _ => issueQuarter

/-! ## Teams that are saved and returned -/

theorem takeReplays {x : Team} (h : s.Canonical) : (s.takeReplays k x).1.Canonical := foldl h fun _ _ ht => ht

theorem placeAnew {space : Nat} {tenant : BitVec 16} {ls : List LaneAccess} (h : s.Canonical) :
    (s.placeAnew space tenant ls).1.Canonical := by
  induction ls generalizing s with
  | nil => exact h
  | cons x xs ih =>
    unfold State.placeAnew
    dsimp only
    split <;> exact ih h

theorem replay (h : s.Canonical) : (s.replay k f).Canonical := by
  unfold State.replay
  split
  · refine ite h ?_
    dsimp only
    split
    · exact placeAnew h
    · exact lateError (placeAnew h)
  · exact h

theorem replayGroup (h : s.Canonical) : (s.replayGroup k slot team).Canonical :=
  sendRequests (foldl h fun _ _ => replay)

theorem preempt {x : Team} {area : Nat} (h : s.Canonical) : (s.preempt k x area).Canonical := by
  have hdrained := foldl (l := x.live) (f := fun s j => s.drainLoads k j x.id) h fun _ _ => drainLoads
  exact takeReplays (foldl (deviceWrite (foldl (deviceWrite hdrained) fun _ _ => deviceWrite)) fun _ _ => deviceWrite)

theorem exec_saveTeam {m : BitVec 32} (h : s.Canonical) : (execSaveTeam k m s).Canonical := by
  change State.Canonical _
  split
  · exact h
  · exact ite h (ite h (preempt h))

theorem exec_restoreTeam (h : s.Canonical) : (execRestoreTeam k s).Canonical := ite (s := s.modCore k _) h h

theorem returnGroup {x : Nat × Group} (h : s.Canonical) : (s.returnGroup k x).Canonical := by
  unfold State.returnGroup
  dsimp only
  split
  · exact modCore (deviceWrite h)
  · exact modGroup (modCore (reload h))

theorem returnTeam {x : SavedTeam} (h : s.Canonical) : (s.returnTeam k x).Canonical :=
  sendRequests (foldl (foldl h fun _ _ => returnGroup) fun _ _ => replay)

theorem exec_teamReturn (h : s.Canonical) : (execTeamReturn k s).Canonical := by
  change State.Canonical _
  split
  · exact h
  · exact ite h (returnTeam h)

theorem exec_returnGroup {m : BitVec 32} (h : s.Canonical) : (execReturnGroup k m s).Canonical := by
  change State.Canonical _
  split
  · exact h
  · exact ite h (modCore (replayGroup (modCore (modGroup (returnFrom h)))))

theorem killGroups {js : List Nat} (h : s.Canonical) : (s.killGroups k js).Canonical := by
  refine foldl h fun t j ht => ?_
  split
  · exact ht
  · exact teamError ht

theorem exec_terminate {m : BitVec 32} (h : s.Canonical) : (execTerminate k m s).Canonical := ite h (killGroups h)

end Sys2Proof.Machine.State.Canonical
end

section
/-! SUPPORT. Memory in canonical form (O60): the Belvedere, the fabric, and the boards' registers. -/

namespace Sys2Proof.Machine.State.Canonical

variable {s t : State} {i j k n o pa port id slot space : Nat} {f : Flight} {m : Message} {who : List Nat} {va v : DWord}
  {bs : List Byte} {c : Command} {sub : Option SubRef} {ref : SubRef} {x : SubSlot} {b : Bool} {want : Want}
  {tenant : BitVec 16} {ps : List (Nat × Nat)}

/-! ## The Belvedere -/

theorem belvRead (h : s.Canonical) : (s.belvRead i who va n).1.Canonical := by
  unfold State.belvRead
  split
  case h_1 e => exact of_eq (look h) e
  case h_2 e =>
    have ht := of_eq (look h) e
    split <;> next e => exact of_eq (readAt ht) e

theorem belvWrite (h : s.Canonical) : (s.belvWrite i who va bs).Canonical := by
  unfold State.belvWrite
  split
  case h_1 e => exact writeAt (of_eq (look h) e)
  case h_2 e => exact of_eq (look h) e

theorem raiseVector (h : s.Canonical) : (s.raiseVector n).Canonical := ite h (ite h h)

theorem retire (h : s.Canonical) : (s.retire i c).Canonical :=
  have hw := ite (c := c.crec = 0 ∨ c.crec.toNat % 32 ≠ 0 ∨ s.belv.dead) h (belvWrite h)
  have hd := ite (c := c.ctr.toNat % 16 ≠ 0) hw (decrement hw)
  ite (raiseVector hd) hd

theorem retireIfDone (h : s.Canonical) : (s.retireIfDone i n).Canonical := by
  unfold State.retireIfDone
  split
  · exact h
  · exact ite h (withheld h (retire h))

theorem closeSub (h : s.Canonical) : (s.closeSub ref).Canonical := by
  unfold State.closeSub
  split
  · exact h
  · split
    · exact h
    · exact ite h (ite (decrement h) h)

theorem complete (h : s.Canonical) : (s.complete ref).Canonical := retireIfDone (withheld h (closeSub h))

theorem closeOf (h : s.Canonical) : (s.closeOf sub).Canonical := by
  cases sub with
  | none => exact h
  | some r => exact complete h

theorem dropGroupAsks (h : s.Canonical) : (s.dropGroupAsks k slot).Canonical := h

theorem exec_slotReclaim (h : s.Canonical) : (execSlotReclaim k slot s).Canonical := by
  change State.Canonical _
  split
  · exact h
  · exact ite h (closeOf (endTeam h))

theorem exec_resLoadComplete (h : s.Canonical) : (execResLoadComplete k id s).Canonical := by
  change State.Canonical _
  split
  · exact h
  · split
    · exact closeOf (resLoadDone h)
    · exact h

theorem belvCopyDone {pieces : List CopyPiece} (h : s.Canonical) : (s.belvCopyDone f pieces sub).Canonical := by
  cases sub <;> exact h

theorem exec_copyComplete {p : EngineParty} (h : s.Canonical) : (execCopyComplete p id s).Canonical := by
  change State.Canonical _
  split
  · split
    · exact h
    · split
      · exact engineRun h (fun _ _ ht => copyPieces ht) fun _ _ ht => copyDone ht
      · exact h
  · split
    · exact h
    · split
      · exact closeOf (engineRun h (fun _ _ ht => copyPieces ht) fun _ _ ht => belvCopyDone ht)
      · exact h

theorem lookParts (h : s.Canonical) : (s.lookParts space tenant want ps).1.Canonical := by
  induction ps generalizing s with
  | nil => exact h
  | cons p ps ih => exact ih (look h)

theorem startCopy (h : s.Canonical) : (s.startCopy i c n x).Canonical := by
  have hparts := fun want va => lookParts (space := s.belvSpace i) (tenant := (s.thread i).tenant) (want := want)
    (ps := partsOf va (x.w0 / 2 ^ 32)) h
  unfold State.startCopy
  extract_lets len src dst u
  have hu : u.Canonical := lookParts (lookParts h)
  clear_value u
  split <;> exact hu

theorem startLoad (h : s.Canonical) : (s.startLoad i c n x).Canonical := by
  unfold State.startLoad
  extract_lets k handle tenant ent e len r u
  have hu : u.Canonical := lookParts h
  clear_value u
  split
  · exact ite hu hu
  · exact hu

theorem pushSets {xs : List (Nat × DWord × Nat)} (h : s.Canonical) : (State.pushSets i c xs s).Canonical := by
  induction xs generalizing s with
  | nil => exact h
  | cons x xs ih => exact ite h (ite h (ih (push (readRecord h))))

theorem startBundle {slots : List SubSlot} (h : s.Canonical) : (s.startBundle i c slots).Canonical :=
  foldl (foldl h fun _ _ ht => ite (belvWrite ht) ht) fun _ _ ht => ite (startLoad ht) (ite (startCopy ht) ht)

theorem completeNow (h : s.Canonical) : (s.completeNow i c).Canonical := foldl h fun _ _ => complete

theorem nextCommand (h : s.Canonical) : (s.nextCommand i).1.Canonical := belvRead h

theorem exec_launchBundle (h : s.Canonical) : (execLaunchBundle i s).Canonical := by
  change State.Canonical _
  split
  · exact pushSets h
  · refine ite h ?_
    extract_lets rd
    have hrd : rd.1.Canonical := nextCommand h
    clear_value rd
    split
    · exact settle h hrd
    · refine ite h ?_
      extract_lets c slots u w
      have hu : u.Canonical := hrd
      have hw : w.Canonical := startBundle hu
      clear_value w u
      refine ite (retireIfDone (completeNow hu)) (ite h (retireIfDone (completeNow (pushSets hw))))

theorem waitTest (h : s.Canonical) : (s.waitTest i c).1.Canonical := by
  unfold State.waitTest
  dsimp only
  split
  · exact h
  · exact belvRead h

theorem endPacket (h : s.Canonical) : (s.endPacket i c n).Canonical := retireIfDone h

theorem testPacket (h : s.Canonical) : (s.testPacket i c).Canonical :=
  ite (endPacket (settle h (waitTest h))) (settle h (waitTest h))

theorem exec_waitPacket (h : s.Canonical) : (execWaitPacket i s).Canonical := by
  change State.Canonical _
  refine ite h ?_
  extract_lets rd
  have hrd : rd.1.Canonical := nextCommand h
  clear_value rd
  split
  · exact settle h hrd
  · exact ite h (testPacket hrd)

theorem exec_waitPacketTest (h : s.Canonical) : (execWaitPacketTest i s).Canonical := by
  change State.Canonical _
  split
  · exact h
  · exact ite (retireIfDone h) (testPacket h)

theorem exec_waitPacketTimeout (h : s.Canonical) : (execWaitPacketTimeout i s).Canonical := by
  change State.Canonical _
  split
  · exact h
  · exact ite h (endPacket h)

theorem exec_unknownCommand (h : s.Canonical) : (execUnknownCommand i s).Canonical := by
  change State.Canonical _
  refine ite h ?_
  extract_lets rd
  have hrd : rd.1.Canonical := nextCommand h
  clear_value rd
  split
  · exact settle h hrd
  · exact ite h hrd

theorem exec_doorbell {w : Writer} (h : s.Canonical) : (execDoorbell w i v s).Canonical := ite h h

/-! ## The fabric -/

theorem handle {g : State → Message → State × Nat × List Byte} (h : s.Canonical)
    (hg : ∀ t m, t.Canonical → (g t m).1.Canonical) : (s.handle port n g).Canonical := by
  change State.Canonical _
  split
  · exact h
  · extract_lets who u r
    have hr : r.1.Canonical := by
      unfold r
      split
      · exact h
      · split
        · exact askWith h
        · exact hg _ _ h
    refine settle h ?_
    clear_value r
    split <;> exact hr

theorem exec_fabricRead (h : s.Canonical) : (execFabricRead port s).Canonical := by
  refine handle h fun t m ht => ?_
  dsimp only
  split <;> exact recordWeak (recordErrors ht)

theorem exec_fabricWrite (h : s.Canonical) : (execFabricWrite port s).Canonical := by
  refine handle h fun t m ht => ?_
  split
  case h_1 e => exact of_eq (storePa ht) e
  case h_2 e => exact recordErrors (of_eq (storePa ht) e)

theorem exec_fabricMaskedWrite (h : s.Canonical) : (execFabricMaskedWrite port s).Canonical := by
  refine handle h fun t m ht => ?_
  dsimp only
  split
  case h_1 e => exact of_eq (storeMasked ht) e
  case h_2 e => exact recordErrors (of_eq (storeMasked ht) e)

theorem exec_fabricAtomic (h : s.Canonical) : (execFabricAtomic port s).Canonical := by
  refine handle h fun t m ht => ?_
  split
  · exact ht
  · dsimp only
    split
    · exact recordWeak (performRmw ht)
    · exact recordErrors (performRmw ht)

theorem keepMessage (h : s.Canonical) : (s.keepMessage n m).Canonical := by
  unfold State.keepMessage
  dsimp only
  split <;> exact h

theorem announce (h : s.Canonical) : (s.announce n).Canonical := foldl h fun _ _ ht => keepMessage ht

theorem afterArrival {w : Word} (h : s.Canonical) : (s.afterArrival n w).Canonical := ite h (announce h)

theorem sendArrival {count : Nat} (h : s.Canonical) : (s.sendArrival k f n count).Canonical := keepMessage h

theorem exec_barrierDelivery (h : s.Canonical) : (execBarrierDelivery k id s).Canonical := by
  change State.Canonical _
  split
  · exact h
  · split
    · exact ite h (ite (deliverArrival h) (ite (ite h (sendArrival h))
        (afterArrival (ite (deliverArrival h) (deliverArrival h)))))
    · exact h

theorem learn {w : Word} (h : s.Canonical) : (s.learn n w).Canonical := ite (s := State.mk ..) h h

theorem exec_barrierArrivalMessage (h : s.Canonical) : (execBarrierArrivalMessage port s).Canonical := by
  change State.Canonical _
  split
  · exact h
  · dsimp only
    split
    · exact h
    · split
      · exact h
      · exact afterArrival h

theorem exec_barrierCompletionMessage (h : s.Canonical) : (execBarrierCompletionMessage port s).Canonical := by
  change State.Canonical _
  split
  · exact h
  · exact learn h

theorem resend (h : s.Canonical) : s.resend.Canonical := by
  refine foldl h fun t k ht => ?_
  split <;> exact ht

theorem giveUp (h : s.Canonical) : (s.giveUp n).Canonical := by
  refine foldl h fun t k ht => foldl ht fun u j hu => ?_
  split
  · exact hu
  · exact stopImprecise hu

theorem exec_podBarrierTimeout (h : s.Canonical) : (execPodBarrierTimeout n s).Canonical :=
  ite h (giveUp (foldl h fun _ _ => modCore))

theorem answerArrival (h : s.Canonical) : (s.answerArrival k f m).Canonical := by
  unfold State.answerArrival
  split
  · exact ite (refuseArrival h) (learn (giveToken h))
  · exact h

theorem replied {r : Request} (h : s.Canonical) : (s.replied r m).Canonical := by
  unfold State.replied
  dsimp only
  split
  · split
    · exact h
    · exact answerArrival h
  · exact afterAnswer (answered h)

theorem exec_fabricReply (h : s.Canonical) : (execFabricReply port s).Canonical := by
  change State.Canonical _
  split
  · exact h
  · dsimp only
    split
    · exact h
    · exact replied h

theorem exec_portDown (h : s.Canonical) : (execPortDown port s).Canonical := ite (retryRequests (resend h)) h

theorem exec_portRetrain {g : Training} (h : s.Canonical) : (execPortRetrain port g s).Canonical :=
  ite h (retryRequests (resend h))

/-! ## Memory control, tasks and attestation -/

theorem invalidate (h : s.Canonical) : (s.invalidate v).Canonical := by
  unfold State.invalidate
  dsimp only
  split
  · exact h
  · split <;> exact of_mem h rfl

theorem markStale (h : s.Canonical) : (s.markStale pa n).Canonical := foldl h fun _ _ ht => ite (abandon ht) ht

theorem staleMark (h : s.Canonical) : (s.staleMark v).Canonical := ite h (markStale h)

theorem forwardAll (h : s.Canonical) : s.forwardAll.Canonical := foldl h fun _ _ => forward

theorem mcoffWrite (h : s.Canonical) : (s.mcoffWrite i v).Canonical := forwardAll h

theorem attestRequest (h : s.Canonical) : (s.attestRequest v).Canonical := ite h h

theorem writeAll {ws : List (Nat × List Byte)} (h : s.Canonical) : (s.writeAll who ws).1.Canonical := by
  induction ws generalizing s with
  | nil => exact h
  | cons w ws ih =>
    unfold State.writeAll
    split
    case h_1 e => exact of_eq (writeAt h) e
    case h_2 e => exact ih (of_eq (writeAt h) e)

theorem exec_attestationDone (h : s.Canonical) : (execAttestationDone s).Canonical := by
  refine ite (c := s.host.attest ≠ 1) h (ite h (settle h ?_))
  have hw := fun ws => writeAll (who := [11]) (ws := ws) h
  split <;> exact hw _

theorem exec_flrDrainEnd (h : s.Canonical) : (execFlrDrainEnd s).Canonical := by
  change State.Canonical _
  split
  · exact h
  · exact ite h h

/-! ## Storage transfers -/

theorem readAll (h : s.Canonical) : (s.readAll who ps).1.Canonical := by
  induction ps generalizing s with
  | nil => exact h
  | cons p ps ih =>
    unfold State.readAll
    split
    case h_1 e => exact of_eq (readAt h) e
    case h_2 e => exact ih (of_eq (readAt h) e)

theorem dmaStep {d : Dma} {r : State × Option (Option (List Byte))} (h : s.Canonical) (hr : r.1.Canonical) :
    (s.dmaStep d r).Canonical := by
  unfold State.dmaStep
  split
  · exact h
  · exact hr

theorem exec_storageDma {d : Dma} (h : s.Canonical) : (execStorageDma d s).Canonical := by
  change State.Canonical _
  split
  · split
    · exact h
    · exact dmaStep h (readAll h)
  · split
    · exact h
    · exact dmaStep h (writeAll h)

/-! ## Registers -/

theorem writeQueue {w : Writer} (h : s.Canonical) : (s.writeQueue w i n v).Canonical := by
  unfold State.writeQueue
  refine ite h ?_
  split
  · exact h
  · exact h
  · split
    case h_1 e =>
      have ht := exec_doorbell (w := w) (i := i) (v := v) h
      rw [e] at ht
      exact ht
    case h_2 => exact h
  · exact ite h h
  · exact h

theorem writeMsix (h : s.Canonical) : (s.writeMsix i v).Canonical := ite h h

theorem msixWrite (h : s.Canonical) : (s.msixWrite o n v).Canonical := ite (writeMsix h) (ite (writeMsix h) h)

theorem writeMemCtl (h : s.Canonical) : (s.writeMemCtl o v).Canonical := by
  unfold State.writeMemCtl
  refine ite (ite h h) (ite h (ite h ?_))
  split
  case h_4 => exact invalidate h
  case h_6 => exact staleMark h
  case h_7 => exact ite h h
  all_goals exact h

theorem writeFabric (h : s.Canonical) : (s.writeFabric o v).Canonical := by
  unfold State.writeFabric
  refine ite h (ite (retryRequests (resend h)) ?_)
  split
  · exact h
  · exact ite h h
  · exact h

theorem writeRel (h : s.Canonical) : (s.writeRel o v).Canonical := by
  unfold State.writeRel
  refine ite (mcoffWrite h) (ite ?_ (ite h ?_))
  · dsimp only
    split <;> exact h
  · split <;> exact h

theorem writeCore (h : s.Canonical) : (s.writeCore k o v).Canonical := by
  unfold State.writeCore
  refine ite h (ite (ite h h) ?_)
  split <;> exact h

theorem writeFaultQueue (h : s.Canonical) : (s.writeFaultQueue o v).Canonical := by
  unfold State.writeFaultQueue
  split <;> exact h

theorem writeMailbox (h : s.Canonical) : (s.writeMailbox o v).Canonical := by
  unfold State.writeMailbox
  exact ite h (ite h (ite h (ite (attestRequest h) h)))

theorem writeRing (h : s.Canonical) : (s.writeRing i n v).Canonical := h

theorem writeArbour (h : s.Canonical) : (s.writeArbour o v).Canonical := by
  unfold State.writeArbour
  split_ifs
  · exact writeFaultQueue h
  · exact h
  · exact writeRing h
  · exact writeMemCtl h
  · exact writeFabric h
  · exact writeRel h
  · exact writeCore h
  · exact h

theorem exec_registerWrite {w : Writer} {d : WriteData} (h : s.Canonical) : (execRegisterWrite w o d s).Canonical := by
  change State.Canonical _
  split
  · exact h
  · split
    · exact ite (msixWrite h) h
    · split
      · exact h
      · split
        · exact writeQueue h
        · split
          · exact writeArbour h
          · split
            · exact writeMailbox h
            · exact h

end Sys2Proof.Machine.State.Canonical
end

section
/-! SUPPORT. Memory in canonical form (O60): reliability, debug and bring-up. -/

namespace Sys2Proof.Machine.State.Canonical

variable {s t : State} {k j n i : Nat} {bs : List Byte} {up : BringUp}

theorem exec_hbmRequest {r : HbmReq} (h : s.Canonical) : (execHbmRequest n r s).Canonical := by
  have hwrote : ∀ (x : State × Bool) pa len, x.1.Canonical → (if x.2 then
      (x.1.recordErrors 6 [(.phys pa, len)]).hbmReply n r 2 []
      else x.1.hbmReply n r 0 []).Canonical := fun x pa len hx => ite (recordErrors hx) hx
  change State.Canonical _
  refine ite h ?_
  dsimp only
  split
  · exact ite (recordWeak (recordErrors h)) (recordWeak (recordErrors h))
  · exact hwrote _ _ _ (storePa h)
  · exact hwrote _ _ _ (storeMasked h)
  · exact h

theorem exec_activationAlert {st pc bank : Nat} {late : Bool} (h : s.Canonical) :
    (execActivationAlert st pc bank late s).Canonical := ite h (faultAddress h)

theorem scrubError {e : ScrubError} (h : s.Canonical) : (s.scrubError e).Canonical :=
  ite (ite (abandon (faultAddress h)) (faultAddress h)) (ite (faultAddress h) (ite (faultAddress h) (faultAddress h)))

theorem exec_scrubPass {es : List ScrubError} (h : s.Canonical) : (execScrubPass es s).Canonical :=
  foldl h fun _ _ => scrubError

theorem stopCore (h : s.Canonical) : (s.stopCore k).Canonical := of_mem (killGroups h) rfl

theorem exec_issueControlMismatch (h : s.Canonical) : (execIssueControlMismatch k j s).Canonical :=
  forwardAll (stopCore (faultAddress h))

theorem putSample (h : s.Canonical) : (s.putSample n bs).Canonical := ite h (deviceWrite h)

theorem exec_stallSample (h : s.Canonical) : (execStallSample n s).Canonical :=
  ite h (foldl h fun _ _ ht => modCore (putSample ht))

theorem exec_thermalTrip (h : s.Canonical) : (execThermalTrip n s).Canonical := by
  unfold execThermalTrip
  extract_lets rel a b
  have hb : b.Canonical := foldl (s := a) h fun _ _ => stopCore
  clear_value b
  exact hb

theorem exec_debugQuiescent (h : s.Canonical) : (execDebugQuiescent k s).Canonical := ite h h

theorem pokeGroup (h : s.Canonical) : (s.pokeGroup k j n bs).Canonical := by
  unfold State.pokeGroup
  split
  · exact h
  · extract_lets team old b src g₁ h₁ same r
    have hr : r.1.Canonical := by
      unfold r
      split
      · exact h
      · exact reload h
    exact modGroup hr

theorem exec_debugAccess {a : DebugAccess} (h : s.Canonical) : (execDebugAccess k a s).Canonical := by
  change State.Canonical _
  split
  · exact h
  · refine ite h ?_
    split
    case h_3 => exact pokeGroup h
    all_goals exact h

/-! ## Bring-up -/

theorem rebooted (h : s.Canonical) : s.rebooted.Canonical := Memory.wf_filter _ _ h

theorem placeLog (h : s.Canonical) : s.placeLog.Canonical := foldl h fun _ _ => deviceWrite

theorem bringLinks {b : Bool} (h : s.Canonical) : (s.bringLinks up b).Canonical :=
  placeLog (foldl h fun _ _ ht => ht)

theorem bringUp (h : s.Canonical) : (s.bringUp up).Canonical := by
  unfold State.bringUp
  refine ite h ?_
  dsimp only
  split
  · exact h
  · exact ite h (bringLinks h)
  · exact bringLinks h

end Sys2Proof.Machine.State.Canonical
end

section
/-! SUPPORT. Memory in canonical form (O60): the procedures of the term words keep it. -/

namespace Sys2Proof.Machine

/-- Whether a lane's procedure, however it ends, leaves memory in canonical form. -/
def T.Keeps {α : Type} (m : T α) : Prop := ∀ r : TermRun, r.st.Canonical → (m.run.run r).2.st.Canonical

namespace T.Keeps

variable {α β γ : Type} {ok : Bool} {c : Cause} {va : DWord} {n i : Nat} {bs : List Byte} {x : LaneAccess} {w : DWord}

/-! ## Its building blocks -/

theorem ret {a : α} : Keeps (pure a) := fun _ h => h

theorem thrown {e : TermStop} : Keeps (throw e : T α) := fun _ h => h

theorem seq {m : T α} {k : α → T β} (hm : m.Keeps) (hk : ∀ a, (k a).Keeps) : Keeps (m >>= k) := by
  intro r hr
  have h₁ := hm r hr
  change ((ExceptT.bindCont k (m.run.run r).1).run (m.run.run r).2).2.st.Canonical
  cases e : (m.run.run r).1 with
  | ok a => exact hk a _ h₁
  | error e => exact h₁

/-- What follows a look at the run may use that its memory is in canonical form. -/
theorem got {k : TermRun → T β} (hk : ∀ r, r.st.Canonical → (k r).Keeps) : Keeps (get >>= k) := fun r hr => hk r hr r hr

theorem put {r : TermRun} (h : r.st.Canonical) : Keeps (set r) := fun _ _ => h

theorem modified {f : TermRun → TermRun} (h : ∀ r, r.st.Canonical → (f r).st.Canonical) : Keeps (modify f) := h

theorem either {p : Prop} [Decidable p] {a b : T α} (ha : a.Keeps) (hb : b.Keeps) : (if p then a else b).Keeps := by
  split <;> assumption

theorem each {l : List γ} {b : β} {f : γ → β → T (ForInStep β)} (hf : ∀ a b, (f a b).Keeps) : Keeps (forIn l b f) := by
  induction l generalizing b with
  | nil => exact ret
  | cons a l ih =>
    rw [List.forIn_cons]
    refine seq (hf a b) fun o => ?_
    cases o with
    | done b => exact ret
    | yield b => exact ih

theorem fault : Keeps (T.fault c va : T α) := thrown

theorem check : Keeps (T.check ok c va) := either ret fault

theorem term : Keeps T.term := seq (fun _ h => h) fun _ => ret

theorem setTerm {f : LaneState → LaneState} : Keeps (T.setTerm f) := modified fun _ h => h

theorem putPair : Keeps (T.putPair n w) := modified fun _ h => h

theorem goto {a : Word} : Keeps (T.goto a) := modified fun _ h => h

theorem setPred {p : Nat} {b : Bool} : Keeps (T.setPred p b) := modified fun _ h => h

/-! ## Accesses -/

theorem locate {want : Want} : Keeps (T.locate want n va) := by
  refine got fun r hr => ?_
  dsimp only
  split
  · split
    · exact thrown
    · exact seq (put hr) fun _ => ret
  · exact seq (put hr) fun _ => fault

theorem watched {hits : List Nat} : Keeps (T.watched hits va) := either ret (seq (modified fun _ h => h) fun _ => fault)

theorem peek : Keeps (T.peek x n) := by
  refine got fun r hr => ?_
  split
  · exact ret
  · refine seq (put (State.Canonical.readAt hr)) fun _ => ?_
    split
    · exact thrown
    · exact ret

theorem readIf : Keeps (T.readIf ok c n va) := by
  refine seq locate fun x => seq peek fun v => got fun r _ => seq watched fun _ => seq check fun _ => either thrown ?_
  split
  · exact ret
  · exact thrown

theorem read : Keeps (T.read n va) := readIf

theorem read64 : Keeps (T.read64 va) := seq read fun _ => ret

theorem toWrite {new : List Byte → List Byte} : Keeps (T.toWrite va n new) := by
  refine seq locate fun x => got fun r _ => ?_
  have hw : ∀ a, Keeps (α := LaneAccess) (T.watched a va >>= fun _ => pure x) := fun a => seq watched fun _ => ret
  dsimp only
  split
  · exact seq peek fun _ => hw _
  · exact hw _

theorem writeIf : Keeps (T.writeIf ok c va bs) := seq toWrite fun _ => seq check fun _ => modified fun _ h => h

theorem write : Keeps (T.write va bs) := writeIf

theorem write64 : Keeps (T.write64 va w) := write

theorem writeWords {ws : List DWord} : Keeps (T.writeWords va ws) := by
  induction ws generalizing va with
  | nil => exact ret
  | cons w ws ih => exact seq write64 fun _ => ih

/-! ## Term words -/

theorem meet : Keeps (T.meet w) := seq check fun _ => check

theorem pointer : Keeps (T.pointer w) := seq check fun _ => ret

theorem entry : Keeps (T.entry i) := seq term fun _ => seq check fun _ => ret

theorem readEntry : Keeps (T.readEntry i) := seq entry fun _ => seq readIf fun _ => ret

theorem writeEntry : Keeps (T.writeEntry i w) := seq entry fun _ => writeIf

theorem derefN : Keeps (T.derefN n w) := by
  induction n generalizing w with
  | zero => exact fault
  | succ n ih =>
    refine seq meet fun _ => either (seq pointer fun _ => seq read64 fun _ => ih) (either (seq readEntry fun e => ?_) ret)
    exact either ret ih

theorem deref : Keeps (T.deref w) := derefN

theorem func : Keeps (T.func va) := seq read64 fun _ => seq check fun _ => ret

theorem top : Keeps T.top := seq term fun _ => either ret (seq read fun _ => ret)

/-! ## The descriptor's lock -/

theorem tryLock {pa val : Nat} {why : Stall} : Keeps (T.tryLock x pa val why n) := by
  induction n with
  | zero => exact thrown
  | succ n ih =>
    refine got fun r hr => seq (put (State.Canonical.swapAt hr)) fun _ => ?_
    split
    · exact thrown
    · exact modified fun _ h => h
    · exact either ih thrown
    · exact thrown

theorem takeLock {val : Nat} {why : Stall} : Keeps (T.takeLock va val why) := by
  refine seq toWrite fun x => got fun r hr => either (put hr) (either thrown ?_)
  split
  · exact tryLock
  · exact ret

theorem enterLock : Keeps T.enterLock := by
  refine got fun r _ => either ret (seq read fun f => seq (modified fun _ h => h) fun _ => ?_)
  exact either takeLock ret

theorem leaveLock : Keeps T.leaveLock := got fun _ _ => either (seq write64 fun _ => write64) ret

theorem owner {body : T Unit} (h : body.Keeps) : Keeps (T.owner body) := seq enterLock fun _ => seq h fun _ => leaveLock

theorem bindTo {spill : Nat} : Keeps (T.bindTo i w spill) := by
  unfold T.bindTo
  refine seq enterLock fun _ => seq term fun t => ?_
  have hw : ∀ u : PUnit, Keeps ((fun _ => T.writeEntry i (written w)) u) := fun _ => writeEntry
  refine either (seq read fun _ => either (seq top fun _ => seq writeIf fun _ => seq setTerm hw) ?_) ?_
  · exact writeEntry
  · exact writeEntry

end T.Keeps
end Sys2Proof.Machine
end

section
/-! SUPPORT. Memory in canonical form (O60): backtracking, unification and the lanes of a term word keep it. -/

namespace Sys2Proof.Machine

namespace T.Keeps

variable {c d v : DWord} {w : DWord} {i n p : Nat} {ps : List WalkItem} {x y : DWord}

theorem notGiven : Keeps (T.notGiven n c) := by
  induction n generalizing c with
  | zero => exact either ret fault
  | succ n ih => exact either ret (seq read fun _ => either (seq read64 fun _ => ih) ret)

theorem inChain : Keeps (T.inChain v n c) := by
  induction n generalizing c with
  | zero => exact either ret fault
  | succ n ih => exact either ret (either ret (seq read64 fun _ => ih))

theorem oldest {best : DWord} : Keeps (T.oldest best n c) := by
  induction n generalizing c best with
  | zero => exact either ret fault
  | succ n ih => exact either ret (seq read fun _ => seq read64 fun _ => ih)

theorem untrail : Keeps (T.untrail n) := by
  induction n with
  | zero => exact ret
  | succ n ih => exact seq term fun _ => seq read64 fun _ => seq writeEntry fun _ => seq setTerm fun _ => ih

theorem restoreArgs : Keeps (T.restoreArgs c i n) := by
  induction n generalizing i with
  | zero => exact ret
  | succ n ih => exact seq read64 fun _ => seq putPair fun _ => ih

theorem fail : Keeps T.fail := by
  unfold T.fail
  refine seq term fun t => seq notGiven fun c => either (seq setTerm fun _ => got fun _ _ => goto) ?_
  refine seq read64 fun trail => seq untrail fun _ => got fun r _ => ?_
  extract_lets rest
  have hrest : ∀ u, (rest u).Keeps := fun _ =>
    seq read64 fun _ => seq read fun _ => seq read fun _ => seq restoreArgs fun _ => seq write fun _ =>
      seq setTerm fun _ => seq read fun _ => goto
  exact either (seq read64 fun _ => seq setTerm hrest) (hrest ())

/-! ## Unification -/

theorem item {p : WalkItem} : Keeps (T.item p) := by
  cases p with
  | words x y => exact ret
  | args a b => exact seq read64 fun _ => seq read64 fun _ => ret

theorem freeWord : Keeps T.freeWord := got fun _ hr => seq (put hr) fun _ => ret

theorem spill {old new : Nat} : Keeps (T.spill old new) :=
  seq top fun _ => seq term fun _ => seq (each fun _ _ => seq freeWord fun _ => seq writeIf fun _ => ret) fun _ => ret

theorem decide {spill : Nat} : Keeps (T.decide x y spill) := by
  have bound : ∀ {i w}, Keeps (T.bindTo i w spill >>= fun _ => pure (some ([] : List WalkItem))) := seq bindTo fun _ => ret
  unfold T.decide
  refine either (either ret bound) (either bound (either bound (either ret (either ?_ (either ?_ ret)))))
  · exact seq pointer fun _ => seq pointer fun _ => seq func fun _ => seq func fun _ => either ret ret
  · exact seq pointer fun _ => seq pointer fun _ => ret

theorem walkStep : Keeps (T.walkStep ps) := by
  cases ps with
  | nil => exact ret
  | cons p rest =>
    refine seq item fun w => seq deref fun x => seq deref fun y => seq decide fun next => ?_
    cases next with
    | none => exact ret
    | some more => exact either (seq spill fun _ => ret) ret

theorem walkRun : Keeps (T.walkRun n ps) := by
  induction n generalizing ps with
  | zero => exact walkStep
  | succ n ih =>
    refine seq ih fun o => ?_
    cases o with
    | inl b => exact ret
    | inr qs => exact ih

theorem walkUp {f : Nat} : Keeps (T.walkUp f n ps) := by
  induction f generalizing n ps with
  | zero => exact thrown
  | succ f ih =>
    refine seq walkRun fun o => ?_
    cases o with
    | inl b => exact ret
    | inr qs => exact ih

theorem unify : Keeps (T.unify x y) := seq meet fun _ => seq meet fun _ => walkUp

/-! ## Bodies -/

theorem search {body : T Unit} (h : body.Keeps) : Keeps (T.search body) := seq term fun _ => seq check fun _ => h

theorem heapWords {limit : Nat} {ws : List DWord} : Keeps (T.heapWords limit w ws) := by
  induction ws generalizing w with
  | nil => exact ret
  | cons _ ws ih => exact seq writeIf fun _ => ih

theorem build {tag d : Nat} {ws : List DWord} : Keeps (T.build tag d ws) :=
  seq term fun _ => seq heapWords fun _ => seq setTerm fun _ => putPair

theorem meetAll {ws : List DWord} : Keeps (T.meetAll ws) := by
  induction ws with
  | nil => exact ret
  | cons _ ws ih => exact seq meet fun _ => ih

theorem argAt {d : Nat} : Keeps (T.argAt d x) := seq read64 fun _ => seq meet fun _ => putPair

theorem topPoint {body : DWord → Nat → T Unit} (h : ∀ c f, (body c f).Keeps) : Keeps (T.topPoint body) :=
  seq term fun _ => seq check fun _ => owner <| seq term fun _ => seq read fun _ => seq check fun _ => h _ _

theorem cutTo : Keeps (T.cutTo v) := seq term fun _ => by
  dsimp only
  split
  · exact seq ret fun _ => check
  · exact seq inChain fun _ => check

theorem copyWords : Keeps (T.copyWords n c d) := by
  induction n generalizing c d with
  | zero => exact ret
  | succ n ih => exact seq read64 fun _ => seq write64 fun _ => ih

theorem copyTable : Keeps (T.copyTable n c d) := by
  induction n generalizing c d with
  | zero => exact ret
  | succ n ih =>
    refine seq locate fun _ => seq peek fun v => ?_
    extract_lets rest
    have hrest : ∀ u, (rest u).Keeps := fun _ => seq locate fun _ => seq (modified fun _ h => h) fun _ => ih
    exact either (seq thrown hrest) (hrest ())

theorem emptyTrail : Keeps (T.emptyTrail n c) := by
  induction n generalizing c with
  | zero => exact ret
  | succ n ih => exact seq read64 fun _ => seq writeEntry fun _ => ih

theorem adoptPoint : Keeps (T.adoptPoint d c p) :=
  seq term fun _ => seq read fun _ => seq read fun _ => seq check fun _ => seq read64 fun _ => seq read64 fun _ =>
    seq read fun _ => seq read64 fun _ => seq write fun _ => seq write64 fun _ => seq writeIf fun _ =>
    seq writeWords fun _ => seq copyWords fun _ => seq read64 fun _ => seq copyTable fun _ => seq read64 fun _ =>
    seq emptyTrail fun _ => seq restoreArgs fun _ => seq setTerm fun _ => seq setPred fun _ => goto

end T.Keeps
end Sys2Proof.Machine
end

section
/-! SUPPORT. Memory in canonical form (O60): the term and search words keep it. -/

namespace Sys2Proof.Machine
namespace State.Canonical

variable {s t : State} {m : Word} {first code n l : Nat} {relaxed u undo ok sc x : Bool} {a : LaneAccess}
  {ws : List (LaneAccess × List Byte)} {r : TermRun} {w : TermWord} {d : BitVec 6} {b : BitVec 7}

theorem failLater (h : s.Canonical) : (s.failLater m code).Canonical := ite h h

theorem writeNow {y : LaneAccess × List Byte} (h : s.Canonical) : (s.writeNow first m relaxed y).Canonical := by
  unfold State.writeNow
  split
  · exact h
  · exact failLater (writeAt h)

theorem bump (h : s.Canonical) : (s.bump m a).Canonical := by
  unfold State.bump
  split
  · exact h
  · split
    · exact failLater (askWith h)
    · exact failLater (performRmw h)

theorem releaseLock (h : s.Canonical) : (r.release s m ws).Canonical := by
  unfold TermRun.release
  split
  · exact h
  · refine ite h ?_
    split
    · exact h
    · dsimp only
      have hw : ∀ free, ((ws.foldl (fun s w => s.writeNow r.first m true w) s).writeNow r.first m false free).Canonical :=
        fun _ => writeNow (foldl h fun _ _ => writeNow)
      split
      · exact bump (hw _)
      · exact hw _

theorem sendOrdered (h : s.Canonical) : (s.sendOrdered m sc ws).Canonical := modCore (dispatchAll h)

theorem sendTerm (h : s.Canonical) : (r.send s m).Canonical := ite h (ite (releaseLock h) (ite h (sendOrdered h)))

theorem commitTerm (h : s.Canonical) : (r.commit s m).Canonical := by
  unfold TermRun.commit
  dsimp only
  split <;> exact h

/-! ## The lanes of a word -/

theorem termLane {body : T Unit} (hb : body.Keeps) (h : w.st.Canonical) : (w.lane u undo first l body).st.Canonical := by
  have hr : (body.run.run (TermRun.start w.st first l)).2.st.Canonical := hb _ h
  have sent : ∀ {r : TermRun} {m}, r.st.Canonical → (if undo then r.release r.st m [] else r.send r.st m).Canonical :=
    fun h => ite (releaseLock h) (sendTerm h)
  unfold TermWord.lane
  extract_lets m x r w close
  have closed : ∀ {s t : State}, s.Canonical → t.Canonical → (close s t).st.Canonical := by
    intro s t hs ht
    unfold close
    split
    · exact hs
    · exact ht
  clear_value close
  split
  · exact closed (sendTerm hr) (commitTerm (sendTerm hr))
  · exact closed (sent hr) (sent hr)
  · exact hr
  · exact closed (sent hr) (sent hr)

theorem termLanes {body : Nat → T Unit} (hb : ∀ l, (body l).Keeps) (h : s.Canonical) :
    (s.termLanes u undo body).st.Canonical :=
  List.foldlRecOn (motive := fun w : TermWord => w.st.Canonical) _ _ h fun _ hw l _ => termLane (hb l) hw

theorem terms {body : Nat → T Unit} (hb : ∀ l, (body l).Keeps) (h : s.Canonical) : (s.terms u undo body).Canonical := by
  unfold State.terms
  extract_lets w t
  have hw : w.st.Canonical := termLanes hb h
  have ht : t.Canonical := raiseLanes hw
  clear_value t w
  split
  · exact ite ht hw
  · exact ite ht ht

theorem checked (h : s.Canonical) (ht : t.Canonical) : (s.checked ok t).Canonical := ite ht (raise h)

theorem termWord {body : Nat → T Unit} (hb : ∀ l, (body l).Keeps) (h : s.Canonical) :
    (s.termWord u undo ok body).Canonical :=
  checked h (after h (terms hb h))

end State.Canonical

namespace T.Keeps

variable {s : State} {u x : Bool} {d : BitVec 6} {b : BitVec 7}

theorem exec_tag {c : Bool} {a : BitVec 6} (h : s.Canonical) : (execTag c u d a s).Canonical :=
  State.Canonical.checked h (State.Canonical.terms (fun _ => seq meet fun _ => modified fun _ h => h) h)

theorem exec_mkt {c : Bool} {t : BitVec 6} (h : s.Canonical) : (execMkt c u d t b x s).Canonical :=
  State.Canonical.termWord (fun _ => search (either putPair (seq meet fun _ => putPair))) h

theorem exec_mkvar {c : Bool} (h : s.Canonical) : (execMkvar c d s).Canonical :=
  State.Canonical.termWord (fun _ => search (owner (seq term fun _ => seq writeEntry fun _ => seq setTerm fun _ =>
      putPair))) h

theorem exec_mkstr {c : Bool} {m : BitVec 2} {a : BitVec 6} (h : s.Canonical) : (execMkstr c d m a b x s).Canonical :=
  State.Canonical.termWord (fun _ => search (either (seq meetAll fun _ => build)
    (either (seq check fun _ => seq meetAll fun _ => build) build))) h

theorem exec_arg {c : Bool} {m : BitVec 2} {a : BitVec 6} (h : s.Canonical) : (execArg c u d m a b x s).Canonical := by
  refine State.Canonical.termWord (fun l => search (seq deref fun t => ?_)) h
  refine either (seq pointer fun p => seq func fun f => either (seq check fun _ =>
      argAt) putPair) (either ?_ (either putPair fault))
  exact either (seq check fun _ => seq pointer fun _ => argAt) putPair

theorem exec_deref {c : Bool} {a : BitVec 6} (h : s.Canonical) : (execDeref c u d a s).Canonical :=
  State.Canonical.termWord (fun _ => seq deref fun _ => putPair) h

theorem exec_unifyP {c : Bool} {p : BitVec 3} {a : BitVec 6} (h : s.Canonical) : (execUnifyP c p a b x s).Canonical :=
  State.Canonical.termWord (fun _ => search (seq unify fun _ => seq leaveLock fun _ => setPred)) h

theorem exec_unifyF {c : Bool} {a : BitVec 6} (h : s.Canonical) : (execUnifyF c a b x s).Canonical :=
  State.Canonical.termWord (fun _ => search (seq unify fun _ => either leaveLock (owner fail))) h

theorem exec_bind {c : Bool} {a : BitVec 6} (h : s.Canonical) : (execBind c a b x s).Canonical :=
  State.Canonical.termWord (fun _ => search (seq meet fun _ => seq meet fun _ =>
    owner (seq deref fun _ => seq check fun _ => bindTo))) h

theorem exec_choice {c : Bool} (h : s.Canonical) : (execChoice c d b x s).Canonical :=
  State.Canonical.termWord (fun _ => search (owner (seq term fun _ => seq top fun _ => seq writeIf fun _ =>
    seq writeWords fun _ => setTerm))) h

theorem exec_retry {c : Bool} (h : s.Canonical) : (execRetry c b x s).Canonical :=
  State.Canonical.termWord (fun _ => search (topPoint fun _ _ => seq write fun _ => write)) h

theorem exec_trust {c : Bool} (h : s.Canonical) : (execTrust c s).Canonical :=
  State.Canonical.termWord (fun _ => search (topPoint fun _ _ => seq read64 fun _ => setTerm)) h

theorem exec_fail {c : Bool} (h : s.Canonical) : (execFail c s).Canonical :=
  State.Canonical.termWord (fun _ => search (owner fail)) h

theorem exec_cut {c : Bool} (h : s.Canonical) : (execCut c b x s).Canonical := by
  unfold execCut
  extract_lets v w
  have hw : w.st.Canonical := by
    unfold w
    split
    · exact State.Canonical.termLanes (fun _ => seq term fun _ => either ret cutTo) h
    · exact h
  clear_value w
  refine State.Canonical.checked h (State.Canonical.after h ?_)
  split
  · exact hw
  · exact State.Canonical.ite (State.Canonical.raise h) (State.Canonical.terms (fun _ => search (owner (seq cutTo fun _ =>
      setTerm))) hw)

theorem exec_adopt {c : Bool} {p : BitVec 3} {a : BitVec 6} (h : s.Canonical) : (execAdopt c p a s).Canonical := by
  refine State.Canonical.termWord (fun l => search (seq term fun t => seq check fun _ => seq check fun _ =>
      seq takeLock fun _ =>
    seq read64 fun q => seq check fun _ => seq read fun f => either ?_ setPred)) h
  exact seq read64 fun _ => seq oldest fun _ => either setPred adoptPoint

theorem publish {body : DWord → T Unit} (hb : ∀ sd, (body sd).Keeps) (h : s.Canonical) : (s.publish b x body).Canonical := by
  refine State.Canonical.termWord (fun l => search (seq check fun _ => seq term fun t => seq takeLock fun _ =>
      seq (hb _) fun _ => ?_)) h
  exact seq toWrite fun y => got fun _ _ => either thrown (modified fun _ h => h)

theorem exec_publishOpen {c : Bool} (h : s.Canonical) : (execPublishOpen c b x s).Canonical :=
  publish (fun _ => seq term fun _ => seq write64 fun _ => seq write64 fun _ => seq write fun _ => seq write64 fun _ =>
    seq read fun _ => write) h

theorem exec_publishClose {c : Bool} (h : s.Canonical) : (execPublishClose c b x s).Canonical :=
  publish (fun _ => seq read fun _ => write) h

theorem exec_btld {c : Bool} {p : BitVec 3} (h : s.Canonical) : (execBtld c u d p b x s).Canonical :=
  State.Canonical.termWord (fun _ => seq readEntry fun _ => seq putPair fun _ => setPred) h

end T.Keeps
end Sys2Proof.Machine
end

section
/-! SUPPORT. Memory in canonical form (O60): the other words and events keep it, and so does every meaning. -/

namespace Sys2Proof.Machine.State.Canonical

variable {s t : State} {u c x ok g : Bool} {a b d : BitVec 7} {fs : Option Bool} {tries : List Try} {n k j : Nat}

theorem iteResult {p : Prop} [Decidable p] {r q : Result} (hr : r.Canonical) (hq : q.Canonical) :
    (if p then r else q).Canonical := by
  split <;> assumption

/-- A word that changes no memory, behind its operand checks. -/
theorem quiet (h : s.Canonical) (e : t.mem = s.mem) : (s.checked ok t).Canonical := checked h (of_mem h e)

theorem raiseVa {cause : Cause} {va : DWord} {ps : List Nat} {m : Word} {code : BitVec 22} (h : s.Canonical) :
    (if s.issue.exec = 0 then s else s.takeFault cause s.issue.exec m va code ps []).Canonical := ite h h

theorem putS {w : DWord} (h : s.Canonical) : (s.putS n w).Canonical := ite h h

theorem putWords {f : Nat → Nat} (h : s.Canonical) : (s.putWords u n k f).Canonical := foldl h fun _ _ ht => ht

theorem onResidency {desc : DWord} (h : s.Canonical) (ht : t.Canonical) : (s.onResidency ok desc t).Canonical :=
  checked h (ite ht (raise h))

theorem wide {f : DWord → DWord → DWord} (h : s.Canonical) : (s.wide u n c j k x f).Canonical := by
  unfold State.wide
  split
  · exact checked h (putS h)
  · exact quiet h rfl

/-! ## Words of the integer, branch and control units -/

theorem exec_bcast {p : BitVec 3} (h : s.Canonical) : (execBcast c u d a p s).Canonical := checked h (ite h h)

theorem exec_movS (h : s.Canonical) : (execMovS c u d b x s).Canonical := checked h (putS h)

theorem exec_cmp64 {n : BitVec 4} {p : BitVec 3} {a : BitVec 6} (h : s.Canonical) :
    (execCmp64 c u n p g a b x s).Canonical :=
  iteResult (quiet h rfl) (quiet h rfl)

theorem exec_vote {f p : BitVec 3} (h : s.Canonical) : (execVote c u d f p s).Canonical := by
  unfold execVote
  dsimp only
  split
  case h_5 => exact raise h
  all_goals exact quiet h rfl

theorem exec_rdsr {m : BitVec 8} (h : s.Canonical) : (execRdsr c u d b m s).Canonical :=
  iteResult (r := .next (s.wait .registerPending)) h (checked h (ite (putS h) (ite h h)))

theorem exec_wrsr {m : BitVec 8} (h : s.Canonical) : (execWrsr c u d a m s).Canonical :=
  iteResult (r := .next (s.wait .registerPending)) h (checked h (writeSpecial h))

theorem exec_clause {w : BitVec 12} {a b : BitVec 4} {va vb : Bool} (h : s.Canonical) :
    (execClause w a b va vb s).Canonical :=
  iteResult (r := .next (s.raise .illegalOperand)) (raise h) (iteResult (r := .next (s.wait .clauseWait)) h h)

theorem exec_clock (h : s.Canonical) : (execClock c u d x g s).Canonical := checked h (ite h (putS h))

theorem exec_pmark {i : BitVec 22} (h : s.Canonical) : (execPmark c i s).Canonical := by
  change State.Canonical _
  refine ite h ?_
  split <;> exact h

theorem exec_trywait {p : BitVec 3} {f : BitVec 4} {m : BitVec 12} (h : s.Canonical) : (execTrywait c u p f m s).Canonical :=
  checked h (ite h (ite h h))

theorem exec_cvt {k m : BitVec 4} {r : BitVec 2} {d a : BitVec 6} (h : s.Canonical) : (execCvt c u k m r d a s).Canonical :=
  checked h (ite h h)

theorem exec_cvtpk {f : BitVec 5} {m : BitVec 2} (h : s.Canonical) : (execCvtpk c u f m a b x s).Canonical :=
  checked h (of_mem (putWords h) rfl)

theorem exec_cvtupk {f : BitVec 5} (h : s.Canonical) : (execCvtupk c u f a b x s).Canonical := by
  refine checked h (of_mem (s := List.foldl _ s _) ?_ rfl)
  exact foldl h fun _ _ ht => ht

theorem exec_bar {m : BitVec 3} {n : BitVec 4} (h : s.Canonical) : (execBar c u a m n s).Canonical :=
  checked h (ite h (modGroup (dispatch h)))

theorem exec_barArrive {m : BitVec 3} {n : BitVec 4} (h : s.Canonical) : (execBarArrive c u d a m n s).Canonical :=
  checked h (ite h (dispatch h))

theorem exec_barWait {m : BitVec 3} {n : BitVec 4} (h : s.Canonical) : (execBarWait c u a m n s).Canonical :=
  checked h (ite h (ite h h))

theorem exec_roleGive {n : BitVec 15} (h : s.Canonical) : (execRoleGive c u n s).Canonical :=
  iteResult (r := .next (s.wait .registerPending)) h (checked h (ite h h))

theorem exec_sysret {f : BitVec 2} (h : s.Canonical) : (execSysret c f a s).Canonical := by
  have noted : ∀ {t : State} {cause m}, t.Canonical → (if m = (0 : Word) then t else t.noteError cause m).Canonical :=
    fun ht => ite ht ht
  unfold execSysret
  extract_lets r faults going go met note t
  have ht : t.Canonical := noted (noted (raiseLanes (sysTargets h)))
  clear_value t
  exact checked h (ite ht ht)

theorem exec_park (h : s.Canonical) : (execPark c u d a b x s).Canonical := by
  refine checked h (after h (access (readLanes h) fun ls _ t ht => modGroup (foldl ht fun r y hr => ?_)))
  dsimp only
  split
  · exact ite (foldl hr fun _ _ ht => ht) hr
  · exact hr

theorem exec_hold (h : s.Canonical) : (execHold c u d a s).Canonical := checked h (ite h h)

end Sys2Proof.Machine.State.Canonical
end

section
/-! SUPPORT. Memory in canonical form (O60): the words of tasks, memory and matrices, the other events, and with them every
meaning. -/

namespace Sys2Proof.Machine.State.Canonical

variable {s t : State} {u c x ok g : Bool} {a b d : BitVec 7} {fs : Option Bool} {tries : List Try} {n k j : Nat}

/-! ## Tasks and queues -/

theorem exec_taskSpawn {l : Bool} (h : s.Canonical) : (execTaskSpawn c u l g a b x s).Canonical := by
  refine checked h (after h (access h fun ls _ t ht => endPush (modCore ?_)))
  exact foldl (dispatch ht) fun _ _ hr => push (readRecord hr)

theorem exec_ctrAdd (h : s.Canonical) : (execCtrAdd c u d a b x s).Canonical := by
  refine checked h (after h (access (sampled h) fun ls _ t ht => endPush (modCore ?_)))
  exact foldl_fst (dispatch ht) fun _ _ hr => counter hr

theorem exec_wqPop (h : s.Canonical) : (execWqPop c u d a x s).Canonical :=
  checked h (after h (finish (walk h fun _ _ => walkPop)))

theorem exec_wqPush (h : s.Canonical) : (execWqPush c u d a b x s).Canonical :=
  checked h (after h (finish (walk h fun _ _ => walkPush)))

/-! ## Memory -/

theorem exec_strel {m z : BitVec 3} (h : s.Canonical) : (execStrel c u d a m z s).Canonical :=
  checked h (ite (store (podRelease h)) h)

theorem atomic {r m : Nat} {w hostToo : Bool} {op : Nat → Rmw} (h : s.Canonical) :
    (s.atomic u n k r m w ok hostToo op).Canonical := checked h (rmw h)

theorem exec_fence {m : BitVec 3} {k : BitVec 2} (h : s.Canonical) : (execFence c u m k s).Canonical :=
  checked h (ite (fenced h) h)

theorem exec_fenceRng {m : BitVec 3} {k : BitVec 2} (h : s.Canonical) : (execFenceRng c u m k a b s).Canonical :=
  checked h (ite (fenced h) h)

theorem exec_cpyL {d a b : BitVec 6} {z : BitVec 2} {f : Bool} (h : s.Canonical) : (execCpyL c u d z a b f x s).Canonical :=
  checked h (after h (ite h (ite (raiseLanes h) (dispatch h))))

theorem exec_ldk (h : s.Canonical) : (execLdk c u a s).Canonical := checked h (ite h (ite h (load h)))

theorem exec_stkCtx (h : s.Canonical) : (execStkCtx c u d a b s).Canonical := checked h (ite h (engine h))

theorem exec_flushl1 (h : s.Canonical) : (execFlushl1 c u s).Canonical := ite h (ite h (dispatch h))

/-! ## Matrices and residencies -/

theorem exec_mma {k : BitVec 4} {e : BitVec 6} {m : BitVec 3} {r z : Bool} (h : s.Canonical) :
    (execMma c k a e r z m s).Canonical :=
  checked h (ite h (ite (raiseLanes h) (after h (mmaIssue h))))

theorem exec_accLd {k : BitVec 4} {m n : BitVec 2} {f : Bool} (h : s.Canonical) : (execAccLd c k x a m n f s).Canonical :=
  checked h (after h (ite (load h) (load h)))

theorem exec_accSt {k : BitVec 4} {m n : BitVec 2} {f : Bool} (h : s.Canonical) : (execAccSt c k x a m n f s).Canonical :=
  checked h (after h (storeOn h))

theorem exec_accStrows {k : BitVec 4} {f : Bool} (h : s.Canonical) : (execAccStrows c k x a f s).Canonical :=
  checked h (ite h (ite (raiseLanes h) (after h (finishStores (walk h fun _ _ => rowStores)))))

theorem exec_accZero {k : BitVec 4} (h : s.Canonical) : (execAccZero c k x s).Canonical :=
  checked h (ite h (after h h))

theorem exec_resAlloc (h : s.Canonical) : (execResAlloc c u d a s).Canonical :=
  checked h (ite h (ite (putS (putS h)) (putS (putS h))))

theorem exec_resLoad {f : Bool} (h : s.Canonical) : (execResLoad c u d a f s).Canonical :=
  checked h (ite h (ite (raiseLanes h) (after h (dispatch h))))

theorem exec_resPin (h : s.Canonical) : (execResPin c u a x s).Canonical := onResidency h (ite h h)

theorem exec_resFree (h : s.Canonical) : (execResFree c u a s).Canonical :=
  onResidency h (ite h (instant (foldl h fun _ _ ht => ht)))

theorem exec_resQuery (h : s.Canonical) : (execResQuery c u d a s).Canonical := checked h (putS h)

theorem exec_resHeat (h : s.Canonical) : (execResHeat c u d a b s).Canonical := onResidency h (raiseLanes h)

theorem exec_resAge (h : s.Canonical) : (execResAge c u a s).Canonical := onResidency h (ite h h)

theorem exec_resMigrate {f : Bool} (h : s.Canonical) : (execResMigrate c u d a b f s).Canonical :=
  onResidency h (ite h (after h (ite (raise h) (ite (raise h) (after h (ite (raise h) (instant (dispatch h))))))))

theorem exec_budgetRd {e : BitVec 8} (h : s.Canonical) : (execBudgetRd c u d e s).Canonical := checked h (putS h)

/-! ## Events -/

theorem exec_hostCompletion (h : s.Canonical) : (execHostCompletion n k x s).Canonical := by
  refine afterAnswer (foldl h fun t r ht => ite ?_ ht)
  exact ite (loseRequest ht) (answered (hostEffect ht))

theorem exec_remoteTimeout (h : s.Canonical) : (execRemoteTimeout n k s).Canonical :=
  ite h (afterAnswer (foldl h fun _ _ ht => ite (loseRequest ht) ht))

theorem exec_notAnInstruction {w : BitVec 32} (h : s.Canonical) : (execNotAnInstruction w s).Canonical := by
  change State.Canonical _
  split
  · exact h
  · exact raise h

theorem exec_invalidationDone (h : s.Canonical) : (execInvalidationDone s).Canonical := ite h h

theorem exec_staleMarkDone (h : s.Canonical) : (execStaleMarkDone s).Canonical := ite h h

theorem exec_debugRelease (h : s.Canonical) : (execDebugRelease k s).Canonical := h

/-- Every meaning keeps memory in canonical form. -/
theorem exec {i : Instr} (h : s.Canonical) : Result.Canonical (Machine.exec i s) := by
  cases i <;> dsimp only [Machine.exec]
  case iadd | isub | imul | imulh | imad | iabs | imin | imax | ishl | ishr | irot | and | or | xor | andn | clz | popc |
      brev | bfx | bfi | icmp | movW32 | movW64 | movi | movhi | cap | fadd | fsub | fmul | ffma | fmin | fmax | fcmp |
      frcp | frsq | fsqrt | fdiv | fexp2 | flog2 | fsin | fcos | frnd | fclass | fscale | dadd | dmul | dfma | dminmax |
      dcmp | hadd2 | hmul2 | hfma2 | bfma2 | shfl | lred | lscan | cellkey | fdot2 | pref | mfmt | fireSet | faddi |
      fmuli | guard | call | ret | brx => exact quiet h rfl
  case nop | plog | bra | jmp | exit | groupAged | parkTimeout | sleepEnd |
      plimitWrite | prefetchFill | belvedereMismatch | functionLevelReset | flitReceive | powerWindow | dieOver105 |
      dieBelow100 | debugHalt | hostAtomicop | refreshDue => exact h
  case taskDone | sleep | sfaultClear | telemetryCounterClear | selfRefreshEntry | hostLinkUp | klockSet => exact ite h h
  case add64 | sub64 | mul64 | shl64 | shr64 => exact wide h
  case atadd | atminmax | atlogic | atxchg | atcas => exact atomic h
  case ldg | lds | ldp | ldacq => exact checked h (load h)
  case bankAdd | bankFx | bankFxread | bankApp => exact checked h (rmw h)
  case brk | trap | instructionFetchFault => exact raiseVa h
  case stg | sts | stp => exact checked h (store h)
  case bankAxpy | bankRed | cpyT => exact checked h (engine h)
  case roleClaim | watch => exact checked h (ite h h)
  case clause => exact exec_clause h
  case movS => exact exec_movS h
  case cmp64 => exact exec_cmp64 h
  case vote => exact exec_vote h
  case rdsr => exact exec_rdsr h
  case wrsr => exact exec_wrsr h
  case taskSpawn => exact exec_taskSpawn h
  case ctrAdd => exact exec_ctrAdd h
  case wqPop => exact exec_wqPop h
  case wqPush => exact exec_wqPush h
  case bar => exact exec_bar h
  case barArrive => exact exec_barArrive h
  case barWait => exact exec_barWait h
  case roleGive => exact exec_roleGive h
  case park => exact exec_park h
  case sysret => exact exec_sysret h
  case clock => exact exec_clock h
  case pmark => exact exec_pmark h
  case hold => exact exec_hold h
  case cvt => exact exec_cvt h
  case cvtpk => exact exec_cvtpk h
  case cvtupk => exact exec_cvtupk h
  case bcast => exact exec_bcast h
  case strel => exact exec_strel h
  case fence => exact exec_fence h
  case fenceRng => exact exec_fenceRng h
  case cpyL => exact exec_cpyL h
  case trywait => exact exec_trywait h
  case ldk => exact exec_ldk h
  case stkCtx => exact exec_stkCtx h
  case flushl1 => exact exec_flushl1 h
  case mma => exact exec_mma h
  case accLd => exact exec_accLd h
  case accSt => exact exec_accSt h
  case accStrows => exact exec_accStrows h
  case accZero => exact exec_accZero h
  case resAlloc => exact exec_resAlloc h
  case resLoad => exact exec_resLoad h
  case resPin => exact exec_resPin h
  case resFree => exact exec_resFree h
  case resQuery => exact exec_resQuery h
  case resHeat => exact exec_resHeat h
  case resAge => exact exec_resAge h
  case resMigrate => exact exec_resMigrate h
  case budgetRd => exact exec_budgetRd h
  case tag => exact T.Keeps.exec_tag h
  case mkt => exact T.Keeps.exec_mkt h
  case mkvar => exact T.Keeps.exec_mkvar h
  case mkstr => exact T.Keeps.exec_mkstr h
  case arg => exact T.Keeps.exec_arg h
  case deref => exact T.Keeps.exec_deref h
  case unifyP => exact T.Keeps.exec_unifyP h
  case unifyF => exact T.Keeps.exec_unifyF h
  case bind => exact T.Keeps.exec_bind h
  case choice => exact T.Keeps.exec_choice h
  case retry => exact T.Keeps.exec_retry h
  case trust => exact T.Keeps.exec_trust h
  case fail => exact T.Keeps.exec_fail h
  case cut => exact T.Keeps.exec_cut h
  case adopt => exact T.Keeps.exec_adopt h
  case publishOpen => exact T.Keeps.exec_publishOpen h
  case publishClose => exact T.Keeps.exec_publishClose h
  case btld => exact T.Keeps.exec_btld h
  case loadDataReturn => exact exec_loadDataReturn h
  case storeAck => exact exec_storeAck h
  case homeWrite => exact exec_homeWrite h
  case holdRelease => exact exec_holdRelease h
  case slotReclaim => exact exec_slotReclaim h
  case taskDoneDecrement => exact exec_taskDoneDecrement h
  case readyPushAccept => exact exec_readyPushAccept h
  case taskStart => exact exec_taskStart h
  case parkRecheck => exact exec_parkRecheck h
  case wqRefillDone => exact exec_wqRefillDone h
  case barrierDelivery => exact exec_barrierDelivery h
  case trywaitTimeout => exact exec_trywaitTimeout h
  case runAheadEnd => exact exec_runAheadEnd h
  case faultRecordWrite => exact exec_faultRecordWrite h
  case matrixPassDone => exact exec_matrixPassDone h
  case grottoRequest => exact exec_grottoRequest h
  case grottoResult => exact exec_grottoResult h
  case migrationComplete => exact exec_migrationComplete h
  case resLoadProceed => exact exec_resLoadProceed h
  case resLoadComplete => exact exec_resLoadComplete h
  case copyComplete => exact exec_copyComplete h
  case bankStreamComplete => exact exec_bankStreamComplete h
  case contextImageComplete => exact exec_contextImageComplete h
  case saveTeam => exact exec_saveTeam h
  case restoreTeam => exact exec_restoreTeam h
  case teamReturn => exact exec_teamReturn h
  case returnGroup => exact exec_returnGroup h
  case terminate => exact exec_terminate h
  case launchBundle => exact exec_launchBundle h
  case waitPacket => exact exec_waitPacket h
  case waitPacketTest => exact exec_waitPacketTest h
  case waitPacketTimeout => exact exec_waitPacketTimeout h
  case unknownCommand => exact exec_unknownCommand h
  case subLaunchComplete => exact complete h
  case mcoffWrite => exact mcoffWrite h
  case invalidate => exact invalidate h
  case invalidationDone => exact exec_invalidationDone h
  case staleMark => exact staleMark h
  case staleMarkDone => exact exec_staleMarkDone h
  case attestationRequest => exact attestRequest h
  case attestationDone => exact exec_attestationDone h
  case flrDrainEnd => exact exec_flrDrainEnd h
  case hostCompletion => exact exec_hostCompletion h
  case remoteTimeout => exact exec_remoteTimeout h
  case portDown => exact exec_portDown h
  case fabricRead => exact exec_fabricRead h
  case fabricWrite => exact exec_fabricWrite h
  case fabricMaskedWrite => exact exec_fabricMaskedWrite h
  case fabricAtomic => exact exec_fabricAtomic h
  case fabricReply => exact exec_fabricReply h
  case barrierArrivalMessage => exact exec_barrierArrivalMessage h
  case barrierCompletionMessage => exact exec_barrierCompletionMessage h
  case podBarrierTimeout => exact exec_podBarrierTimeout h
  case stallSample => exact exec_stallSample h
  case debugQuiescent => exact exec_debugQuiescent h
  case notAnInstruction => exact exec_notAnInstruction h
  case literalLanding => exact raise h
  case registerWrite => exact exec_registerWrite h
  case doorbell => exact exec_doorbell h
  case issueControlMismatch => exact exec_issueControlMismatch h
  case hostLinkDown => exact loseHost h
  case storageDma => exact exec_storageDma h
  case portRetrain => exact exec_portRetrain h
  case hbmRequest => exact exec_hbmRequest h
  case activationAlert => exact exec_activationAlert h
  case scrubPass => exact exec_scrubPass h
  case thermalTrip => exact exec_thermalTrip h
  case debugAccess => exact exec_debugAccess h
  case debugRelease => exact exec_debugRelease h
  case powerGood => exact bringUp (rebooted h)
  case packageReset => exact rebooted h

end Sys2Proof.Machine.State.Canonical
end

section
/-! SUPPORT and PROOF. Memory in canonical form (O60): issue, the clk, and every step. -/

namespace Sys2Proof.Machine

namespace State.Canonical

variable {s t u : State} {b : Bundle} {k slot : Nat} {todo : List Nat} {r : State ⊕ (Nat × Word × Word)}

/-- Whether what a group's issue makes of a state, if it makes anything, has its memory in canonical form. -/
def Issued (r : State ⊕ (Nat × Word × Word)) : Prop := ∀ t, r = .inl t → t.Canonical

theorem issued_inl (h : s.Canonical) : Issued (.inl s) := by
  intro t e
  cases e
  exact h

theorem issued_inr {w : Nat × Word × Word} : Issued (.inr w) := fun _ e => nomatch e

/-! ## The words of a bundle -/

theorem of {r : Result} (h : s.Canonical) (hr : r.Canonical) : (s.of r).Canonical := by
  cases r with
  | next t => exact hr
  | fault _ => exact h
  | refused _ => exact h

theorem run {r : Role} {w : Nat} (h : s.Canonical) : (r.run w s).Canonical := by
  cases r with
  | instr i => exact of h (exec h)
  | broken _ => exact of h (exec h)
  | literal => exact of h (exec h)

theorem runWord {i : Nat} (h : s.Canonical) : (s.runWord b i).Canonical := run h

theorem runWords (h : s.Canonical) : (s.runWords b todo).1.Canonical := by
  induction todo generalizing s with
  | nil => exact h
  | cons i is ih =>
    unfold State.runWords
    extract_lets t
    have ht : t.Canonical := runWord h
    clear_value t
    split
    · exact h
    · exact ih (s := t.wordDone) ht

theorem occupied (h : s.Canonical) : (s.occupied b).Canonical := by
  refine foldl h fun t i ht => ?_
  split <;> exact ht

theorem startAhead (h : s.Canonical) : (s.startAhead k slot).Canonical := by
  unfold State.startAhead
  split
  · exact h
  · extract_lets t
    have ht : t.Canonical := drainLoads h
    clear_value t
    split <;> exact ht

theorem afterReport (h : s.Canonical) : (s.afterReport k slot).Canonical := by
  unfold State.afterReport
  split
  · exact h
  · exact ite (startAhead h) (switchOut h)

theorem closeBundle {pc : Word} (h : s.Canonical) : (s.closeBundle k slot pc).Canonical :=
  reportNoted (afterReport (sendRequests h))

theorem decoded (h : s.Canonical) : (s.decoded b).1.Canonical := by
  unfold State.decoded
  split
  · exact h
  · exact h

theorem keepPart {done rest : List Nat} {release : Option Nat} (h : s.Canonical) :
    (s.keepPart k slot b done rest release).Canonical := sendRequests (occupied h)

/-- The words of a bundle that were run are kept whole or in part, or the group holds. -/
theorem tryWords {begun busy : Bool} (hs : s.Canonical) (ht : t.Canonical) :
    Issued (s.tryWords t k slot b todo begun busy) := by
  unfold State.tryWords
  extract_lets r hold
  have hr : r.1.Canonical := runWords ht
  have hhold : Issued hold := issued_inr
  clear_value hold r
  split
  · split
    · exact hhold
    · exact issued_inl (closeBundle (occupied hr))
  · extract_lets done i wait
    split
    · exact issued_inl hs
    · split
      · split
        · exact hhold
        · exact issued_inl (keepPart hr)
      · split
        · split
          · exact hhold
          · exact issued_inr
        · split
          · exact hhold
          · exact issued_inl (keepPart hr)

theorem issueBundle (h : s.Canonical) : Issued (s.issueBundle k slot b) := by
  unfold State.issueBundle
  dsimp only
  split
  · split <;> exact issued_inr
  · exact tryWords h (decoded h)

theorem issueRest {p : Part} (h : s.Canonical) : Issued (s.issueRest k slot p) := by
  unfold State.issueRest
  dsimp only
  split
  · exact issued_inr
  · exact tryWords h h

theorem issueFault {pc act : Word} {i : Instr} (h : s.Canonical) : (s.issueFault k slot pc act i).Canonical :=
  closeBundle (of h (exec h))

theorem issueFailed {pc act : Word} {pas : List Nat} {code : Nat} (h : s.Canonical) :
    (s.issueFailed k slot pc act pas code).Canonical := stopImprecise (recordErrors h)

/-- A run-ahead changes its core alone. -/
theorem issueAhead (h : s.Canonical) : (s.issueAhead k slot).Canonical := by
  unfold State.issueAhead
  split
  · exact h
  · exact ite h h

theorem took (h : s.Canonical) (hr : Issued r) : (s.took k slot r).Canonical := by
  cases r with
  | inl t => exact hr t rfl
  | inr w => exact h

theorem issueGroup (h : s.Canonical) : (s.issueGroup k slot).Canonical := by
  unfold State.issueGroup
  split
  · exact h
  · refine ite (issueAhead h) ?_
    split
    · exact took h (issueRest h)
    · refine ite h (ite (reportNoted h) ?_)
      split
      · exact h
      · exact h
      · exact issueFault h
      · exact issueFailed h
      · exact issueFault h
      · exact took h (issueBundle h)

/-! ## The clk -/

theorem fetchFor {g : Group} {shown : Bool} (h : s.Canonical) : (s.fetchFor k slot g shown).1.Canonical := by
  unfold State.fetchFor
  extract_lets sp held code
  split
  · split
    · exact h
    · split
      · exact h
      · exact ite h h
  · extract_lets far
    generalize Option.any _ held = had
    split
    · exact h
    · split
      · exact settle h (fetchWords h)
      · split
        · exact h
        · exact recordWeak h

theorem fetchSlot (h : s.Canonical) : (s.fetchSlot k slot).Canonical := by
  unfold State.fetchSlot
  split
  · exact h
  · refine ite (ite (fetchFor h) h) ?_
    split
    · exact h
    · exact fetchFor h

theorem fetchPackets (h : s.Canonical) : (s.fetchPackets k).Canonical := foldl h fun _ _ => fetchSlot

theorem clockCore (h : s.Canonical) : (s.clockCore k).Canonical := by
  unfold State.clockCore
  refine ite h ?_
  extract_lets t
  have ht : t.Canonical := ite h (fetchPackets h)
  clear_value t
  exact ht

theorem endTeams (h : s.Canonical) : (s.endTeams k).Canonical := foldl h fun _ _ => endTeam

theorem newClk (h : s.Canonical) : s.newClk.Canonical := by
  unfold State.newClk
  extract_lets a fab b c d
  have ha : a.Canonical := foldl h fun _ _ ht => of ht (exec ht)
  clear_value a
  have hc : c.Canonical := foldl (payOwed (retryRequests ha)) fun _ _ => endTeams
  clear_value c
  exact foldl (s := d) hc fun _ _ => clockCore

theorem advance (h : s.Canonical) : s.advance.Canonical := by
  unfold State.advance
  dsimp only
  split
  · exact exec h
  · exact newClk h

theorem input {i : Instr} (h : s.Canonical) : (s.input i).Canonical := iteResult (exec h) h

theorem step (h : s.Canonical) : Result.Canonical (Machine.step s) := by
  unfold Machine.step
  split
  · exact input h
  · exact issueGroup h
  · exact advance h

end State.Canonical

/-- Settles O60: each operation that a step is made of keeps memory in canonical form, and what writes memory does so through
`Memory.write`, which answers it so. -/
theorem everyStepKeepsMemoryCanonical : Obligations.EveryStepKeepsMemoryCanonical := by
  intro s t h e
  have hs : Result.Canonical (step s) := State.Canonical.step h
  rw [e] at hs
  exact hs

end Sys2Proof.Machine
end

section
/-! SUPPORT and PROOF. Fences and prefetches (O23). -/

namespace Sys2Proof.Machine

/-! ## What a fence does once it waits no longer -/

/-- A fence that passes changes its group alone: it acquires, releases, or holds back what comes behind it (R66, R284). -/
theorem State.fenced_onlyGroup (s : State) (sc : BitVec 3) (k : BitVec 2) (range : Option (Nat × Nat)) (loads : List Flight)
    (hi : s.issuing) (hk : k.toNat < 3) :
    OnlyGroup s (s.fenced sc.toNat k.toNat range loads) fun g => { g with
      seen := if s.issue.exec = 0 ∨ k = 1 ∨ (k = 0 ∧ loads ≠ []) then g.seen else s.nextId
      podFence := if s.issue.exec = 0 ∨ k = 0 ∨ sc.toNat ≠ 6 then g.podFence else g.podFence ||| s.issue.exec
      fences := if s.issue.exec = 0 ∨ k ≠ 0 ∨ loads = [] then g.fences else
        g.fences ++ [{ pc := s.issue.pc, mask := s.issue.exec, range := range, loads := loads.map (·.id) }] } := by
  obtain ⟨g, hg, -, -⟩ := s.issuing_elim hi
  have hkind : k = 0 ∨ k = 1 ∨ k = 2 := by
    have : ∀ j : BitVec 2, j.toNat < 3 → j = 0 ∨ j = 1 ∨ j = 2 := by decide
    exact this k hk
  refine ⟨?_, fun a => congrArg (Memory.read · a) ?memory⟩
  case memory =>
    unfold State.fenced State.podRelease State.acquired
    dsimp only
    split_ifs <;> rfl
  unfold State.fenced
  by_cases hidle : s.issue.exec = 0#32
  · rw [if_pos (show s.issue.exec = 0 from hidle)]
    exact (s.onGrp_id _ g hg (by simp [hidle])).symm
  rw [if_neg (show ¬s.issue.exec = 0 from hidle)]
  obtain rfl | rfl | rfl := hkind
  · by_cases hl : loads = []
    · simp [hidle, hl, State.acquired]
    · simp [hidle, hl]
  · by_cases h6 : sc.toNat = 6
    · simp [hidle, State.podRelease, h6]
    · simpa [hidle, State.podRelease, h6] using (s.onGrp_id _ g hg rfl).symm
  · by_cases h6 : sc.toNat = 6
    · simp [hidle, State.podRelease, h6, State.acquired, State.onGrp_onGrp, Function.comp_def]
    · simp [hidle, State.podRelease, h6, State.acquired]

/-- What a range fence that is no acquire waits for (R284): an access in its range that it orders. -/
theorem State.rangeHeld_iff (s : State) (sc : BitVec 3) (k : BitVec 2) (base len : Nat) :
    ((s.mine.any fun f => (f.mask &&& s.issue.exec) != 0 && f.inRange base len &&
        if 2 < sc.toNat then f.open_ else f.reading) ||
      decide (2 < sc.toNat) && s.cur.flight.any fun f =>
        (decide (f.id < s.grp.seen) || k == 2) && f.open_ && f.inRange base len) = true ↔
    ∃ f ∈ s.cur.flight, f.inRange base len ∧
      (f ∈ s.mine ∧ (f.mask &&& s.issue.exec) ≠ 0 ∧ (if 2 < sc.toNat then f.open_ else f.reading) ∨
        2 < sc.toNat ∧ (f.id < s.grp.seen ∨ k = 2) ∧ f.open_) := by
  have hmine : ∀ f, f ∈ s.mine → f ∈ s.cur.flight := fun f h => (List.mem_filter.1 h).1
  simp only [Bool.or_eq_true, Bool.and_eq_true, List.any_eq_true, decide_eq_true_eq, bne_iff_ne, beq_iff_eq]
  constructor
  · rintro (⟨f, hf, ⟨hm, hr⟩, hx⟩ | ⟨hfar, f, hf, ⟨ho, hx⟩, hr⟩)
    · refine ⟨f, hmine f hf, hr, .inl ⟨hf, hm, ?_⟩⟩
      split at hx <;> simp_all
    · exact ⟨f, hf, hr, .inr ⟨hfar, ho, hx⟩⟩
  · rintro ⟨f, hf, hr, ⟨hm, hx, hy⟩ | ⟨hfar, ho, hx⟩⟩
    · refine .inl ⟨f, hm, ⟨hx, hr⟩, ?_⟩
      split <;> simp_all
    · exact .inr ⟨hfar, f, hf, ⟨ho, hx⟩, hr⟩

/-! ## The words -/

/-- A word that answers its wait, or else what it makes of the state. -/
theorem State.checked_ite (s t u : State) (ok : Bool) (c p : Prop) [Decidable c] (hok : ok = true) (h : c ↔ p) :
    (p → s.checked ok (if c then t else u) = .next t) ∧ (¬p → s.checked ok (if c then t else u) = .next u) :=
  ⟨fun hp => by rw [s.checked_ok _ _ hok, if_pos (h.2 hp)], fun hp => by rw [s.checked_ok _ _ hok, if_neg (mt h.1 hp)]⟩

/-- A change to the core of the word, stated by what it takes over from the core that it makes. -/
theorem State.onCore_eq_of_fixed (s : State) (f : Core → Core) (h : Core → Core → Core) (hlen : s.issue.core < s.cores.length)
    (e : ∀ c, f c = h (f c) c) : s.onCore f = s.onCore (h (s.onCore f).cur) := by
  have hcur : (s.onCore f).cur = f s.cur := s.core_modCore _ f hlen
  exact s.onCore_congr _ _ (by rw [hcur, ← e])

/-- Of two cores, the prefetched lines and the counters alone differ. -/
def Core.PrefOnly (c d : Core) : Prop :=
  d = { c with pref := d.pref, regs := { c.regs with counters := d.regs.counters } }

theorem Core.PrefOnly.pref {c d : Core} (h : c.PrefOnly d) (p : List (Nat × Nat × Bool)) : c.PrefOnly { d with pref := p } := by
  rw [h]
  rfl

theorem Core.PrefOnly.count {c d : Core} (h : c.PrefOnly d) (i n : Nat) : c.PrefOnly (d.count i n) := by
  rw [h]
  rfl

theorem Core.PrefOnly.evict {c d : Core} (h : c.PrefOnly d) : c.PrefOnly d.evict := (h.pref _).count _ _

/-- `pref` asks for lines and counts (R290, R468): of its core, the prefetched lines and the counters alone differ. -/
theorem execPref_onlyCore (s : State) (c u : Bool) (t : BitVec 2) (a : BitVec 7) (sz : BitVec 3) (o : BitVec 5)
    (hi : s.issuing) (ht : t.toNat < 3) (hsz : sz.toNat < 7) (ha : s.vOk a.toNat) :
    let tries := s.globalTries u .read (szBytes sz.toNat) a.toNat (memgOff sz.toNat o)
    ∃ r, exec (.pref c u t a sz o) s = .next r ∧
      OnlyCore (s.noteMalformed (tries.filter (·.malformed)).length) r
        (fun c => { c with pref := r.cur.pref, regs := { c.regs with counters := r.cur.regs.counters } }) := by
  obtain ⟨g, hg, -, -⟩ := s.issuing_elim hi
  have hlen : s.issue.core < s.cores.length := s.core_lt_of_group _ _ g hg
  intro tries
  refine ⟨_, s.checked_ok _ _ (by simp [ht, hsz, ha]), ?_, fun _ => rfl⟩
  exact State.onCore_eq_of_fixed _ _
    (fun r c => { c with pref := r.pref, regs := { c.regs with counters := r.regs.counters } }) hlen
    fun c => ((Core.PrefOnly.pref (d := c) rfl _).count 0 _ |>.count 4 _).evict

theorem flushl1_dispatches (s : State) (c u : Bool) (hi : s.issuing) (he : s.issue.exec ≠ 0)
    (hf : s.flagFull (some false) = false) :
    Dispatches s (exec (.flushl1 c u) s) (some false) s.issue.exec none false false .flush := by
  refine ⟨_, ?_, s.dispatch_dispatched (some false) s.issue.exec none false false .flush hi rfl⟩
  change Host.Outcome.next (if s.issue.exec = 0 then s else if s.flagFull (some false) then _ else _) = _
  rw [if_neg he, if_neg (by simp [hf])]

/-- Settles O23: a fence either waits or passes, by what it orders; a prefetch and a flush by what they make of their core. -/
theorem fencesAndPrefetch : Obligations.FencesAndPrefetch := by
  intro s c u sc sz k t a b o hi
  refine ⟨fun hk => ?fence, fun hk ha hb => ?range, fun ht hsz ha => execPref_onlyCore s c u t a sz o hi ht hsz ha,
    fun he => ?idle, flushl1_dispatches s c u hi⟩
  case fence =>
    obtain ⟨pass, wait⟩ := s.checked_ite (s.fenced sc.toNat k.toNat none s.unreturned) (s.wait .pipeBusy) (decide (k.toNat < 3))
      (k = 0 ∨ s.issue.exec = 0 ∨ (s.settled sc.toNat ∧ (k = 1 ∨ sc.toNat ≤ 2 ∨ s.fullSettled)))
      (k = 0 ∨ s.issue.exec = 0 ∨ s.settled sc.toNat ∧ (k = 1 ∨ ¬2 < sc.toNat ∨ s.fullSettled)) (by simp [hk])
      (by rw [not_lt])
    exact ⟨fun h => ⟨_, pass h, s.fenced_onlyGroup sc k _ _ hi hk⟩, wait⟩
  case range =>
    have held := s.rangeHeld_iff sc k (s.issue.src.rs a.toNat).toNat (s.issue.src.rs b.toNat).toNat
    refine ⟨fun h => ⟨_, ?_, s.fenced_onlyGroup sc k _ _ hi hk⟩, fun h => ?_⟩
    · exact (s.checked_ite _ _ _ _ _ (by simp [hk, ha, hb]) (by rw [← held, Bool.not_eq_true', Bool.not_eq_true])).1 h
    · exact (s.checked_ite _ _ _ _ _ (by simp [hk, ha, hb]) (by rw [← held, Bool.not_eq_true', Bool.not_eq_true])).2 h
  case idle =>
    change Host.Outcome.next (if s.issue.exec = 0 then s else _) = _
    rw [if_pos he]

end Sys2Proof.Machine
end

section
/-! PROOF. An arrival on a core that stands still (O45). -/

namespace Sys2Proof.Machine

/-- A core that stands still takes no arrival (R168). -/
theorem barrierDelivery_of_quiescent (s : State) (k id : Nat) (h : (s.core k).quiescent = true) :
    exec (.barrierDelivery k id) s = .next s := by
  change execBarrierDelivery k id s = _
  unfold execBarrierDelivery
  split
  · rfl
  · split
    · rw [if_pos (.inr (.inr h))]
    · rfl

/-- An arrival at barrier 15 of the core, which waits for two and gives its token to s63. -/
def lateArrival : Flight := { Flight.blank 0 (.arrive 2 15 2 (some 63)) with slot := 0 }

/-- The debug interface has found core 0 quiescent (R168) while the arrival is on its way. -/
def stillCore : State :=
  { State.reset with cores :=
    { Core.reset with groups := [some Group.blank], flight := [lateArrival], quiescent := true } :: List.replicate 383 Core.reset }

theorem stillCore_owned : Owned stillCore 0 lateArrival Group.blank :=
  ⟨rfl, rfl, by decide +kernel, rfl, rfl, rfl⟩

theorem stillCore_group (j : Nat) (h : Group) (e : (stillCore.core 0).group j = some h) : h.barWait = none := by
  cases j with
  | zero =>
    cases e
    rfl
  | succ j => cases e

/-- Refutes O45: an arrival is not delivered while its core is quiescent (R168), which nothing in the statement excludes; on
`stillCore`, which meets every hypothesis, the event changes nothing and the operation is still in flight. -/
theorem not_refillsArrivalsAndRecords : ¬ Obligations.RefillsArrivalsAndRecords := by
  unfold Obligations.RefillsArrivalsAndRecords
  intro h
  obtain ⟨-, arrives, -⟩ := h stillCore 0 0 0 0 Group.blank rfl
  have delivered := arrives lateArrival 2 15 2 63 _ rfl rfl rfl stillCore_owned rfl rfl (by decide +kernel) (by decide +kernel)
    (by decide) rfl (.inl rfl) stillCore_group
  rw [barrierDelivery_of_quiescent stillCore 0 0 rfl] at delivered
  have flight := congrArg (fun t : State => (t.core 0).flight.length) (Host.Outcome.next.inj delivered)
  exact absurd flight (by decide)

end Sys2Proof.Machine
end

section
/-! SUPPORT. An operation in flight of a group that runs in its slot (O25, O26): what its end makes of the group. -/

namespace Sys2Proof.Machine

/-! ## A group that runs where it stands -/

/-- Group `g` runs in a slot of the core, and no team of the core is away. -/
structure Core.RunsGroup (c : Core) (slot : Nat) (g : Group) : Prop where
  here : c.group slot = some g
  running : g.phase = .running
  home : c.saved = []

theorem Core.modGroup_modGroup (c : Core) (j : Nat) (f f' : Group → Group) :
    (c.modGroup j f).modGroup j f' = c.modGroup j (f' ∘ f) := by
  simp only [Core.modGroup, modify_modify_same]
  congr 2
  funext o
  cases o <;> rfl

theorem State.modGroup_modGroup (s : State) (k j : Nat) (f f' : Group → Group) :
    (s.modGroup k j f).modGroup k j f' = s.modGroup k j (f' ∘ f) :=
  (s.modCore_modCore k _ _).trans (congrArg _ (funext fun c => c.modGroup_modGroup j f f'))

theorem State.modGroup_id (s : State) (k j : Nat) (f : Group → Group) (g : Group) (h : (s.core k).group j = some g)
    (e : f g = g) : s.modGroup k j f = s :=
  congrArg (fun t : State => { t with issue := s.issue })
    (State.onGrp_id { s with issue := { s.issue with core := k, slot := j } } f g h e)

/-- A change of the group that leaves it running. -/
theorem Core.RunsGroup.modGroup {c : Core} {slot : Nat} {g : Group} (h : c.RunsGroup slot g) (f : Group → Group)
    (hf : (f g).phase = g.phase) : (c.modGroup slot f).RunsGroup slot (f g) where
  here := by rw [Core.group_modGroup, h.here, Option.map_some]
  running := hf.trans h.running
  home := h.home

theorem Core.RunsGroup.lt {s : State} {k slot : Nat} {g : Group} (h : (s.core k).RunsGroup slot g) : k < s.cores.length :=
  s.core_lt_of_group k slot g h.here

theorem State.core_modGroup_runs {s : State} {k slot : Nat} {g : Group} (h : (s.core k).RunsGroup slot g) (f : Group → Group)
    (hf : (f g).phase = g.phase) : ((s.modGroup k slot f).core k).RunsGroup slot (f g) := by
  rw [State.modGroup, State.core_modCore _ _ _ h.lt]
  exact h.modGroup f hf

theorem Core.RunsGroup.owner {c : Core} {slot : Nat} {g : Group} (h : c.RunsGroup slot g) : c.owner slot g.team = some g := by
  simp [Core.owner, h.here, Option.filter]

theorem Core.RunsGroup.groupOf {c : Core} {slot : Nat} {g : Group} (h : c.RunsGroup slot g) : c.groupOf slot g.team = g := by
  simp [Core.groupOf, h.owner]

theorem Core.RunsGroup.patch {c : Core} {slot : Nat} {g : Group} (h : c.RunsGroup slot g) (off : Nat) (bs : List Byte) :
    c.patch slot g.team off bs = [] := Core.patch_running c slot off bs g h.here h.running h.home

theorem State.modOwner_runs {s : State} {k slot : Nat} {g : Group} (h : (s.core k).RunsGroup slot g) (f : Group → Group) :
    s.modCore k (·.modOwner slot g.team f) = s.modGroup k slot f :=
  s.modCore_congr k _ _ (Core.modOwner_eq _ _ _ g h.here h.home)

/-! ## Registers that it fills -/

theorem RegFile.setWords_zero (rf : RegFile) (d : Nat) (m : Word) (f : Nat → Nat) : rf.setWords d 0 m f = rf := rfl

theorem RegFile.setWords_succ (rf : RegFile) (d n : Nat) (m : Word) (f : Nat → Nat) :
    rf.setWords d (n + 1) m f = (rf.setWords d n m f).setV (d + n) m fun l => wordOf (f l) n := by
  simp [RegFile.setWords, List.range_succ, wordOf]

/-- What a word of an operation writes goes to the group where it is. -/
theorem State.fill_runs {s : State} {k slot : Nat} {g : Group} (h : (s.core k).RunsGroup slot g) (d : Nat) (m : Word)
    (f : Nat → Word) : s.fill k slot g.team d m f = s.modGroup k slot fun g => { g with rf := g.rf.setV d m f } := by
  have hpatch : ∀ off bs, (s.core k).patch slot g.team off bs = [] := h.patch
  have hnone : ∀ ls : List Nat, ls.flatMap (fun _ => ([] : List (Nat × List Byte))) = [] := fun ls => by simp
  rw [State.fill]
  simp only [hpatch, hnone, State.patchMem, List.foldl_nil]
  exact State.modOwner_runs h _

theorem State.fillWords_runs {s : State} {k slot : Nat} {g : Group} (h : (s.core k).RunsGroup slot g) (d n : Nat) (m : Word)
    (f : Nat → Nat) :
    s.fillWords k slot g.team d n m f = s.modGroup k slot fun g => { g with rf := g.rf.setWords d n m f } := by
  induction n with
  | zero => exact (s.modGroup_id k slot _ g h.here rfl).symm
  | succ n ih =>
    have hstep : s.fillWords k slot g.team d (n + 1) m f =
        (s.fillWords k slot g.team d n m f).fill k slot g.team (d + n) m fun l => BitVec.ofNat 32 (f l / 2 ^ (32 * n)) := by
      simp [State.fillWords, List.range_succ]
    rw [hstep, ih]
    have hfill := State.fill_runs (State.core_modGroup_runs h (fun g => { g with rf := g.rf.setWords d n m f }) rfl) (d + n) m
      fun l => BitVec.ofNat 32 (f l / 2 ^ (32 * n))
    refine hfill.trans ((s.modGroup_modGroup k slot _ _).trans ?_)
    congr 1
    funext g
    simp only [Function.comp_apply, RegFile.setWords_succ]
    rfl

/-! ## Its flag -/

/-- A `trywait` that waits for flag `i` ends where the flag is zero (R289). -/
def Group.tried (i : Nat) (g : Group) : Group :=
  match g.tryUntil with
  | some (f, p, m, _) =>
    if f = i ∧ g.flags.getD i 0 = 0 then { g with tryUntil := none, rf := g.rf.setP p m fun _ => true } else g
  | none => g

/-- What the end of an operation that counts on `flag` makes of its group, where `last` says that it is the last of its word. -/
def Group.counted (flag : Option Nat) (last : Bool) (g : Group) : Group :=
  match flag with
  | some i => if last then (g.lower i).tried i else g
  | none => g

theorem Group.tried_eq (i : Nat) (g : Group) : ∃ u p, g.tried i = { g with tryUntil := u, rf := { g.rf with p := p } } := by
  unfold Group.tried
  split
  next f p m _ _ =>
    split
    · exact ⟨none, (g.rf.setP p m fun _ => true).p, rfl⟩
    · exact ⟨g.tryUntil, g.rf.p, rfl⟩
  next => exact ⟨g.tryUntil, g.rf.p, rfl⟩

theorem Group.counted_eq (flag : Option Nat) (last : Bool) (g : Group) :
    ∃ u p, g.counted flag last = { g with tryUntil := u, rf := { g.rf with p := p }, flags := g.flagsAfter flag last } := by
  unfold Group.counted Group.flagsAfter
  split
  · split
    · obtain ⟨u, p, e⟩ := (g.lower _).tried_eq _
      exact ⟨u, p, e⟩
    · exact ⟨g.tryUntil, g.rf.p, rfl⟩
  · exact ⟨g.tryUntil, g.rf.p, rfl⟩

/-- Without a `trywait`, the flags alone differ. -/
theorem Group.counted_of_patient (flag : Option Nat) (last : Bool) (g : Group) (h : g.tryUntil = none) :
    g.counted flag last = { g with flags := g.flagsAfter flag last } := by
  have htried : ∀ i, (g.lower i).tried i = g.lower i := fun i => by simp [Group.tried, Group.lower, h]
  unfold Group.counted Group.flagsAfter
  split
  · split
    · exact htried _
    · rfl
  · rfl

theorem State.tryPasses_runs {s : State} {k slot : Nat} {g : Group} (h : (s.core k).RunsGroup slot g) (i : Nat) :
    s.tryPasses k slot g.team i = s.modGroup k slot (Group.tried i) := by
  unfold State.tryPasses
  rw [h.groupOf]
  dsimp only
  split
  next f p m until_ e =>
    split
    next hc =>
      rw [State.endTry_running s k slot p m true g h.here h.running h.home]
      exact s.modGroup_congr k slot _ _ g h.here (by rw [Group.tried, e]; exact (if_pos hc).symm)
    next hc => exact (s.modGroup_id k slot _ g h.here (by rw [Group.tried, e]; exact if_neg hc)).symm
  next e => exact (s.modGroup_id k slot _ g h.here (by simp [Group.tried, e])).symm

theorem State.lowerFlag_runs {s : State} {k : Nat} {f : Flight} {g : Group} (h : (s.core k).RunsGroup f.slot g)
    (ht : g.team = f.team) : s.lowerFlag k f = s.modGroup k f.slot (Group.counted f.flag true) := by
  unfold State.lowerFlag
  split
  next e => exact (s.modGroup_id k f.slot _ g h.here (by simp [Group.counted, e])).symm
  next i e =>
    dsimp only
    rw [← ht, h.patch, State.modOwner_runs h, State.patchMem, List.foldl_nil]
    have hlow := State.core_modGroup_runs h (Group.lower · i) rfl
    refine (State.tryPasses_runs hlow i).trans ((s.modGroup_modGroup k f.slot _ _).trans ?_)
    congr 1
    funext g
    simp [Group.counted, e]

/-- An operation ends: it is gone from its core, and its flag counts one less where it was the last of its word (R206). -/
theorem State.finishOp_runs {s : State} {k : Nat} {f : Flight} {g : Group} (h : (s.core k).RunsGroup f.slot g)
    (ht : g.team = f.team) : s.finishOp k f = s.modCore k fun c => (c.dropOp f.id).modGroup f.slot
      (Group.counted f.flag ((s.core k).flight.all fun e => e.id == f.id || e.word != f.word)) := by
  have hdrop : ((s.modCore k (·.dropOp f.id)).core k) = (s.core k).dropOp f.id := State.core_modCore _ _ _ h.lt
  have hruns : ((s.modCore k (·.dropOp f.id)).core k).RunsGroup f.slot g := by
    rw [hdrop]
    exact ⟨h.here, h.running, h.home⟩
  have hlast : ((s.core k).dropOp f.id).flight.any (fun e => e.word == f.word) =
      !(s.core k).flight.all fun e => e.id == f.id || e.word != f.word := by
    simp only [Core.dropOp, List.any_filter, List.not_all_eq_any_not]
    congr 1
    funext e
    rw [bne, bne, Bool.not_or, Bool.not_not]
  unfold State.finishOp
  dsimp only
  rw [hdrop, hlast]
  cases (s.core k).flight.all fun e => e.id == f.id || e.word != f.word with
  | true =>
    rw [Bool.not_true, if_neg Bool.false_ne_true, State.lowerFlag_runs hruns ht]
    exact s.modCore_modCore k _ _
  | false =>
    rw [Bool.not_false, if_pos rfl]
    refine Eq.trans ?_ (s.modCore_modCore k _ (·.modGroup f.slot (Group.counted f.flag false)))
    refine (State.modGroup_id _ k f.slot _ g hruns.here ?_).symm
    unfold Group.counted
    split <;> rfl

end Sys2Proof.Machine
end

section
/-! SUPPORT. Acknowledgements (O26): an operation that is performed and acknowledged is gone. -/

namespace Sys2Proof.Machine

/-! ## What it reports and acquires -/

theorem Flight.withCode_eq_zero (f : Flight) (cs : List (Nat × Nat)) (code : Nat) (h : ∀ x ∈ cs, x.2 ≠ code) :
    f.withCode cs code = 0 := by
  induction cs with
  | nil => rfl
  | cons x cs ih =>
    obtain ⟨hx, hcs⟩ := List.forall_mem_cons.1 h
    rw [Flight.withCode, List.foldl_cons, if_neg hx]
    exact ih hcs

/-- An operation without errors reports nothing (R161). -/
theorem Flight.reports_eq_nil (f : Flight) (tick : Nat) (cs : List (Nat × Nat)) (h : ∀ x ∈ cs, x.2 = 0) :
    f.reports tick cs = [] := by
  have hcode : ∀ code, code ≠ 0 → f.withCode cs code = 0 := fun code hc =>
    f.withCode_eq_zero cs code fun x hx e => hc (e ▸ h x hx)
  simp [Flight.reports, hcode 1 (by decide), hcode 2 (by decide)]

/-- An operation that is no acquire, and for which no acquire fence of its group waits, acquires nothing (R66, R284). -/
theorem State.acquire_of_plain {s : State} {k : Nat} {f : Flight} {g : Group} (h : (s.core k).RunsGroup f.slot g)
    (ht : g.team = f.team) (ha : f.acq = false) (hf : ∀ w ∈ g.fences, f.id ∉ w.loads) : s.acquire k f = s := by
  have hnone : g.fences.any (·.loads.contains f.id) = false := by simpa using hf
  rw [State.acquire, ← ht, h.groupOf, ha, hnone]
  rfl

/-! ## Its end -/

theorem Owned.runs {s : State} {k : Nat} {f : Flight} {g : Group} (h : Owned s k f g) : (s.core k).RunsGroup f.slot g :=
  ⟨h.here, h.running, h.home⟩

/-- An operation ends whose registers `rf` are written: what `Gone` says of it. -/
theorem State.finishOp_gone {s : State} {k : Nat} {f : Flight} {g : Group} (h : (s.core k).RunsGroup f.slot g)
    (ht : g.team = f.team) (hp : g.tryUntil = none) (rf : RegFile) :
    Gone s ((s.modGroup k f.slot fun g => { g with rf := rf }).finishOp k f) k f g rf := by
  have hcore : (s.modGroup k f.slot fun g => { g with rf := rf }).core k = (s.core k).modGroup f.slot fun g => { g with rf := rf } :=
    State.core_modCore _ _ _ h.lt
  have hq := State.core_modGroup_runs h (fun g => { g with rf := rf }) rfl
  have hend : (((s.modGroup k f.slot fun g => { g with rf := rf }).finishOp k f).core k) =
      (((s.core k).modGroup f.slot fun g => { g with rf := rf }).dropOp f.id).modGroup f.slot
        (Group.counted f.flag ((s.core k).flight.all fun e => e.id == f.id || e.word != f.word)) := by
    rw [State.finishOp_runs hq ht, State.core_modCore _ _ _ hq.lt, hcore]
    rfl
  refine ⟨by rw [hend]; rfl, ?_, fun j hj => ?_, by rw [State.finishOp_runs hq ht]; rfl,
    by rw [State.finishOp_runs hq ht]; rfl⟩
  · rw [hend, Core.group_modGroup]
    refine (congrArg (Option.map _) ((Core.group_modGroup (s.core k) f.slot _).trans (congrArg (Option.map _) h.here))).trans ?_
    exact congrArg some (Group.counted_of_patient _ _ _ hp)
  · rw [hend, Core.group_modGroup_ne _ _ _ _ hj]
    exact Core.group_modGroup_ne _ _ _ _ hj

/-- An operation that writes no register ends. -/
theorem State.finishOp_gone_plain {s : State} {k : Nat} {f : Flight} {g : Group} (h : (s.core k).RunsGroup f.slot g)
    (ht : g.team = f.team) (hp : g.tryUntil = none) : Gone s (s.finishOp k f) k f g g.rf := by
  have hgone := State.finishOp_gone h ht hp g.rf
  rwa [State.modGroup_id s k f.slot _ g h.here rfl] at hgone

/-- Behind its end, an operation without errors that acquires nothing does nothing more. -/
theorem State.finishOp_acquire {s : State} {k : Nat} {f : Flight} {g : Group} (rf : RegFile) (tick : Nat) (cs : List (Nat × Nat))
    (h : (s.core k).RunsGroup f.slot g) (ht : g.team = f.team) (hp : g.tryUntil = none) (ha : f.acq = false)
    (hf : ∀ w ∈ g.fences, f.id ∉ w.loads) (hc : ∀ x ∈ cs, x.2 = 0) :
    let q := s.modGroup k f.slot fun g => { g with rf := rf }
    ((q.finishOp k f).acquire k f).lateErrors k f (f.reports tick cs) = q.finishOp k f := by
  intro q
  have hq : (q.core k).RunsGroup f.slot { g with rf := rf } := State.core_modGroup_runs h (fun g => { g with rf := rf }) rfl
  have hgone := State.finishOp_gone h ht hp rf
  have hhome : ((q.finishOp k f).core k).saved = [] := by
    rw [State.finishOp_runs hq ht, State.core_modCore _ _ _ hq.lt]
    exact hq.home
  have hacq : (q.finishOp k f).acquire k f = q.finishOp k f :=
    State.acquire_of_plain ⟨hgone.group, h.running, hhome⟩ ht ha hf
  rw [hacq, f.reports_eq_nil _ _ hc]
  rfl

/-! ## The acknowledgement -/

/-- Without errors every lane of an operation is good. -/
theorem Flight.good_of_sound (f : Flight) (h : f.errs = []) : f.good = f.mask := by
  have hmask : maskOf (fun l => (f.errs.any fun e =>
      (f.lanesOf ((f.kind.accesses[e.1]?).elim 32 (·.lane))).getLsbD l)) = 0 := by
    simp [maskOf, h]
  rw [Flight.good, hmask]
  exact BitVec.and_allOnes

theorem Flight.failed_of_sound (f : Flight) (h : f.errs = []) : ∀ x ∈ f.failed, x.2 = 0 := by
  simp [Flight.failed, h]

section Acknowledged

variable {s : State} {k id : Nat} {f : Flight} {g : Group}

theorem State.acked_gone (rf : RegFile) (tick : Nat) (ow : Owned s k f g) (he : f.errs = []) (ha : f.acq = false)
    (hf : ∀ w ∈ g.fences, f.id ∉ w.loads) :
    let q := s.modGroup k f.slot fun g => { g with rf := rf }
    Gone s (((q.finishOp k f).acquire k f).lateErrors k f (f.reports tick f.failed)) k f g rf := by
  intro q
  rw [State.finishOp_acquire rf tick f.failed ow.runs ow.team ow.patient ha hf (f.failed_of_sound he)]
  exact State.finishOp_gone ow.runs ow.team ow.patient rf

theorem storeAck_plain (ho : (s.core k).op id = some f) (hk : (∃ ls, f.kind = .store ls) ∨ ∃ ls old, f.kind = .rmw ls none old)
    (hp : f.performed) (ow : Owned s k f g) (he : f.errs = []) (ha : f.acq = false) (hf : ∀ w ∈ g.fences, f.id ∉ w.loads) :
    ∃ t, exec (.storeAck k id) s = .next t ∧ Gone s t k f g g.rf := by
  have gone := State.acked_gone g.rf s.tick ow he ha hf
  dsimp only at gone
  rw [State.modGroup_id s k f.slot _ g ow.here rfl] at gone
  refine ⟨_, ?_, gone⟩
  change execStoreAck k id s = _
  unfold execStoreAck State.acked
  rw [ho]
  obtain ⟨ls, hk⟩ | ⟨ls, old, hk⟩ := hk <;> simp [hk, hp]

theorem storeAck_atomic {x : LaneAccess × Rmw} {d n v : Nat} (ho : (s.core k).op id = some f)
    (hk : f.kind = .rmw [x] (some (d, n)) [(x.1.lane, v)]) (hp : f.performed) (ow : Owned s k f g) (he : f.errs = [])
    (ha : f.acq = false) (hf : ∀ w ∈ g.fences, f.id ∉ w.loads) :
    ∃ t, exec (.storeAck k id) s = .next t ∧ Gone s t k f g (g.rf.setWords d n f.mask fun _ => v) := by
  have fill : s.fillWords k f.slot f.team d n f.mask (fun _ => v) =
      s.modGroup k f.slot fun h => { h with rf := g.rf.setWords d n f.mask fun _ => v } := by
    rw [← ow.team, State.fillWords_runs ow.runs]
    exact s.modGroup_congr k f.slot _ _ g ow.here rfl
  refine ⟨_, ?_, State.acked_gone (g.rf.setWords d n f.mask fun _ => v) s.tick ow he ha hf⟩
  change execStoreAck k id s = _
  unfold execStoreAck State.acked
  rw [ho, ← fill]
  simp [hk, hp, f.good_of_sound he, FlightKind.width, f.reports_eq_nil _ _ (f.failed_of_sound he)]

theorem storeAck_flush (ho : (s.core k).op id = some f) (hk : f.kind = .flush) (ow : Owned s k f g) :
    ∃ t, exec (.storeAck k id) s = .next t ∧ Gone (s.modCore k Core.dropL1) t k f g g.rf := by
  have hcore : (s.modCore k Core.dropL1).core k = (s.core k).dropL1 := s.core_modCore _ _ ow.runs.lt
  have hruns : ((s.modCore k Core.dropL1).core k).RunsGroup f.slot g := by
    rw [hcore]
    exact ⟨ow.here, ow.running, ow.home⟩
  refine ⟨_, ?_, State.finishOp_gone_plain hruns ow.team ow.patient⟩
  change execStoreAck k id s = _
  unfold execStoreAck
  rw [ho]
  simp [hk]

end Acknowledged

end Sys2Proof.Machine
end

section
/-! SUPPORT. Requests that leave a core (O25, O26): they change no memory, and of the core the operations that are unsent alone. -/

namespace Sys2Proof.Machine

/-- Memory and core `k` are the same but for operations in flight other than `i`. -/
structure SendFrame (k i : Nat) (s t : State) : Prop where
  mem : t.mem = s.mem
  core : ∃ fs, t.core k = { s.core k with flight := fs } ∧ fs.find? (·.id == i) = (s.core k).op i

namespace SendFrame

variable {k i : Nat} {s t u : State}

theorem op (h : SendFrame k i s t) : (t.core k).op i = (s.core k).op i := by
  obtain ⟨fs, hc, hi⟩ := h.core
  rw [hc]
  exact hi

theorem group (h : SendFrame k i s t) (j : Nat) : (t.core k).group j = (s.core k).group j := by
  obtain ⟨fs, hc, -⟩ := h.core
  rw [hc]
  rfl

theorem team (h : SendFrame k i s t) (j : Nat) : (t.core k).team j = (s.core k).team j := by
  obtain ⟨fs, hc, -⟩ := h.core
  rw [hc]
  rfl

theorem saved (h : SendFrame k i s t) : (t.core k).saved = (s.core k).saved := by
  obtain ⟨fs, hc, -⟩ := h.core
  rw [hc]

/-- Neither memory nor the core differs. -/
theorem of_core (hm : t.mem = s.mem) (hc : t.core k = s.core k) : SendFrame k i s t :=
  ⟨hm, (s.core k).flight, hc, rfl⟩

theorem refl : SendFrame k i s s := of_core rfl rfl

theorem trans (h : SendFrame k i s t) (h' : SendFrame k i t u) : SendFrame k i s u := by
  obtain ⟨fs, hc, -⟩ := h.core
  obtain ⟨gs, hd, hi⟩ := h'.core
  refine ⟨h'.mem.trans h.mem, gs, ?_, hi.trans h.op⟩
  rw [hd, hc]

theorem foldl {α : Type} {l : List α} {f : State → α → State} (hf : ∀ t, ∀ a ∈ l, SendFrame k i t (f t a)) :
    SendFrame k i s (l.foldl f s) := by
  induction l generalizing s with
  | nil => exact refl
  | cons a l ih =>
    rw [List.foldl_cons]
    exact (hf s a List.mem_cons_self).trans (ih fun t b hb => hf t b (List.mem_cons_of_mem a hb))

end SendFrame

/-! ## An operation changed -/

theorem Core.op_id (c : Core) (i : Nat) (f : Flight) (h : c.op i = some f) : f.id = i := by
  have := List.find?_some h
  exact beq_iff_eq.1 this

/-- A change of other operations that keeps their numbers leaves the operation numbered `i`. -/
theorem Core.op_modOp_ne (c : Core) (i j : Nat) (f : Flight → Flight) (hf : ∀ o, (f o).id = o.id) (h : j ≠ i) :
    (c.modOp j f).op i = c.op i := by
  unfold Core.op Core.modOp
  induction c.flight with
  | nil => rfl
  | cons o os ih =>
    have hid : (if o.id = j then f o else o).id = o.id := by
      split
      · exact hf o
      · rfl
    simp only [List.map_cons, List.find?_cons, hid, ih]
    split
    next e =>
      have : o.id ≠ j := fun e' => h (e'.symm.trans (beq_iff_eq.1 e))
      rw [if_neg this]
    next => rfl

theorem SendFrame.modCore_modOp {k i : Nat} (s : State) (l j : Nat) (f : Flight → Flight) (hf : ∀ o, (f o).id = o.id)
    (h : j ≠ i) : SendFrame k i s (s.modCore l (·.modOp j f)) := by
  by_cases hl : k = l
  · subst hl
    by_cases hk : k < s.cores.length
    · exact ⟨rfl, _, s.core_modCore k _ hk, Core.op_modOp_ne _ i j f hf h⟩
    · have hsame : s.cores.modify k (·.modOp j f) = s.cores := List.modify_eq_self (by omega)
      exact .of_core rfl (congrArg (fun cs : List Core => cs.getD k Core.reset) hsame)
  · exact .of_core rfl (s.core_modCore_ne l k _ hl)

theorem SendFrame.modOpOf {k i : Nat} (s : State) (l j : Nat) (f : Flight → Flight) (hf : ∀ o, (f o).id = o.id) (h : j ≠ i) :
    SendFrame k i s (s.modOpOf l j f) := by
  unfold State.modOpOf
  split
  · exact .of_core rfl rfl
  · exact modCore_modOp s l j f hf h

/-! ## A request -/

theorem Flight.take_id (f : Flight) (r : Request) (data : List Byte) : (f.take r data).id = f.id := by
  unfold Flight.take
  split
  · rfl
  · split <;> rfl
  · rfl

/-- A request that has no port is answered: it has performed nothing. -/
theorem SendFrame.answered {k i : Nat} (s : State) (r : Request) (code : Nat) (data : List Byte) (hp : r.port = none)
    (ha : r.asker = none) (hi : r.flight ≠ i) : SendFrame k i s (s.answered r code data) := by
  unfold State.answered
  rw [if_pos (show r.op = 1 ∨ r.port.isNone = true from .inr (by rw [hp]; rfl)), ha]
  have hdrop : SendFrame k i s (s.dropRequest r.tag) := of_core rfl rfl
  refine hdrop.trans (modOpOf _ r.core r.flight _ (fun o => ?_) hi)
  split
  · exact o.take_id r data
  · rfl

theorem SendFrame.tryRequest {k i : Nat} (s : State) (r : Request) (hp : r.port = none) (ha : r.asker = none)
    (hi : r.flight ≠ i) : SendFrame k i s (s.tryRequest r) := by
  unfold State.tryRequest
  split
  · split
    · exact answered s r 2 [] hp ha hi
    · split <;> exact of_core rfl rfl
  · split
    · exact answered s r 2 [] hp ha hi
    · split <;> exact of_core rfl rfl

theorem SendFrame.request {k i : Nat} (s : State) (l id part pa : Nat) (host : Bool) (laid : List (Nat × List Byte))
    (strict : Bool) (w : Want1) (hi : id ≠ i) : SendFrame k i s (s.request l id part pa host laid strict w) := by
  unfold State.request
  extract_lets r
  have hadd : SendFrame k i s (s.addRequest r) := of_core rfl rfl
  exact hadd.trans (tryRequest _ r rfl rfl hi)

/-! ## The requests of a core -/

theorem SendFrame.sendParts {k i : Nat} (s : State) (f : Flight) (hi : f.id ≠ i) : SendFrame k i s (s.sendParts k f) := by
  refine (foldl fun t p _ => ?_).trans (modCore_modOp _ k f.id _ (fun _ => rfl) hi)
  split
  · refine foldl fun t c _ => ?_
    split
    · exact refl
    · exact request t _ _ _ _ _ _ _ _ hi
  · exact refl

/-- The accesses of a core leave the package: an operation with nothing to send is as before (R60, R72, R267). -/
theorem SendFrame.sendRequests {k i : Nat} (s : State) (h : ∀ f, (s.core k).op i = some f → f.unsent = false) :
    SendFrame k i s (s.sendRequests k) := by
  unfold State.sendRequests
  induction (s.core k).flight generalizing s with
  | nil => exact refl
  | cons o os ih =>
    rw [List.foldl_cons]
    have hstep : SendFrame k i s (match (s.core k).op o.id with
        | some f => if s.maySend k f then s.sendParts k f else s
        | none => s) := by
      split
      next f hf =>
        split
        next hm =>
          refine sendParts s f fun e => ?_
          have hid : f.id = o.id := Core.op_id _ _ _ hf
          have hun : f.unsent = true := by
            simp only [State.maySend, Bool.and_eq_true] at hm
            exact hm.1.1.1
          rw [h f (by rw [← e, hid]; exact hf)] at hun
          cases hun
        next => exact refl
      next => exact refl
    exact hstep.trans (ih _ fun f hf => h f (hstep.op ▸ hf))

end Sys2Proof.Machine
end

section
/-! SUPPORT. Writes at their home (O26): what one makes of memory, and of the operations in flight nothing. -/

namespace Sys2Proof.Machine

/-! ## What a write leaves unchanged -/

/-- The package's number and every core's operations in flight are the same. -/
structure State.SameFlights (s t : State) : Prop where
  node : t.node = s.node
  flights : t.cores.map (·.flight) = s.cores.map (·.flight)

namespace State.SameFlights

variable {s t u : State}

theorem refl (s : State) : s.SameFlights s := ⟨rfl, rfl⟩

theorem trans (h : s.SameFlights t) (h' : t.SameFlights u) : s.SameFlights u :=
  ⟨h'.node.trans h.node, h'.flights.trans h.flights⟩

theorem length (h : s.SameFlights t) : t.cores.length = s.cores.length := by
  have := congrArg List.length h.flights
  simpa using this

theorem flight (h : s.SameFlights t) (k : Nat) : (t.core k).flight = (s.core k).flight := by
  have hget : ∀ q : State, (q.core k).flight = (q.cores.map (·.flight)).getD k Core.reset.flight := fun q => by
    rw [List.getD_map]
    rfl
  rw [hget t, hget s, h.flights]

theorem op (h : s.SameFlights t) (k i : Nat) : (t.core k).op i = (s.core k).op i := by
  rw [Core.op, Core.op, h.flight]

theorem unmoved (h : s.SameFlights t) (hu : s.unmoved) : t.unmoved := by
  intro c hc f hf
  have hmem : c.flight ∈ s.cores.map (·.flight) := h.flights ▸ List.mem_map_of_mem hc
  obtain ⟨d, hd, e⟩ := List.mem_map.1 hmem
  exact hu d hd f (e ▸ hf)

theorem beyond (h : s.SameFlights t) (a : Loc) : t.beyond a = s.beyond a := by
  cases a with
  | spad o => rfl
  | phys pa =>
    simp only [State.beyond]
    rw [h.node]

end State.SameFlights

/-! ## A write of the chip -/

theorem State.core_flight_unmoved {s : State} (hu : s.unmoved) (k : Nat) :
    ∀ f ∈ (s.core k).flight, ∀ e w d o, f.kind ≠ .migrate e w d o := by
  intro f hf
  by_cases hk : k < s.cores.length
  · rw [State.core, List.getD_eq_getElem _ _ hk] at hf
    exact hu _ (List.getElem_mem hk) f hf
  · rw [State.core, List.getD_eq_default _ _ (by omega)] at hf
    cases hf

/-- Where no residency is on the move, a write breaks none off (R87). -/
theorem State.abandon_unmoved {s : State} (hu : s.unmoved) (k : Nat) : s.abandon k = s := by
  have hk := State.core_flight_unmoved hu k
  unfold State.abandon
  generalize (s.core k).flight = fs at hk
  induction fs with
  | nil => rfl
  | cons f fs ih =>
    obtain ⟨hf, hfs⟩ := List.forall_mem_cons.1 hk
    rw [List.foldl_cons]
    split
    next e w d o hkind => exact absurd hkind (hf e w d o)
    next => exact ih hfs

theorem State.rawWrite_sameFlights (s : State) (pa : Nat) (bs : List Byte) : s.SameFlights (s.rawWrite pa bs) := by
  refine ⟨rfl, ?_⟩
  simp only [State.rawWrite, List.map_map]
  refine List.map_congr_left fun c _ => ?_
  dsimp only [Function.comp_apply]
  split <;> rfl

theorem State.performWrite_unmoved {s : State} (hu : s.unmoved) (pa : Nat) (bs : List Byte) :
    s.performWrite pa bs = s.rawWrite pa bs := by
  have hraw := (s.rawWrite_sameFlights pa bs).unmoved hu
  unfold State.performWrite
  induction s.caring pa bs.length with
  | nil => rfl
  | cons k ks ih => rw [List.foldl_cons, State.abandon_unmoved hraw, ih]

/-- An ECC word that is bad behind a write was bad before it, and the write does not cover it (R436). -/
theorem State.mem_rawWrite_bad {s : State} {pa w : Nat} {bs : List Byte} (h : w ∈ (s.rawWrite pa bs).bad) :
    w ∈ s.bad ∧ ¬(pa ≤ w ∧ w + 32 ≤ pa + bs.length) := by
  obtain ⟨hw, hc⟩ := List.mem_filter.1 h
  refine ⟨hw, fun hcov => ?_⟩
  simp [hcov] at hc

theorem State.mem_rawWrite_weak {s : State} {pa w : Nat} {bs : List Byte} (h : w ∈ (s.rawWrite pa bs).weak) : w ∈ s.weak :=
  (List.mem_filter.1 h).1

/-- A write that leaves no part of a bad ECC word masks none (R436). -/
theorem State.masksBad_covered (s : State) (pa n : Nat)
    (h : ∀ w ∈ s.bad, overlap pa n w 32 → pa ≤ w ∧ w + 32 ≤ pa + n) : s.masksBad pa n = false := by
  refine List.any_eq_false.2 fun w hw => ?_
  by_cases ho : overlap pa n w 32
  · simp [h w hw ho]
  · simp [ho]

/-- Of fewer bad ECC words, a write masks fewer. -/
theorem State.masksBad_of_subset {s t : State} {pa n : Nat} (hb : ∀ w ∈ t.bad, w ∈ s.bad) (h : s.masksBad pa n = false) :
    t.masksBad pa n = false :=
  List.any_eq_false.2 fun w hw => List.any_eq_false.1 h w (hb w hw)

/-- A write that masks no bad ECC word is made. -/
theorem State.storePa_unmoved {s : State} (hu : s.unmoved) (pa : Nat) (bs : List Byte)
    (h : s.masksBad pa bs.length = false) : s.storePa pa bs = (s.rawWrite pa bs, false) := by
  rw [State.storePa, h, State.performWrite_unmoved hu]
  rfl

/-! ## Errors that are not recorded -/

theorem State.recordErrors_of_clear (s : State) (kind : Nat) (xs : List (Loc × Nat))
    (h : ∀ x ∈ xs, ∀ pa, x.1 = .phys pa → ∀ w ∈ s.bad, overlap pa x.2 w 32 = false) : s.recordErrors kind xs = s := by
  unfold State.recordErrors
  induction xs with
  | nil => rfl
  | cons x xs ih =>
    obtain ⟨hx, hxs⟩ := List.forall_mem_cons.1 h
    rw [List.foldl_cons]
    split
    next pa hpa =>
      have hnone : (s.bad.filter fun w => overlap pa x.2 w 32) = [] :=
        List.filter_eq_nil_iff.2 fun w hw => by simp [hx pa hpa w hw]
      rw [hnone]
      exact ih hxs
    next => exact ih hxs

theorem State.recordWeak_of_clear (s : State) (xs : List (Loc × Nat))
    (h : ∀ x ∈ xs, ∀ pa, x.1 = .phys pa → ∀ w ∈ s.weak, overlap pa x.2 w 16 = false) : s.recordWeak xs = s := by
  unfold State.recordWeak
  induction xs with
  | nil => rfl
  | cons x xs ih =>
    obtain ⟨hx, hxs⟩ := List.forall_mem_cons.1 h
    rw [List.foldl_cons]
    split
    next pa hpa =>
      have hnone : (s.weak.filter fun w => overlap pa x.2 w 16) = [] :=
        List.filter_eq_nil_iff.2 fun w hw => by simp [hx pa hpa w hw]
      rw [hnone]
      exact ih hxs
    next => exact ih hxs

/-- What does not read a bad byte overlaps no bad ECC word. -/
theorem State.overlap_of_badAt (s : State) (pa n : Nat) (h : s.badAt pa n = false) :
    ∀ w ∈ s.bad, overlap pa n w 32 = false := by
  intro w hw
  have := List.any_eq_false.1 h w hw
  simp only [overlap, Bool.and_eq_true, decide_eq_true_eq] at this ⊢
  simp only [decide_eq_false_iff_not]
  omega

/-! ## An operation that is performed -/

theorem Core.op_modOp (c : Core) (i : Nat) (f : Flight → Flight) (hf : ∀ o, (f o).id = o.id) :
    (c.modOp i f).op i = (c.op i).map f := by
  unfold Core.op Core.modOp
  induction c.flight with
  | nil => rfl
  | cons o os ih =>
    by_cases ho : o.id = i
    · simp [ho, hf]
    · have hb : (o.id == i) = false := beq_false_of_ne ho
      simp [ho, hb, ih]

theorem State.core_lt_of_op (s : State) (k i : Nat) (f : Flight) (h : (s.core k).op i = some f) : k < s.cores.length := by
  by_contra hk
  rw [State.core, List.getD_eq_default _ _ (by omega)] at h
  cases h

/-- What may be performed has nothing left to send. -/
theorem State.canPerform_sent {s : State} {k i : Nat} {f : Flight} (ho : (s.core k).op i = some f) (hi : f.id = i)
    (hc : s.canPerform k f) : f.unsent = false := by
  have hawaits : s.awaits k f.id = false := by
    simp only [State.canPerform, Bool.and_eq_true] at hc
    simpa using hc.1.2
  simp only [State.awaits, Bool.or_eq_false_iff] at hawaits
  have hop := hawaits.2
  rwa [hi, ho, Option.any_some] at hop

/-- Behind a write at its home the operation is performed, and what waited for its turn leaves: neither changes memory. -/
theorem State.done_sends {s t : State} {k i : Nat} {f : Flight} (errs old : List (Nat × Nat)) (hs : s.SameFlights t)
    (ho : (s.core k).op i = some f) (hi : f.id = i) (hc : s.canPerform k f) :
    let u := (t.modCore k (·.modOp f.id (·.done errs old))).sendRequests k
    u.mem = t.mem ∧ (u.core k).op i = some (f.done errs old) := by
  intro u
  have hk : k < t.cores.length := by
    rw [hs.length]
    exact s.core_lt_of_op k i f ho
  have hop : ((t.modCore k (·.modOp f.id (·.done errs old))).core k).op i = some (f.done errs old) := by
    rw [t.core_modCore k _ hk, hi, Core.op_modOp _ _ (·.done errs old) (fun _ => rfl), hs.op, ho]
    rfl
  have hsent : (f.done errs old).unsent = false := by
    have := State.canPerform_sent ho hi hc
    unfold Flight.unsent Flight.done FlightKind.width at *
    dsimp only
    cases hkind : f.kind <;> simp_all
  have hsend : SendFrame k i (t.modCore k (·.modOp f.id (·.done errs old))) u := SendFrame.sendRequests _ fun g hg => by
    rw [hop] at hg
    cases hg
    exact hsent
  exact ⟨hsend.mem, hsend.op.trans hop⟩

end Sys2Proof.Machine
end

section
/-! SUPPORT and PROOF. Stores, atomics and writes from outside reach memory; acknowledgements (O26). -/

namespace Sys2Proof.Machine

/-! ## Stores -/

/-- A lane's write at `pa` that is performed here: in this package, where there is memory, and leaving no part of a bad ECC
word. -/
structure State.Writable (s : State) (x : LaneAccess × List Byte) (pa : Nat) : Prop where
  loc : x.1.loc = .phys pa
  here : s.beyond x.1.loc = none
  backed : backed (paLocal pa)
  covers : ∀ w ∈ s.bad, overlap pa x.2.length w 32 → pa ≤ w ∧ w + 32 ≤ pa + x.2.length

theorem State.Writable.of_sameFlights {s t : State} {x : LaneAccess × List Byte} {pa : Nat} (h : s.Writable x pa)
    (hs : s.SameFlights t) (hb : ∀ w ∈ t.bad, w ∈ s.bad) : t.Writable x pa :=
  ⟨h.loc, (hs.beyond _).trans h.here, h.backed, fun w hw => h.covers w (hb w hw)⟩

/-- The first of the stores of a word is performed, and those behind it on the state that it leaves. -/
theorem State.performStores_cons {s : State} (hu : s.unmoved) (k i pa : Nat) (x : LaneAccess × List Byte)
    (xs : List (LaneAccess × List Byte)) (h : s.Writable x pa) :
    s.performStores k i (x :: xs) = (s.rawWrite pa x.2).performStores k (i + 1) xs := by
  have hcode : x.1.loc.writeCode = 0 := by
    rw [h.loc, Loc.writeCode, if_pos h.backed]
  have hstore : s.storeLoc k x.1.loc x.2 = (s.rawWrite pa x.2, false) := by
    rw [h.loc, State.storeLoc, State.storePa_unmoved hu pa x.2 (s.masksBad_covered pa _ h.covers)]
  rw [State.performStores, h.here, hcode, hstore]
  rfl

/-- What the stores of a word leave: no part has failed, each lane's bytes stand at its location, every other byte is as before,
and no bad ECC word overlaps them (R57, R436). -/
structure Stored (s : State) (xs : List (LaneAccess × List Byte)) (at_ : LaneAccess → Nat) (r : State × List (Nat × Nat)) :
    Prop where
  errs : r.2 = []
  same : s.SameFlights r.1
  written : ∀ x ∈ xs, ∀ i, i < x.2.length → r.1.mem.read (at_ x.1 + i) = x.2.getD i 0
  others : ∀ a, (∀ x ∈ xs, ¬(at_ x.1 ≤ a ∧ a < at_ x.1 + x.2.length)) → r.1.mem.read a = s.mem.read a
  bad : ∀ w ∈ r.1.bad, w ∈ s.bad ∧ ∀ x ∈ xs, overlap (at_ x.1) x.2.length w 32 = false

theorem State.performStores_stored {s : State} (hu : s.unmoved) (k i : Nat) (xs : List (LaneAccess × List Byte))
    (at_ : LaneAccess → Nat) (h : ∀ x ∈ xs, s.Writable x (at_ x.1))
    (hd : xs.Pairwise fun x y => overlap (at_ x.1) x.2.length (at_ y.1) y.2.length = false) :
    Stored s xs at_ (s.performStores k i xs) := by
  induction xs generalizing s i with
  | nil => exact ⟨rfl, .refl s, by simp, fun _ _ => rfl, fun w hw => ⟨hw, by simp⟩⟩
  | cons x xs ih =>
    obtain ⟨hx, hxs⟩ := List.forall_mem_cons.1 h
    obtain ⟨hdx, hdxs⟩ := List.pairwise_cons.1 hd
    rw [State.performStores_cons hu k i _ x xs hx]
    have hraw := s.rawWrite_sameFlights (at_ x.1) x.2
    have hbad : ∀ w ∈ (s.rawWrite (at_ x.1) x.2).bad, w ∈ s.bad := fun w hw => (State.mem_rawWrite_bad hw).1
    have rest := ih (hraw.unmoved hu) (i + 1) (fun y hy => (hxs y hy).of_sameFlights hraw hbad) hdxs
    refine ⟨rest.errs, hraw.trans rest.same, ?_, fun a ha => ?_, fun w hw => ?_⟩
    · rintro y hy j hj
      obtain rfl | hy := List.mem_cons.1 hy
      · have hout : ∀ z ∈ xs, ¬(at_ z.1 ≤ at_ y.1 + j ∧ at_ y.1 + j < at_ z.1 + z.2.length) := fun z hz hin => by
          have := hdx z hz
          simp only [overlap, decide_eq_false_iff_not] at this
          omega
        rw [rest.others _ hout]
        exact Memory.read_write_in _ _ _ _ hj
      · exact rest.written y hy j hj
    · obtain ⟨hax, haxs⟩ := List.forall_mem_cons.1 ha
      rw [rest.others a haxs]
      exact Memory.read_write_out _ _ _ _ hax
    · obtain ⟨hwr, hclear⟩ := rest.bad w hw
      obtain ⟨hws, hcov⟩ := State.mem_rawWrite_bad hwr
      refine ⟨hws, List.forall_mem_cons.2 ⟨?_, hclear⟩⟩
      exact Bool.eq_false_iff.2 fun ho => hcov (hx.covers w hws ho)

/-- The event performs an operation that no hold window delays. -/
theorem homeWrite_performs {s : State} {k id : Nat} {f : Flight} (ho : (s.core k).op id = some f) (hc : s.canPerform k f)
    (ha : s.appendHeld k f = none) : exec (.homeWrite (.pending k id)) s = .next ((s.performOp k f).sendRequests k) := by
  change execHomeWrite (.pending k id) s = _
  unfold execHomeWrite
  simp only [ho, hc, ha]
  rfl

theorem homeWrite_store {s : State} {k id : Nat} {f : Flight} {ls : List (LaneAccess × List Byte)} {at_ : LaneAccess → Nat}
    (hu : s.unmoved) (ho : (s.core k).op id = some f) (hi : f.id = id) (hk : f.kind = .store ls) (hc : s.canPerform k f)
    (hw : ∀ x ∈ ls, s.Writable x (at_ x.1))
    (hd : ls.Pairwise fun x y => overlap (at_ x.1) x.2.length (at_ y.1) y.2.length = false) :
    ∃ t, exec (.homeWrite (.pending k id)) s = .next t ∧
      (∀ x ∈ ls, ∀ i, i < x.2.length → t.mem.read (at_ x.1 + i) = x.2.getD i 0) ∧
      (∀ a, (∀ x ∈ ls, ¬(at_ x.1 ≤ a ∧ a < at_ x.1 + x.2.length)) → t.mem.read a = s.mem.read a) ∧
      (t.core k).op id = some { f with performed := true } := by
  have stored := State.performStores_stored hu k 0 ls at_ hw hd
  have hquiet : (s.performStores k 0 ls).1.recordErrors 6 (FlightKind.store ls).locs = (s.performStores k 0 ls).1 := by
    refine State.recordErrors_of_clear _ _ _ fun x hx pa hpa w hwb => ?_
    obtain ⟨y, hy, rfl⟩ := List.mem_map.1 hx
    have hloc : pa = at_ y.1 := Loc.phys.inj (hpa.symm.trans (hw y hy).loc)
    rw [hloc]
    exact (stored.bad w hwb).2 y hy
  have hperf : s.performOp k f =
      (s.performStores k 0 ls).1.modCore k (·.modOp f.id (·.done (s.performStores k 0 ls).2 [])) := by
    unfold State.performOp
    rw [hk]
    dsimp only
    rw [hquiet]
  have hdone : f.done (s.performStores k 0 ls).2 [] = { f with performed := true } := by
    rw [stored.errs]
    simp [Flight.done, hk]
  obtain ⟨hmem, hop⟩ := State.done_sends (s.performStores k 0 ls).2 [] stored.same ho hi hc
  refine ⟨_, homeWrite_performs ho hc (by simp [State.appendHeld, hk]), ?_⟩
  rw [hperf, hmem]
  exact ⟨stored.written, stored.others, hop.trans (congrArg some hdone)⟩

/-! ## Atomics -/

/-- A read-modify-write writes no more than it spans. -/
theorem Rmw.write_length_le (r : Rmw) (old new : List Byte) (hl : old.length = r.span) (h : r.write old = some new) :
    new.length ≤ r.span := by
  cases r with
  | cas w c v =>
    simp only [Rmw.write] at h
    split at h
    · obtain rfl := Option.some.inj h
      simp [Rmw.span]
    · cases h
  | fxread clr =>
    simp only [Rmw.span] at hl
    simp only [Rmw.write] at h
    split at h
    · obtain rfl := Option.some.inj h
      simp [Rmw.span, fxClear, hl]
    · cases h
  | append w v =>
    simp only [Rmw.write] at h
    split at h
    · obtain rfl := Option.some.inj h
      simp [Rmw.span]
    · cases h
  | fx wide v =>
    simp only [Rmw.span] at hl
    obtain rfl := Option.some.inj h
    simp [Rmw.span, fxAdd, hl]
  | add w v | addF32 v | minmax w var v | logic w var v | xchg w v =>
    obtain rfl := Option.some.inj h
    simp [Rmw.span]

/-- What a read-modify-write makes of its location. -/
def State.rmwWritten (s : State) (pa : Nat) (r : Rmw) : State :=
  match r.write (s.readPa pa r.span) with
  | some new => s.rawWrite pa new
  | none => s

theorem State.rmwWritten_sameFlights (s : State) (pa : Nat) (r : Rmw) : s.SameFlights (s.rmwWritten pa r) := by
  unfold State.rmwWritten
  split
  · exact s.rawWrite_sameFlights pa _
  · exact .refl s

theorem State.mem_rmwWritten_bad {s : State} {pa w : Nat} {r : Rmw} (h : w ∈ (s.rmwWritten pa r).bad) : w ∈ s.bad := by
  unfold State.rmwWritten at h
  split at h
  · exact (State.mem_rawWrite_bad h).1
  · exact h

theorem State.mem_rmwWritten_weak {s : State} {pa w : Nat} {r : Rmw} (h : w ∈ (s.rmwWritten pa r).weak) : w ∈ s.weak := by
  unfold State.rmwWritten at h
  split at h
  · exact State.mem_rawWrite_weak h
  · exact h

theorem State.rmwWritten_mem (s : State) (pa : Nat) (r : Rmw) :
    (∀ new, r.write (s.readPa pa r.span) = some new → (s.rmwWritten pa r).mem = s.mem.write pa new) ∧
    (r.write (s.readPa pa r.span) = none → (s.rmwWritten pa r).mem = s.mem) := by
  refine ⟨fun new h => ?_, fun h => ?_⟩
  · rw [State.rmwWritten, h]
    rfl
  · rw [State.rmwWritten, h]

/-- A location at which a read-modify-write neither fails nor meets an error. -/
structure State.Sound (s : State) (pa n : Nat) : Prop where
  backed : backed (paLocal pa)
  good : s.badAt pa n = false

theorem State.sound_of_homeCode {s : State} {pa n : Nat} (h : s.homeCode (.phys pa) n = 0) : s.Sound pa n := by
  have hb : Sys2Proof.Machine.backed (paLocal pa) = true := by
    by_contra hb
    have hb' := Bool.eq_false_iff.2 hb
    simp [State.homeCode, hb'] at h
  refine ⟨hb, Bool.eq_false_iff.2 fun hbad => ?_⟩
  simp [State.homeCode, hb, hbad] at h

theorem State.rmw_stores {s : State} (hu : s.unmoved) {pa : Nat} {r : Rmw} (h : s.Sound pa r.span) :
    (match r.write (s.readPa pa r.span) with
      | some new => (s.storePa pa new).1
      | none => s) = s.rmwWritten pa r := by
  unfold State.rmwWritten
  split
  next new hw =>
    have hlen := r.write_length_le _ _ (Memory.bytes_length _ _ _) hw
    have hmask : s.masksBad pa new.length = false := s.masksBad_covered _ _ fun w hw ho => by
      have := s.overlap_of_badAt pa r.span h.good w hw
      simp only [overlap, decide_eq_true_eq, decide_eq_false_iff_not] at ho this
      omega
    rw [State.storePa_unmoved hu _ _ hmask]
  next => rfl

/-- A read-modify-write at its home that appends nothing. -/
theorem State.performRmw_plain {s : State} (hu : s.unmoved) (k pa : Nat) (x : LaneAccess) (r : Rmw) (hl : x.loc = .phys pa)
    (h : s.Sound pa r.span) (hr : ∀ w v, r ≠ .append w v) :
    s.performRmw k x r = (s.rmwWritten pa r, r.value (s.readPa pa r.span), 0) := by
  rw [← State.rmw_stores hu h, State.performRmw, hl]
  dsimp only
  rw [h.backed, h.good]
  cases r with
  | append w v => exact absurd rfl (hr w v)
  | _ => rfl

/-- What an append makes of its count and of the slot that the old count selects (R278, R279). -/
def State.appended (s : State) (pa w : Nat) (v : DWord) : State :=
  match s.slotOf pa w (leNat (s.mem.bytes pa 4)) with
  | some q => (s.rmwWritten pa (.append w v)).rawWrite q (leBytes w v.toNat)
  | none => s.rmwWritten pa (.append w v)

theorem Rmw.append_value (s : State) (pa w : Nat) (v : DWord) :
    (Rmw.append w v).value (s.readPa pa 8) = leNat (s.mem.bytes pa 4) := by
  have hsplit : s.readPa pa 8 = s.mem.bytes pa 4 ++ s.mem.bytes (pa + 4) 4 := s.mem.bytes_add pa 4 4
  rw [Rmw.value, hsplit, List.take_left' (Memory.bytes_length _ _ _)]

theorem State.performRmw_append {s : State} (hu : s.unmoved) (k pa w : Nat) (v : DWord) (x : LaneAccess) (hl : x.loc = .phys pa)
    (h : s.Sound pa 8) (hq : ∀ q, s.slotOf pa w (leNat (s.mem.bytes pa 4)) = some q → s.masksBad q w = false) :
    s.performRmw k x (.append w v) = (s.appended pa w v, leNat (s.mem.bytes pa 4), 0) := by
  have hstores := State.rmw_stores (r := .append w v) hu h
  have hunmoved := (s.rmwWritten_sameFlights pa (.append w v)).unmoved hu
  rw [State.performRmw, hl]
  dsimp only
  rw [h.backed, show s.badAt pa (Rmw.append w v).span = false from h.good, if_neg (by decide), if_neg (by decide),
    show (Rmw.append w v).value (s.readPa pa (Rmw.append w v).span) = _ from Rmw.append_value s pa w v, State.appended]
  generalize (Rmw.append w v).write (s.readPa pa (Rmw.append w v).span) = new at hstores ⊢
  cases hslot : s.slotOf pa w (leNat (s.mem.bytes pa 4)) with
  | none => exact congrArg (fun t : State => (t, leNat (s.mem.bytes pa 4), 0)) hstores
  | some q =>
    have hmask : (s.rmwWritten pa (.append w v)).masksBad q (leBytes w v.toNat).length = false := by
      rw [leBytes_length]
      exact State.masksBad_of_subset (fun _ => State.mem_rmwWritten_bad) (hq q hslot)
    have hslotted : ((s.rmwWritten pa (.append w v)).storePa q (leBytes w v.toNat)).1 = _ :=
      congrArg Prod.fst (State.storePa_unmoved hunmoved q _ hmask)
    dsimp only at hslotted ⊢
    rw [hq q hslot, if_neg Bool.false_ne_true, ← hslotted]
    exact congrArg (fun t : State => ((t.storePa q (leBytes w v.toNat)).1, leNat (s.mem.bytes pa 4), 0)) hstores

/-- The event for an atomic of one lane whose read-modify-write leaves `t` and gives its register the value `v`. -/
theorem homeWrite_rmw {s t : State} {k id pa v : Nat} {f : Flight} {x : LaneAccess} {r : Rmw} {d : Option (Nat × Nat)}
    (ho : (s.core k).op id = some f) (hi : f.id = id) (hk : f.kind = .rmw [(x, r)] d []) (he : f.errs = [])
    (hc : s.canPerform k f) (ha : s.appendHeld k f = none) (hl : x.loc = .phys pa) (hb : s.beyond x.loc = none)
    (hs : s.Sound pa r.span) (hw : ∀ w ∈ s.weak, overlap pa r.span w 16 = false) (same : s.SameFlights t)
    (bad : ∀ w ∈ t.bad, w ∈ s.bad) (weak : ∀ w ∈ t.weak, w ∈ s.weak) (hp : s.performRmw k x r = (t, v, 0)) :
    ∃ u, exec (.homeWrite (.pending k id)) s = .next u ∧ u.mem = t.mem ∧
      (u.core k).op id = some { f with performed := true, kind := .rmw [(x, r)] d [(x.lane, v)] } := by
  have hlocs : (FlightKind.rmw [(x, r)] d []).locs = [(.phys pa, r.span)] := by simp [FlightKind.locs, hl]
  have hrecord : (t.recordErrors 2 [(.phys pa, r.span)]).recordWeak [(.phys pa, r.span)] = t := by
    rw [t.recordErrors_one 2 pa _ fun w hwt => s.overlap_of_badAt pa _ hs.good w (bad w hwt),
      t.recordWeak_one pa _ fun w hwt => hw w (weak w hwt)]
  have hrmws : s.performRmws k f.errs 0 [(x, r)] = (t, [(x.lane, v)], []) := by
    simp [State.performRmws, he, hb, hp]
  have hperf : s.performOp k f = t.modCore k (·.modOp f.id (·.done [] [(x.lane, v)])) := by
    unfold State.performOp
    rw [hk]
    dsimp only
    rw [hrmws, hlocs, hrecord]
  have hdone : f.done [] [(x.lane, v)] = { f with performed := true, kind := .rmw [(x, r)] d [(x.lane, v)] } := by
    simp [Flight.done, hk]
  obtain ⟨hmem, hop⟩ := State.done_sends [] [(x.lane, v)] same ho hi hc
  refine ⟨_, homeWrite_performs ho hc ha, ?_⟩
  rw [hperf, hmem]
  exact ⟨rfl, hop.trans (congrArg some hdone)⟩

/-- What is no append is not held as one. -/
theorem State.appendHeld_plain {s : State} {k : Nat} {f : Flight} {x : LaneAccess} {r : Rmw} {d : Option (Nat × Nat)}
    (hk : f.kind = .rmw [(x, r)] d []) (hb : f.born ≤ s.clk) (hr : ∀ w v, r ≠ .append w v) : s.appendHeld k f = none := by
  cases r with
  | append w v => exact absurd rfl (hr w v)
  | _ => simp [State.appendHeld, hk, hb]

theorem Core.delay_without_holds (c : Core) (h : c.holds = []) (pav : Bool) (a n : Nat) : c.delay pav a n = 0 := by
  rw [Core.delay, h]
  rfl

/-- Without hold windows no append is delayed. -/
theorem State.appendHeld_without_holds {s : State} {k pa w : Nat} {v : DWord} {f : Flight} {x : LaneAccess}
    {d : Option (Nat × Nat)} (hk : f.kind = .rmw [(x, .append w v)] d []) (hl : x.loc = .phys pa) (hb : f.born ≤ s.clk)
    (hh : (s.core k).holds = []) : s.appendHeld k f = none := by
  have hdelay := (s.core k).delay_without_holds hh
  have hslot : ∀ o : Option Nat, o.elim 0 (fun _ => 0) = 0 := fun o => by cases o <;> rfl
  simp [State.appendHeld, hk, hl, hdelay, hslot, hb]

/-- What an append leaves of its count: one more, below the greatest. -/
theorem State.append_count (s : State) (pa w : Nat) (v : DWord) :
    let old := leNat (s.mem.bytes pa 4)
    (s.rmwWritten pa (.append w v)).mem.bytes pa 4 = leBytes 4 (if old < 0xFFFFFFFF then old + 1 else old) ∧
    SameMemoryBut s (s.rmwWritten pa (.append w v)) pa 4 := by
  intro old
  have hlen : (s.mem.bytes pa 4).length = 4 := Memory.bytes_length _ _ _
  have hold : leNat (s.readPa pa 8) % 2 ^ 32 = old := by
    have hsplit : s.readPa pa 8 = s.mem.bytes pa 4 ++ s.mem.bytes (pa + 4) 4 := s.mem.bytes_add pa 4 4
    have hlt : old < 256 ^ (s.mem.bytes pa 4).length := leNat_lt _
    rw [hlen] at hlt
    rw [hsplit, leNat_append, hlen]
    omega
  obtain ⟨some_, none_⟩ := s.rmwWritten_mem pa (.append w v)
  have hwrite : (Rmw.append w v).write (s.readPa pa 8) = if old < 0xFFFFFFFF then some (leBytes 4 (old + 1)) else none := by
    rw [Rmw.write, hold]
  by_cases h : old < 0xFFFFFFFF
  · rw [if_pos h] at hwrite ⊢
    have hmem := some_ _ hwrite
    refine ⟨?_, fun a ha => ?_⟩
    · rw [hmem]
      have hb := s.mem.bytes_write pa (leBytes 4 (old + 1))
      rwa [leBytes_length] at hb
    · rw [hmem]
      exact Memory.read_write_out _ _ _ _ (by rwa [leBytes_length])
  · rw [if_neg h] at hwrite ⊢
    have hmem := none_ hwrite
    refine ⟨?_, fun a _ => by rw [hmem]⟩
    rw [hmem]
    have hb := leBytes_leNat (s.mem.bytes pa 4)
    rw [hlen] at hb
    exact hb.symm

/-- The slot of an append lies behind its bucket's head. -/
theorem State.slotOf_eq (s : State) {pa w old q : Nat} (h : s.slotOf pa w old = some q) : q = pa + 8 + w * old := by
  unfold State.slotOf at h
  dsimp only at h
  split at h
  · exact (Option.some.inj h).symm
  · cases h

theorem State.appended_frame (s : State) (pa w : Nat) (v : DWord) :
    s.SameFlights (s.appended pa w v) ∧ (∀ b ∈ (s.appended pa w v).bad, b ∈ s.bad) ∧
      ∀ b ∈ (s.appended pa w v).weak, b ∈ s.weak := by
  have hsame := s.rmwWritten_sameFlights pa (.append w v)
  unfold State.appended
  split
  · exact ⟨hsame.trans (State.rawWrite_sameFlights _ _ _), fun b hb => State.mem_rmwWritten_bad (State.mem_rawWrite_bad hb).1,
      fun b hb => State.mem_rmwWritten_weak (State.mem_rawWrite_weak hb)⟩
  · exact ⟨hsame, fun _ => State.mem_rmwWritten_bad, fun _ => State.mem_rmwWritten_weak⟩

/-- What an append leaves of memory: the count, and the slot where it writes one (R278, R279). -/
theorem State.appended_mem (s : State) (pa w : Nat) (v : DWord) :
    let old := leNat (s.mem.bytes pa 4)
    let t := s.appended pa w v
    t.mem.bytes pa 4 = leBytes 4 (if old < 0xFFFFFFFF then old + 1 else old) ∧
    (s.slotOf pa w old = none → SameMemoryBut s t pa 4) ∧
    ∀ q, s.slotOf pa w old = some q → t.mem.bytes q w = leBytes w v.toNat ∧
      ∀ a, ¬(pa ≤ a ∧ a < pa + 4) → ¬(q ≤ a ∧ a < q + w) → t.mem.read a = s.mem.read a := by
  intro old t
  obtain ⟨count, others⟩ := s.append_count pa w v
  have hlen := leBytes_length w v.toNat
  have ht : t = s.appended pa w v := rfl
  clear_value t
  unfold State.appended at ht
  split at ht
  next q hslot =>
    have hq := s.slotOf_eq hslot
    have hbytes := (s.rmwWritten pa (.append w v)).mem.bytes_write q (leBytes w v.toNat)
    rw [hlen] at hbytes
    subst ht
    refine ⟨?_, fun hn => absurd (hn.symm.trans hslot) (by simp), fun q' hq' => ?_⟩
    · exact (Memory.bytes_write_out _ _ _ _ _ (.inl (by omega))).trans count
    · obtain rfl : q = q' := Option.some.inj (hslot.symm.trans hq')
      refine ⟨hbytes, fun a hpa hqa => ?_⟩
      exact (Memory.read_write_out _ _ _ _ (by rwa [hlen])).trans (others a hpa)
  next hslot =>
    subst ht
    exact ⟨count, fun _ => others, fun q hq => absurd (hslot.symm.trans hq) (by simp)⟩

/-! ## Writes from outside -/

theorem homeWrite_outside {s : State} (hu : s.unmoved) (pa : Nat) (bs : List Byte)
    (hc : ∀ w ∈ s.bad, overlap pa bs.length w 32 → pa ≤ w ∧ w + 32 ≤ pa + bs.length) :
    ∃ t, exec (.homeWrite (.outside pa bs)) s = .next t ∧
      (∀ i, i < bs.length → t.mem.read (pa + i) = bs.getD i 0) ∧ SameMemoryBut s t pa bs.length := by
  have hwrite : s.deviceWrite pa bs = s.rawWrite pa bs := by
    rw [State.deviceWrite, s.masksBad_covered _ _ hc, State.performWrite_unmoved hu]
    rfl
  have hmem : ((s.deviceWrite pa bs).noteEntry pa bs).mem = s.mem.write pa bs := by
    rw [hwrite, State.noteEntry_mem]
    rfl
  refine ⟨_, rfl, ?_⟩
  rw [SameMemoryBut, hmem]
  exact ⟨fun i hi => Memory.read_write_in _ _ _ _ hi, fun a ha => Memory.read_write_out _ _ _ _ ha⟩

/-- Settles O26: a store, an atomic and an outside write each by what it makes of memory, an acknowledgement by the operation's
end. -/
theorem storesReachMemory : Obligations.StoresReachMemory := by
  refine ⟨?stores, ?atomics, ?outside, ?acks⟩
  case stores =>
    intro s k id f ls at_ hu ho hi hk hc hw hd
    exact homeWrite_store hu ho hi hk hc (fun x hx => by
      obtain ⟨hloc, hhere, hbacked, hcov⟩ := hw x hx
      exact ⟨hloc, hhere, hbacked, hcov⟩) hd
  case atomics =>
    intro s k id pa f x r d hu ho hi hk he hborn hc hl hb hcode hweak done
    have hsound := State.sound_of_homeCode hcode
    refine ⟨fun hr => ?_, ?_⟩
    · obtain ⟨t, hexec, hmem, hop⟩ := homeWrite_rmw ho hi hk he hc (State.appendHeld_plain hk hborn hr) hl hb hsound hweak
        (s.rmwWritten_sameFlights pa r) (fun _ => State.mem_rmwWritten_bad) (fun _ => State.mem_rmwWritten_weak)
        (State.performRmw_plain hu k pa x r hl hsound hr)
      obtain ⟨some_, none_⟩ := s.rmwWritten_mem pa r
      refine ⟨t, hexec, fun new hnew => ?_, fun hnone a => by rw [hmem, none_ hnone], hop⟩
      have hwritten := hmem.trans (some_ new hnew)
      rw [SameMemoryBut, hwritten]
      exact ⟨fun i hi => Memory.read_write_in _ _ _ _ hi, fun a ha => Memory.read_write_out _ _ _ _ ha⟩
    · intro w v old hr hh hmask
      subst hr
      obtain ⟨same, bad, weak⟩ := s.appended_frame pa w v
      obtain ⟨t, hexec, hmem, hop⟩ := homeWrite_rmw ho hi hk he hc (State.appendHeld_without_holds hk hl hborn hh) hl hb hsound
        hweak same bad weak (State.performRmw_append hu k pa w v x hl hsound hmask)
      obtain ⟨count, alone, slot⟩ := s.appended_mem pa w v
      refine ⟨t, hexec, ?_, ?_⟩
      · rw [← Rmw.append_value s pa w v] at hop
        exact hop
      · rw [SameMemoryBut, hmem]
        exact ⟨count, alone, slot⟩
  case outside => exact fun s pa bs hu hc => homeWrite_outside hu pa bs hc
  case acks =>
    intro s k id f g ho hi ow he ha hf
    exact ⟨fun ls hk hp => storeAck_plain ho (.inl ⟨ls, hk⟩) hp ow he ha hf,
      fun ls old hk hp => storeAck_plain ho (.inr ⟨ls, old, hk⟩) hp ow he ha hf,
      fun x d n v hk hp => storeAck_atomic ho hk hp ow he ha hf, fun hk => storeAck_flush ho hk ow⟩

end Sys2Proof.Machine
end

section
/-! SUPPORT and PROOF. A load's data return (O25). -/

namespace Sys2Proof.Machine

/-! ## The registers -/

theorem RegFile.setWords_rows (rf : RegFile) (d n : Nat) (m : Word) (f : Nat → Nat) :
    (rf.setWords d n m f).v.map List.length = rf.v.map List.length := by
  induction n with
  | zero => rfl
  | succ n ih => rw [RegFile.setWords_succ, RegFile.setV_row_length, ih]

theorem RegFile.row_length_setWords (rf : RegFile) (d n : Nat) (m : Word) (f : Nat → Nat) (r : Nat) :
    ((rf.setWords d n m f).v.getD r []).length = (rf.v.getD r []).length := by
  have hmap : ∀ v : List (List Word), (v.getD r []).length = (v.map List.length).getD r 0 := fun v =>
    (List.getD_map v [] List.length).symm
  rw [hmap, hmap, RegFile.setWords_rows]

/-- A lane that no row has reads as 0. -/
theorem RegFile.rv_beyond (rf : RegFile) (r l : Nat) (h : (rf.v.getD r []).length ≤ l) : rf.rv r l = 0 :=
  List.getD_eq_default _ _ h

/-- The registers of `n` words at `d` hold their words in the lanes of the mask, and every other register is as before. -/
theorem RegFile.rv_setWords (rf : RegFile) (d n : Nat) (m : Word) (f : Nat → Nat) (r l : Nat) (hl : l < 32)
    (hrow : d ≤ r → r < d + n → (rf.v.getD r []).length = 32) :
    (rf.setWords d n m f).rv r l = if d ≤ r ∧ r < d + n ∧ m.getLsbD l = true then wordOf (f l) (r - d) else rf.rv r l := by
  induction n with
  | zero => rw [RegFile.setWords_zero, if_neg (by omega)]
  | succ n ih =>
    have hlen : r = d + n → l < ((rf.setWords d n m f).v.getD (d + n) []).length := fun e => by
      rw [RegFile.row_length_setWords, ← e, hrow (by omega) (by omega)]
      exact hl
    rw [RegFile.setWords_succ, RegFile.rv_setV _ _ _ _ _ _ hlen, ih fun h h' => hrow h (by omega)]
    by_cases hm : m.getLsbD l = true
    · by_cases hr : r = d + n
      · subst hr
        simp [hm]
      · have : (d ≤ r ∧ r < d + (n + 1)) ↔ (d ≤ r ∧ r < d + n) := by omega
        simp [hm, hr, this]
    · simp [hm]

/-- Outside its registers and its lanes, an operation's words change nothing. -/
theorem RegFile.rv_setWords_frame (rf : RegFile) (d n : Nat) (m : Word) (f : Nat → Nat) (r l : Nat)
    (hrow : ∀ i, i < rf.v.length → (rf.v.getD i []).length = 32) (hn : d + n ≤ rf.v.length)
    (h : r < d ∨ d + n ≤ r ∨ m.getLsbD l = false) : (rf.setWords d n m f).rv r l = rf.rv r l := by
  by_cases hl : l < 32
  · rw [RegFile.rv_setWords rf d n m f r l hl fun _ hr => hrow r (by omega), if_neg]
    rintro ⟨hd, hr, hm⟩
    rw [hm] at h
    simp at h
    omega
  · have hlen : (rf.v.getD r []).length ≤ l := by
      by_cases hr : r < rf.v.length
      · rw [hrow r hr]
        omega
      · rw [List.getD_eq_default _ _ (by omega)]
        exact Nat.zero_le l
    rw [rf.rv_beyond r l hlen, RegFile.rv_beyond _ r l]
    rwa [RegFile.row_length_setWords]

/-! ## An acquire -/

/-- What an acquire leaves of a core in which group `g` runs: it changes what the group and its operations have seen, its fences,
and what its team covers (R66). -/
structure Core.AcquireFrame (c e : Core) (slot : Nat) (g : Group) : Prop where
  saved : e.saved = c.saved
  others : ∀ j, j ≠ slot → e.group j = c.group j
  ops : e.flight.map (·.id) = c.flight.map (·.id)
  group : ∃ upto fences, e.group slot = some { g with seen := upto, fences := fences }
  lives : ∀ i t, e.team i = some t → ∃ u, c.team i = some u ∧ t.live = u.live

theorem Core.team_lives (c : Core) (id i : Nat) (f : Team → Team) (hf : ∀ t, (f t).id = t.id ∧ (f t).live = t.live) (t : Team)
    (h : (c.modTeam id f).team i = some t) : ∃ u, c.team i = some u ∧ t.live = u.live := by
  unfold Core.team Core.modTeam at *
  dsimp only at h
  rw [List.find?_map, Option.map_eq_some_iff] at h
  obtain ⟨u, hu, rfl⟩ := h
  have hsame : ((fun t : Team => t.id == i) ∘ fun t => if t.id = id then f t else t) = fun t => t.id == i := by
    funext t
    dsimp only [Function.comp_apply]
    split
    · rw [(hf t).1]
    · rfl
  rw [hsame] at hu
  refine ⟨u, hu, ?_⟩
  split
  · exact (hf u).2
  · rfl

/-- What an acquire of the operation numbered `id` makes of its group. -/
def Group.acquires (id upto : Nat) (g : Group) : Group :=
  { g with
    seen := upto
    fences := (g.fences.map fun h => { h with loads := h.loads.filter (· != id) }).filter (·.loads != []) }

theorem Core.acquireAt_frame {c : Core} {f : Flight} {g : Group} (h : c.RunsGroup f.slot g) (ht : g.team = f.team) (upto : Nat) :
    c.AcquireFrame (c.acquireAt f upto) f.slot g := by
  let c1 : Core := { c with flight := c.flight.map fun (e : Flight) =>
    if f.id < e.id && e.slot == f.slot && e.team == f.team then { e with seen := upto } else e }
  let e := c1.modOwner f.slot f.team (Group.acquires f.id upto)
  have he : e = c1.modGroup f.slot (Group.acquires f.id upto) := by
    simp only [e]
    rw [← ht]
    exact Core.modOwner_eq c1 f.slot _ g h.here h.home
  have frame : c.AcquireFrame e f.slot g := by
    rw [he]
    refine ⟨rfl, fun j hj => Core.group_modGroup_ne c1 j f.slot _ hj, ?_,
      ⟨upto, (g.acquires f.id upto).fences, ?_⟩, fun i t h => ⟨t, h, rfl⟩⟩
    · simp only [Core.modGroup, c1, List.map_map]
      refine List.map_congr_left fun x _ => ?_
      dsimp only [Function.comp_apply]
      split <;> rfl
    · rw [Core.group_modGroup, show c1.group f.slot = some g from h.here]
      rfl
  have hacq : c.acquireAt f upto = if (e.groupOf f.slot f.team).partDone then
      e.modAnyTeam f.team fun t => { t with cover := (t.cover ++ e.before f.slot f.team upto).eraseDups } else e := rfl
  rw [hacq]
  split
  · obtain ⟨saved, others, ops, group, lives⟩ := frame
    refine ⟨?_, others, ops, group, fun i t hi => ?_⟩
    · have hnone : e.saved = [] := saved.trans h.home
      simp [Core.modAnyTeam, hnone, h.home]
    · obtain ⟨u, hu, hlive⟩ := Core.team_lives e f.team i
        (fun t => { t with cover := (t.cover ++ e.before f.slot f.team upto).eraseDups }) (fun t => ⟨rfl, rfl⟩) t hi
      obtain ⟨v, hv, hlive'⟩ := lives i u hu
      exact ⟨v, hv, hlive.trans hlive'⟩
  · exact frame

/-- Where nothing is acquired, nothing differs. -/
theorem Core.AcquireFrame.refl {c : Core} {slot : Nat} {g : Group} (h : c.group slot = some g) : c.AcquireFrame c slot g :=
  ⟨rfl, fun _ _ => rfl, rfl, ⟨g.seen, g.fences, h⟩, fun _ t h => ⟨t, h, rfl⟩⟩

theorem State.acquire_frame {s : State} {k : Nat} {f : Flight} {g : Group} (h : (s.core k).RunsGroup f.slot g)
    (ht : g.team = f.team) : (s.acquire k f).mem = s.mem ∧ (s.core k).AcquireFrame ((s.acquire k f).core k) f.slot g := by
  unfold State.acquire
  split
  · refine ⟨rfl, ?_⟩
    rw [s.core_modCore k _ h.lt]
    exact Core.acquireAt_frame h ht s.nextId
  · exact ⟨rfl, .refl h.here⟩

/-- Whether an operation is in flight is told by the numbers alone. -/
theorem Core.op_none_iff (c : Core) (i : Nat) : c.op i = none ↔ i ∉ c.flight.map (·.id) := by
  simp [Core.op, List.find?_eq_none]

theorem Core.op_dropOp (c : Core) (i : Nat) : (c.dropOp i).op i = none := by
  simp [Core.op, Core.dropOp, List.find?_eq_none]

/-! ## Behind the acquire -/

/-- A group that runs is not switched out. -/
theorem State.drained_of_running {s : State} {k slot team : Nat} {g : Group} (h : (s.core k).group slot = some g)
    (hr : g.phase = .running) : s.drained k slot team = s := by
  unfold State.drained
  rw [if_neg]
  rw [Core.owner, h]
  by_cases ht : g.team = team <;> simp [Option.filter, ht, hr]

theorem State.endTeam_of_lives {s : State} {k i : Nat} (h : ∀ t, (s.core k).team i = some t → t.live ≠ []) :
    s.endTeam k i = s := by
  cases ht : (s.core k).team i with
  | none => rw [State.endTeam, ht]
  | some t => exact s.endTeam_of_live k i t ht (h t ht)

/-! ## The load -/

/-- The value that a lane takes from a load to registers (R266). -/
def State.loadValue (s : State) (k : Nat) (f : Flight) (n : Nat) (sg : Bool) (ls : List LaneAccess) (l : Nat) : Nat :=
  match ls.find? fun x => ls.length == 1 || x.lane == l with
  | some x => extend n sg (s.opRead k f x.loc n)
  | none => 0

theorem State.loadValue_one (s : State) (k : Nat) (f : Flight) (n : Nat) (sg : Bool) (x : LaneAccess) (l : Nat) :
    s.loadValue k f n sg [x] l = extend n sg (s.opRead k f x.loc n) := by
  simp [State.loadValue]

theorem find?_lane {ls : List LaneAccess} (hd : (ls.map (·.lane)).Nodup) {x : LaneAccess} (hx : x ∈ ls) :
    ls.find? (fun y => y.lane == x.lane) = some x := by
  induction ls with
  | nil => cases hx
  | cons y ys ih =>
    rw [List.map_cons, List.nodup_cons] at hd
    obtain rfl | hx := List.mem_cons.1 hx
    · simp
    · have hne : (y.lane == x.lane) = false := beq_false_of_ne fun e => hd.1 (e ▸ List.mem_map_of_mem hx)
      rw [List.find?_cons, hne]
      exact ih hd.2 hx

theorem State.loadValue_lane (s : State) (k : Nat) (f : Flight) (n : Nat) (sg : Bool) {ls : List LaneAccess}
    (hlen : 1 < ls.length) (hd : (ls.map (·.lane)).Nodup) {x : LaneAccess} (hx : x ∈ ls) :
    s.loadValue k f n sg ls x.lane = extend n sg (s.opRead k f x.loc n) := by
  have hmany : (ls.length == 1) = false := beq_false_of_ne (by omega)
  rw [State.loadValue]
  simp only [hmany, Bool.false_or, find?_lane hd hx]

section Returned

variable {s : State} {k id d n : Nat} {sg : Bool} {f : Flight} {ls : List LaneAccess} {g : Group}

/-- A load without errors fills the registers of all its lanes. -/
theorem State.deliver_runs (h : (s.core k).RunsGroup f.slot g) (ht : g.team = f.team) (hc : ∀ x ∈ s.loadCodes f, x.2 = 0) :
    s.deliver k f (.reg d n sg) ls =
      s.modGroup k f.slot fun _ => { g with rf := g.rf.setWords d ((n + 3) / 4) f.mask (s.loadValue k f n sg ls) } := by
  have hcode : ∀ code, code ≠ 0 → f.withCode (s.loadCodes f) code = 0 := fun code hne =>
    f.withCode_eq_zero _ code fun x hx e => hne (e ▸ hc x hx)
  have hmask : f.mask &&& ~~~(f.withCode (s.loadCodes f) 1 ||| f.withCode (s.loadCodes f) 2) = f.mask := by
    rw [hcode 1 (by decide), hcode 2 (by decide)]
    exact BitVec.and_allOnes
  have hfill := State.fillWords_runs h d ((n + 3) / 4) f.mask (s.loadValue k f n sg ls)
  unfold State.deliver
  dsimp only
  rw [hmask, ← ht]
  exact hfill.trans (s.modGroup_congr k f.slot _ _ g h.here rfl)

/-- The load's end, before what its end acquires: its registers are written, it is gone, and its flag counts one less. -/
structure LoadEnd (s t : State) (k : Nat) (f : Flight) (g h : Group) (rf : RegFile) : Prop where
  mem : t.mem = s.mem
  runs : (t.core k).RunsGroup f.slot h
  gone : (t.core k).op f.id = none
  others : ∀ j, j ≠ f.slot → (t.core k).group j = (s.core k).group j
  teams : ∀ i, (t.core k).team i = (s.core k).team i
  team : h.team = g.team
  flags : h.flags = g.flagsAfter f.flag ((s.core k).flight.all fun e => e.id == f.id || e.word != f.word)
  regs : h.rf.v = rf.v
  bad : t.bad = s.bad
  weak : t.weak = s.weak

theorem State.finishOp_end (h : (s.core k).RunsGroup f.slot g) (ht : g.team = f.team) (rf : RegFile) :
    ∃ e, LoadEnd s ((s.modGroup k f.slot fun _ => { g with rf := rf }).finishOp k f) k f g e rf := by
  have hq := State.core_modGroup_runs h (fun _ => { g with rf := rf }) rfl
  have hcore : (s.modGroup k f.slot fun _ => { g with rf := rf }).core k = (s.core k).modGroup f.slot fun _ => { g with rf := rf } :=
    State.core_modCore _ _ _ h.lt
  let last := (s.core k).flight.all fun e => e.id == f.id || e.word != f.word
  have hend : ((s.modGroup k f.slot fun _ => { g with rf := rf }).finishOp k f).core k =
      (((s.core k).modGroup f.slot fun _ => { g with rf := rf }).dropOp f.id).modGroup f.slot (Group.counted f.flag last) := by
    rw [State.finishOp_runs hq ht, State.core_modCore _ _ _ hq.lt, hcore]
    rfl
  obtain ⟨u, p, hcount⟩ := Group.counted_eq f.flag last { g with rf := rf }
  have hdrop : (((s.core k).modGroup f.slot fun _ => { g with rf := rf }).dropOp f.id).RunsGroup f.slot { g with rf := rf } := by
    rw [← hcore]
    exact ⟨hq.here, hq.running, hq.home⟩
  have hruns := hdrop.modGroup (Group.counted f.flag last) (by rw [hcount])
  refine ⟨Group.counted f.flag last { g with rf := rf }, ?_, ?_, ?_, fun j hj => ?_, fun i => ?_, ?_, ?_, ?_, ?_, ?_⟩
  · rw [State.finishOp_runs hq ht]
    rfl
  · rw [hend]
    exact hruns
  · rw [hend]
    exact Core.op_dropOp _ _
  · rw [hend, Core.group_modGroup_ne _ _ _ _ hj]
    exact Core.group_modGroup_ne _ _ _ _ hj
  · rw [hend]
    rfl
  · rw [hcount]
  · rw [hcount]
    rfl
  · rw [hcount]
  · rw [State.finishOp_runs hq ht]
    rfl
  · rw [State.finishOp_runs hq ht]
    rfl

/-- A load to registers that returns without errors: its lanes' registers, its flag and itself, and nothing else of the other
groups or of memory. -/
theorem State.loadReturned_end (h : (s.core k).RunsGroup f.slot g) (ht : g.team = f.team) (hk : f.kind = .load (.reg d n sg) ls)
    (hc : ∀ x ∈ s.loadCodes f, x.2 = 0) (hb : ∀ x ∈ ls, s.locBad x.loc n = false)
    (hw : ∀ x ∈ ls, ∀ w ∈ s.weak, x.loc.meets n (.phys w) 16 = false)
    (hl : ∀ t, (s.core k).team f.team = some t → t.live ≠ []) :
    ∃ e, let t := s.loadReturned k f (.reg d n sg) ls
      t.mem = s.mem ∧ (t.core k).op f.id = none ∧ (t.core k).group f.slot = some e ∧
      (∀ j, j ≠ f.slot → (t.core k).group j = (s.core k).group j) ∧
      e.flags = g.flagsAfter f.flag ((s.core k).flight.all fun e => e.id == f.id || e.word != f.word) ∧
      e.rf.v = (g.rf.setWords d ((n + 3) / 4) f.mask (s.loadValue k f n sg ls)).v := by
  obtain ⟨e, ended⟩ := State.finishOp_end h ht (g.rf.setWords d ((n + 3) / 4) f.mask (s.loadValue k f n sg ls))
  have hdeliver := State.deliver_runs (d := d) (n := n) (sg := sg) (ls := ls) h ht hc
  rw [← hdeliver] at ended
  let q := (s.deliver k f (.reg d n sg) ls).finishOp k f
  have hrecord : (q.recordErrors 2 f.kind.locs).recordWeak f.kind.locs = q := by
    rw [q.recordErrors_of_clear 2, q.recordWeak_of_clear]
    · intro x hx pa hpa w hwq
      rw [hk] at hx
      obtain ⟨y, hy, rfl⟩ := List.mem_map.1 hx
      have := hw y hy w (ended.weak ▸ hwq)
      rw [show y.loc = .phys pa from hpa] at this
      exact this
    · intro x hx pa hpa w hwq
      rw [hk] at hx
      obtain ⟨y, hy, rfl⟩ := List.mem_map.1 hx
      have := hb y hy
      rw [show y.loc = .phys pa from hpa] at this
      exact s.overlap_of_badAt pa n this w (ended.bad ▸ hwq)
  obtain ⟨hmem, acquired⟩ := State.acquire_frame ended.runs (ended.team.trans ht)
  obtain ⟨upto, fences, hgroup⟩ := acquired.group
  have hgone : ((q.acquire k f).core k).op f.id = none := by
    rw [Core.op_none_iff, acquired.ops, ← Core.op_none_iff]
    exact ended.gone
  have sent : SendFrame k f.id (q.acquire k f) ((q.acquire k f).sendRequests k) := SendFrame.sendRequests _ fun x hx => by
    rw [hgone] at hx
    cases hx
  have hsentGroup := (sent.group f.slot).trans hgroup
  have hlives : ∀ t, (((q.acquire k f).sendRequests k).core k).team f.team = some t → t.live ≠ [] := fun t htm => by
    rw [sent.team] at htm
    obtain ⟨u, hu, hlive⟩ := acquired.lives f.team t htm
    rw [ended.teams] at hu
    rw [hlive]
    exact hl u hu
  have hreturned : s.loadReturned k f (.reg d n sg) ls = (q.acquire k f).sendRequests k := by
    simp only [State.loadReturned, State.loadBack]
    rw [f.reports_eq_nil _ _ hc, show (s.deliver k f (.reg d n sg) ls).finishOp k f = q from rfl, hrecord]
    rw [show (q.acquire k f).lateErrors k f [] = q.acquire k f from rfl,
      State.drained_of_running hsentGroup ended.runs.running, State.endTeam_of_lives hlives]
  refine ⟨{ e with seen := upto, fences := fences }, ?_⟩
  rw [hreturned]
  exact ⟨sent.mem.trans (hmem.trans ended.mem), sent.op.trans hgone, hsentGroup,
    fun j hj => (sent.group j).trans ((acquired.others j hj).trans (ended.others j hj)), ended.flags, ended.regs⟩

end Returned

/-- Settles O25: the load's end by what each part of it leaves, and its registers by the words of each lane. -/
theorem loadReturns : Obligations.LoadReturns := by
  intro s k id d n sg f ls g ho hk hawaits hblocked hturn _ hcodes hbad hweak hsaved hgroup hteam hshaped hrun hlive hlen
  have hid : f.id = id := Core.op_id _ _ _ ho
  obtain ⟨e, hmem, hgone, hhere, hothers, hflags, hregs⟩ := State.loadReturned_end ⟨hgroup, hrun, hsaved⟩ hteam hk hcodes hbad hweak
    hlive
  have hrows : ∀ i, i < g.rf.v.length → (g.rf.v.getD i []).length = 32 := g.row_length hshaped
  have hrv : ∀ r l, e.rf.rv r l = (g.rf.setWords d ((n + 3) / 4) f.mask (s.loadValue k f n sg ls)).rv r l := fun r l => by
    rw [RegFile.rv, RegFile.rv, hregs]
  have hword : ∀ l i, l < 32 → f.mask.getLsbD l = true → i < (n + 3) / 4 →
      e.rf.rv (d + i) l = wordOf (s.loadValue k f n sg ls l) i := fun l i hl hm hi => by
    rw [hrv, RegFile.rv_setWords _ _ _ _ _ _ _ hl fun _ hr => hrows _ (by omega),
      if_pos ⟨by omega, by omega, hm⟩, Nat.add_sub_cancel_left]
  refine ⟨s.loadReturned k f (.reg d n sg) ls, ?_, hmem, hid ▸ hgone, e, hhere, hflags, ?_, ?_, ?_, hothers⟩
  · change execLoadDataReturn k id s = _
    unfold execLoadDataReturn
    simp [ho, hk, hawaits, hblocked, hturn]
  · rintro x rfl l i hl hm hi
    rw [hword l i hl hm hi, State.loadValue_one]
  · intro hmany hd x hx i hl hm hi
    rw [hword x.lane i hl hm hi, State.loadValue_lane _ _ _ _ _ hmany hd hx]
  · intro r l h
    rw [hrv]
    exact RegFile.rv_setWords_frame _ _ _ _ _ _ _ hrows hlen h

end Sys2Proof.Machine
end

section
/-! PROOF. A migration of a stale residency (O41). -/

namespace Sys2Proof.Machine

/-- A migration that brings row 0 in for row 256 and gives its status to v7. -/
def lateSwap : Flight := { Flight.blank 0 (.migrate 63 [(0, 256)] 7 true) with slot := 0, mask := 1 }

/-- A row-split residency of 257 rows of which row 0 is cold, whose source has been written to since it was loaded (R87). -/
def staleSplit : ResEntry :=
  { ResEntry.reset with
    st := .ready, bfmt := 4, kblk := 1, nblk := 1, slots := 1, rows := 257, split := true, stale := true
    rowMap := (List.range 256).map (· + 1), watched := [(0x100000, 257 * 96)] }

/-- The group that has issued the migration: eight registers a lane. -/
def swapGroup : Group := { Group.blank with rf := RegFile.init 8 [] }

/-- The residency has become stale while its migration is on its way (R103). -/
def staleCore : State :=
  { State.reset with cores :=
    { Core.reset with
      groups := [some swapGroup], flight := [lateSwap]
      res := List.replicate 63 ResEntry.reset ++ [staleSplit] } :: List.replicate 383 Core.reset }

theorem staleCore_owned : Owned staleCore 0 lateSwap swapGroup :=
  ⟨rfl, rfl, by decide +kernel, rfl, rfl, rfl⟩

theorem staleCore_runs : Runs staleCore 0 lateSwap :=
  ⟨by decide, rfl, by decide +kernel, rfl, rfl, by decide +kernel, by decide +kernel⟩

theorem staleCore_still : staleCore.still 0 63 lateSwap := by
  unfold State.still
  decide +kernel

/-- The new hot row lies in the package and can be read. -/
theorem staleCore_source : ∀ x ∈ [(0, 256)],
    staleCore.sourceBad lateSwap ((staleCore.core 0).entry 63) ((staleCore.core 0).entry 63).watched x.1 = false ∧
    ∀ p ∈ ((staleCore.core 0).entry 63).rowParts ((staleCore.core 0).entry 63).watched x.1, staleCore.near p.1 p.2 ∧
      ∀ w ∈ staleCore.weak, overlap p.1 p.2 w 16 = false := by
  unfold State.near
  decide +kernel

/-- Lane 0's word of v7 of the group in slot 0 of core 0. -/
def writtenStatus (r : Result) : Option Word :=
  match r with
  | .next t => ((t.core 0).group 0).map fun g => g.rf.rv 7 0
  | _ => none

/-- The migration of a stale residency ends with status 1 (R103, R314). -/
theorem migrationComplete_staleCore : writtenStatus (exec (.migrationComplete 0 0) staleCore) = some 0x80000001 := by
  decide +kernel

/-- Refutes O41: a begun migration whose residency is stale ends with status 1 (R103), which nothing in the statement excludes;
`staleCore` meets every hypothesis, and there the status word reads 0x80000001 where the statement asks for 0x80000000. -/
theorem not_engineCompletions : ¬ Obligations.EngineCompletions := by
  unfold Obligations.EngineCompletions
  intro h
  obtain ⟨-, -, -, -, migrates⟩ :=
    h staleCore 0 0 7 lateSwap swapGroup rfl staleCore_owned staleCore_runs (by decide +kernel)
  obtain ⟨p, t, hexec, ends, -⟩ := migrates 63 [(0, 256)] rfl staleCore_still staleCore_source
  have status := migrationComplete_staleCore
  have group : (t.core 0).group 0 = _ := ends.group
  rw [hexec, writtenStatus, group] at status
  have asked : (swapGroup.rf.setV 7 lateSwap.mask fun _ => BitVec.ofNat 32 (2 ^ 31 + 0)).rv 7 0 = 0x80000001 :=
    Option.some.inj status
  exact absurd asked (by decide +kernel)

end Sys2Proof.Machine
end

section
/-! SUPPORT and PROOF. The residency table (O35). -/

namespace Sys2Proof.Machine

/-! ## A change of the core that is no change of its groups -/

/-- The group whose word is being issued stands as before where a change of its core leaves the groups. -/
theorem State.issuing_onCore (s : State) (f : Core → Core) (hf : ∀ c, (f c).groups = c.groups) (hi : s.issuing = true) :
    (s.onCore f).issuing = true := by
  obtain ⟨g, hg, sh, len⟩ := State.issuing_elim s hi
  have hcore : (s.onCore f).core s.issue.core = f (s.core s.issue.core) :=
    State.core_modCore s _ f (State.core_lt_of_group s _ _ g hg)
  have hgroup : ((s.onCore f).core s.issue.core).group s.issue.slot = some g := by
    rw [hcore, Core.group, hf]
    exact hg
  change Option.any _ (((s.onCore f).core s.issue.core).group s.issue.slot) = true
  rw [hgroup, Option.any_some, sh, Bool.true_and]
  exact beq_iff_eq.2 len

/-! ## Two scalars -/

/-- A word with an executing lane that writes two scalars, one after the other. -/
theorem State.putS_putS_scalars (s : State) (a b : Nat) (x y : DWord) (hi : s.issuing = true) (he : s.issue.exec ≠ 0)
    (ha : a < 64) (hb : b < 64) (hab : a ≠ b) : Scalars s ((s.putS a x).putS b y) [(a, x), (b, y)] := by
  obtain ⟨g, hg, sh, -⟩ := State.issuing_elim s hi
  have hgrp := State.grp_eq s g hg
  have hlen : s.grp.rf.s.length = 64 := hgrp ▸ (Group.shaped_iff g |>.1 sh).2.1
  have he' : ¬ s.issue.exec = 0#32 := he
  let put := fun g : Group => { g with rf := (g.rf.setS a x).setS b y }
  have hput : (s.putS a x).putS b y = s.onGrp put := by
    have hfirst : s.putS a x = s.onGrp fun g => { g with rf := g.rf.setS a x } := if_neg he
    rw [hfirst]
    exact (if_neg he).trans (s.onGrp_onGrp _ _)
  have ht : ((s.putS a x).putS b y).grp = put s.grp := by rw [hput, State.grp_onGrp s put g hg]
  refine ⟨fun n hn => ?_, ?_, fun _ => by rw [hput]; rfl⟩
  · have hset : ((s.grp.rf.setS a x).setS b y).rs n = if n = b then y else if n = a then x else s.grp.rf.rs n := by
      rw [RegFile.rs_setS _ _ _ _ (by simpa [RegFile.setS] using hlen ▸ hb), RegFile.rs_setS _ _ _ _ (hlen ▸ ha)]
    rw [ht, hset]
    by_cases hna : n = a
    · subst hna
      simp [hab, he']
    · have hna' : (a == n) = false := beq_eq_false_iff_ne.2 (Ne.symm hna)
      by_cases hnb : n = b
      · subst hnb
        simp [hna', he']
      · have hnb' : (b == n) = false := beq_eq_false_iff_ne.2 (Ne.symm hnb)
        simp [hna, hnb, hna', hnb']
  · rw [ht, hput]
    exact State.onGrp_congr s _ _ g hg (by rw [hgrp]; rfl)

/-! ## Entries -/

/-- A handle that names an entry names one of the table (R74). -/
theorem Core.lt_of_live (c : Core) (d : DWord) (h : c.live d = true) : descEntry d < c.res.length := by
  by_contra hout
  have hentry : c.entry (descEntry d) = ResEntry.reset := List.getD_eq_default _ _ (Nat.not_lt.1 hout)
  simp [Core.live, hentry, ResEntry.reset] at h

theorem Core.live_of_names {c : Core} {d : DWord} {tenant : BitVec 16} (h : c.names d tenant = true) : c.live d = true :=
  (Bool.and_eq_true_iff.1 h).1

theorem Core.entry_modEntry (c : Core) (i : Nat) (f : ResEntry → ResEntry) (h : i < c.res.length) :
    (c.modEntry i f).entry i = f (c.entry i) := by
  simp [Core.entry, Core.modEntry, List.getD_eq_getElem?_getD, h]

theorem Core.modEntry_modEntry (c : Core) (i : Nat) (f h : ResEntry → ResEntry) :
    (c.modEntry i f).modEntry i h = c.modEntry i (h ∘ f) :=
  congrArg (fun r => { c with res := r }) (modify_modify_same c.res i f h)

/-- Two changes of an entry that agree on it are one. -/
theorem Core.modEntry_congr (c : Core) (i : Nat) (f h : ResEntry → ResEntry) (e : f (c.entry i) = h (c.entry i)) :
    c.modEntry i f = c.modEntry i h := by
  refine congrArg (fun r => { c with res := r }) (modify_congr c.res i f h fun x hx => ?_)
  have hentry : c.entry i = x := by simp [Core.entry, List.getD_eq_getElem?_getD, hx]
  rw [← hentry, e]

@[simp] theorem Core.product_modEntry (c : Core) (i j : Nat) (f : ResEntry → ResEntry) :
    (c.modEntry i f).product j = c.product j := rfl
@[simp] theorem Core.loads_modEntry (c : Core) (i j : Nat) (f : ResEntry → ResEntry) :
    (c.modEntry i f).loads j = c.loads j := rfl
@[simp] theorem Core.migrations_modEntry (c : Core) (i j : Nat) (f : ResEntry → ResEntry) :
    (c.modEntry i f).migrations j = c.migrations j := rfl

/-! ## `res.alloc` -/

/-- A legal request with an executing lane: the status that it gets, or the entry that it takes (R78, R311). -/
theorem resAlloc_eq (s : State) (c u : Bool) (d a : BitVec 7) (he : s.issue.exec ≠ 0) (ha : a.toNat < 64)
    (hr : descReserved (s.issue.src.rs a.toNat) = false) (hd : d.toNat < 64) (he2 : d.toNat % 2 = 0)
    (hl : (allocEntry (s.issue.src.rs a.toNat) s.tenant 0).illegal = false) :
    let desc := s.issue.src.rs a.toNat
    let st := s.cur.allocStatus (allocEntry desc s.tenant 0)
    let gen := (s.cur.entry st.2).gen
    exec (.resAlloc c u d a) s = .next (if st.1 ≠ 0 then (s.putS d.toNat 0).putS (d.toNat + 1) (BitVec.ofNat 64 st.1)
      else ((s.onCore (·.modEntry st.2 fun _ => allocEntry desc s.tenant gen)).putS d.toNat
        (BitVec.ofNat 64 (gen.toNat * 64 + st.2))).putS (d.toNat + 1) 0) := by
  refine (State.checked_ok s _ _ ?_).trans (congrArg Host.Outcome.next (if_neg he))
  rw [hr, hl]
  simp [hd, he2, ha]

/-- A request with a status other than 0 writes it, with no handle (R78). -/
theorem resAlloc_refused {s : State} {c u : Bool} {d a : BitVec 7} (hi : s.issuing = true) (he : s.issue.exec ≠ 0)
    (ha : a.toNat < 64) (hr : descReserved (s.issue.src.rs a.toNat) = false) (hd : d.toNat < 64) (he2 : d.toNat % 2 = 0)
    (hl : (allocEntry (s.issue.src.rs a.toNat) s.tenant 0).illegal = false) {code : Nat} (hc : code ≠ 0)
    (h : (s.cur.allocStatus (allocEntry (s.issue.src.rs a.toNat) s.tenant 0)).1 = code) :
    ∃ t, exec (.resAlloc c u d a) s = .next t ∧ Scalars s t [(d.toNat, 0), (d.toNat + 1, BitVec.ofNat 64 code)] := by
  subst h
  refine ⟨_, ?_, s.putS_putS_scalars d.toNat (d.toNat + 1) _ _ hi he hd (by omega) (by omega)⟩
  rw [resAlloc_eq s c u d a he ha hr hd he2 hl, if_pos hc]

/-- The status of a request, quota before room before rows (R78). -/
theorem Core.allocStatus_cases (c : Core) (e : ResEntry) :
    let i := c.res.findIdx (·.st == .free)
    let quota := c.slotsOf e.tenant + e.slots ≤ c.quota e.tenant
    let room := c.slotsHeld + e.slots ≤ 64 ∧ i < c.res.length
    let rows := c.rowsHeld + e.rows ≤ 32768
    (¬quota → c.allocStatus e = (1, i)) ∧ (quota → ¬room → c.allocStatus e = (2, i)) ∧
    (quota → room → ¬rows → c.allocStatus e = (3, i)) ∧ (quota → room → rows → c.allocStatus e = (0, i)) := by
  intro i quota room rows
  have hquota : c.quotaOk e.tenant e.slots = decide quota := rfl
  have hroom : (64 < c.slotsHeld + e.slots ∨ c.res.length ≤ i) ↔ ¬room := by
    simp only [room]
    omega
  have hrows : 32768 < c.rowsHeld + e.rows ↔ ¬rows := Nat.not_le.symm
  have hstatus : c.allocStatus e = if ¬quota then (1, i) else if ¬room then (2, i) else if ¬rows then (3, i) else (0, i) := by
    simp only [Core.allocStatus, hquota, Bool.not_eq_true', decide_eq_false_iff_not]
    simp only [i] at hroom
    simp only [hroom, hrows, i]
  rw [hstatus]
  refine ⟨fun hq => if_pos hq, fun hq hr => ?_, fun hq hr hw => ?_, fun hq hr hw => ?_⟩
  · rw [if_neg (not_not.2 hq), if_pos hr]
  · rw [if_neg (not_not.2 hq), if_neg (not_not.2 hr), if_pos hw]
  · rw [if_neg (not_not.2 hq), if_neg (not_not.2 hr), if_neg (not_not.2 hw)]

/-! ## Words on a residency that a handle names -/

/-- The checks of a word on a residency pass for a handle of the tenant (R310). -/
theorem State.onResidency_names (s : State) (ok : Bool) (d : DWord) (t : State) (hok : ok = true)
    (hr : descReserved d = false) (hn : s.cur.names d s.tenant = true) : s.onResidency ok d t = .next t := by
  rw [State.onResidency, State.checked_ok _ _ _ (by rw [hok, hr]; rfl), if_pos hn]

/-- A `res.free` of a residency that nothing in flight uses frees it at once (R82). -/
theorem State.instant_frees (s : State) (k ent : Nat) (hk : k < s.cores.length) (he : ent < (s.core k).res.length)
    (hl : (s.core k).loads ent = []) (hm : (s.core k).migrations ent = []) (hp : (s.core k).product ent = false) :
    (s.modCore k (·.modEntry ent fun e => { e with freeing := true })).instant k ent =
      s.modCore k (·.modEntry ent ResEntry.freed) := by
  have hcore := s.core_modCore k (·.modEntry ent fun e => { e with freeing := true }) hk
  unfold State.instant
  simp only [hcore, Core.product_modEntry, Core.migrations_modEntry, Core.loads_modEntry, Core.entry_modEntry _ _ _ he, hl,
    hm, hp, Bool.false_eq_true, if_false, if_true, List.foldl_nil]
  rw [State.modCore_modCore]
  refine s.modCore_congr k _ _ (((s.core k).modEntry_modEntry ent _ _).trans ?_)
  rfl

theorem resFree_next (s : State) (c u : Bool) (a : BitVec 7) (hi : s.issuing = true) (he : s.issue.exec ≠ 0)
    (ha : a.toNat < 64) (hr : descReserved (s.issue.src.rs a.toNat) = false)
    (hn : s.cur.names (s.issue.src.rs a.toNat) s.tenant = true) (hl : s.cur.loads (descEntry (s.issue.src.rs a.toNat)) = [])
    (hm : s.cur.migrations (descEntry (s.issue.src.rs a.toNat)) = [])
    (hp : s.cur.product (descEntry (s.issue.src.rs a.toNat)) = false) :
    exec (.resFree c u a) s = .next (s.onCore (·.modEntry (descEntry (s.issue.src.rs a.toNat)) ResEntry.freed)) := by
  obtain ⟨g, hg, -, -⟩ := State.issuing_elim s hi
  have hk := State.core_lt_of_group s _ _ g hg
  refine (s.onResidency_names _ _ _ (decide_eq_true ha) hr hn).trans (congrArg Host.Outcome.next ((if_neg he).trans ?_))
  simp only [hl, List.foldl_nil]
  exact s.instant_frees _ _ hk (s.cur.lt_of_live _ (Core.live_of_names hn)) hl hm hp

/-- `res.heat` of rows that the residency has is a write of its register (R316). -/
theorem resHeat_eq (s : State) (c u : Bool) (d a v : BitVec 7) (ha : a.toNat < 64)
    (hr : descReserved (s.issue.src.rs a.toNat) = false) (hn : s.cur.names (s.issue.src.rs a.toNat) s.tenant = true)
    (hd : s.vOk d.toNat = true) (hv : s.vOk v.toNat = true)
    (hrows : ∀ l ∈ s.doers u,
      (s.A v.toNat l).toNat % 4096 < (s.cur.entry (descEntry (s.issue.src.rs a.toNat))).rows) :
    exec (.resHeat c u d a v) s = .next (s.putV u d.toNat fun l =>
      BitVec.ofNat 32 ((s.cur.entry (descEntry (s.issue.src.rs a.toNat))).heat.getD ((s.A v.toNat l).toNat % 4096) 0)) := by
  have hnone : (s.doers u).filter (fun l =>
      decide ((s.cur.entry (descEntry (s.issue.src.rs a.toNat))).rows ≤ (s.A v.toNat l).toNat % 2 ^ 12)) = [] :=
    List.filter_eq_nil_iff.2 fun l hl => by simpa using hrows l hl
  have hall : s.issue.exec &&& ~~~(maskOf fun l => ([] : List Nat).contains l) = s.issue.exec := BitVec.and_allOnes
  refine (s.onResidency_names _ _ _ (by rw [hd, hv]; simp [ha]) hr hn).trans ?_
  simp only [hnone, hall, List.map_nil, if_true, ite_self]
  rfl

/-- Settles O35: the status of a request decides what `res.alloc` does; the other words each change the entry that their handle
names, or read it. -/
theorem residencyTable : Obligations.ResidencyTable := by
  unfold Obligations.ResidencyTable
  intro s c u b d a v hi he ha h ent e want hr
  refine ⟨fun hd hd2 hl => ?alloc, fun hd => ?query,
    fun hn => ⟨?pin, ?age, fun hload hm hp => ?free, fun hvd hvv hrows => ?heat⟩⟩
  case alloc =>
    intro i bad quota room rows
    obtain ⟨noQuota, noRoom, noRows, taken⟩ := s.cur.allocStatus_cases want
    have refused : ∀ code, code ≠ 0 → (s.cur.allocStatus want).1 = code → bad code := fun code hc hst =>
      resAlloc_refused hi he ha hr hd hd2 hl hc hst
    refine ⟨fun hq => refused 1 (by decide) (congrArg Prod.fst (noQuota hq)),
      fun hq hroom => refused 2 (by decide) (congrArg Prod.fst (noRoom hq hroom)),
      fun hq hroom hrow => refused 3 (by decide) (congrArg Prod.fst (noRows hq hroom hrow)), fun hq hroom hrow => ?_⟩
    intro gen
    refine ⟨s.onCore (·.modEntry i fun _ => { want with gen := gen }), _, ?_, ⟨rfl, fun _ => rfl⟩,
      State.putS_putS_scalars _ d.toNat (d.toNat + 1) (BitVec.ofNat 64 (gen.toNat * 64 + i)) 0
        (s.issuing_onCore (·.modEntry i fun _ => { want with gen := gen }) (fun _ => rfl) hi) he hd (by omega) (by omega)⟩
    rw [resAlloc_eq s c u d a he ha hr hd hd2 hl, taken hq hroom hrow]
    rfl
  case query =>
    have hexec : exec (.resQuery c u d a) s = .next (s.putS d.toNat
        (BitVec.ofNat 64 (if s.cur.live h then s.cur.resWord ent else 0))) :=
      State.checked_ok s _ _ (by simp [hd, ha, show descReserved (s.issue.src.rs a.toNat) = false from hr])
    rw [hexec, apply_ite (BitVec.ofNat 64)]
    exact s.putS_writesS _ _ hi hd
  case pin =>
    exact ⟨_, (s.onResidency_names _ _ _ (decide_eq_true ha) hr hn).trans (congrArg Host.Outcome.next (if_neg he)), rfl,
      fun _ => rfl⟩
  case age =>
    exact ⟨_, (s.onResidency_names _ _ _ (decide_eq_true ha) hr hn).trans (congrArg Host.Outcome.next (if_neg he)), rfl,
      fun _ => rfl⟩
  case free => exact ⟨_, resFree_next s c u a hi he ha hr hn hload hm hp, rfl, fun _ => rfl⟩
  case heat =>
    rw [resHeat_eq s c u d a v ha hr hn hvd hvv hrows]
    exact s.putV_writesV u d.toNat _ _ hi hvd fun _ => rfl

end Sys2Proof.Machine
end

section
/-! SUPPORT and PROOF. Residency loads and migrations that issue (O36). -/

namespace Sys2Proof.Machine

/-! ## The core behind a dispatch -/

/-- The core whose word has dispatched operations. -/
theorem Dispatched.cur_eq {s t : State} {fs : List Flight} (h : Dispatched s t fs) (hk : s.issue.core < s.cores.length) :
    t.cur = { s.cur.modGroup s.issue.slot (fun _ => t.grp) with
      flight := s.cur.flight ++ fs, rechecks := t.cur.rechecks, pref := t.cur.pref,
      regs := { s.cur.regs with counters := t.cur.regs.counters } } := by
  have hissue : t.issue = s.issue := by rw [h.core]; rfl
  have hcur : t.cur = t.core s.issue.core := congrArg (fun i : Issue => t.core i.core) hissue
  have hcore := congrArg (fun t : State => t.core s.issue.core) h.core
  rw [← h.flight]
  exact (hcur.trans hcore).trans (s.core_modCore _ _ hk)

/-! ## What a load waits for -/

theorem Core.entry_congr {c d : Core} (h : d.res = c.res) (ent : Nat) : d.entry ent = c.entry ent := by
  rw [Core.entry, Core.entry, h]

/-- What a load waits for depends on the table, the quotas, and the migrations and products of its residency (R312). -/
theorem Core.loadWaits_congr {c d : Core} {ent : Nat} (hr : d.res = c.res) (hq : d.regs.quota = c.regs.quota)
    (hm : d.migrations ent = c.migrations ent) (hp : d.product ent = c.product ent) : d.loadWaits ent = c.loadWaits ent := by
  have hown : ∀ tenant, d.slotsOf tenant = c.slotsOf tenant := fun _ => by rw [Core.slotsOf, Core.slotsOf, hr]
  have hquota : ∀ tenant, d.quota tenant = c.quota tenant := fun _ => by rw [Core.quota, Core.quota, hq]
  have hheld : d.slotsHeld = c.slotsHeld := by rw [Core.slotsHeld, Core.slotsHeld, hr]
  have hback : ∀ e, d.canTakeBack e = c.canTakeBack e := fun e => by
    rw [Core.canTakeBack, Core.canTakeBack, Core.quotaOk, Core.quotaOk, hown, hquota, hheld]
  simp only [Core.loadWaits, Core.entry_congr hr, hm, hp, hback]

/-- A load that has been dispatched waits for what it waited for before (R312). -/
theorem Dispatched.loadWaits_eq {s t : State} {f : Flight} {ent e : Nat} {g : BitVec 10} {src : DWord} {len w : Nat}
    {ps : List (Nat × Nat)} {d : Option Nat} {ctr : DWord} {ab : Bool} {sub : Option SubRef} (h : Dispatched s t [f])
    (hk : s.issue.core < s.cores.length) (hf : f.kind = .resLoad e g src len ps d ctr w ab sub) :
    t.cur.loadWaits ent = s.cur.loadWaits ent := by
  rw [h.cur_eq hk]
  refine Core.loadWaits_congr rfl rfl ?_ ?_
  · simp [Core.migrations, hf]
  · simp [Core.product, hf]

/-! ## `res.load` -/

/-- A load whose source passes its checks: it is dispatched, and begins or waits (R84, R312). -/
theorem resLoad_eq (s : State) (c u f : Bool) (d a : BitVec 7) (he : s.issue.exec ≠ 0) (ha : a.toNat < 64)
    (hd : s.vOk d.toNat = true) (hw : s.memWait (some f) = none) :
    let r := fun i => s.issue.src.rs (a.toNat + i)
    let ent := descEntry (r 0)
    let e := s.cur.entry ent
    let pieces := (s.sourceTries e (r 1) e.sourceLen).1
    descReserved (r 0) = false → s.cur.names (r 0) s.tenant = true → a.toNat % 4 = 0 → (r 2).toNat = e.sourceLen →
    (r 1).toNat % 128 = 0 → (r 3).toNat % 16 = 0 → (s.sourceTries e (r 1) e.sourceLen).2 = [] →
    s.cur.writesTo pieces = false →
    exec (.resLoad c u d a f) s = .next ((s.dispatch (some f) s.issue.exec (s.heldUntil [ctrSpan (r 3)]) false false
      (.resLoad ent e.gen (r 1) e.sourceLen pieces (some d.toNat) (r 3) (s.cur.loadWaits ent) false none)).onCore
        (·.beginLoad s.nextId ent (r 1) pieces)) := by
  intro r ent e pieces hr hn ha4 hlen h128 h16 htries hwrites
  have hok : (decide (a.toNat < 64) && a.toNat % 4 == 0 && s.vOk d.toNat && !descReserved (r 0) &&
      (!s.cur.names (r 0) s.tenant || (r 2).toNat == e.sourceLen)) = true := by
    simp [ha, ha4, hd, hr, hlen]
  refine (State.checked_ok s _ _ hok).trans (congrArg Host.Outcome.next ?_)
  simp only [show s.issue.src.rs (a.toNat + 0) = r 0 from rfl, show s.issue.src.rs (a.toNat + 1) = r 1 from rfl,
    show s.issue.src.rs (a.toNat + 2) = r 2 from rfl, show s.issue.src.rs (a.toNat + 3) = r 3 from rfl, hlen,
    show descEntry (r 0) = ent from rfl, show s.cur.entry ent = e from rfl]
  simp only [if_neg he, h128, h16, htries, hn, hw,
    show s.cur.writesTo (s.sourceTries e (r 1) e.sourceLen).1 = false from hwrites, ne_eq, not_true, if_false, if_true,
    List.append_nil, List.filterMap_nil]
  rfl

/-- The entry behind the issue of load `id`: it loads, or the load watches its source and waits (R79, R87, R312). -/
def ResEntry.loadIssued (waits id : Nat) (src : DWord) (pieces : List (Nat × Nat)) (e : ResEntry) : ResEntry :=
  if waits = 2 then { e with ahead := e.ahead ++ [(id, pieces, false)] }
  else { e with
    st := .loading, stale := false, src := src, len := (pieces.map (·.2)).sum, watched := pieces,
    slots := slotsFor e.bfmt (e.kblk * e.nblk) }

/-- A load whose number no waiting load has finds no write to its source (R87). -/
theorem ResEntry.startLoad_eq (e : ResEntry) (id : Nat) (src : DWord) (pieces : List (Nat × Nat))
    (h : ∀ x ∈ e.ahead, x.1 ≠ id) : e.startLoad id src pieces = { e with
      st := .loading, stale := false, src := src, len := (pieces.map (·.2)).sum, watched := pieces,
      slots := slotsFor e.bfmt (e.kblk * e.nblk) } := by
  have hstale : (e.ahead.any fun a => a.1 == id && a.2.2) = false :=
    List.any_eq_false.2 fun x hx => by simp [h x hx]
  have hahead : e.ahead.filter (·.1 != id) = e.ahead := List.filter_eq_self.2 fun x hx => by simpa using h x hx
  rw [ResEntry.startLoad, hstale, hahead]

theorem Dispatched.beginLoad_eq {s t : State} {f : Flight} {ent e id : Nat} {g : BitVec 10} {src va : DWord} {len w : Nat}
    {ps pieces : List (Nat × Nat)} {d : Option Nat} {ctr : DWord} {ab : Bool} {sub : Option SubRef} (h : Dispatched s t [f])
    (hk : s.issue.core < s.cores.length) (hf : f.kind = .resLoad e g src len ps d ctr w ab sub)
    (ha : ∀ x ∈ (s.cur.entry ent).ahead, x.1 ≠ id) :
    t.onCore (·.beginLoad id ent va pieces) = t.onCore (·.modEntry ent (.loadIssued (s.cur.loadWaits ent) id va pieces)) := by
  have hentry : t.cur.entry ent = s.cur.entry ent := by
    rw [h.cur_eq hk]
    rfl
  refine State.onCore_congr t _ _ (Core.modEntry_congr _ _ _ _ ?_)
  rw [h.loadWaits_eq hk hf, hentry, ResEntry.loadIssued, ResEntry.startLoad_eq _ _ _ _ ha]

/-! ## An operation that changes as it is dispatched -/

/-- The newest operation of a core changes at once: what is dispatched is the operation that it has become. -/
theorem Dispatched.modOp {s t : State} {f : Flight} (h : Dispatched s t [f]) (hk : s.issue.core < s.cores.length)
    (hfresh : s.fresh) (hid : f.id = s.nextId) (g : Flight → Flight) (hflag : (g f).flag = f.flag)
    (hmask : writing [g f] = writing [f]) : Dispatched s (t.modCore s.issue.core (·.modOp f.id g)) [g f] := by
  have hissue : t.issue = s.issue := by rw [h.core]; rfl
  have hlen : s.issue.core < t.cores.length := by
    rw [h.core]
    simpa [State.onCore, State.modCore] using hk
  have hcur : (t.modCore s.issue.core (·.modOp f.id g)).cur = t.cur.modOp f.id g := by
    rw [State.cur, State.cur, State.modCore_issue, hissue]
    exact t.core_modCore _ _ hlen
  have hgrp : (t.modCore s.issue.core (·.modOp f.id g)).grp = t.grp := by
    have hslot := congrArg (fun c : Core => (c.group s.issue.slot).getD Group.blank) hcur
    rw [State.grp, State.grp, State.modCore_issue, hissue]
    rw [State.cur, State.cur, State.modCore_issue, hissue] at hslot
    exact hslot
  have hflight : (t.cur.modOp f.id g).flight = s.cur.flight ++ [g f] := by
    have hold : s.cur.flight.map (fun o => if o.id = f.id then g o else o) = s.cur.flight := by
      conv => rhs; rw [← List.map_id s.cur.flight]
      refine List.map_congr_left fun o ho => if_neg ?_
      have := (hfresh o ho).1
      omega
    rw [Core.modOp, h.flight, List.map_append, hold]
    simp
  refine ⟨by rw [hcur, hflight], h.number, fun i hi => ?_, ?_, ?_, h.memory⟩
  · rw [hgrp, h.flags i hi]
    simp [hflag]
  · rw [hgrp, hmask]
    exact h.group
  · rw [hcur, hgrp]
    refine (congrArg (fun u : State => u.modCore s.issue.core (·.modOp f.id g)) h.core).trans ?_
    refine congrArg (fun u : State => { u with nextId := t.nextId }) ((s.modCore_modCore _ _ _).trans ?_)
    exact s.modCore_congr _ _ _ rfl

/-! ## `res.migrate` -/

theorem State.flagFull_of_memWait {s : State} {fs : Option Bool} (he : s.issue.exec ≠ 0) (hw : s.memWait fs = none) :
    s.flagFull fs = false := by
  rw [State.memWait, if_neg he] at hw
  by_contra hfull
  rw [if_pos (Bool.not_eq_false _ ▸ hfull)] at hw
  cases hw

/-- A migration that passes its checks is dispatched, and begins at once where the instant is one (R101, R102, R317). -/
theorem resMigrate_eq (s : State) (c u f : Bool) (d a b : BitVec 7) (he : s.issue.exec ≠ 0) (ha : a.toNat < 64)
    (hd : s.vOk d.toNat = true) (hb : s.vOk b.toNat = true) (hw : s.memWait (some f) = none) :
    let desc := s.issue.src.rs a.toNat
    let ent := descEntry desc
    let e := s.cur.entry ent
    let swaps := (s.doers u).map fun l => ((s.A b.toNat l).toNat % 2 ^ 16, (s.A b.toNat l).toNat / 2 ^ 16)
    descReserved desc = false → s.cur.names desc s.tenant = true → e.st = .ready → e.stale = false → e.split = true →
    e.swapsBad swaps = false → s.cur.writesTo e.watched = false → s.cur.migrations ent = [] →
    exec (.resMigrate c u d a b f) s = .next ((s.dispatch (some f) s.issue.exec none false false
      (.migrate ent swaps d.toNat false)).instant s.issue.core ent) := by
  intro desc ent e swaps hr hn hst hstale hsplit hswaps hwrites hmig
  have hswap : (s.doers u).map (fun l => (bits (s.A b.toNat l).toNat 15 0, bits (s.A b.toNat l).toNat 31 16)) = swaps := by
    refine List.map_congr_left fun l _ => ?_
    have := (s.A b.toNat l).isLt
    simp only [bits, Prod.mk.injEq]
    omega
  have hwait : s.migrateWait ent f = none := by
    rw [State.migrateWait, State.flagFull_of_memWait he hw]
    simp [show (s.cur.entry ent).st = .ready from hst, hmig]
  have hsplit' : (s.cur.entry (descEntry (s.issue.src.rs a.toNat))).split = true := hsplit
  refine (s.onResidency_names _ _ _ (by simp [ha, hd, hb, hsplit']) hr hn).trans
    (congrArg Host.Outcome.next ((if_neg he).trans ?_))
  simp only [hswap, show descEntry (s.issue.src.rs a.toNat) = ent from rfl, show s.cur.entry ent = e from rfl, hwait, hswaps,
    hst, hw, hwrites, hstale]
  rfl

/-- An instant on a residency with one pending migration, which begins where no product is in flight (R102). -/
theorem State.instant_begins (t : State) (k ent : Nat) (f : Flight) (hm : (t.core k).migrations ent = [f])
    (hf : ((t.core k).entry ent).freeing = false) :
    t.instant k ent = if (t.core k).product ent then t else t.modCore k (·.modOp f.id Flight.begun) := by
  unfold State.instant
  simp only [hm, hf]
  rfl

theorem Core.migrations_of_append {c d : Core} {fs : List Flight} (h : d.flight = c.flight ++ fs) (ent : Nat) :
    d.migrations ent = c.migrations ent ++ { c with flight := fs }.migrations ent := by
  rw [Core.migrations, h, List.filter_append]
  rfl

/-- A dispatched migration of a residency without another, at the instant (R102). -/
theorem Dispatched.migrates {s t : State} {fs : Option Bool} {mask : Word} {held : Option Nat} {acq sc : Bool} {ent d : Nat}
    {sw : List (Nat × Nat)}
    (h : Dispatched s t (s.newFlights fs acq sc [(mask, held, .migrate ent sw d false)]))
    (hk : s.issue.core < s.cores.length) (hfresh : s.fresh) (hm : s.cur.migrations ent = [])
    (hf : (s.cur.entry ent).freeing = false) :
    Dispatched s (t.instant s.issue.core ent)
      (s.newFlights fs acq sc [(mask, held, .migrate ent sw d (!s.cur.product ent))]) := by
  let f := s.newFlight s.nextId fs acq sc s.nextId (mask, held, .migrate ent sw d false)
  have hone : Dispatched s t [f] := h
  have hcore : t.core s.issue.core = t.cur := by
    have hissue : t.issue = s.issue := by rw [h.core]; rfl
    rw [State.cur, hissue]
  have hmig : (t.core s.issue.core).migrations ent = [f] := by
    rw [hcore, Core.migrations_of_append hone.flight, hm]
    simp [Core.migrations, f, State.newFlight, Flight.blank]
  have hproduct : (t.core s.issue.core).product ent = s.cur.product ent := by
    rw [hcore, hone.cur_eq hk]
    simp [Core.product, f, State.newFlight, Flight.blank]
  have hfree : ((t.core s.issue.core).entry ent).freeing = false := by
    rw [hcore, hone.cur_eq hk]
    exact hf
  rw [t.instant_begins _ _ f hmig hfree, hproduct]
  cases s.cur.product ent with
  | true => exact h
  | false => exact hone.modOp hk hfresh rfl Flight.begun rfl rfl

/-- Settles O36: each word passes its checks and is dispatched; behind that the load's residency is changed, and the migration
begins. -/
theorem residencyTransfers : Obligations.ResidencyTransfers := by
  unfold Obligations.ResidencyTransfers
  intro s c u f d a b hi he ha hd hw r ent e hr hn hlt
  obtain ⟨g, hg, -, -⟩ := State.issuing_elim s hi
  have hk := State.core_lt_of_group s _ _ g hg
  refine ⟨?load, ?migrate⟩
  case load =>
    intro pieces ha4 hlen h128 h16 htries hwrites hahead
    have dispatched := s.dispatch_dispatched (some f) s.issue.exec (s.heldUntil [ctrSpan (r 3)]) false false
      (.resLoad ent e.gen (r 1) e.sourceLen pieces (some d.toNat) (r 3) (s.cur.loadWaits ent) false none) hi rfl
    exact ⟨_, _, resLoad_eq s c u f d a he ha hd hw hr hn ha4 hlen h128 h16 htries hwrites, dispatched,
      dispatched.beginLoad_eq hk rfl hahead, fun _ => rfl⟩
  case migrate =>
    intro swaps hfresh hb hst hstale hfree hsplit hswaps hwrites hmig
    have dispatched := s.dispatch_dispatched (some f) s.issue.exec none false false (.migrate ent swaps d.toNat false) hi rfl
    exact ⟨_, resMigrate_eq s c u f d a b he ha hd hb hw hr hn hst hstale hsplit hswaps hwrites hmig,
      dispatched.migrates hk hfresh hmig hfree⟩

end Sys2Proof.Machine
end

section
/-! SUPPORT. Engine operations that run to their end at one step (O42): nothing is asked, and nothing that is read has an
error (R69, R420, R441). -/

namespace Sys2Proof.Machine

/-! ## Ranges in the package -/

/-- A request's part of a range begins in it. -/
theorem mem_cutRange {m pa n : Nat} {c : Nat × Nat} (h : c ∈ cutRange m pa n) : pa ≤ c.1 ∧ c.1 < pa + n := by
  induction m generalizing pa n with
  | zero => cases h
  | succ m ih =>
    rw [cutRange] at h
    split at h
    · cases h
    next hn =>
      obtain rfl | hrest := List.mem_cons.1 h
      · exact ⟨Nat.le_refl _, by omega⟩
      · have := ih hrest
        omega

/-- A part of a range whose bytes have their home in this package. -/
theorem State.near.part {s : State} {a n b m : Nat} (h : s.near a n) (hab : a ≤ b) (hm : b + m ≤ a + n) : s.near b m := by
  intro i hi
  have := h (b - a + i) (by omega)
  rwa [show a + (b - a + i) = b + i by omega] at this

/-- An engine operation asks for nothing that lies in the package (R420). -/
theorem State.askReads_near (s : State) (k : Nat) (f : Flight) (rs : List (Nat × Nat)) (h : ∀ r ∈ rs, s.near r.1 r.2) :
    s.askReads k f rs = s := by
  have hhere : ∀ c ∈ (rs.flatMap fun r => chunksOf r.1 r.2).eraseDups, s.beyond (.phys c.1) = none := by
    intro c hc
    obtain ⟨r, hr, hcr⟩ := List.mem_flatMap.1 (List.mem_eraseDups.1 hc)
    obtain ⟨hlo, hhi⟩ := mem_cutRange hcr
    have := h r hr (c.1 - r.1) (by omega)
    rwa [show r.1 + (c.1 - r.1) = c.1 by omega] at this
  unfold State.askReads
  generalize (rs.flatMap fun r => chunksOf r.1 r.2).eraseDups = cs at hhere
  induction cs with
  | nil => rfl
  | cons c cs ih =>
    obtain ⟨hc, hcs⟩ := List.forall_mem_cons.1 hhere
    rw [List.foldl_cons, hc]
    exact ih hcs

/-! ## The stages -/

/-- An operation whose progress is noted. -/
def Flight.staged (n : Nat) (codes : List Nat) (f : Flight) : Flight := { f with stage := n, codes := codes }

@[simp] theorem Flight.staged_stage (n : Nat) (cs : List Nat) (f : Flight) : (f.staged n cs).stage = n := rfl
@[simp] theorem Flight.staged_id (n : Nat) (cs : List Nat) (f : Flight) : (f.staged n cs).id = f.id := rfl

theorem Core.modOp_modOp (c : Core) (i : Nat) (f h : Flight → Flight) (hf : ∀ o, (f o).id = o.id) :
    (c.modOp i f).modOp i h = c.modOp i (h ∘ f) := by
  refine congrArg (fun l => { c with flight := l }) ((List.map_map).trans (List.map_congr_left fun o _ => ?_))
  by_cases ho : o.id = i <;> simp [ho, hf]

theorem State.modOp_modOp (s : State) (k i : Nat) (f h : Flight → Flight) (hf : ∀ o, (f o).id = o.id) :
    (s.modCore k (·.modOp i f)).modCore k (·.modOp i h) = s.modCore k (·.modOp i (h ∘ f)) :=
  (s.modCore_modCore k _ _).trans (congrArg (s.modCore k) (funext fun c => c.modOp_modOp i f h hf))

section Once

variable {s : State} {k id : Nat} {f : Flight}

theorem State.opOf_core (hk : k < 384) : s.opOf k id = (s.core k).op id := if_neg (by unfold belvedere; omega)

theorem State.setStage_core (hk : k < 384) (n : Nat) (cs : List Nat) :
    s.setStage k id n cs = s.modCore k (·.modOp id (.staged n cs)) := if_neg (by unfold belvedere; omega)

theorem State.opOf_modOp (hk : k < 384) (ho : (s.core k).op id = some f) (h : Flight → Flight) (hh : ∀ o, (h o).id = o.id) :
    (s.modCore k (·.modOp id h)).opOf k id = some (h f) := by
  rw [State.opOf_core hk, s.core_modCore k _ (s.core_lt_of_op k id f ho), Core.op_modOp _ _ _ hh, ho]
  rfl

/-- An engine operation whose reads lie in the package and whose writes change no more than the operation itself, by `h`:
it runs to its end (R69, R420). -/
theorem State.engineRun_once (hk : k < 384) (ho : (s.core k).op id = some f) (hs : f.stage = 0)
    (hq : s.unanswered k id = false) {ready : Flight → Bool} {reads : Flight → List (Nat × Nat)}
    {write : State → Flight → State × List Nat} {finish : State → Flight → State} (hr : ready f = true)
    (hn : ∀ r ∈ reads f, s.near r.1 r.2) {h : Flight → Flight} {cs : List Nat} (hh : ∀ o, (h o).id = o.id)
    (hw : write (s.modCore k (·.modOp id (.staged 1 []))) (f.staged 1 []) = (s.modCore k (·.modOp id h), cs)) :
    s.engineRun k id ready reads write finish =
      finish (s.modCore k (·.modOp id (.staged 2 cs ∘ h))) ((h f).staged 2 cs) := by
  have hquiet : ∀ g : Core → Core, (s.modCore k g).unanswered k id = false := fun _ => hq
  have hop1 := State.opOf_modOp hk ho (.staged 1 []) fun _ => rfl
  have hop2 := State.opOf_modOp hk ho (.staged 2 cs ∘ h) hh
  unfold State.engineRun
  simp only [State.opOf_core hk ▸ ho, hs, hr, and_self, if_true, s.askReads_near k f _ hn, State.setStage_core hk]
  simp only [hop1, Flight.staged_stage, hquiet, Bool.not_false, and_self, if_true, hw, s.modOp_modOp k id h _ hh]
  rw [hop2]
  exact if_pos ⟨rfl, trivial⟩

end Once

/-! ## Rows of a source -/

/-- A part of a row lies in a piece of the source. -/
theorem mem_sourceParts {ps : List (Nat × Nat)} {off n : Nat} {p : Nat × Nat} (h : p ∈ sourceParts ps off n) :
    ∃ q ∈ ps, q.1 ≤ p.1 ∧ p.1 + p.2 ≤ q.1 + q.2 := by
  induction ps generalizing off n with
  | nil => cases h
  | cons q ps ih =>
    have hrest : ∀ off n, p ∈ sourceParts ps off n → ∃ q' ∈ q :: ps, q'.1 ≤ p.1 ∧ p.1 + p.2 ≤ q'.1 + q'.2 := by
      intro off n hp
      obtain ⟨q', hq', hin⟩ := ih hp
      exact ⟨q', List.mem_cons_of_mem _ hq', hin⟩
    rw [sourceParts] at h
    split at h
    · cases h
    split at h
    · obtain rfl | hp := List.mem_cons.1 h
      · exact ⟨q, List.mem_cons_self, by simp only; omega, by simp only; omega⟩
      · exact hrest _ _ hp
    · exact hrest _ _ h

theorem foldl_max_eq_zero {α : Type} {f : α → Nat} {l : List α} {m : Nat} (h : l.foldl (fun m x => max m (f x)) m = 0) :
    m = 0 ∧ ∀ x ∈ l, f x = 0 := by
  induction l generalizing m with
  | nil => exact ⟨h, nofun⟩
  | cons x xs ih =>
    obtain ⟨hm, hxs⟩ := ih h
    obtain ⟨h0, hx⟩ := Nat.max_eq_zero_iff.1 hm
    exact ⟨h0, List.forall_mem_cons.2 ⟨hx, hxs⟩⟩

/-- A row that can be read meets no bad ECC word in this package. -/
theorem State.bad_of_source {s : State} {f : Flight} {e : ResEntry} {ps : List (Nat × Nat)} {row : Nat} {p : Nat × Nat}
    (h : s.sourceBad f e ps row = false) (hp : p ∈ e.rowParts ps row) (hn : s.near p.1 p.2) :
    ∀ w ∈ s.bad, overlap p.1 p.2 w 32 = false := by
  intro w hw
  by_cases hempty : p.2 = 0
  · simp only [overlap, hempty, decide_eq_false_iff_not]
    omega
  have hcode : s.sourceCode f e ps row = 0 := by simpa [State.sourceBad] using h
  have hpart := (foldl_max_eq_zero hcode).2 p hp
  have hhere : s.beyond (.phys p.1) = none := hn 0 (by omega)
  rw [State.engineCode, hhere] at hpart
  exact s.overlap_of_badAt _ _ (State.sound_of_homeCode hpart).good w hw

/-- The reads of rows that meet no error leave no record of one (R441). -/
theorem State.record_clear {s : State} {parts : List (Nat × Nat)} (hb : ∀ p ∈ parts, ∀ w ∈ s.bad, overlap p.1 p.2 w 32 = false)
    (hw : ∀ p ∈ parts, ∀ w ∈ s.weak, overlap p.1 p.2 w 16 = false) (kind : Nat) :
    (s.recordErrors kind (parts.map fun p => (.phys p.1, p.2))).recordWeak (parts.map fun p => (.phys p.1, p.2)) = s := by
  rw [State.recordErrors_of_clear, State.recordWeak_of_clear]
  · intro x hx pa hpa
    obtain ⟨p, hp, rfl⟩ := List.mem_map.1 hx
    cases hpa
    exact hw p hp
  · intro x hx pa hpa
    obtain ⟨p, hp, rfl⟩ := List.mem_map.1 hx
    cases hpa
    exact hb p hp

end Sys2Proof.Machine
end

section
/-! SUPPORT. Operations on a residency that end (O42): passes, joins and loads on which nothing else waits (R82, R102). -/

namespace Sys2Proof.Machine

/-! ## The instant behind an end -/

/-- At an instant nothing happens on a residency that is not being freed and has no pending migration (R82, R102). -/
theorem State.instant_still {t : State} {k ent : Nat} (hf : ((t.core k).entry ent).freeing = false)
    (hm : (t.core k).migrations ent = []) : t.instant k ent = t := by
  unfold State.instant
  simp only [hf, hm, Bool.false_eq_true, if_false, List.foldl_nil, ite_self]

/-- The migrations that an operation's end leaves. -/
theorem Core.migrations_dropOp (c : Core) (i ent : Nat) (h : ∀ m ∈ c.migrations ent, m.id = i) :
    (c.dropOp i).migrations ent = [] := by
  rw [Core.migrations, Core.dropOp, List.filter_eq_nil_iff]
  intro m hm hkind
  obtain ⟨hmem, hid⟩ := List.mem_filter.1 hm
  exact absurd (h m (List.mem_filter.2 ⟨hmem, hkind⟩)) (by simpa using hid)

/-- An operation ends on whose residency nothing else is due. -/
theorem State.finishOp_instant {s : State} {k ent : Nat} {f : Flight} {g : Group} (h : (s.core k).RunsGroup f.slot g)
    (ht : g.team = f.team) (hs : s.still k ent f) : (s.finishOp k f).instant k ent = s.finishOp k f := by
  obtain ⟨hfree, hmig⟩ := hs
  have hcore := State.finishOp_runs h ht
  refine State.instant_still ?_ ?_
  · rw [hcore, s.core_modCore k _ h.lt]
    exact hfree
  · rw [hcore, s.core_modCore k _ h.lt]
    exact (s.core k).migrations_dropOp f.id ent hmig

/-! ## Tiles -/

theorem Core.modTile_modTile (c : Core) (t : Nat) (f h : Tile → Tile) : (c.modTile t f).modTile t h = c.modTile t (h ∘ f) :=
  congrArg (fun ts => { c with tiles := ts }) (modify_modify_same c.tiles t f h)

/-- An operation on the matrix unit ends with its results in their tile. -/
theorem Owned.tile_ends {s : State} {k ent : Nat} {f : Flight} {g : Group} (ow : Owned s k f g) (hs : s.still k ent f)
    (tile : Nat) (a : Tile → Tile) :
    Gone (s.modCore k (·.modTile tile a)) (((s.modCore k (·.modTile tile a)).finishOp k f).instant k ent) k f g g.rf := by
  have hcore := s.core_modCore k (·.modTile tile a) ow.runs.lt
  have hruns : ((s.modCore k (·.modTile tile a)).core k).RunsGroup f.slot g := by
    rw [hcore]
    exact ⟨ow.here, ow.running, ow.home⟩
  have hstill : (s.modCore k (·.modTile tile a)).still k ent f := by
    rw [State.still, hcore]
    exact hs
  rw [State.finishOp_instant hruns ow.team hstill]
  exact State.finishOp_gone_plain hruns ow.team ow.patient

theorem matrixPassDone_ends {s : State} {k id ent tile kb : Nat} {f : Flight} {g : Group}
    {bs : List (Nat × List Word)} {z : Bool} {cols : List (Nat × Nat)} (ho : (s.core k).op id = some f) (ow : Owned s k f g)
    (hk : f.kind = .pass ent tile kb bs z false cols) (hs : s.still k ent f) (ht : (s.core k).tileTurn f = true) :
    let e := (s.core k).entry ent
    let p := s.modCore k (·.modTile tile fun a =>
      (if z then a.zeroRows (blockMask bs) else a).addProducts e kb bs cols e.weightRow)
    ∃ t, exec (.matrixPassDone k id) s = .next t ∧ Gone p t k f g g.rf := by
  intro e p
  refine ⟨_, ?_, ow.tile_ends hs tile fun a =>
    (if z then a.zeroRows (blockMask bs) else a).addProducts e kb bs cols e.weightRow⟩
  have hpass : s.modCore k (·.runPass ent tile kb bs z false cols) = p := by
    refine s.modCore_congr k _ _ ?_
    cases z with
    | true =>
      simp only [Core.runPass, Bool.true_and, Bool.false_eq_true, if_true, if_false, Core.modTile_modTile, e]
      rfl
    | false => simp only [Core.runPass, Bool.false_and, Bool.false_eq_true, if_false, e]
  change execMatrixPassDone k id s = _
  unfold execMatrixPassDone
  simp only [ho, hk, ht, Bool.not_true, Bool.false_eq_true, if_false, hpass, p]

theorem grottoResult_ends {s : State} {k id ent tile kb st : Nat} {f : Flight} {g : Group} {bs : List (Nat × List Word)}
    {cold src : List (Nat × Nat)} {rows : List (Nat × List Byte)} (ho : (s.core k).op id = some f) (ow : Owned s k f g)
    (hk : f.kind = .grotto ent tile kb st bs cold src (some rows)) (hs : s.still k ent f)
    (hr : rows.map (·.1) = cold.map (·.2)) (hearly : ∀ o ∈ (s.core k).flight, o.id < f.id → o.tiles = [])
    (hown : ∀ o ∈ (s.core k).flight, o.word = f.word → o.mask = f.mask → o.tiles ≠ [] → o.kind = f.kind) :
    let e := (s.core k).entry ent
    let p := s.modCore k (·.modTile tile (·.addProducts e kb bs cold fun r => ((rows.find? (·.1 == r)).map (·.2)).getD []))
    ∃ t, exec (.grottoResult k id) s = .next t ∧ Gone p t k f g g.rf := by
  intro e p
  have gone := ow.tile_ends hs tile (·.addProducts e kb bs cold fun r => ((rows.find? (·.1 == r)).map (·.2)).getD [])
  refine ⟨_, ?_, gone⟩
  have hcold : cold.filter (fun x => rows.any (·.1 == x.2)) = cold := by
    refine List.filter_eq_self.2 fun x hx => ?_
    have hmem : x.2 ∈ rows.map (·.1) := hr ▸ List.mem_map_of_mem hx
    obtain ⟨r, hrow, e⟩ := List.mem_map.1 hmem
    exact List.any_eq_true.2 ⟨r, hrow, beq_iff_eq.2 e⟩
  have hjoin : s.modCore k (·.addJoin ent tile kb bs cold rows) = p := by
    refine s.modCore_congr k _ _ ?_
    rw [Core.addJoin, hcold]
  have hlater : ((s.core k).flight.any fun e => e.id < f.id && e.word != f.word && (e.mask &&& f.mask) != 0 &&
      e.tiles.contains tile) = false := by
    refine List.any_eq_false.2 fun o ho => ?_
    by_cases hid : o.id < f.id
    · simp [hearly o ho hid]
    · simp [hid]
  change execGrottoResult k id s = _
  unfold execGrottoResult
  simp only [ho, hk, hlater, hjoin, Bool.false_or]
  refine congrArg Host.Outcome.next (if_neg fun hpass => ?_)
  obtain ⟨o, ho, hsame⟩ := List.any_eq_true.1 hpass
  simp only [Bool.and_eq_true, beq_iff_eq] at hsame
  obtain ⟨⟨hword, hmask⟩, hkind⟩ := hsame
  split at hkind
  next hpass =>
    have htiles : o.tiles ≠ [] := by
      rw [Flight.tiles, hpass]
      dsimp only
      split <;> exact List.cons_ne_nil _ _
    have hsame := hown o ho hword hmask htiles
    rw [hpass, hk] at hsame
    cases hsame
  next => cases hkind

/-! ## Cold rows at their stack -/

theorem Flight.setRows_id (f : Flight) (rows : List (Nat × List Byte)) : (f.setRows rows).id = f.id := by
  unfold Flight.setRows
  split <;> rfl

/-- Noting an operation's progress and giving it its rows do not meet. -/
theorem Flight.setRows_staged (f : Flight) (n : Nat) (cs : List Nat) (rows : List (Nat × List Byte)) :
    (f.staged n cs).setRows rows = (f.setRows rows).staged n cs := by
  unfold Flight.setRows
  rw [show (f.staged n cs).kind = f.kind from rfl]
  split <;> rfl

/-- A stack reads cold rows in this package that meet no error (R97, R441). -/
theorem State.grottoRead_sound {s : State} {k ent : Nat} {f : Flight} {cold src : List (Nat × Nat)}
    (h : ∀ x ∈ cold, s.sourceBad f ((s.core k).entry ent) src x.2 = false ∧
      ∀ p ∈ ((s.core k).entry ent).rowParts src x.2, s.near p.1 p.2 ∧ ∀ w ∈ s.weak, overlap p.1 p.2 w 16 = false) :
    s.grottoRead k f ent cold src = s.modCore k (·.modOp f.id
      (·.setRows (cold.map fun x => (x.2, s.sourceRow k f ((s.core k).entry ent) src x.2)))) := by
  have hcode : ∀ x ∈ cold, s.sourceCode f ((s.core k).entry ent) src x.2 = 0 := fun x hx => by
    simpa [State.sourceBad] using (h x hx).1
  have hgood : cold.filter (fun x => s.sourceCode f ((s.core k).entry ent) src x.2 == 0) = cold :=
    List.filter_eq_self.2 fun x hx => beq_iff_eq.2 (hcode x hx)
  have hbad : cold.filter (fun x => s.sourceCode f ((s.core k).entry ent) src x.2 != 0) = [] :=
    List.filter_eq_nil_iff.2 fun x hx => by simp [hcode x hx]
  have hweak : ∀ t : State, t.weak = s.weak → t.recordWeak (cold.flatMap fun x =>
      (((s.core k).entry ent).rowParts src x.2).map fun p => (.phys p.1, p.2)) = t := by
    intro t ht
    refine t.recordWeak_of_clear _ fun y hy pa hpa => ?_
    obtain ⟨x, hx, hyx⟩ := List.mem_flatMap.1 hy
    obtain ⟨p, hp, rfl⟩ := List.mem_map.1 hyx
    cases hpa
    rw [ht]
    exact ((h x hx).2 p hp).2
  unfold State.grottoRead
  simp only [hgood, hbad, List.flatMap_nil, List.any_nil, Bool.false_eq_true, if_false]
  exact hweak (s.modCore k _) rfl

theorem grottoRequest_reads {s : State} {k id ent tile kb st : Nat} {f : Flight} {bs : List (Nat × List Word)}
    {cold src : List (Nat × Nat)} (ho : (s.core k).op id = some f) (hr : Runs s k f)
    (hk : f.kind = .grotto ent tile kb st bs cold src none)
    (h : ∀ x ∈ cold, s.sourceBad f ((s.core k).entry ent) src x.2 = false ∧
      ∀ p ∈ ((s.core k).entry ent).rowParts src x.2, s.near p.1 p.2 ∧ ∀ w ∈ s.weak, overlap p.1 p.2 w 16 = false) :
    exec (.grottoRequest k id) s = .next (s.modCore k (·.modOp id fun o =>
      (o.setRows (cold.map fun x => (x.2, s.sourceRow k f ((s.core k).entry ent) src x.2))).staged 2 [])) := by
  let rows := cold.map fun x => (x.2, s.sourceRow k f ((s.core k).entry ent) src x.2)
  let s1 := s.modCore k (·.modOp id (.staged 1 []))
  have hid : f.id = id := Core.op_id _ _ _ ho
  have hentry : (s1.core k).entry ent = (s.core k).entry ent :=
    congrArg (·.entry ent) (s.core_modCore k (·.modOp id (.staged 1 [])) (s.core_lt_of_op k id f ho))
  have hread : s1.grottoRead k (f.staged 1 []) ent cold src =
      s.modCore k (·.modOp id ((Flight.setRows · rows) ∘ Flight.staged 1 [])) := by
    rw [State.grottoRead_sound (by rw [hentry]; exact h), hentry, Flight.staged_id, hid]
    exact s.modOp_modOp k id (.staged 1 []) (·.setRows rows) fun _ => rfl
  have hnear : ∀ r ∈ cold.flatMap (fun x => ((s.core k).entry ent).rowParts src x.2), s.near r.1 r.2 := by
    intro r hr
    obtain ⟨x, hx, hrx⟩ := List.mem_flatMap.1 hr
    exact ((h x hx).2 r hrx).1
  have hrun := State.engineRun_once (s := s) (ready := (s.core k).engineReady)
    (reads := fun _ => cold.flatMap fun x => ((s.core k).entry ent).rowParts src x.2)
    (write := fun s f => (s.grottoRead k f ent cold src, [])) (finish := fun s _ => s) hr.core ho hr.stage (hid ▸ hr.quiet)
    hr.ready hnear (h := (Flight.setRows · rows) ∘ Flight.staged 1 []) (cs := []) (fun o => Flight.setRows_id _ _)
    (congrArg (·, []) hread)
  change execGrottoRequest k id s = _
  unfold execGrottoRequest
  simp only [ho, hk, hrun]
  refine congrArg (fun h => Host.Outcome.next (s.modCore k (·.modOp id h))) (funext fun o => ?_)
  simp only [Function.comp_apply, Flight.setRows_staged]
  rfl

/-! ## Loads -/

/-- A waiting load that is the first on its residency, and that need not wait any longer, starts (R312). -/
theorem resLoadProceed_starts {s : State} {k id ent len : Nat} {f : Flight} {gen : BitVec 10} {src : DWord}
    {ps : List (Nat × Nat)} {d : Option Nat} {ctr : DWord} {ab : Bool} {sub : Option SubRef} (ho : (s.core k).op id = some f)
    (hk : f.kind = .resLoad ent gen src len ps d ctr 2 ab sub) (hfirst : ∀ x ∈ (s.core k).loads ent, f.id ≤ x.id)
    (hst : ((s.core k).entry ent).st ≠ .loading) (hw : (s.core k).loadWaits ent = 0) :
    exec (.resLoadProceed k id) s = .next (s.modCore k fun c =>
      (c.modEntry ent (·.startLoad id src ps)).modOp id (·.setLoad 0 false)) := by
  have hnone : ((s.core k).loads ent).any (fun x => x.id < f.id) = false :=
    List.any_eq_false.2 fun x hx => by simpa using hfirst x hx
  change execResLoadProceed k id s = _
  unfold execResLoadProceed
  simp only [ho, hk, hnone, hst, hw, false_and, if_false]
  rfl

/-- What is done under a name while no push waits and no answer is awaited stands (R139, R420). -/
theorem State.withheld_calm (s u : State) (who : List Nat) (hq : u.quads = s.quads) (ha : u.issue.asked = false) :
    s.withheld who u = u.dropAsks who := by
  have hw : ¬ s.waitingPushes < u.waitingPushes := by rw [State.waitingPushes, State.waitingPushes, hq]; omega
  rw [State.withheld, if_neg hw, State.settle, ha, if_neg Bool.false_ne_true]

/-- A change of an operation leaves the others, and what they say of an operation of their word. -/
theorem Core.modOp_others (c : Core) (i : Nat) (h : Flight → Flight) (hid : ∀ o, (h o).id = o.id) :
    (c.modOp i h).flight.filter (·.id != i) = c.flight.filter (·.id != i) := by
  have hsame : ((·.id != i) ∘ fun o : Flight => if o.id = i then h o else o) = (·.id != i) := by
    funext o
    by_cases ho : o.id = i <;> simp [ho, hid]
  rw [Core.modOp, List.filter_map, hsame]
  conv => rhs; rw [← List.map_id (c.flight.filter (·.id != i))]
  exact List.map_congr_left fun o ho => if_neg (by simpa using (List.mem_filter.1 ho).2)

theorem Core.modOp_last (c : Core) (i w : Nat) (h : Flight → Flight) (hid : ∀ o, (h o).id = o.id) :
    (c.modOp i h).flight.all (fun e => e.id == i || e.word != w) = c.flight.all fun e => e.id == i || e.word != w := by
  rw [Core.modOp, List.all_map]
  congr 1
  funext o
  by_cases ho : o.id = i <;> simp [ho, hid]

/-- An operation that was changed before it ended is gone as it would have been. -/
theorem Gone.of_modOp {p t : State} {k : Nat} {f : Flight} {g : Group} {rf : RegFile} {h : Flight → Flight}
    (hk : k < p.cores.length) (hh : ∀ o, (h o).id = o.id) (hword : (h f).word = f.word) (hslot : (h f).slot = f.slot)
    (hflag : (h f).flag = f.flag) (gone : Gone (p.modCore k (·.modOp f.id h)) t k (h f) g rf) : Gone p t k f g rf := by
  have hcore := p.core_modCore k (·.modOp f.id h) hk
  obtain ⟨flight, group, others, memory, quads⟩ := gone
  rw [hh, hcore, Core.modOp_others _ _ _ hh] at flight
  rw [hslot, hflag, hh, hword, hcore, Core.modOp_last _ _ _ _ hh] at group
  rw [hslot, hcore] at others
  exact ⟨flight, group, others, memory, quads⟩

theorem Gone.dropAsks {p t : State} {k : Nat} {f : Flight} {g : Group} {rf : RegFile} (h : Gone p t k f g rf) (who : List Nat) :
    Gone p (t.dropAsks who) k f g rf := ⟨h.flight, h.group, h.others, h.memory, h.quads⟩

/-- An operation ends with its status in a register, on a residency on which nothing else is due. -/
theorem State.endOp_ends {s : State} {k ent r code : Nat} {f : Flight} {g : Group} (h : (s.core k).RunsGroup f.slot g)
    (ht : g.team = f.team) (hp : g.tryUntil = none) (hs : s.still k ent f) :
    let t := (s.endOp k f (some r) (resStatus code)).instant k ent
    Ends s t k f g r code ∧ t.issue = s.issue := by
  let rf := g.rf.setV r f.mask fun _ => resStatus code
  let q := s.modGroup k f.slot fun g => { g with rf := rf }
  have hruns := State.core_modGroup_runs h (fun g => { g with rf := rf }) rfl
  have hfill : s.fill k f.slot f.team r f.mask (fun _ => resStatus code) = q := by
    rw [← ht, State.fill_runs h]
    exact s.modGroup_congr k f.slot _ _ g h.here rfl
  have hend : s.endOp k f (some r) (resStatus code) = q.finishOp k f := by
    rw [State.endOp]
    exact congrArg (·.finishOp k f) hfill
  have hstill : q.still k ent f := by
    have hcore : q.core k = (s.core k).modGroup f.slot fun g => { g with rf := rf } := s.core_modCore k _ h.lt
    rw [State.still, hcore]
    exact hs
  intro t
  have heq : t = q.finishOp k f := (congrArg (·.instant k ent) hend).trans (State.finishOp_instant hruns ht hstill)
  rw [heq]
  refine ⟨State.finishOp_gone h ht hp rf, ?_⟩
  rw [State.finishOp_runs hruns ht]
  rfl

/-- A load of which nothing goes wrong brings rows that can be read (R86). -/
theorem State.source_of_loadCode {s : State} {f : Flight} {e : ResEntry} {ps : List (Nat × Nat)} (h : s.loadCode f e ps = 0) :
    ∀ r ∈ e.loadRows, s.sourceBad f e ps r = false := by
  unfold State.loadCode at h
  split at h
  · cases h
  split at h
  · cases h
  split at h
  · cases h
  next hbad => exact fun r hr => Bool.eq_false_iff.2 fun hrow => hbad (List.any_eq_true.2 ⟨r, hr, hrow⟩)

/-- The rows of a load that lie in this package and meet no error leave no record of one (R441). -/
theorem State.readRows_clear {s : State} {f : Flight} {e : ResEntry} {ps : List (Nat × Nat)} {rows : List Nat}
    (h : ∀ r ∈ rows, s.sourceBad f e ps r = false)
    (hps : ∀ p ∈ ps, s.near p.1 p.2 ∧ ∀ w ∈ s.weak, overlap p.1 p.2 w 16 = false) : s.readRows e ps rows = s := by
  have hparts : (rows.flatMap fun r => (e.rowParts ps r).map fun p => (Loc.phys p.1, p.2)) =
      (rows.flatMap fun r => e.rowParts ps r).map fun p => (Loc.phys p.1, p.2) := List.map_flatMap.symm
  unfold State.readRows
  simp only [hparts]
  refine State.record_clear (fun p hp => ?_) (fun p hp w hw => ?_) 2
  · obtain ⟨r, hr, hpr⟩ := List.mem_flatMap.1 hp
    obtain ⟨q, hq, hlo, hhi⟩ := mem_sourceParts hpr
    exact State.bad_of_source (h r hr) hpr ((hps q hq).1.part hlo hhi)
  · obtain ⟨r, hr, hpr⟩ := List.mem_flatMap.1 hp
    obtain ⟨q, hq, hlo, hhi⟩ := mem_sourceParts hpr
    have := (hps q hq).2 w hw
    simp only [overlap, decide_eq_false_iff_not] at this ⊢
    omega

theorem Core.freeing_modEntry (c : Core) (i : Nat) (f : ResEntry → ResEntry) (hf : ∀ e, (f e).freeing = e.freeing) :
    ((c.modEntry i f).entry i).freeing = (c.entry i).freeing := by
  by_cases hi : i < c.res.length
  · rw [c.entry_modEntry i f hi, hf]
  · have hsame : c.modEntry i f = c :=
      congrArg (fun r => { c with res := r }) (List.modify_eq_self (Nat.not_lt.1 hi))
    rw [hsame]

/-- Noting an operation's progress leaves the migrations that are pending. -/
theorem Core.migrations_modOp (c : Core) (i ent : Nat) (h : Flight → Flight)
    (hh : ∀ o, (h o).id = o.id ∧ (h o).kind = o.kind) :
    ((c.modOp i h).migrations ent).map (·.id) = (c.migrations ent).map (·.id) := by
  refine (congrArg (List.map _) List.filter_map).trans (List.map_map.trans ?_)
  refine congrArg₂ List.map (funext fun o => ?_) (List.filter_congr fun o _ => ?_)
  all_goals by_cases ho : o.id = i <;> simp [ho, hh]

/-- The end of a load that has brought its rows (R79, R86). -/
theorem State.endLoad_ends {s : State} {k ent r len : Nat} {f : Flight} {g : Group} {gen : BitVec 10} {src : DWord}
    {ps : List (Nat × Nat)} {w : Nat} {ab : Bool} (h : (s.core k).RunsGroup f.slot g) (ht : g.team = f.team)
    (hp : g.tryUntil = none) (hk : f.kind = .resLoad ent gen src len ps (some r) 0 w ab none) (hs : s.still k ent f) :
    let t := (s.endLoad k f 0).instant k ent
    Ends s t k f g r 0 ∧ t.issue = s.issue := by
  have hend : s.endLoad k f 0 = s.endOp k f (some r) (resStatus 0) := by
    unfold State.endLoad
    simp only [hk]
    exact if_pos rfl
  rw [hend]
  exact State.endOp_ends h ht hp hs

theorem resLoadComplete_ends {s : State} {k id ent r len : Nat} {f : Flight} {g : Group} {gen : BitVec 10} {src : DWord}
    {ps : List (Nat × Nat)} (ho : (s.core k).op id = some f) (ow : Owned s k f g) (hr : Runs s k f)
    (hk : f.kind = .resLoad ent gen src len ps (some r) 0 0 false none)
    (hfirst : ∀ x ∈ (s.core k).loads ent, f.id ≤ x.id) (hs : s.still k ent f)
    (hps : ∀ p ∈ ps, s.near p.1 p.2 ∧ ∀ w ∈ s.weak, overlap p.1 p.2 w 16 = false)
    (hc : s.loadCode f ((s.core k).entry ent) ps = 0) :
    let p := s.modCore k (·.modEntry ent (s.loaded k f · ps 0))
    ∃ t, exec (.resLoadComplete k id) s = .next t ∧ Ends p t k f g r 0 := by
  intro p
  obtain rfl : f.id = id := Core.op_id _ _ _ ho
  let h := Flight.staged 2 [] ∘ Flight.staged 1 []
  let s1 := s.modCore k (·.modOp f.id (.staged 1 []))
  let s2 := s.modCore k (·.modOp f.id h)
  let q := s2.modCore k (·.modEntry ent (s2.loaded k (h f) · ps 0))
  have hlt := ow.runs.lt
  have hgo : f.abandoned = false := by rw [Flight.abandoned, hk]
  have hfirst' : ((s.core k).loads ent).any (fun x => x.id < f.id) = false :=
    List.any_eq_false.2 fun x hx => by simpa using hfirst x hx
  have hentry : ∀ g : Flight → Flight, ((s.modCore k (·.modOp f.id g)).core k).entry ent = (s.core k).entry ent := fun g =>
    congrArg (·.entry ent) (s.core_modCore k (·.modOp f.id g) hlt)
  have hread : (if (f.staged 1 []).abandoned then s1
      else s1.readRows ((s1.core k).entry ent) ps ((s1.core k).entry ent).loadRows) = s1 := by
    rw [show (f.staged 1 []).abandoned = false from hgo, if_neg Bool.false_ne_true, hentry]
    exact State.readRows_clear (f := f) (fun r hr => State.source_of_loadCode hc r hr) hps
  have hcode : s2.loadCode (h f) ((s2.core k).entry ent) ps = 0 := by
    rw [hentry]
    exact hc
  have hq : q = p.modCore k (·.modOp f.id h) :=
    (s.modCore_modCore k (·.modOp f.id h) _).trans
      (s.modCore_modCore k (·.modEntry ent (s.loaded k f · ps 0)) (·.modOp f.id h)).symm
  have hqcore : q.core k = ((s.core k).modEntry ent (s.loaded k f · ps 0)).modOp f.id h := by
    rw [hq, p.core_modCore k _ (by simpa [p, State.modCore] using hlt), s.core_modCore k _ hlt]
  have hruns : (q.core k).RunsGroup (h f).slot g := by
    rw [hqcore]
    exact ⟨ow.here, ow.running, ow.home⟩
  have hstill : q.still k ent (h f) := by
    obtain ⟨hfree, hmig⟩ := hs
    rw [State.still, hqcore]
    refine ⟨((s.core k).freeing_modEntry ent _ fun e => ?_).trans hfree, fun m hm => ?_⟩
    · rw [State.loaded, if_pos rfl]
    · have hids := Core.migrations_modOp ((s.core k).modEntry ent (s.loaded k f · ps 0)) f.id ent h fun _ => ⟨rfl, rfl⟩
      obtain ⟨o, ho, hid⟩ := List.mem_map.1 (hids ▸ List.mem_map_of_mem hm)
      exact hid.symm.trans (hmig o ho)
  obtain ⟨ends, hissue⟩ := State.endLoad_ends hruns ow.team ow.patient (show (h f).kind = _ from hk) hstill
  have hwithheld := s2.withheld_calm ((q.endLoad k (h f) 0).instant k ent) [1, k, f.id] ends.quads
    ((congrArg Issue.asked hissue).trans hr.calm)
  have gone : Ends p ((q.endLoad k (h f) 0).instant k ent) k f g r 0 :=
    Gone.of_modOp (h := h) (by simpa [p, State.modCore] using hlt) (fun _ => rfl) rfl rfl rfl (by rw [← hq]; exact ends)
  refine ⟨_, ?_, gone.dropAsks [1, k, f.id]⟩
  have hdone : s.resLoadDone k f = ((q.endLoad k (h f) 0).instant k ent).dropAsks [1, k, f.id] := by
    rw [← hwithheld]
    unfold State.resLoadDone
    simp only [hk]
    refine (State.engineRun_once (h := Flight.staged 1 []) (cs := []) hr.core ho hr.stage hr.quiet ?ready ?near (fun _ => rfl)
      ?write).trans ?finish
    case ready => rw [hr.ready, hr.free, hfirst']; rfl
    case near =>
      rw [hgo, if_neg Bool.false_ne_true]
      exact fun p hp => (hps p hp).1
    case write => exact congrArg (·, []) hread
    case finish =>
      let code := s2.loadCode (h f) ((s2.core k).entry ent) ps
      change s2.withheld [1, k, f.id]
        (((s2.modCore k (·.modEntry ent (s2.loaded k (h f) · ps code))).endLoad k (h f) code).instant k ent) = _
      rw [show code = 0 from hcode]
  change execResLoadComplete k f.id s = _
  unfold execResLoadComplete
  simp only [ho, hk, hdone]
  rfl

/-- Settles O42: a product's end changes its tile and an engine operation runs at one step; behind it nothing else is due on the
residency. -/
theorem matrixEvents : Obligations.MatrixEvents := by
  unfold Obligations.MatrixEvents
  intro s k id ent f g ho ow e
  refine ⟨fun tile kb bs z cols hk hs ht => ?pass, fun tile kb st bs cold src hk hr hrows => ?request,
    fun tile kb st bs cold src rows hk hs hr hearly hown => ?result,
    fun gen src len ps d ctr w ab sub hk hfirst => ⟨fun hw hst hwait => ?proceed,
      fun r hw hab hsub hctr hd hlt hs hr hps hc => ?complete⟩⟩
  case pass =>
    obtain ⟨t, hexec, gone⟩ := matrixPassDone_ends ho ow hk hs ht
    exact ⟨_, t, hexec, gone, rfl⟩
  case request => exact grottoRequest_reads ho hr hk hrows
  case result =>
    obtain ⟨t, hexec, gone⟩ := grottoResult_ends ho ow hk hs hr hearly hown
    exact ⟨_, t, hexec, gone, rfl⟩
  case proceed =>
    subst hw
    exact resLoadProceed_starts ho hk hfirst hst hwait
  case complete =>
    subst hw hab hsub hctr hd
    obtain ⟨t, hexec, ends⟩ := resLoadComplete_ends ho ow hr hk hfirst hs hps hc
    exact ⟨_, t, hexec, ends, rfl⟩

end Sys2Proof.Machine
end

section
/-! SUPPORT. Writes of pairs, changes of lanes, and a load whose accesses all pass (R37, R203, R263). -/

namespace Sys2Proof.Machine

/-! ## Pairs -/

theorem setWidth_eq_wordOf_zero (w : DWord) : w.setWidth 32 = wordOf w.toNat 0 := by
  apply BitVec.eq_of_toNat_eq
  simp [wordOf]

theorem ushiftRight_setWidth_eq_wordOf_one (w : DWord) : (w >>> 32).setWidth 32 = wordOf w.toNat 1 := by
  apply BitVec.eq_of_toNat_eq
  simp [wordOf, Nat.shiftRight_eq_div_pow]

/-- A write of one vector pair (R37, R203). -/
theorem State.putV2_vectors (s : State) (u : Bool) (d : Nat) (f : Nat → DWord) (hi : s.issuing = true)
    (hd : s.v2Ok d = true) :
    Vectors s (s.putV2 u d f) d 2 s.issue.exec (fun i l => wordOf (f (s.from u l)).toNat i) 0 := by
  have hlen : d + 1 < s.issue.src.v.length := by
    simp only [State.v2Ok, Bool.and_eq_true, decide_eq_true_eq] at hd
    exact hd.2
  have low := s.putV_vectors u d (fun l => (f l).setWidth 32) hi (decide_eq_true (Nat.lt_of_succ_lt hlen))
  have high : Vectors _ (s.putV2 u d f) (d + 1) 1 _ _ 0 :=
    State.putV_vectors _ u (d + 1) (fun l => (f l >>> 32).setWidth 32) (s.putV_issuing u d _ hi) (decide_eq_true hlen)
  refine ⟨fun i l h1 h2 => ?_, fun r l hr => ?_, high.sizes.trans low.sizes, ?_,
    fun a => (high.memory a).trans (low.memory a)⟩
  · match i, h1 with
    | 0, _ =>
      rw [high.others (d + 0) l (.inl (Nat.lt_succ_self d)), low.written 0 l Nat.one_pos h2]
      simp only [setWidth_eq_wordOf_zero]
    | 1, _ =>
      have h := high.written 0 l Nat.one_pos h2
      rw [Nat.add_zero, low.others (d + 1) l (.inr (Nat.le_refl _))] at h
      simp only [ushiftRight_setWidth_eq_wordOf_one] at h
      exact h
  · rw [high.others r l (by omega), low.others r l (by omega)]
  · have e := high.frame
    rw [State.flagged_zero] at e ⊢
    refine e.trans ?_
    conv => lhs; lhs; rw [low.frame, State.flagged_zero]
    rw [State.onGrp_onGrp]
    rfl

/-! ## Lanes -/

theorem Group.lane_mapLanes (g : Group) (m : Word) (f : Nat → LaneState → LaneState) (l : Nat) (h : l < g.lanes.length) :
    (g.mapLanes m f).lane l = if m.getLsbD l then f l (g.lane l) else g.lane l := by
  by_cases b : m.getLsbD l <;> simp [Group.lane, Group.mapLanes, List.getD_eq_getElem?_getD, h, b]

/-- The lanes of a mask change, and nothing else (R31). -/
theorem State.mapLanes_onlyGroup (s : State) (m : Word) (f : Nat → LaneState → LaneState)
    (hg : (s.core s.issue.core).group s.issue.slot = some s.grp) (hlen : s.grp.lanes.length = 32) :
    let t := s.onGrp (·.mapLanes m f)
    OnlyGroup s t (fun g => { g with lanes := t.grp.lanes }) ∧
      ∀ l, l < 32 → t.grp.lane l = if m.getLsbD l then f l (s.grp.lane l) else s.grp.lane l := by
  have ht : (s.onGrp (·.mapLanes m f)).grp = s.grp.mapLanes m f := State.grp_onGrp s _ _ hg
  refine ⟨⟨State.onGrp_congr s _ _ _ hg ?_, fun _ => rfl⟩, fun l hl => ?_⟩
  · rw [ht]; rfl
  · rw [ht]
    exact Group.lane_mapLanes _ _ _ _ (by omega)

/-- The group being issued stands in its slot, with 32 lanes. -/
theorem State.issuing_grp (s : State) (hi : s.issuing = true) :
    (s.core s.issue.core).group s.issue.slot = some s.grp ∧ s.grp.lanes.length = 32 := by
  obtain ⟨g, hg, sh, -⟩ := State.issuing_elim s hi
  obtain rfl := State.grp_eq s g hg
  exact ⟨hg, (Group.shaped_iff _ |>.1 sh).2.2.2.1⟩

/-- The group being issued still stands in its slot behind a dispatch, which leaves its lanes as they are. -/
theorem Dispatched.issuing_grp {s t : State} {fs : List Flight} (h : Dispatched s t fs) (hi : s.issuing = true) :
    (t.core t.issue.core).group t.issue.slot = some t.grp ∧ t.grp.lanes = s.grp.lanes := by
  obtain ⟨hg, -⟩ := s.issuing_grp hi
  have hslot : t.issue = s.issue := by rw [h.core]; rfl
  have hcur := congrArg (fun c : Core => c.group s.issue.slot) (h.cur_eq (State.core_lt_of_group s _ _ _ hg))
  refine ⟨?_, by rw [h.group]⟩
  have hold : s.cur.group s.issue.slot = some s.grp := hg
  have hnew : t.cur.group s.issue.slot = (s.cur.modGroup s.issue.slot fun _ => t.grp).group s.issue.slot := hcur
  rw [Core.group_modGroup, hold] at hnew
  change t.cur.group t.issue.slot = _
  rw [hslot]
  exact hnew

/-- One change of the group being issued alone. -/
theorem State.onGrp_onlyGroup (s : State) (f : Group → Group) : OnlyGroup s (s.onGrp f) f := ⟨rfl, fun _ => rfl⟩

/-- No lane has failed: nobody faults (R152). -/
@[simp] theorem State.raiseLanes_nil (s : State) (u whole : Bool) (comps : List Nat) : s.raiseLanes u whole [] comps = s :=
  rfl

/-! ## Loads -/

/-- Accesses that all pass, and that no comparator matches, go on together (R154, R263). -/
theorem State.access_of_allPass (s : State) (u store : Bool) (n : Nat → Nat) (tries : List Try)
    (watch : LaneAccess → List Nat) (go : List LaneAccess → Bool → State → State)
    (h : s.allPass store n tries = true) (hw : ∀ t ∈ tries, watch t.access = []) :
    s.access u tries watch go = go (tries.map (·.access)) (tries.any (·.sc)) s := by
  simp only [State.allPass, Bool.and_eq_true, bne_iff_ne, ne_eq, List.all_eq_true] at h
  obtain ⟨hne, hall⟩ := h
  have hpass : tries.filter (·.fault.isNone) = tries := List.filter_eq_self.2 fun t ht => (hall t ht).1.1
  have hmal : tries.filter (·.malformed) = [] := List.filter_eq_nil_iff.2 fun t ht => by simpa using (hall t ht).1.2
  have hfault : tries.filterMap (·.fault) = [] :=
    List.filterMap_eq_nil_iff.2 fun t ht => Option.isNone_iff_eq_none.1 (hall t ht).1.1
  have hhit : tries.filter (fun t => watch t.access != []) = [] :=
    List.filter_eq_nil_iff.2 fun t ht => by simp [hw t ht]
  have hclean : tries.filter (fun t => watch t.access == []) = tries :=
    List.filter_eq_self.2 fun t ht => by simp [hw t ht]
  unfold State.access
  simp only [hpass, hmal, hfault, hhit, hclean, List.length_nil, List.map_nil, List.append_nil, List.flatMap_nil,
    State.noteMalformed_zero, State.raiseLanes_nil, hne, ne_eq, not_true_eq_false, and_false, or_self, if_false]

/-- Accesses of which no comparator tests the data are not read at issue (R170). -/
theorem State.sampled_of_allPass (s : State) (store : Bool) (n : Nat) (tries : List Try)
    (h : s.allPass store (fun _ => n) tries = true) : s.sampled store (fun _ => n) (passed tries) = (s, []) := by
  simp only [State.allPass, Bool.and_eq_true, List.all_eq_true] at h
  refine List.foldlRecOn (motive := (· = (s, []))) _ _ rfl fun r hr x hx => ?_
  subst hr
  obtain ⟨t, ht, rfl⟩ := List.mem_map.1 hx
  have hv := (s.unseen_spec store t.access n (h.2 t (List.mem_filter.1 ht).1).2 [] []).1
  cases hl : t.access.loc with
  | spad o => rfl
  | phys pa => simp only [hv, Bool.not_false, if_true]

@[simp] theorem Core.gotAt_nil (c : Core) (first : Nat) : c.gotAt first [] = c := by simp [Core.gotAt]

theorem State.onCore_id (s : State) (f : Core → Core) (h : ∀ c, f c = c) : s.onCore f = s := by
  obtain rfl : f = id := funext h
  simp [State.onCore, State.modCore, List.modify_id]

/-- A load that may issue is dispatched (R60, R206, R263, R266). -/
theorem State.load_of_ready (s : State) (u acq : Bool) (n : Nat) (fs : Option Bool) (dest : LoadDest) (tries : List Try)
    (h : s.loadReady fs n tries = true) :
    s.load u n acq fs dest tries = s.dispatchAll fs acq (tries.any (·.sc))
      (s.loadParts u (tries.any (·.sc)) dest (tries.map (·.access))) := by
  simp only [State.loadReady, Bool.and_eq_true, Option.isNone_iff_eq_none, Bool.not_eq_true'] at h
  obtain ⟨⟨hwait, hmeets⟩, hpass⟩ := h
  have hsample := s.sampled_of_allPass false n tries hpass
  have hall := hpass
  simp only [State.allPass, Bool.and_eq_true, List.all_eq_true] at hall
  have hwatch : ∀ t ∈ tries, s.watchers false t.access n (s.sample [] t.access n) [] = [] := fun t ht =>
    (s.unseen_spec false t.access n (hall.2 t ht).2 _ _).2
  unfold State.load
  simp only [hwait, hmeets, Option.orElse, Bool.false_eq_true, if_false, State.after, hsample]
  rw [State.access_of_allPass s u false (fun _ => n) tries _ _ hpass hwatch]
  exact State.onCore_id _ _ fun c => Core.gotAt_nil c _

end Sys2Proof.Machine
end

section
/-! PROOF. Special registers (O9). -/

namespace Sys2Proof.Machine

/-! ## `rdsr` -/

/-- `rdsr` into a scalar, no search descriptor being read (R113, R232). -/
theorem rdsr_scalar_eq (s : State) (c u : Bool) (d : BitVec 7) (m : BitVec 8) (hm : m.toNat < 0x1C)
    (hp : srTerm m.toNat = true → s.searchPending = false) (hd : d.toNat < 64) :
    exec (.rdsr c u d 1 m) s = .next (s.putS d.toNat (s.special m.toNat (lowest s.issue.exec))) := by
  have hgo : ¬(srTerm m.toNat = true ∧ s.searchPending = true) := fun h => by simp [hp h.1] at h
  change execRdsr c u d 1 m s = _
  simp [execRdsr, srKnown, hm, hd, hgo, State.checked]

/-- `rdsr` into vector registers, no search descriptor being read (R113, R232). -/
theorem rdsr_vector_eq (s : State) (c u : Bool) (d : BitVec 7) (m : BitVec 8) (hm : m.toNat < 0x1C)
    (hp : srTerm m.toNat = true → s.searchPending = false)
    (hd : (if srWide m.toNat then s.v2Ok d.toNat else s.vOk d.toNat) = true) :
    exec (.rdsr c u d 0 m) s = .next (if srWide m.toNat then s.putV2 u d.toNat fun l => s.special m.toNat l
      else s.putV u d.toNat fun l => (s.special m.toNat l).setWidth 32) := by
  have hgo : ¬(srTerm m.toNat = true ∧ s.searchPending = true) := fun h => by simp [hp h.1] at h
  change execRdsr c u d 0 m s = _
  simp [execRdsr, srKnown, hm, hd, hgo, State.checked]

/-! ## `wrsr` -/

/-- `wrsr` of a register that may be written, no search descriptor being read (R113, R232). -/
theorem wrsr_eq (s : State) (c u : Bool) (k a : BitVec 7) (m : BitVec 8) (hm : 0x12 ≤ m.toNat ∧ m.toNat ≤ 0x19)
    (hp : s.searchPending = false)
    (hok : k = 0 ∧ (if srWide m.toNat then s.v2Ok a.toNat else s.vOk a.toNat) ∨ k = 1 ∧ a.toNat < 64) :
    exec (.wrsr c u k a m) s = .next (s.writeSpecial u k.toNat a.toNat m.toNat) := by
  change execWrsr c u k a m s = _
  have hk : srKnown m.toNat = true := by simpa [srKnown] using (by omega : m.toNat < 0x1C)
  have hw : srWritable m.toNat = true := by simpa [srWritable] using hm
  rcases hok with ⟨rfl, h⟩ | ⟨rfl, h⟩ <;> simp [execWrsr, hk, hw, hp, h, State.checked]

/-- A per-lane register that every executing lane may take its value in (R109, R113, R233). -/
theorem State.writeSpecial_lanes (s : State) (u : Bool) (k a m : Nat) (hm : m < 0x17) (he : s.issue.exec ≠ 0)
    (hf : ∀ l, s.issue.exec.getLsbD l → srFault m (s.issue.lane l) (s.srSource u k a m l) = none) :
    s.writeSpecial u k a m = s.onGrp (·.mapLanes s.issue.exec fun l t => t.setSpecial m (s.srSource u k a m l)) := by
  have hfaults : (lanesOf s.issue.exec).filterMap (fun l =>
      (srFault m (s.issue.lane l) (s.srSource u k a m l)).map fun c => (l, c, s.srSource u k a m l)) = [] :=
    List.filterMap_eq_nil_iff.2 fun l hl => by rw [hf l ((mem_lanesOf _ _).1 hl)]; rfl
  have hmask : s.issue.exec &&& ~~~(maskOf fun _ => false) = s.issue.exec := by
    apply BitVec.eq_of_getLsbD_eq
    intro l hl
    simp [hl]
  unfold State.writeSpecial
  simp only [if_neg he]
  split
  · omega
  · omega
  · omega
  · simp only [hfaults, State.raiseLanes_nil, ne_eq, not_true_eq_false, and_false, if_false, List.any_nil, hmask]

/-- `%fpm` takes a value whose reserved bits are zero (R236). -/
theorem State.writeSpecial_fpm (s : State) (u : Bool) (k a : Nat) (he : s.issue.exec ≠ 0)
    (hhigh : (s.srSource u k a 0x19 (lowest s.issue.exec)).toNat / 2 ^ 9 % 2 ^ 23 = 0)
    (hlow : (s.srSource u k a 0x19 (lowest s.issue.exec)).toNat / 4 % 4 = 0) :
    s.writeSpecial u k a 0x19 = s.onGrp fun g => { g with rf := { g.rf with
      fpm := (s.srSource u k a 0x19 (lowest s.issue.exec)).setWidth 32 } } := by
  have hlegal : ¬(bits (s.srSource u k a 0x19 (lowest s.issue.exec)).toNat 31 9 ≠ 0 ∨
      bits (s.srSource u k a 0x19 (lowest s.issue.exec)).toNat 3 2 ≠ 0) := by
    rintro (h | h)
    · exact h hhigh
    · exact h hlow
  exact (if_neg he).trans (if_neg hlegal)

/-- A load of descriptors for some lane is at least one operation (R71, R113). -/
theorem State.loadParts_descriptor_ne_nil (s : State) (u sc : Bool) (ls : List LaneAccess) (h : ls ≠ []) :
    s.loadParts u sc .descriptor ls ≠ [] := by
  obtain ⟨x, xs, rfl⟩ := List.exists_cons_of_ne_nil h
  cases sc <;> simp [State.loadParts]

/-- `wrsr` of `%sd` reads the descriptors that the lanes name, and clears the register in the others (R113, R235). -/
theorem State.writeSpecial_descriptors (s : State) (u : Bool) (k a : Nat) (he : s.issue.exec ≠ 0) :
    s.writeSpecial u k a 0x18 = s.setSearchDescriptors u (s.srSource u k a 0x18) := if_neg he

/-- The lanes that write 0 to `%sd` only clear it (R113). -/
theorem State.clear_descriptors (s p : State) (val : Nat → DWord) (hi : s.issuing = true)
    (hg : (p.core p.issue.core).group p.issue.slot = some p.grp) (hl : p.grp.lanes = s.grp.lanes) :
    let t := p.onGrp (·.mapLanes (s.issue.exec &&& maskOf fun l => val l == 0) fun _ t => { t with sd := 0 })
    OnlyGroup p t (fun g => { g with lanes := t.grp.lanes }) ∧ ∀ l, l < 32 →
      t.grp.lane l = if s.issue.exec.getLsbD l ∧ val l = 0 then { s.grp.lane l with sd := 0 } else s.grp.lane l := by
  obtain ⟨honly, hlane⟩ := p.mapLanes_onlyGroup (s.issue.exec &&& maskOf fun l => val l == 0)
    (fun _ t => { t with sd := 0 }) hg (hl ▸ (s.issuing_grp hi).2)
  refine ⟨honly, fun l h => ?_⟩
  have hsame : p.grp.lane l = s.grp.lane l := by rw [Group.lane, hl]; rfl
  rw [hlane l h, hsame, BitVec.getLsbD_and, maskOf_getLsbD]
  simp [h]

/-- Settles O9: a read of a register is one write of registers; a write is one change of the group, and `%sd` is loaded by one
load for the lanes that name a descriptor. -/
theorem specialRegisters : Obligations.SpecialRegisters := by
  unfold Obligations.SpecialRegisters
  refine ⟨fun s c u d m hi hm hp => ⟨fun hd => ?scalar, fun hw hd => ?wide, fun hw hd => ?narrow⟩,
    fun s c u k a m hi he hp hok => ⟨fun hm hf => ?lanes, fun hm => ?fx, fun hm hhigh hlow => ?fpm⟩,
    fun s c u k a hi he hp hok => ⟨fun hnone => ?clear, fun hready => ?load⟩⟩
  case scalar =>
    rw [rdsr_scalar_eq s c u d m hm hp hd]
    exact s.putS_writesS _ _ hi hd
  case wide =>
    rw [rdsr_vector_eq s c u d m hm hp (by rw [if_pos hw]; exact hd), if_pos hw]
    exact ⟨_, rfl, s.putV2_vectors u d.toNat _ hi hd⟩
  case narrow =>
    have hw' : ¬srWide m.toNat = true := by simp [hw]
    rw [rdsr_vector_eq s c u d m hm hp (by rw [if_neg hw']; exact hd), if_neg hw']
    exact s.putV_writesV u _ _ _ hi hd fun l => setWidth_eq_wordOf_zero _
  case lanes =>
    have hlt : m.toNat < 0x17 := by rcases hm with rfl | rfl | rfl | rfl | rfl <;> decide
    have hge : 0x12 ≤ m.toNat := by rcases hm with rfl | rfl | rfl | rfl | rfl <;> decide
    rw [wrsr_eq s c u k a m ⟨hge, by omega⟩ hp hok, s.writeSpecial_lanes u _ _ _ hlt he hf]
    obtain ⟨honly, hlane⟩ := s.mapLanes_onlyGroup s.issue.exec
      (fun l t => t.setSpecial m.toNat (s.srSource u k.toNat a.toNat m.toNat l)) (s.issuing_grp hi).1 (s.issuing_grp hi).2
    exact ⟨_, rfl, honly, hlane⟩
  case fx =>
    subst hm
    rw [wrsr_eq s c u k a 0x17 (by decide) hp hok]
    refine ⟨_, congrArg _ (if_neg he), ?_⟩
    simp only [setWidth_eq_wordOf_zero]
    exact s.onGrp_onlyGroup _
  case fpm =>
    subst hm
    rw [wrsr_eq s c u k a 0x19 (by decide) hp hok]
    refine ⟨_, congrArg _ (s.writeSpecial_fpm u _ _ he hhigh hlow), ?_⟩
    simp only [setWidth_eq_wordOf_zero]
    exact s.onGrp_onlyGroup _
  case clear =>
    rw [wrsr_eq s c u k a 0x18 (by decide) hp hok]
    refine ⟨_, congrArg _ (s.writeSpecial_descriptors u _ _ he), ?_⟩
    rw [State.setSearchDescriptors, if_pos hnone]
    exact s.clear_descriptors s _ hi (s.issuing_grp hi).1 rfl
  case load =>
    let val := s.srSource u k.toNat a.toNat 0x18
    let tries := ((s.doers u).filter fun l => val l != 0).map fun l => s.tryGlobal .read 64 l (val l)
    have hload := s.load_of_ready u false 64 none .descriptor tries hready
    have hsome : tries ≠ [] := by
      simp only [State.loadReady, State.allPass, Bool.and_eq_true, bne_iff_ne] at hready
      exact hready.2.1
    have hd := s.dispatchAll_dispatched none false (tries.any (·.sc)) _ hi
      (s.loadParts_descriptor_ne_nil u (tries.any (·.sc)) (tries.map (·.access)) (by simpa using hsome))
    obtain ⟨hg, hl⟩ := hd.issuing_grp hi
    rw [wrsr_eq s c u k a 0x18 (by decide) hp hok]
    refine ⟨_, _, congrArg _ (s.writeSpecial_descriptors u _ _ he), ?_, hd⟩
    rw [State.setSearchDescriptors, if_neg hsome, hload]
    exact s.clear_descriptors _ val hi hg hl

end Sys2Proof.Machine
end

section
/-! PROOF. Term words that are found waiting (O37 to O40). A lane that has made its accesses completes only where the issue register
holds no reason to wait (`TermWord.lane`, R39). A bundle is opened without one (`State.openBundle`), so that no run meets this
case; but the statements speak of every state that is issuing, and neither `State.issuing` nor `State.termReady` excludes
it. -/

namespace Sys2Proof.Machine

/-! ## A word that is found waiting -/

/-- Eight registers a lane: pair 0 holds the constant 0, pair 1 the address of a descriptor; p0 reads 1 in lane 0. -/
def waitingRegs : RegFile :=
  { RegFile.init 8 [] with
    v := ([0, 0x10000000, 0x80, 0, 0, 0, 0, 0] : List Word).map (List.replicate 32)
    p := 1 :: List.replicate 6 0 }

/-- Lane 0 has its descriptor at 0x40, and no choice point. -/
def waitingGroup : Group :=
  { Group.launch 8 0 [] 0 2 0 with
    rf := waitingRegs
    lanes := { LaneState.init 0 with sd := 0x40 } :: List.replicate 31 (LaneState.init 0) }

/-- Lane 0 alone executes, and the issue register holds a reason to wait. Page 0 is the frame at 0x10000; the descriptors at
0x40 and 0x80 are closed and free, the second with a donor's limits. -/
def waitingState : State :=
  let s := State.reset.withProgram
  { s with
    mem := s.mem.write 0x1009C (leBytes 4 0x10001)
    cores := [{ s.core 0 with groups := [some waitingGroup] }]
    issue := { Issue.reset with exec := 1, src := waitingRegs, lanes := waitingGroup.lanes, stall := some .pipeBusy } }

theorem waitingState_issuing : waitingState.issuing = true := by decide +kernel

theorem waitingState_termReady : waitingState.termReady false 0 := by
  unfold State.termReady State.unwatched State.alone
  decide +kernel

/-- Every aligned word of the two descriptors can be read and written where it lies. -/
theorem waitingState_reach : ∀ va ∈ [0x40, 0x80], ∀ o, o < 64 → ∀ n ∈ [4, 8], o % n = 0 → o + n ≤ 64 →
    let a := BitVec.ofNat 64 va + BitVec.ofNat 64 o
    let pa := 0x10000 + va + o
    let r := waitingState.tryGlobal .read n 0 a
    let w := waitingState.tryGlobal .write n 0 a
    (r.fault = none ∧ r.access.loc = .phys pa ∧ waitingState.roomWait n [r] = none) ∧
    (w.fault = none ∧ w.access.loc = .phys pa ∧ waitingState.roomWait n [w] = none) ∧
    waitingState.homeCode (.phys pa) n = 0 ∧ waitingState.beyond (.phys pa) = none ∧
    waitingState.overtakes (.phys pa) n = false := by
  decide +kernel

theorem waitingState_spot (va : Nat) (hva : va ∈ [0x40, 0x80]) : ∀ o n, (n = 4 ∨ n = 8) → o % n = 0 → o + n ≤ 64 →
    ReadsAt waitingState 0 n (BitVec.ofNat 64 va + BitVec.ofNat 64 o) (0x10000 + va + o) ∧
      WritesTo waitingState 0 n (BitVec.ofNat 64 va + BitVec.ofNat 64 o) (0x10000 + va + o) := by
  intro o n hn ho hlen
  obtain ⟨⟨r1, r2, r3⟩, ⟨w1, w2, w3⟩, good, here, first⟩ :=
    waitingState_reach va hva o (by omega) n (by simpa using hn) ho hlen
  have hflight : waitingState.cur.flight = [] := by decide +kernel
  have hweak : waitingState.weak = [] := rfl
  exact ⟨⟨⟨r1, r2, r3⟩, ⟨good, by simp [hweak]⟩, here, by simp [hflight], first⟩, w1, w2, w3⟩

theorem waitingState_owns : waitingState.owns 0 :=
  ⟨by decide +kernel, 0, ⟨0x10044, (waitingState_spot 0x40 (by decide) 4 4 (.inl rfl) rfl (by decide)).1, by decide +kernel⟩, rfl⟩

theorem waitingState_plain (pa : Nat) (h : pa ∈ [0x10040, 0x10080]) : waitingState.plain pa 64 := by
  refine ⟨?_, (fun _ hw => nomatch hw), (fun _ hw => nomatch hw)⟩
  revert pa
  decide +kernel

/-! ## What the words do there -/

/-- `tag` writes no register. -/
theorem tag_waitingState : (waitingState.of (exec (.tag false false 2 0) waitingState)).grp.rf.rv 4 0 = 0 := by
  decide +kernel

/-- `unify.p` writes no predicate. -/
theorem unifyP_waitingState :
    (waitingState.of (exec (.unifyP false 1 0 0 false) waitingState)).grp.rf.rp 1 0 = false := by
  decide +kernel

/-- `fail` moves no lane. -/
theorem fail_waitingState : (waitingState.of (exec (.fail false) waitingState)).issue.moved = 0 := by
  decide +kernel

/-- `adopt` writes no predicate. -/
theorem adopt_waitingState : (waitingState.of (exec (.adopt false 0 1) waitingState)).grp.rf.rp 0 0 = true := by
  decide +kernel

/-! ## The statements -/

theorem waitingState_pair_derefs : Derefs waitingState 0 4096 (waitingState.pair 0 0) 0x1000000000000000 := by
  have h : waitingState.pair 0 0 = 0x1000000000000000 := by decide +kernel
  rw [h]
  exact .value ⟨by decide, by decide⟩ (by decide) (by decide)

/-- Refutes O37: a term word whose issue register holds a reason to wait completes in no lane, which nothing in the statement
excludes; in `waitingState`, which meets every hypothesis of `tag`, v4 stays 0 where the statement asks for the tag 1 of the
constant. -/
theorem not_termBuilding : ¬ Obligations.TermBuilding := by
  unfold Obligations.TermBuilding
  intro h
  obtain ⟨tag, -⟩ := h waitingState false false false 2 0 0 0 0 0 waitingState_issuing rfl (by decide +kernel) (by decide +kernel)
  obtain ⟨t, hexec, wrote⟩ := tag (by unfold MetOk; decide +kernel)
  have tag_of_t : t.grp.rf.rv 4 0 = _ := wrote.written 0 0 Nat.one_pos (by decide)
  have unwritten := tag_waitingState
  rw [hexec] at unwritten
  exact absurd (tag_of_t.symm.trans unwritten) (by decide +kernel)

/-- Refutes O38: in `waitingState` no lane completes `unify.p` of a constant and itself, and p1 stays 0 where the statement asks
for 1. -/
theorem not_unificationAndBinding : ¬ Obligations.UnificationAndBinding := by
  unfold Obligations.UnificationAndBinding
  intro h
  obtain ⟨-, compares⟩ := h waitingState false false 0 0 1 0 0x1000000000000000 0x1000000000000000 waitingState_issuing
    waitingState_termReady waitingState_owns (by decide +kernel) (by decide +kernel) waitingState_pair_derefs
  obtain ⟨⟨t, hexec, wrote⟩, -⟩ := compares waitingState_pair_derefs (by decide) (by decide) (.inl (by decide))
  have unified : t.grp.rf.rp 1 0 = _ := wrote.written 0 (by decide)
  have unwritten := unifyP_waitingState
  rw [hexec] at unwritten
  exact absurd (unified.symm.trans unwritten) (by decide +kernel)

/-- Refutes O39: in `waitingState` no lane completes `fail` without a choice point, and none has branched where the statement
places lane 0 at `%fx`. -/
theorem not_choicePoints : ¬ Obligations.ChoicePoints := by
  unfold Obligations.ChoicePoints
  intro h
  obtain ⟨-, -, fails⟩ := h waitingState false false 0 0 0 waitingState_issuing waitingState_termReady waitingState_owns
  obtain ⟨t, hexec, branched⟩ := fails (by decide +kernel)
  have moved : t.issue.moved = waitingState.issue.moved ||| waitingState.issue.exec :=
    congrArg (fun t : State => t.issue.moved) branched.frame
  have unmoved := fail_waitingState
  rw [hexec] at unmoved
  exact absurd (moved.symm.trans unmoved) (by decide)

/-- A word that takes a lock and writes a predicate leaves that predicate behind its acquire (R121, R218). -/
theorem WritesAt.rf_acquired {s w q : State} {pa p : Nat} {bs : List Byte} {f : Nat → Bool} {g : Group}
    (hg : (s.core s.issue.core).group s.issue.slot = some g) (hw : WritesAt s w pa bs) (hq : Predicates w q p f) :
    w.issue = s.issue ∧ q.acquired.grp.rf = q.grp.rf := by
  have hissue : w.issue = s.issue := by rw [hw.frame]
  have hcores : w.cores = s.cores := by rw [hw.frame]
  have hgroup : (w.core w.issue.core).group w.issue.slot = some g := by rw [State.core, hcores, hissue]; exact hg
  obtain ⟨g', hg'⟩ : ∃ g', (q.core q.issue.core).group q.issue.slot = some g' := by
    rw [hq.frame]
    exact ⟨_, State.group_modGroup w _ _ _ g hgroup⟩
  exact ⟨hissue, by rw [State.acquired, q.grp_onGrp _ g' hg']⟩

/-- Refutes O40: in `waitingState` no lane completes `adopt` of a closed descriptor, and p0 stays 1 where the statement asks
for 0. -/
theorem not_publicationAndAdoption : ¬ Obligations.PublicationAndAdoption := by
  unfold Obligations.PublicationAndAdoption
  intro h
  obtain ⟨-, adopts⟩ := h waitingState false false 0 1 0 0 0x10040 0 waitingState_issuing waitingState_termReady
    (by decide +kernel) (by decide +kernel) (by decide +kernel) (waitingState_spot 0x40 (by decide))
    (waitingState_plain _ (by decide)) (by decide +kernel)
  obtain ⟨closed, -⟩ := adopts 0x10080 (by decide +kernel) (by decide +kernel) (by decide +kernel) (by decide +kernel)
    (waitingState_spot 0x80 (by decide)) (waitingState_plain _ (by decide)) (by decide +kernel) (by decide +kernel)
    (by decide +kernel)
  obtain ⟨w, q, hexec, released, answered⟩ := closed (by decide +kernel)
  obtain ⟨hissue, hrf⟩ := released.rf_acquired (g := waitingGroup) (by decide +kernel) answered
  have answer : q.acquired.grp.rf.rp 0 0 = if w.issue.exec.getLsbD 0 then false else w.grp.rf.rp 0 0 :=
    (congrArg (·.rp 0 0) hrf).trans (answered.written 0 (by decide))
  have unwritten := adopt_waitingState
  rw [hissue, if_pos (by decide)] at answer
  rw [hexec] at unwritten
  exact Bool.false_ne_true (answer.symm.trans unwritten)

end Sys2Proof.Machine
end

section
/-! SUPPORT. Words in which one lane acts, step by step (R57, R143, R144): a check, a read and a write that pass, and the
registers that the word writes at its end. -/

namespace Sys2Proof.Machine

/-! ## The registers of a word -/

theorem RegFile.setWords_frame (rf : RegFile) (d n : Nat) (m : Word) (f : Nat → Nat) :
    rf.setWords d n m f = { rf with v := (rf.setWords d n m f).v } := by
  induction n with
  | zero => rfl
  | succ n ih =>
    rw [RegFile.setWords_succ, ih]
    rfl

/-- Words written in no lane change nothing. -/
theorem RegFile.setWords_of_no_lane (rf : RegFile) (d n : Nat) (f : Nat → Nat) : rf.setWords d n 0 f = rf := by
  induction n with
  | zero => rfl
  | succ n ih =>
    have hrows : ∀ row : List Word, (row.mapIdx fun _ w => w) = row := fun row => by
      rw [List.mapIdx_eq_zipIdx_map, List.zipIdx_map_fst]
    have hzero : ∀ l, (0 : Word).getLsbD l = false := fun _ => BitVec.getLsbD_zero
    rw [RegFile.setWords_succ, ih, RegFile.setV]
    simp only [hzero, Bool.false_eq_true, if_false, hrows]
    exact congrArg (fun v => { rf with v := v }) (List.modify_id _ _)

/-- A word that writes `n` vector registers with the words of a number (R29, R203). -/
theorem State.setWords_vectors (s : State) (d n : Nat) (f : Nat → Nat) (f' : Nat → Nat → Word)
    (hg : (s.core s.issue.core).group s.issue.slot = some s.grp) (hrow : ∀ i, i < s.grp.rf.v.length →
      (s.grp.rf.v.getD i []).length = 32) (hd : d + n ≤ s.grp.rf.v.length)
    (hf : ∀ i l, i < n → s.issue.exec.getLsbD l = true → wordOf (f l) i = f' i l) :
    Vectors s (s.onGrp fun g => { g with rf := g.rf.setWords d n s.issue.exec f }) d n s.issue.exec f' 0 := by
  have ht : (s.onGrp fun g => { g with rf := g.rf.setWords d n s.issue.exec f }).grp =
      { s.grp with rf := s.grp.rf.setWords d n s.issue.exec f } := State.grp_onGrp s _ _ hg
  constructor
  · intro i l hin hl
    rw [ht, RegFile.rv_setWords _ _ _ _ _ _ _ hl fun _ h => hrow _ (h.trans_le hd)]
    by_cases hm : s.issue.exec.getLsbD l = true
    · rw [if_pos ⟨Nat.le_add_right d i, Nat.add_lt_add_left hin d, hm⟩, if_pos hm, Nat.add_sub_cancel_left, hf i l hin hm]
    · rw [if_neg fun h => hm h.2.2, if_neg hm]
  · intro r l hr
    rw [ht]
    exact RegFile.rv_setWords_frame _ _ _ _ _ _ _ hrow hd (hr.imp_right .inl)
  · rw [ht]
    simpa using congrArg List.length (s.grp.rf.setWords_rows d n s.issue.exec f)
  · rw [ht, State.flagged_zero]
    exact State.onGrp_congr s _ _ _ hg (congrArg (fun rf => { s.grp with rf := rf }) (RegFile.setWords_frame _ _ _ _ _))
  · exact fun _ => rfl

/-- The registers of the group being issued: 32 lanes each, as many as the bundle reads. -/
theorem State.issuing_rows (s : State) (hi : s.issuing = true) :
    (∀ i, i < s.grp.rf.v.length → (s.grp.rf.v.getD i []).length = 32) ∧ s.grp.rf.v.length = s.issue.src.v.length := by
  obtain ⟨g, hg, sh, len⟩ := State.issuing_elim s hi
  obtain rfl := State.grp_eq s g hg
  exact ⟨s.grp.row_length sh, len⟩

/-- A change of the group being issued that keeps its shape and its allotment. -/
theorem State.issuing_onGrp (s : State) (f : Group → Group) (hi : s.issuing = true) (hs : (f s.grp).shaped = true)
    (hv : (f s.grp).rf.v.length = s.grp.rf.v.length) : (s.onGrp f).issuing = true := by
  have hg : ((s.onGrp f).core s.issue.core).group s.issue.slot = some (f s.grp) :=
    s.group_modGroup _ _ _ _ (s.issuing_grp hi).1
  rw [State.issuing, State.onGrp_issue, hg, Option.any_some, hs, hv, (s.issuing_rows hi).2, beq_self_eq_true, Bool.and_self]

/-! ## One lane's accesses -/

/-- No comparator is set on an access of a lane that none compares (R170, R355). -/
theorem State.unseen_of_unwatched (s : State) (store : Bool) (x : LaneAccess) (n : Nat) (h : s.unwatched x.lane)
    (hg : x.global = true) : s.unseen store x n = true := by
  rcases h with h | h
  · rw [State.unseen, h, Bool.true_or]
  · have hoff : s.cur.watch.any (fun w => s.watches { w with data := 0 } store x n [] []) = false :=
      List.any_eq_false.2 fun w hw => by simp [State.watches, State.seenAt, hg, Comparator.hits, Comparator.compares, h w hw]
    rw [State.unseen, hoff, Bool.not_false, Bool.or_true]

/-- Nothing is read for comparators at an access of a lane that none compares (R170). -/
theorem State.sampled_of_unwatched (s : State) (store : Bool) (n : Nat) (x : LaneAccess) (h : s.unwatched x.lane)
    (hg : x.global = true) : s.sampled store (fun _ => n) [x] = (s, []) := by
  have hv := (s.unseen_spec store x n (s.unseen_of_unwatched store x n h hg) [] []).1
  cases hl : x.loc <;> simp [State.sampled, hl, hv]

section Walks

variable (r : Walk) (l n pa : Nat) (va : DWord)

/-- A lane's access that lies in memory and that no comparator matches goes on (R263). -/
theorem Walk.check_lies (want : Want) (go : Nat → Walk → Walk) (h : Lies r.st want l n va pa) :
    r.check n (r.st.tryGlobal want n l va) [] go =
      go pa { r with sc := r.sc || (r.st.tryGlobal want n l va).sc } := by
  have hroom := h.room
  obtain ⟨sc, htry⟩ := h.try_eq
  rw [htry] at hroom ⊢
  simp only [Walk.check, Try.pass] at hroom ⊢
  simp only [ne_eq, not_true_eq_false, if_false, hroom]

/-- A lane's write of a place that no comparator is set on goes on (R170, R263). -/
theorem Walk.write_lies (new : List Byte) (go : Nat → Walk → Walk) (hn : new.length = n) (h : WritesTo r.st l n va pa)
    (hu : r.st.unwatched l) :
    r.write l va new go = go pa { r with sc := r.sc || (r.st.tryGlobal .write n l va).sc } := by
  subst hn
  obtain ⟨sc, htry⟩ := Lies.try_eq h
  have hpass : passed [r.st.tryGlobal .write new.length l va] = [⟨l, va, .phys pa, true⟩] := by rw [htry]; rfl
  have hsample := r.st.sampled_of_unwatched true new.length ⟨l, va, .phys pa, true⟩ hu rfl
  have hwatch : r.st.watchers true (r.st.tryGlobal .write new.length l va).access new.length new
      (r.st.sample [] (r.st.tryGlobal .write new.length l va).access new.length) = [] := by
    rw [htry]
    exact r.st.watchers_of_unwatched l hu _ _ _ rfl rfl _ _
  simp only [Walk.write, hpass, hsample, hwatch]
  exact r.check_lies l new.length pa va .write go h

/-- A lane's read of sound data that passes no access of its lanes goes on (R60, R161). -/
theorem Walk.read_sound (id : Nat) (go : List Byte → Walk → Walk) (h : r.st.sound pa n)
    (hh : r.st.beyond (.phys pa) = none) (ho : r.st.overtakes (.phys pa) n = false) :
    r.read l id pa n go = go (r.st.coreRead r.st.issue.core id (.phys pa) n) r := by
  simp only [Walk.read, ho, Bool.false_eq_true, if_false, h.readAt_eq hh]

end Walks

/-! ## The end of a word -/

theorem State.storeParts_ne_nil (s : State) (u sc : Bool) (ls : List (LaneAccess × List Byte)) (h : ls ≠ []) :
    s.storeParts u sc ls ≠ [] := by
  obtain ⟨x, xs, rfl⟩ := List.exists_cons_of_ne_nil h
  cases sc <;> simp [State.storeParts, State.byDelay, List.eraseDups_cons]

theorem State.storeParts_nil (s : State) (u sc : Bool) : s.storeParts u sc [] = [] := by
  cases sc <;> rfl

/-- A word without operations dispatches nothing. -/
theorem State.enterAll_nil (s : State) (word : Nat) (flag : Option Nat) (acq sc : Bool) (hi : s.issuing = true) :
    s.enterAll word flag acq sc [] = s :=
  State.onGrp_id s _ s.grp (s.issuing_grp hi).1 (by
    rw [List.foldl_nil, show ~~~(0 : Word) = BitVec.allOnes 32 from rfl, BitVec.and_allOnes])

/-- A word's one acting lane `l` has met no fault, and nothing of the word is dispatched yet. -/
structure Walk.Clean (r : Walk) (l : Nat) : Prop where
  issuing : r.st.issuing = true
  doers : r.st.doers r.u = [l]
  faults : r.faults = []
  malformed : r.malformed = 0
  word : r.word = r.st.nextId

/-- The value that lane `k` takes from what the word's lanes have (R37). -/
def Walk.valueOf (r : Walk) (k : Nat) : Nat := (r.vals.find? fun x => r.u || x.1 == k).elim 0 (·.2)

section Ends

variable {r : Walk} {l : Nat}

theorem Walk.Clean.raised (h : r.Clean l) :
    (r.st.noteMalformed r.malformed).raiseLanes r.u false r.faults r.comps = r.st := by
  rw [h.faults, h.malformed, State.noteMalformed_zero, State.raiseLanes_nil]

/-- The lanes that take the value of the lane that acts (R37). -/
theorem Walk.Clean.mask (h : r.Clean l) (v : Nat) (hv : r.vals = [(l, v)]) :
    (if r.u = true ∧ r.vals ≠ [] then r.st.issue.exec else maskOf fun k => r.vals.any (·.1 == k)) = r.st.issue.exec := by
  have hmask := (r.st.doers_one r.u l h.doers).2.2 ⟨l, 0, .spad 0, false⟩ rfl
  rw [State.accessMask] at hmask
  rw [hv]
  cases hu : r.u with
  | true => simp
  | false => simpa [hu] using hmask

theorem Walk.Clean.value (h : r.Clean l) (v : Nat) (hv : r.vals = [(l, v)]) (k : Nat)
    (hk : r.st.issue.exec.getLsbD k = true) : r.valueOf k = v := by
  have hfrom := (r.st.doers_one r.u l h.doers).2.1 k hk
  rw [Walk.valueOf, hv]
  cases hu : r.u with
  | true => rfl
  | false =>
    rw [hu, State.from, if_neg Bool.false_ne_true] at hfrom
    simp [hfrom]

/-- A word without stores whose lane has its value writes it (R37). -/
theorem Walk.Clean.finish_vectors (h : r.Clean l) (d n v : Nat) (hv : r.vals = [(l, v)]) (hs : r.stores = [])
    (hd : d + n ≤ r.st.issue.src.v.length) (f : Nat → Word) (hf : ∀ i, i < n → wordOf v i = f i) :
    Vectors r.st (r.finish d n 0) d n r.st.issue.exec (fun i _ => f i) 0 := by
  obtain ⟨hrow, hlen⟩ := r.st.issuing_rows h.issuing
  have hfinish : r.finish d n 0 = r.st.onGrp fun g => { g with rf := g.rf.setWords d n r.st.issue.exec r.valueOf } := by
    rw [Walk.finish]
    simp only [h.raised, h.mask v hv, hs, State.storeParts_nil, State.enterAll_nil _ _ _ _ _ h.issuing, if_true, and_self]
    rfl
  rw [hfinish]
  exact r.st.setWords_vectors d n _ _ (r.st.issuing_grp h.issuing).1 hrow (hlen ▸ hd) fun i k hi hk => by
    rw [h.value v hv k hk, hf i hi]

/-- A word whose lane has its value and stores: the stores are dispatched on flag A, and the value is written (R206). -/
theorem Walk.Clean.finish_goes (h : r.Clean l) (d n v : Nat) (hv : r.vals = [(l, v)]) (hs : r.stores ≠ [])
    (hd : d + n ≤ r.st.issue.src.v.length) (f : Nat → Word) (hf : ∀ i, i < n → wordOf v i = f i) : ∃ q,
      Dispatched r.st q (r.st.newFlights (some false) false r.sc (r.st.storeParts r.u r.sc r.stores)) ∧
      Vectors q (r.finish d n 0) d n r.st.issue.exec (fun i _ => f i) 0 := by
  obtain ⟨hrow, hlen⟩ := r.st.issuing_rows h.issuing
  let q := r.st.dispatchAll (some false) false r.sc (r.st.storeParts r.u r.sc r.stores)
  have hq : Dispatched r.st q _ := r.st.dispatchAll_dispatched (some false) false r.sc _ h.issuing
    (r.st.storeParts_ne_nil r.u r.sc r.stores hs)
  have hissue : q.issue = r.st.issue := by rw [hq.core]; rfl
  have hrf : q.grp.rf = r.st.grp.rf := by rw [hq.group]
  have hfinish : r.finish d n 0 = q.onGrp fun g => { g with rf := g.rf.setWords d n q.issue.exec r.valueOf } := by
    rw [Walk.finish, hissue]
    simp only [h.raised, h.mask v hv, hs, h.word, if_true, and_false, if_false]
    rfl
  refine ⟨q, hq, ?_⟩
  rw [hfinish, ← hissue]
  exact q.setWords_vectors d n _ _ (hq.issuing_grp h.issuing).1 (by rw [hrf]; exact hrow)
    (by rw [hrf]; exact hlen ▸ hd) fun i k hi hk => by rw [h.value v hv k (hissue ▸ hk), hf i hi]

/-- A word whose lane waits for its value counts once, on an operation of the lanes that wait (R206). -/
theorem Walk.Clean.finish_waits (h : r.Clean l) (d n : Nat) (waits : Word) (hw : waits ≠ 0) (hv : r.vals = [])
    (hs : r.stores = []) : Dispatched r.st (r.finish d n waits)
      (r.st.newFlights (some false) false false [(waits, none, .pops)]) := by
  let q := r.st.dispatchAll (some false) false false [(waits, none, .pops)]
  have hq : Dispatched r.st q _ := r.st.dispatchAll_dispatched (some false) false false _ h.issuing (by simp)
  have hmask : maskOf (fun _ => false) = 0 := by simp [maskOf]
  have hfinish : r.finish d n waits = q.onGrp fun g => { g with rf := g.rf.setWords d n 0 fun _ => 0 } := by
    rw [Walk.finish]
    simp only [h.raised, h.word, hv, hs, hw, State.storeParts_nil, ne_eq, not_true_eq_false, and_false, false_and, if_false,
      List.any_nil, hmask, List.find?_nil]
    rfl
  rw [hfinish, State.onGrp_id q _ q.grp (hq.issuing_grp h.issuing).1 (by rw [RegFile.setWords_of_no_lane])]
  exact hq

end Ends

end Sys2Proof.Machine
end

section
/-! SUPPORT and PROOF. Work queues (O28): the walk of the one lane that acts, up to where the word ends (R143, R144). -/

namespace Sys2Proof.Machine

/-! ## An exchange at once -/

/-- Sound data are sound in part. -/
theorem State.sound.mono {s : State} {pa n m : Nat} (h : s.sound pa n) (hm : m ≤ n) : s.sound pa m := by
  have hgood := h.good
  simp only [State.homeCode] at hgood
  split at hgood
  · cases hgood
  next hb =>
    have hbad : s.badAt pa n = false := by by_contra hn; simp [hn] at hgood
    have hbad' : s.badAt pa m = false := List.any_eq_false.2 fun w hw => by
      have := List.any_eq_false.1 hbad w hw
      simp only [Bool.and_eq_true, decide_eq_true_eq] at this ⊢
      omega
    refine ⟨by simp only [State.homeCode, if_neg hb, hbad', Bool.false_eq_true, if_false], fun w hw => ?_⟩
    have := h.strong w hw
    simp only [overlap, decide_eq_false_iff_not] at this ⊢
    omega

/-- An exchange that finds what it expects, at sound data of the package and behind no access of its core, writes there (R57,
R271). -/
theorem State.sound.swapAt_eq {s : State} {pa n : Nat} (h : s.sound pa n) (hh : s.beyond (.phys pa) = none) (k id : Nat)
    (who : List Nat) (old new : Nat) (hp : (s.core k).passes id pa n = false) (hv : s.wordPa pa n = old) :
    s.swapAt k id who pa n old new = (s.performWrite pa (leBytes n new), some (0, old)) := by
  have hlt : old < 2 ^ (8 * n) := by
    have := leNat_lt (s.mem.bytes pa n)
    rw [Memory.bytes_length] at this
    rw [← hv, pow_mul]
    exact this
  rw [State.swapAt, hp, hh]
  simp [h.good, hv, Nat.mod_eq_of_lt hlt]

/-- What an acting lane waits for before it reads at once does not include a release of its earlier accesses (R60, R66). -/
theorem State.overtakes_of_released (s : State) (fs : Bool) (he : s.issue.exec ≠ 0) (h : s.releaseWait fs = none)
    (a : Loc) (n : Nat) : s.memWait (some fs) = none ∧ s.overtakes a n = false := by
  have hwait : s.memWait (some fs) = none := by
    cases hm : s.memWait (some fs) with
    | none => rfl
    | some w => simp [State.releaseWait, hm] at h
  refine ⟨hwait, ?_⟩
  have hsettled : s.settled 6 = true := by
    by_contra hn
    simp [State.releaseWait, hwait, hn] at h
  cases ha : s.issue.ahead with
  | true => simp [State.overtakes, ha]
  | false =>
    simp only [State.settled, ha, beq_false_of_ne he, Bool.false_or, Nat.reduceLeDiff, if_false, Bool.and_eq_true,
      Bool.not_eq_true'] at hsettled
    rw [State.overtakes, ha, Bool.not_false, Bool.true_and, List.any_eq_false]
    intro f hf hmeets
    simp only [Bool.and_eq_true] at hmeets
    exact List.any_eq_false.1 hsettled.1 f hf (by rw [hmeets.1.1.1, hmeets.1.1.2]; rfl)

/-! ## `wq.push` -/

section Push

variable {r : Walk} {l pa : Nat} {va item : DWord}

/-- What a lane finds in the descriptor that it reads behind its check (R142, R347, R348). -/
theorem Walk.check_read (id : Nat) (go : List Byte → Walk → Walk) (h : Reaches r.st .write l 32 va pa)
    (ho : r.st.overtakes (.phys pa) 32 = false) :
    (r.check 32 (r.st.tryGlobal .write 32 l va) [] fun pa r => r.read l id pa 32 go) =
      go (r.st.coreRead r.st.issue.core id (.phys pa) 32)
        { r with sc := r.sc || (r.st.tryGlobal .write 32 l va).sc } := by
  rw [r.check_lies l 32 pa va .write _ h.toLies]
  exact Walk.read_sound { r with sc := r.sc || (r.st.tryGlobal .write 32 l va).sc } l 32 pa id go h.tosound h.here ho

variable {w : WqDesc}

/-- A lane that finds the queue full answers 1 (R143, R348). -/
theorem Walk.push_full (n : Nat) (h : Reaches r.st .write l 32 va pa) (ho : r.st.overtakes (.phys pa) 32 = false)
    (hw : WqDesc.of (r.st.mem.bytes pa 32) = w) (hok : w.ok = true) (hi : item ≠ emptyItem)
    (hf : (w.tail - w.head).toNat = 2 ^ w.lcap) :
    ∃ sc, Walk.push (n + 1) r l va item = { r with sc := sc, vals := r.vals ++ [(l, 1)] } := by
  refine ⟨r.sc || (r.st.tryGlobal .write 32 l va).sc, ?_⟩
  rw [Walk.push, Walk.check_read 0 _ h ho, State.coreRead_zero]
  simp only [show WqDesc.of (r.st.readLoc r.st.issue.core (.phys pa) 32) = w from hw, hok, beq_false_of_ne hi, hf,
    Bool.not_true, Bool.or_self, Bool.false_eq_true, if_false, if_true]

/-- A lane that finds room advances the tail at once, sends its item and answers 0 (R143, R348). -/
theorem Walk.push_room (n tp sp : Nat) (h : Reaches r.st .write l 32 va pa) (ho : r.st.overtakes (.phys pa) 32 = false)
    (hw : WqDesc.of (r.st.mem.bytes pa 32) = w) (hok : w.ok = true) (hi : item ≠ emptyItem)
    (hf : (w.tail - w.head).toNat ≠ 2 ^ w.lcap) (hu : r.st.unwatched l) (ht : Reaches r.st .write l 8 (va + 8) tp)
    (hv : r.st.wordPa tp 8 = w.tail.toNat) (hs : WritesTo r.st l 8 (w.slot w.tail) sp)
    (hp : r.st.cur.passes r.st.nextId tp 8 = false) (hh : r.st.holdFor [(false, va.toNat + 8, 8)] = none) :
    ∃ sc, Walk.push (n + 1) r l va item = { r with
      st := r.st.performWrite tp (leBytes 8 (w.tail + 1).toNat)
      sc := sc
      stores := r.stores ++ [(LaneAccess.at_ l (w.slot w.tail) sp, leBytes 8 item.toNat)]
      vals := r.vals ++ [(l, 0)] } := by
  have hswap := ht.tosound.swapAt_eq ht.here r.st.issue.core r.st.nextId r.st.wordName _ (w.tail + 1).toNat hp hv
  let r1 : Walk := { r with sc := r.sc || (r.st.tryGlobal .write 32 l va).sc }
  let r2 : Walk := { r1 with sc := r1.sc || (r.st.tryGlobal .write 8 l (va + 8)).sc }
  refine ⟨r2.sc || (r.st.tryGlobal .write 8 l (w.slot w.tail)).sc, ?_⟩
  rw [Walk.push, Walk.check_read 0 _ h ho, State.coreRead_zero]
  simp only [show WqDesc.of (r.st.readLoc r.st.issue.core (.phys pa) 32) = w from hw, hok, beq_false_of_ne hi, hf,
    Bool.not_true, Bool.or_self, Bool.false_eq_true, if_false]
  refine (r1.write_lies l 8 tp (va + 8) _ _ (leBytes_length _ _) ht.toLies hu).trans ?_
  refine (r2.write_lies l 8 sp (w.slot w.tail) _ _ (leBytes_length _ _) hs hu).trans ?_
  simp only [show r2.st = r.st from rfl, hh]
  rw [hswap]
  exact if_pos rfl

end Push

/-- `wq.push` in the lane that acts. -/
theorem wqPush_eq (s : State) (c u x : Bool) (d a b : BitVec 7) (l : Nat) (hd : s.doers u = [l])
    (vd : s.vOk d.toNat = true) (va : s.v2Ok a.toNat = true) (vb : s.b2Ok b.toNat x = true)
    (hw : s.releaseWait false = none) :
    exec (.wqPush c u d a b x) s = .next ((Walk.push (s.fabric.requests.length + 1) (Walk.start s u) l (s.A2 a.toNat l)
      (s.B2 b.toNat x l)).finish d.toNat 1 0) := by
  change execWqPush c u d a b x s = _
  rw [execWqPush, State.checked_ok _ _ _ (by rw [vd, va, vb]; rfl), hw, hd]
  rfl

section PushWord

variable {s : State} {u x : Bool} {d a b : BitVec 7} {l pa : Nat} {w : WqDesc}

/-- `wq.push` on a full queue writes 1 (R143, R348). -/
theorem wqPush_full (c : Bool) (hi : s.issuing = true) (hd : s.doers u = [l]) (vd : s.vOk d.toNat = true)
    (va : s.v2Ok a.toNat = true) (vb : s.b2Ok b.toNat x = true) (hrel : s.releaseWait false = none)
    (hr : Reaches s .write l 32 (s.A2 a.toNat l) pa) (hw : WqDesc.of (s.mem.bytes pa 32) = w) (hok : w.ok = true)
    (hitem : s.B2 b.toNat x l ≠ emptyItem) (hfull : (w.tail - w.head).toNat = 2 ^ w.lcap) :
    WritesV s (exec (.wqPush c u d a b x) s) u d.toNat (fun _ => 1) := by
  have hover := (s.overtakes_of_released false (s.doers_one u l hd).1 hrel (.phys pa) 32).2
  have hlen : d.toNat + 1 ≤ s.issue.src.v.length := by simpa [State.vOk] using vd
  obtain ⟨sc, hwalk⟩ := Walk.push_full (r := Walk.start s u) s.fabric.requests.length hr hover hw hok hitem hfull
  have clean : Walk.Clean { Walk.start s u with sc := sc, vals := [(l, 1)] } l := ⟨hi, hd, rfl, rfl, rfl⟩
  rw [wqPush_eq s c u x d a b l hd vd va vb hrel, hwalk]
  exact ⟨_, rfl, clean.finish_vectors d.toNat 1 1 rfl rfl hlen (fun _ => 1) (by decide)⟩

/-- `wq.push` with room writes the tail, sends the item to its slot and writes 0 (R143, R348). -/
theorem wqPush_room (c : Bool) (tp sp : Nat) (hi : s.issuing = true) (hd : s.doers u = [l]) (vd : s.vOk d.toNat = true)
    (va : s.v2Ok a.toNat = true) (vb : s.b2Ok b.toNat x = true) (hrel : s.releaseWait false = none)
    (hr : Reaches s .write l 32 (s.A2 a.toNat l) pa) (hw : WqDesc.of (s.mem.bytes pa 32) = w) (hok : w.ok = true)
    (hitem : s.B2 b.toNat x l ≠ emptyItem) (hroom : (w.tail - w.head).toNat ≠ 2 ^ w.lcap) (hu : s.unwatched l)
    (ht : Reaches s .write l 8 (s.A2 a.toNat l + 8) tp) (hv : s.wordPa tp 8 = w.tail.toNat)
    (hs : WritesTo s l 8 (w.slot w.tail) sp) (hplain : s.plain tp 8) (hpass : s.cur.passes s.nextId tp 8 = false)
    (hhold : s.holdFor [(false, (s.A2 a.toNat l).toNat + 8, 8)] = none) :
    ∃ p q t sc, exec (.wqPush c u d a b x) s = .next t ∧ WritesAt s p tp (leBytes 8 (w.tail + 1).toNat) ∧
      Dispatched p q (p.newFlights (some false) false sc (p.storeParts u sc
        [(LaneAccess.at_ l (w.slot w.tail) sp, leBytes 8 (s.B2 b.toNat x l).toNat)])) ∧
      Vectors q t d.toNat 1 s.issue.exec (fun _ _ => 0) 0 := by
  have hover := (s.overtakes_of_released false (s.doers_one u l hd).1 hrel (.phys pa) 32).2
  have hlen : d.toNat + 1 ≤ s.issue.src.v.length := by simpa [State.vOk] using vd
  obtain ⟨sc, hwalk⟩ := Walk.push_room (r := Walk.start s u) s.fabric.requests.length tp sp hr hover hw hok hitem hroom
    hu ht hv hs hpass hhold
  have hplain8 : s.plain tp (leBytes 8 (w.tail + 1).toNat).length := by rw [leBytes_length]; exact hplain
  rw [wqPush_eq s c u x d a b l hd vd va vb hrel, hwalk]
  have hwrote := s.performWrite_writesAt tp _ hplain8
  rw [s.performWrite_plain tp _ hplain8] at hwrote
  rw [show (Walk.start s u).st = s from rfl, s.performWrite_plain tp _ hplain8]
  let p : State := { s with mem := s.mem.write tp (leBytes 8 (w.tail + 1).toNat) }
  have clean : Walk.Clean { Walk.start s u with
      st := p, sc := sc, vals := [(l, 0)]
      stores := [(LaneAccess.at_ l (w.slot w.tail) sp, leBytes 8 (s.B2 b.toNat x l).toNat)] } l := ⟨hi, hd, rfl, rfl, rfl⟩
  obtain ⟨q, hgoes, hvec⟩ := clean.finish_goes d.toNat 1 0 rfl (by simp) hlen (fun _ => 0) (by decide)
  exact ⟨p, q, _, sc, rfl, hwrote, hgoes, hvec⟩

end PushWord

/-! ## `wq.pop` -/

section Pop

variable {r : Walk} {l pa d : Nat} {va : DWord} {form : Bool} {w : WqDesc}

/-- A lane whose window holds an item takes it, and sends the empty value and the new head (R144, R347). -/
theorem Walk.pop_item (sp hp : Nat) (item : DWord) (rest : List DWord) (h : Reaches r.st .write l 32 va pa)
    (ho : r.st.overtakes (.phys pa) 32 = false)
    (hw : WqDesc.of (r.st.coreRead r.st.issue.core r.st.nextId (.phys pa) 32) = w) (hok : w.ok = true)
    (hu : r.st.unwatched l) (hd : (r.st.grp.lane l).win.desc = some va) (hi : (r.st.grp.lane l).win.items = item :: rest)
    (hs : WritesTo r.st l 8 (w.slot (r.st.grp.lane l).win.first) sp) (hh : WritesTo r.st l 8 (va + 16) hp) :
    let win := (r.st.grp.lane l).win
    ∃ sc, Walk.pop r l va d form = { r with
      st := r.st.onGrp (·.modLane l fun t => { t with win := win.popped rest })
      sc := sc
      stores := r.stores ++ [(LaneAccess.at_ l (w.slot win.first) sp, leBytes 8 emptyItem.toNat),
        (LaneAccess.at_ l (va + 16) hp, leBytes 8 (win.first + 1).toNat)]
      vals := r.vals ++ [(l, item.toNat)] } := by
  intro win
  let r1 : Walk := { r with sc := r.sc || (r.st.tryGlobal .write 32 l va).sc }
  let r2 : Walk := { r1 with sc := r1.sc || (r.st.tryGlobal .write 8 l (w.slot win.first)).sc }
  refine ⟨r2.sc || (r.st.tryGlobal .write 8 l (va + 16)).sc, ?_⟩
  have hread := r1.read_sound l 32 pa r.st.nextId (h := h.tosound) (hh := h.here) (ho := ho)
  rw [Walk.pop]
  refine (r.check_lies l 32 pa va .write _ h.toLies).trans ((hread _).trans ?_)
  simp only [show r1.st = r.st from rfl, hw, hd, hi, hok, Bool.not_true, Bool.false_eq_true, if_false, if_true, reduceCtorEq]
  refine (r1.write_lies l 8 sp (w.slot win.first) _ _ (leBytes_length _ _) hs hu).trans ?_
  exact r2.write_lies l 8 hp (va + 16) _ _ (leBytes_length _ _) hh hu

/-- A lane whose window holds no item waits for a refill of it (R144, R347). -/
theorem Walk.pop_waits (sp : Nat) (h : Reaches r.st .write l 32 va pa) (ho : r.st.overtakes (.phys pa) 32 = false)
    (hw : WqDesc.of (r.st.coreRead r.st.issue.core r.st.nextId (.phys pa) 32) = w) (hok : w.ok = true)
    (hu : r.st.unwatched l) (hi : (r.st.grp.lane l).win.desc = some va → (r.st.grp.lane l).win.items = [])
    (hs : WritesTo r.st l 8 (w.slot w.head) sp) :
    ∃ sc, Walk.pop r l va d form = { r with
      st := r.st.onGrp (·.modLane l fun t =>
        { t with win := ⟨some va, [], 0, true, some ⟨va, d, form, r.mask l, r.st.issue.pc, r.word⟩⟩ })
      sc := sc } := by
  let r1 : Walk := { r with sc := r.sc || (r.st.tryGlobal .write 32 l va).sc }
  refine ⟨r1.sc || (r.st.tryGlobal .write 8 l (w.slot w.head)).sc, ?_⟩
  have hnone : (if (r.st.grp.lane l).win.desc = some va then (r.st.grp.lane l).win.items else []) = [] := by
    split
    · next hd => exact hi hd
    · rfl
  have hread := r1.read_sound l 32 pa r.st.nextId (h := h.tosound) (hh := h.here) (ho := ho)
  rw [Walk.pop]
  refine (r.check_lies l 32 pa va .write _ h.toLies).trans ((hread _).trans ?_)
  simp only [show r1.st = r.st from rfl, hw, hnone, hok, Bool.not_true, Bool.false_eq_true, if_false, if_true]
  exact r1.write_lies l 8 sp (w.slot w.head) _ _ (leBytes_length _ _) hs hu

end Pop

/-- A lane's new window keeps the shape of its group. -/
theorem State.issuing_modLane (s : State) (l : Nat) (f : LaneState → LaneState) (hi : s.issuing = true) :
    (s.onGrp (·.modLane l f)).issuing = true := by
  obtain ⟨g, hg, sh, -⟩ := State.issuing_elim s hi
  obtain rfl := State.grp_eq s g hg
  refine s.issuing_onGrp _ hi ?_ rfl
  rw [Group.shaped_iff] at sh ⊢
  simpa only [Group.modLane, List.length_modify] using sh

/-- Whether a lane waits for an item under a number (R206). -/
def LaneState.popping (t : LaneState) (word : Nat) : Bool :=
  (t.win.waiting.any fun p => p.word == word) || t.park.any fun p => p.pop && p.word == word

theorem Group.popping_eq (g : Group) (word : Nat) : g.popping word = maskOf fun l => (g.lane l).popping word := rfl

/-- The lanes that wait for an item when one of them has changed (R206). -/
theorem Group.popping_modLane (g : Group) (l : Nat) (f : LaneState → LaneState) (word : Nat) (hl : l < g.lanes.length) :
    (g.modLane l f).popping word =
      maskOf fun k => if k = l then (f (g.lane l)).popping word else (g.lane k).popping word := by
  rw [Group.popping_eq]
  congr 1
  funext k
  rw [Group.lane_modLane g l f k hl, apply_ite (LaneState.popping · word)]

/-- `wq.pop` in the lane that acts. -/
theorem wqPop_eq (s : State) (c u form : Bool) (d a : BitVec 7) (l : Nat) (hd : s.doers u = [l])
    (vd : s.v2Ok d.toNat = true) (va : s.v2Ok a.toNat = true) (hw : s.memWait (some false) = none) :
    let r := Walk.pop (Walk.start s u) l (s.A2 a.toNat l) d.toNat form
    exec (.wqPop c u d a form) s = .next (r.finish d.toNat 2 (r.st.grp.popping r.word)) := by
  change execWqPop c u d a form s = _
  rw [execWqPop, State.checked_ok _ _ _ (by rw [vd, va]; rfl), hw, hd]
  rfl

section PopWord

variable {s : State} {u form : Bool} {d a : BitVec 7} {l pa : Nat} {w : WqDesc}

/-- `wq.pop` of a window that holds an item takes it and sends the empty value and the new head (R144, R347). -/
theorem wqPop_item (c : Bool) (sp hp : Nat) (item : DWord) (rest : List DWord) (hi : s.issuing = true)
    (hd : s.doers u = [l]) (hl : l < 32) (vd : s.v2Ok d.toNat = true) (va : s.v2Ok a.toNat = true)
    (hwait : s.memWait (some false) = none) (hpop : s.grp.popping s.nextId = 0)
    (hr : Reaches s .write l 32 (s.A2 a.toNat l) pa) (ho : s.overtakes (.phys pa) 32 = false)
    (hw : WqDesc.of (s.coreRead s.issue.core s.nextId (.phys pa) 32) = w) (hok : w.ok = true) (hu : s.unwatched l)
    (hdesc : (s.grp.lane l).win.desc = some (s.A2 a.toNat l)) (hitems : (s.grp.lane l).win.items = item :: rest)
    (hs : WritesTo s l 8 (w.slot (s.grp.lane l).win.first) sp) (hh : WritesTo s l 8 (s.A2 a.toNat l + 16) hp) :
    let win := (s.grp.lane l).win
    ∃ p q t sc, exec (.wqPop c u d a form) s = .next t ∧
      OnlyGroup s p (·.modLane l fun t => { t with win := win.popped rest }) ∧
      Dispatched p q (p.newFlights (some false) false sc (p.storeParts u sc
        [(LaneAccess.at_ l (w.slot win.first) sp, leBytes 8 emptyItem.toNat),
          (LaneAccess.at_ l (s.A2 a.toNat l + 16) hp, leBytes 8 (win.first + 1).toNat)])) ∧
      Vectors q t d.toNat 2 s.issue.exec (fun i _ => wordOf item.toNat i) 0 := by
  intro win
  obtain ⟨hg, hlanes⟩ := s.issuing_grp hi
  have hlen : d.toNat + 2 ≤ s.issue.src.v.length := by
    simp only [State.v2Ok, Bool.and_eq_true, decide_eq_true_eq] at vd
    exact vd.2
  let pop := fun t : LaneState => { t with win := win.popped rest }
  let p := s.onGrp (·.modLane l pop)
  obtain ⟨sc, hwalk⟩ := Walk.pop_item (r := Walk.start s u) (d := d.toNat) (form := form) sp hp item rest hr ho hw hok hu
    hdesc hitems hs hh
  have hnone : p.grp.popping s.nextId = 0 := by
    have hsame : (pop (s.grp.lane l)).popping s.nextId = (s.grp.lane l).popping s.nextId := rfl
    rw [State.grp_onGrp s _ _ hg, Group.popping_modLane _ _ _ _ (by omega), hsame, ← hpop, Group.popping_eq]
    congr 1
    funext k
    split
    · next h => rw [h]
    · rfl
  have hexec := wqPop_eq s c u form d a l hd vd va hwait
  rw [hwalk] at hexec
  have clean : Walk.Clean { Walk.start s u with
      st := p, sc := sc, vals := [(l, item.toNat)]
      stores := [(LaneAccess.at_ l (w.slot win.first) sp, leBytes 8 emptyItem.toNat),
        (LaneAccess.at_ l (s.A2 a.toNat l + 16) hp, leBytes 8 (win.first + 1).toNat)] } l :=
    ⟨s.issuing_modLane l pop hi, hd, rfl, rfl, rfl⟩
  obtain ⟨q, hgoes, hvec⟩ := clean.finish_goes d.toNat 2 item.toNat rfl (by simp) hlen _ fun _ _ => rfl
  refine ⟨p, q, _, sc, hexec.trans ?_, s.onGrp_onlyGroup _, hgoes, hvec⟩
  exact congrArg (fun m => Host.Outcome.next (Walk.finish _ _ _ m)) hnone

/-- `wq.pop` of an empty window waits for a refill, and counts on its flag meanwhile (R144, R206, R347). -/
theorem wqPop_waits (c : Bool) (sp : Nat) (hi : s.issuing = true) (hd : s.doers u = [l]) (hl : l < 32)
    (vd : s.v2Ok d.toNat = true) (va : s.v2Ok a.toNat = true) (hwait : s.memWait (some false) = none)
    (hpop : s.grp.popping s.nextId = 0) (hr : Reaches s .write l 32 (s.A2 a.toNat l) pa)
    (ho : s.overtakes (.phys pa) 32 = false)
    (hw : WqDesc.of (s.coreRead s.issue.core s.nextId (.phys pa) 32) = w) (hok : w.ok = true) (hu : s.unwatched l)
    (hempty : (s.grp.lane l).win.desc = some (s.A2 a.toNat l) → (s.grp.lane l).win.items = [])
    (hs : WritesTo s l 8 (w.slot w.head) sp) :
    let one := maskOf (· == l)
    let wait : PopWait := ⟨s.A2 a.toNat l, d.toNat, form, if u then s.issue.exec else one, s.issue.pc, s.nextId⟩
    ∃ p q, exec (.wqPop c u d a form) s = .next q ∧
      OnlyGroup s p (·.modLane l fun t => { t with win := ⟨some (s.A2 a.toNat l), [], 0, true, some wait⟩ }) ∧
      Dispatched p q (p.newFlights (some false) false false [(one, none, .pops)]) := by
  intro one wait
  obtain ⟨hg, hlanes⟩ := s.issuing_grp hi
  let await := fun t : LaneState => { t with win := ⟨some (s.A2 a.toNat l), [], 0, true, some wait⟩ }
  let p := s.onGrp (·.modLane l await)
  obtain ⟨sc, hwalk⟩ := Walk.pop_waits (r := Walk.start s u) (d := d.toNat) (form := form) sp hr ho hw hok hu hempty hs
  have hwaits : p.grp.popping s.nextId = one := by
    have hnew : (await (s.grp.lane l)).popping s.nextId = true := by simp [await, wait, LaneState.popping]
    rw [State.grp_onGrp s _ _ hg, Group.popping_modLane _ _ _ _ (by omega), hnew]
    apply BitVec.eq_of_getLsbD_eq
    intro k hk
    have hold := congrArg (·.getLsbD k) hpop
    simp only [Group.popping_eq, maskOf_getLsbD, hk, decide_true, Bool.true_and] at hold
    rw [maskOf_getLsbD, maskOf_getLsbD, hold]
    by_cases h : k = l <;> simp [h]
  have hexec := wqPop_eq s c u form d a l hd vd va hwait
  rw [hwalk] at hexec
  have clean : Walk.Clean { Walk.start s u with st := p, sc := sc } l := ⟨s.issuing_modLane l await hi, hd, rfl, rfl, rfl⟩
  have hone : one ≠ 0 := fun h => by
    have := congrArg (·.getLsbD l) h
    simp [one, hl] at this
  refine ⟨p, _, hexec.trans ?_, s.onGrp_onlyGroup _, clean.finish_waits d.toNat 2 one hone rfl rfl⟩
  exact congrArg (fun m => Host.Outcome.next (Walk.finish _ _ _ m)) hwaits

end PopWord

/-- Settles O28: the walk of the one lane that acts decides what the word writes, sends and waits for. -/
theorem workQueues : Obligations.WorkQueues := by
  unfold Obligations.WorkQueues
  intro s c u x form d a b l pa hi hd hl hu va2 va goes hr
  constructor
  · intro vd vb hrel hitem w hok
    refine ⟨fun hfull => wqPush_full c hi hd vd va2 vb hrel hr rfl hok hitem hfull, ?_⟩
    intro tp sp hroom ht hv hs hplain hpass hhold
    obtain ⟨p, q, t, sc, hexec, hwrote, hgoes, hvec⟩ :=
      wqPush_room c tp sp hi hd vd va2 vb hrel hr rfl hok hitem hroom hu ht hv hs hplain hpass hhold
    exact ⟨p, q, t, hexec, hwrote, ⟨sc, hgoes⟩, hvec⟩
  · intro sp vd hwait ho hpop w win r wait hok
    constructor
    · intro item rest hp hdesc hitems hs hh after
      obtain ⟨p, q, t, sc, hexec, honly, hgoes, hvec⟩ :=
        wqPop_item c sp hp item rest hi hd hl vd va2 hwait hpop hr ho rfl hok hu hdesc hitems hs hh
      exact ⟨p, q, t, hexec, honly, ⟨sc, hgoes⟩, hvec⟩
    · exact fun hempty hs => wqPop_waits c sp hi hd hl vd va2 hwait hpop hr ho rfl hok hu hempty hs

end Sys2Proof.Machine
end

section
/-! SUPPORT. Operations of pushes that end as they are dispatched (R139, R206, R343, R345). -/

namespace Sys2Proof.Machine

/-! ## Groups -/

/-- A change of a group of a core is decided by what it makes of that group. -/
theorem Core.modGroup_congr (c : Core) (j : Nat) (f h : Group → Group) (g : Group) (hg : c.group j = some g)
    (e : f g = h g) : c.modGroup j f = c.modGroup j h := by
  unfold Core.modGroup
  congr 1
  apply modify_congr
  intro x hx
  obtain rfl : x = some g := by rw [← hg]; simp [Core.group, List.getD_eq_getElem?_getD, hx]
  rw [Option.map_some, Option.map_some, e]

/-- A group that counts one more on a flag (R206). -/
def Group.countOn (flag : Option Nat) (g : Group) : Group :=
  { g with flags := flag.elim g.flags fun i => g.flags.modify i (· + 1) }

theorem State.countFlag_eq (s : State) (flag : Option Nat) (g : Group)
    (hg : (s.core s.issue.core).group s.issue.slot = some g) : s.countFlag flag = s.onGrp (Group.countOn flag) := by
  cases flag with
  | none => exact (s.onGrp_id _ g hg rfl).symm
  | some i => rfl

/-- What an operation counts on its flag is gone with its end (R206). -/
theorem Group.flagsAfter_countOn (flag : Option Nat) (g : Group) : (g.countOn flag).flagsAfter flag true = g.flags := by
  cases flag with
  | none => rfl
  | some i =>
    refine (modify_modify_same g.flags i (· + 1) (· - 1)).trans ?_
    rw [show ((· - 1) ∘ (· + 1) : Nat → Nat) = id from rfl, List.modify_id]

/-! ## The end of pushes that need not wait -/

/-- The count that lane `l` takes from what the lanes of a word have read. -/
def pushValue (vals : List (Nat × Nat)) (l : Nat) : Nat := (vals.find? fun v => vals.length == 1 || v.1 == l).elim 0 (·.2)

/-- The registers behind an operation of pushes (R345). -/
def RegFile.pushed (rf : RegFile) (d : Option Nat) (m : Word) (vals : List (Nat × Nat)) : RegFile :=
  d.elim rf fun d => rf.setWords d 1 m (pushValue vals)

/-- A group with its register written by an operation of pushes (R345). -/
def Group.pushed (d : Option Nat) (m : Word) (vals : List (Nat × Nat)) (g : Group) : Group :=
  { g with rf := g.rf.pushed d m vals }

/-- The same with one count less on the operation's flag (R206). -/
def Group.pushesOver (flag : Option Nat) (d : Option Nat) (m : Word) (vals : List (Nat × Nat)) (g : Group) : Group :=
  { g.pushed d m vals with flags := g.flagsAfter flag true }

/-- An operation that counts on its flag and ends leaves the flag as it was (R206). -/
theorem Group.pushesOver_countOn (flag : Option Nat) (d : Option Nat) (m : Word) (vals : List (Nat × Nat)) (g : Group) :
    (g.countOn flag).pushesOver flag d m vals = g.pushed d m vals := by
  rw [Group.pushesOver, Group.flagsAfter_countOn]
  rfl

/-- An operation of which no push waits ends where its group runs: its register is written, and its flag counts one less (R139,
R206). -/
theorem State.endPush_runs {s : State} {k id : Nat} {f : Flight} {g : Group} {b : Bool} {d : Option Nat}
    {vals : List (Nat × Nat)} (ho : (s.core k).op id = some f) (hk : f.kind = .push 0 b d vals)
    (h : (s.core k).RunsGroup f.slot g) (ht : g.team = f.team) (hp : g.tryUntil = none) :
    s.endPush k id = (s.modGroup k f.slot (Group.pushesOver f.flag d f.mask vals)).modCore k (·.dropOp id) := by
  let fill := Group.pushed d f.mask vals
  have hcounted : (Group.counted f.flag true ∘ fill) g = g.pushesOver f.flag d f.mask vals :=
    Group.counted_of_patient f.flag true (fill g) hp
  have hlow : (s.modGroup k f.slot fill).lowerFlag k f = s.modGroup k f.slot (Group.pushesOver f.flag d f.mask vals) :=
    (State.lowerFlag_runs (State.core_modGroup_runs h fill rfl) ht).trans
      ((s.modGroup_modGroup k f.slot _ _).trans (s.modGroup_congr k f.slot _ _ g h.here hcounted))
  rw [State.endPush, ho]
  simp only [hk]
  refine congrArg (fun t : State => t.modCore k (·.dropOp id)) (Eq.trans (congrArg (State.lowerFlag · k f) ?_) hlow)
  cases d with
  | none => exact (s.modGroup_id k f.slot fill g h.here rfl).symm
  | some d => rw [← ht]; exact State.fillWords_runs h d 1 f.mask (pushValue vals)

/-! ## Pushes that are dispatched and end -/

/-- The operation as which a word's pushes are dispatched. -/
def State.pushing (s : State) (fs : Option Bool) (mask : Word) (b : Bool) (d : Option Nat) (vals : List (Nat × Nat)) : Flight :=
  s.newFlight s.nextId fs false false s.nextId (mask, none, .push 0 b d vals)

/-- A core in which pushes of the group in a slot have been dispatched. -/
def Core.withPushes (c : Core) (slot : Nat) (f : Flight) : Core :=
  { c with flight := c.flight ++ [f] }.modGroup slot (Group.countOn f.flag)

/-- Pushes are dispatched: they enter their core, and its group counts one more (R206). -/
theorem State.dispatch_pushes (s : State) (fs : Option Bool) (mask : Word) (b : Bool) (d : Option Nat) (vals : List (Nat × Nat))
    (hi : s.issuing = true) : s.dispatch fs mask none false false (.push 0 b d vals) =
      { s.onCore (·.withPushes s.issue.slot (s.pushing fs mask b d vals)) with nextId := s.nextId + 1 } := by
  obtain ⟨hg, -⟩ := s.issuing_grp hi
  let f := s.pushing fs mask b d vals
  let t : State := { s.onCore fun c => { c with flight := c.flight ++ [f] } with nextId := s.nextId + 1 }
  have ht : (t.core t.issue.core).group t.issue.slot = some s.grp := by
    exact (congrArg (Core.group · s.issue.slot) (s.core_modCore s.issue.core _ (s.core_lt_of_group _ _ _ hg))).trans hg
  have henter : s.enter s.nextId (s.flag fs) mask none false false (.push 0 b d vals) = t := rfl
  rw [State.dispatch, henter, t.countFlag_eq _ _ ht]
  exact congrArg (fun u : State => { u with nextId := s.nextId + 1 }) (s.modCore_modCore s.issue.core _ _)

/-- The newest operation of a core, found by its number (R59). -/
theorem Core.op_last (c : Core) (fs : List Flight) (f : Flight) (hc : c.flight = fs ++ [f]) (hn : ∀ e ∈ fs, e.id ≠ f.id) :
    c.op f.id = some f ∧ (c.dropOp f.id).flight = fs := by
  have hold : fs.find? (·.id == f.id) = none := List.find?_eq_none.2 fun e he => by simpa using hn e he
  have hkeep : fs.filter (·.id != f.id) = fs := List.filter_eq_self.2 fun e he => by simpa using hn e he
  constructor
  · simp [Core.op, hc, List.find?_append, hold]
  · simp [Core.dropOp, hc, List.filter_append, hkeep]

/-- Pushes none of which waits are over with their word: what is left of them is the register that they write, and their
number (R139, R343, R345). -/
theorem State.pushes_end (s : State) (fs : Option Bool) (mask : Word) (b : Bool) (d : Option Nat) (vals : List (Nat × Nat))
    (hi : s.issuing = true) (hfresh : s.fresh) (hhome : s.cur.saved = []) (hrun : s.grp.phase = .running)
    (hpat : s.grp.tryUntil = none) :
    ((s.dispatch fs mask none false false (.push 0 b d [])).onCore
      (·.modOp s.nextId (·.setPush 0 b d vals))).endPush s.issue.core s.nextId =
      { s.onGrp (Group.pushed d mask vals) with nextId := s.nextId + 1 } := by
  obtain ⟨hg, -⟩ := s.issuing_grp hi
  have hk := s.core_lt_of_group _ _ _ hg
  let f := s.pushing fs mask b d vals
  let F := fun c : Core => (c.withPushes s.issue.slot (s.pushing fs mask b d [])).modOp s.nextId (·.setPush 0 b d vals)
  let X : State := { s.onCore F with nextId := s.nextId + 1 }
  have hX : (s.dispatch fs mask none false false (.push 0 b d [])).onCore (·.modOp s.nextId (·.setPush 0 b d vals)) = X := by
    rw [s.dispatch_pushes fs mask b d [] hi]
    exact congrArg (fun u : State => { u with nextId := s.nextId + 1 }) (s.modCore_modCore s.issue.core _ _)
  have hcore : X.core s.issue.core = F s.cur := s.core_modCore s.issue.core F hk
  have hne : ∀ e ∈ s.cur.flight, e.id ≠ s.nextId := fun e he => Nat.ne_of_lt (hfresh e he).1
  have hflight : (F s.cur).flight = s.cur.flight ++ [f] := by
    have hold : s.cur.flight.map (fun o => if o.id = s.nextId then o.setPush 0 b d vals else o) = s.cur.flight := by
      conv => rhs; rw [← List.map_id s.cur.flight]
      exact List.map_congr_left fun e he => if_neg (hne e he)
    refine (List.map_append).trans ?_
    rw [hold]
    exact congrArg (fun e => s.cur.flight ++ [e]) (if_pos rfl)
  obtain ⟨hop, hdrop⟩ := (F s.cur).op_last s.cur.flight f hflight hne
  have hruns : (X.core s.issue.core).RunsGroup f.slot (s.grp.countOn f.flag) := by
    rw [hcore]
    refine ⟨?_, hrun, hhome⟩
    refine (Core.group_modGroup { s.cur with flight := _ } s.issue.slot (Group.countOn f.flag)).trans ?_
    exact congrArg (Option.map (Group.countOn f.flag)) hg
  have hend := State.endPush_runs (s := X) (k := s.issue.core) (id := s.nextId) (by rw [hcore]; exact hop) rfl hruns rfl hpat
  rw [hX, hend]
  let last := Group.pushesOver f.flag d mask vals
  have hgroups : (s.cur.modGroup s.issue.slot (Group.countOn f.flag)).modGroup s.issue.slot last =
      s.cur.modGroup s.issue.slot (Group.pushed d mask vals) :=
    (Core.modGroup_modGroup _ _ _ _).trans
      (Core.modGroup_congr _ _ _ _ s.grp hg (s.grp.pushesOver_countOn f.flag d mask vals))
  have hlast : ((F s.cur).modGroup s.issue.slot last).dropOp s.nextId =
      s.cur.modGroup s.issue.slot (Group.pushed d mask vals) := by
    rw [← hgroups]
    exact congrArg (fun fl => { (s.cur.modGroup s.issue.slot (Group.countOn f.flag)).modGroup s.issue.slot last with
      flight := fl }) hdrop
  have hstate : ((s.modCore s.issue.core F).modGroup s.issue.core s.issue.slot last).modCore s.issue.core (·.dropOp s.nextId) =
      s.onGrp (Group.pushed d mask vals) := by
    rw [State.modGroup, State.modCore_modCore, State.modCore_modCore]
    exact s.modCore_congr s.issue.core _ _ hlast
  exact congrArg (fun u : State => { u with nextId := s.nextId + 1 }) hstate

end Sys2Proof.Machine
end

section
/-! SUPPORT. Pushes to ready queues that have room, and the records that they read (R126, R131, R139, R141). -/

namespace Sys2Proof.Machine

/-! ## Quads that take pushes -/

/-- A quad that takes a push on chip (R139). -/
def Quad.taking (e : RqEntry) (r : Quad) : Quad := { r with chip := r.chip ++ [e] }

/-- A push answered on chip by the quad that it names: the core of the quad is online, nothing waits there, and neither the
ring nor the chip is in the way (R139, R141). -/
theorem State.push_onChip (s : State) (q : Nat) (e : RqEntry) (w : Option (Nat × Nat)) (hq : q < 96) (hon : s.quadOn q = true)
    (hw : (s.quad q).waiting = []) (hring : (s.quad q).ringLen = 0) (hc : (s.quad q).chip.length < 256) :
    s.push q e w = s.modQuad q (Quad.taking e) := by
  have hhome : s.homeQuad q = q := by
    have hfirst : s.quadOn ((q + 0) % 96) = true := by rwa [Nat.add_zero, Nat.mod_eq_of_lt hq]
    rw [State.homeQuad, List.range_succ_eq_map (n := 95), List.map_cons, List.find?_cons_of_pos hfirst]
    exact Nat.mod_eq_of_lt hq
  have hchip : (s.quad q).onChip = true := by simp [Quad.onChip, hc, hring]
  have hroom : (s.quad q).room = true := by simp [Quad.room, hchip]
  simp only [State.push, hhome, hon, hw, hroom, and_self, if_true, State.accept, hchip]
  rfl

/-- Entries taken on chip by the quads that their pushes name, in order (R139). -/
def takenBy (qs : List Quad) (es : List (Nat × RqEntry)) : List Quad :=
  es.foldl (fun qs x => qs.modify x.1 (Quad.taking x.2)) qs

/-- A quad's entries on chip, behind those that it had. -/
theorem takenBy_chip (es : List (Nat × RqEntry)) (q : Nat) : ∀ qs : List Quad, q < qs.length →
    ((takenBy qs es).getD q Quad.reset).chip =
      (qs.getD q Quad.reset).chip ++ (es.filter (·.1 == q)).map (·.2) := by
  induction es with
  | nil => intro qs _; simp [takenBy]
  | cons x es ih =>
    intro qs hq
    refine (ih (qs.modify x.1 (Quad.taking x.2)) (by simpa using hq)).trans ?_
    by_cases hx : x.1 = q
    · simp [hx, hq, List.getD_eq_getElem?_getD, Quad.taking]
    · simp [hx, List.getD_eq_getElem?_getD]

/-- No more pushes wait than before. -/
theorem takenBy_waiting (es : List (Nat × RqEntry)) : ∀ qs : List Quad,
    (takenBy qs es).map (·.waiting.length) = qs.map (·.waiting.length) := by
  induction es with
  | nil => exact fun _ => rfl
  | cons x es ih =>
    intro qs
    refine (ih _).trans (List.ext_getElem? fun i => ?_)
    rw [List.getElem?_map, List.getElem?_map, List.getElem?_modify]
    by_cases hi : x.1 = i <;> cases qs[i]? <;> simp [hi, Quad.taking]

/-- Every quad has room on chip for `n` pushes (R139). -/
def Roomy (qs : List Quad) (n : Nat) : Prop :=
  qs.length = 96 ∧ ∀ q, q < 96 → (qs.getD q Quad.reset).waiting = [] ∧ (qs.getD q Quad.reset).ringLen = 0 ∧
    (qs.getD q Quad.reset).chip.length + n ≤ 256

theorem Roomy.mono {qs : List Quad} {m n : Nat} (h : Roomy qs n) (hm : m ≤ n) : Roomy qs m :=
  ⟨h.1, fun q hq => ⟨(h.2 q hq).1, (h.2 q hq).2.1, (Nat.add_le_add_left hm _).trans (h.2 q hq).2.2⟩⟩

/-- A push leaves room for one push less. -/
theorem Roomy.taking {qs : List Quad} {n : Nat} (h : Roomy qs (n + 1)) (i : Nat) (e : RqEntry) :
    Roomy (qs.modify i (Quad.taking e)) n := by
  obtain ⟨hlen, hall⟩ := h
  refine ⟨by simpa using hlen, fun q hq => ?_⟩
  obtain ⟨hw, hring, hc⟩ := hall q hq
  have hlt : q < qs.length := hlen ▸ hq
  by_cases hi : i = q
  · have hnew : (qs.modify i (Quad.taking e)).getD q Quad.reset = Quad.taking e (qs.getD q Quad.reset) := by
      simp [List.getD_eq_getElem?_getD, hi, hlt]
    rw [hnew]
    refine ⟨hw, hring, ?_⟩
    rw [Quad.taking, List.length_append, List.length_singleton]
    omega
  · have hold : (qs.modify i (Quad.taking e)).getD q Quad.reset = qs.getD q Quad.reset := by
      simp [List.getD_eq_getElem?_getD, hi]
    rw [hold]
    exact ⟨hw, hring, by omega⟩

/-! ## The records that a word's lanes push -/

/-- A task record that a party may read, and where it lies (R126). -/
structure State.Record (s : State) (p : Party) (va : DWord) (pa : Nat) : Prop where
  aligned : va.toNat % 64 = 0
  there : ∃ sc page m, s.translate p.space p.origin.tenant .read va.toNat = (.ok pa sc page, m)
  here : s.beyond (.phys pa) = none
  sound : s.sound pa 64

/-- A record that may be read is read without a trace (R126). -/
theorem State.Record.read_eq {s : State} {p : Party} {va : DWord} {pa : Nat} (h : s.Record p va pa) :
    s.readRecord p va = (s, some (TaskRecord.of (s.mem.bytes pa 64))) := by
  obtain ⟨sc, page, m, ht⟩ := h.there
  rw [State.readRecord, if_neg (by simpa using h.aligned)]
  simp only [State.look_ok _ _ _ _ _ _ _ _ _ ht, h.sound.readAt_eq h.here, State.coreRead_zero]
  rfl

/-- What a party reads of a record does not depend on cores and queues. -/
theorem State.Record.elsewhere {s : State} {p : Party} {va : DWord} {pa : Nat} (h : s.Record p va pa) (cs : List Core)
    (qs : List Quad) (n : Nat) : State.Record { s with cores := cs, quads := qs, nextId := n } p va pa :=
  ⟨h.aligned, h.there, h.here, h.sound.good, h.sound.strong⟩

/-- The entry that a lane's push makes of its record (R138, R343). -/
def State.spawned (s : State) (p : Party) (va : DWord) : RqEntry :=
  RqEntry.of va (((s.readRecord p va).2.map (·.prio)).getD 0) p.origin

/-- One lane's push (R343). -/
def State.spawn (s : State) (p : Party) (quad : Nat → Nat) (y : LaneAccess) : State :=
  (s.readRecord p y.va).1.push (quad y.lane) (s.spawned p y.va) p.waiter

/-- Lanes whose records may be read and whose quads have room push them, in order (R131, R139, R343). -/
theorem State.spawn_all (s : State) (p : Party) (quad : Nat → Nat) (hon : ∀ q, q < 96 → s.quadOn q = true)
    (ls : List LaneAccess) (hls : ∀ y ∈ ls, quad y.lane < 96 ∧ ∃ pa, s.Record p y.va pa) : ∀ qs, Roomy qs ls.length →
    ls.foldl (fun t y => t.spawn p quad y) { s with quads := qs } =
      { s with quads := takenBy qs (ls.map fun y => (quad y.lane, s.spawned p y.va)) } := by
  induction ls with
  | nil => exact fun _ _ => rfl
  | cons y ys ih =>
    intro qs hroom
    obtain ⟨hq, pa, hrec⟩ := hls y List.mem_cons_self
    have hread := (hrec.elsewhere s.cores qs s.nextId).read_eq
    have hentry : State.spawned { s with quads := qs } p y.va = s.spawned p y.va := by
      rw [State.spawned, State.spawned, hread, hrec.read_eq]
    obtain ⟨hw, hring, hc⟩ := hroom.2 _ hq
    rw [List.length_cons] at hc
    have hstep : State.spawn { s with quads := qs } p quad y =
        { s with quads := qs.modify (quad y.lane) (Quad.taking (s.spawned p y.va)) } := by
      rw [State.spawn, hentry, hread]
      exact State.push_onChip { s with quads := qs } _ _ _ hq (hon _ hq) hw hring
        (show (qs.getD (quad y.lane) Quad.reset).chip.length < 256 by omega)
    rw [List.foldl_cons, hstep]
    exact ih (fun z hz => hls z (List.mem_cons_of_mem _ hz)) _ (hroom.taking _ _)

end Sys2Proof.Machine
end

section
/-! PROOF. `task.spawn` (O27; R131, R343). -/

namespace Sys2Proof.Machine

/-! ## Checked accesses -/

/-- A check speaks of its lane and its address. -/
theorem State.tryGlobal_lane_va (s : State) (want : Want) (n l : Nat) (va : DWord) :
    (s.tryGlobal want n l va).access.lane = l ∧ (s.tryGlobal want n l va).access.va = va := by
  unfold State.tryGlobal
  split
  · exact ⟨rfl, rfl⟩
  · split <;> exact ⟨rfl, rfl⟩

/-- A check that passes has found an aligned address that translates (R50, R263). -/
theorem State.tryGlobal_translates {s : State} {want : Want} {n l : Nat} {va : DWord}
    (h : (s.tryGlobal want n l va).fault = none) : va.toNat % n = 0 ∧ ∃ pa sc,
      s.tryGlobal want n l va = .pass l va (.phys pa) sc true ∧
      ∃ page m, s.translate s.space s.tenant want va.toNat = (.ok pa sc page, m) := by
  unfold State.tryGlobal at h ⊢
  split at h
  · cases h
  · next ha =>
    rw [if_neg ha]
    split at h
    · cases h
    · next pa sc page m he => exact ⟨by simpa using ha, pa, sc, rfl, page, m, he⟩

/-! ## The lanes of a `task.spawn` -/

/-- The quad that a lane's push names (R343). -/
def State.spawnQuad (s : State) (lf : Bool) (b : Nat) (x : Bool) (l : Nat) : Nat :=
  if lf then (s.B b x l).toNat else s.issue.core / 4

section Spawn

variable (s : State) (u lf x : Bool) (a b : Nat)

/-- One lane's check in a `task.spawn` (R343). -/
def State.spawnTry (l : Nat) : Try :=
  if lf && 96 ≤ (s.B b x l).toNat then .fail l (s.A2 a l) .illegalOperand false else s.tryGlobal .read 64 l (s.A2 a l)

theorem State.spawnTries_eq : s.spawnTries u lf a b x = (s.doers u).map (s.spawnTry lf x a b) := rfl

theorem State.spawnTry_lane_va (l : Nat) :
    (s.spawnTry lf x a b l).access.lane = l ∧ (s.spawnTry lf x a b l).access.va = s.A2 a l := by
  unfold State.spawnTry
  split
  · exact ⟨rfl, rfl⟩
  · exact s.tryGlobal_lane_va .read 64 l (s.A2 a l)

/-- What the checks of a `task.spawn` find where no lane fails: every lane names a quad and has a record in the package. -/
def State.Spawnable : Prop :=
  ∀ l ∈ s.doers u, s.spawnQuad lf b x l < 96 ∧
    ∃ pa sc, s.spawnTry lf x a b l = .pass l (s.A2 a l) (.phys pa) sc true ∧ s.Record (s.party s.nextId) (s.A2 a l) pa

theorem State.spawnable (hk : s.issue.core < 384) (h : ∀ t ∈ s.spawnTries u lf a b x,
    t.fault = none ∧ s.beyond t.access.loc = none ∧ ∀ pa, t.access.loc = .phys pa → s.sound pa 64) :
    s.Spawnable u lf x a b := by
  intro l hl
  obtain ⟨hfault, hhere, hsound⟩ := h (s.spawnTry lf x a b l) (List.mem_map_of_mem hl)
  have hquad : ¬(lf && decide (96 ≤ (s.B b x l).toNat)) = true := by
    intro hbad
    rw [State.spawnTry, if_pos hbad] at hfault
    cases hfault
  have htry : s.spawnTry lf x a b l = s.tryGlobal .read 64 l (s.A2 a l) := if_neg hquad
  rw [htry] at hfault
  obtain ⟨haligned, pa, sc, hpass, there⟩ := State.tryGlobal_translates hfault
  rw [htry, hpass] at hhere hsound
  refine ⟨?_, pa, sc, htry.trans hpass, haligned, ⟨sc, there⟩, hhere, hsound pa rfl⟩
  cases lf with
  | false => exact Nat.div_lt_of_lt_mul hk
  | true => simpa [State.spawnQuad] using hquad

variable {s u lf x a b}

/-- The accesses of a `task.spawn` all pass, and no comparator looks at them (R170, R263). -/
theorem State.Spawnable.allPass (h : s.Spawnable u lf x a b) (he : s.issue.exec ≠ 0) :
    s.allPass false (fun _ => 0) (s.spawnTries u lf a b x) = true := by
  have hne : s.doers u ≠ [] := by
    cases u with
    | true => simpa [State.doers] using he
    | false =>
      simp only [State.doers, he, if_false, Bool.false_eq_true]
      exact fun hnil => he ((lanesOf_eq_nil _).1 hnil)
  simp only [State.allPass, Bool.and_eq_true, bne_iff_ne, ne_eq, List.all_eq_true]
  rw [State.spawnTries_eq]
  refine ⟨by simpa using hne, fun t ht => ?_⟩
  obtain ⟨l, hl, rfl⟩ := List.mem_map.1 ht
  obtain ⟨-, pa, sc, hpass, -⟩ := h l hl
  have hunseen : s.unseen false (s.spawnTry lf x a b l).access 0 = true := by
    simp [State.unseen, State.watches, watchParts]
  rw [hunseen, hpass]
  exact ⟨⟨rfl, rfl⟩, rfl⟩

/-- The lanes' entries, each with the quad that takes it (R343). -/
def State.spawnEntries (s : State) (u lf x : Bool) (a b : Nat) : List (Nat × RqEntry) :=
  (s.doers u).map fun l => (s.spawnQuad lf b x l, s.spawned (s.party s.nextId) (s.A2 a l))

/-- What the fold over the lanes' accesses takes from each of them. -/
theorem State.spawnEntries_eq : s.spawnEntries u lf x a b =
    ((s.spawnTries u lf a b x).map (·.access)).map fun y =>
      (s.spawnQuad lf b x y.lane, s.spawned (s.party s.nextId) y.va) := by
  rw [State.spawnTries_eq, List.map_map, List.map_map]
  refine List.map_congr_left fun l _ => ?_
  obtain ⟨hlane, hva⟩ := s.spawnTry_lane_va lf x a b l
  simp only [Function.comp_apply, hlane, hva]

/-- At most 32 lanes push. -/
theorem State.doers_length (s : State) (u : Bool) : (s.doers u).length ≤ 32 := by
  unfold State.doers
  split
  · exact Nat.zero_le _
  · split
    · exact Nat.succ_le_of_lt (by decide)
    · exact (List.length_filter_le _ _).trans_eq List.length_range

/-- The pushes of a `task.spawn` behind its dispatch: every record is in its quad's queue (R131, R139, R343). -/
theorem State.Spawnable.pushed (h : s.Spawnable u lf x a b) (fs : Option Bool) (mask : Word) (hi : s.issuing = true)
    (hon : ∀ q, q < 96 → s.quadOn q = true) (hroom : Roomy s.quads 32) :
    ((s.spawnTries u lf a b x).map (·.access)).foldl
        (fun t y => t.spawn (s.party s.nextId) (s.spawnQuad lf b x) y)
        (s.dispatch fs mask none false false (.push 0 true none [])) =
      State.dispatch { s with quads := takenBy s.quads (s.spawnEntries u lf x a b) } fs mask none false false
        (.push 0 true none []) := by
  let s' : State := { s with quads := takenBy s.quads (s.spawnEntries u lf x a b) }
  let t : State := { s.onCore (·.withPushes s.issue.slot (s.pushing fs mask true none [])) with nextId := s.nextId + 1 }
  let ls := (s.spawnTries u lf a b x).map (·.access)
  have hlanes : ∀ y ∈ ls, s.spawnQuad lf b x y.lane < 96 ∧ ∃ pa, s.Record (s.party s.nextId) y.va pa := by
    intro y hy
    obtain ⟨_, ht, rfl⟩ := List.mem_map.1 hy
    rw [State.spawnTries_eq] at ht
    obtain ⟨l, hl, rfl⟩ := List.mem_map.1 ht
    obtain ⟨hq, pa, sc, hpass, hrec⟩ := h l hl
    exact ⟨by rw [hpass]; exact hq, pa, by rw [hpass]; exact hrec⟩
  have hentry : ∀ y ∈ ls, t.spawned (s.party s.nextId) y.va = s.spawned (s.party s.nextId) y.va := by
    intro y hy
    obtain ⟨-, pa, hrec⟩ := hlanes y hy
    have hread := (hrec.elsewhere t.cores s.quads t.nextId).read_eq
    rw [State.spawned, State.spawned, show t.readRecord _ _ = _ from hread, hrec.read_eq]
  have hlength : ls.length ≤ 32 := by
    simpa [ls, State.spawnTries_eq] using s.doers_length u
  have hfold := t.spawn_all (s.party s.nextId) (s.spawnQuad lf b x) hon ls
    (fun y hy => ⟨(hlanes y hy).1, (hlanes y hy).2.imp fun pa hrec => hrec.elsewhere t.cores s.quads t.nextId⟩)
    s.quads (hroom.mono hlength)
  rw [s.dispatch_pushes fs mask true none [] hi, s'.dispatch_pushes fs mask true none [] hi]
  refine hfold.trans ?_
  rw [List.map_congr_left fun y hy => congrArg (Prod.mk _) (hentry y hy), ← State.spawnEntries_eq]
  rfl

/-- No more pushes wait behind a `task.spawn` than before it. -/
theorem waitingPushes_takenBy (s t : State) (es : List (Nat × RqEntry)) (h : t.quads = takenBy s.quads es) :
    t.waitingPushes = s.waitingPushes :=
  congrArg List.sum ((congrArg (List.map (·.waiting.length)) h).trans (takenBy_waiting es s.quads))

/-- `task.spawn` where every lane names a quad with room and has a record: all pushes are taken, and the word's operation is
over (R131, R139, R343). -/
theorem taskSpawn_eq (c f : Bool) (ra rb : BitVec 7) (h : s.Spawnable u lf x ra.toNat rb.toNat) (hi : s.issuing = true)
    (he : s.issue.exec ≠ 0) (hfresh : s.fresh) (hhome : s.cur.saved = []) (hpat : s.grp.tryUntil = none)
    (hrun : s.grp.phase = .running) (ha : s.v2Ok ra.toNat = true) (hb : lf = true → s.bOk rb.toNat x = true)
    (hwait : s.releaseWait f = none) (hon : ∀ q, q < 96 → s.quadOn q = true) (hroom : Roomy s.quads 32)
    (hfree : s.roomWait 64 (s.spawnTries u lf ra.toNat rb.toNat x) = none) :
    exec (.taskSpawn c u lf f ra rb x) s =
      .next { s with quads := takenBy s.quads (s.spawnEntries u lf x ra.toNat rb.toNat), nextId := s.nextId + 1 } := by
  let s' : State := { s with quads := takenBy s.quads (s.spawnEntries u lf x ra.toNat rb.toNat) }
  have hok : (s.v2Ok ra.toNat && (!lf || s.bOk rb.toNat x)) = true := by cases lf <;> simp_all
  have hgrp : (s'.core s'.issue.core).group s'.issue.slot = some s'.grp := (s.issuing_grp hi).1
  let ls := (s.spawnTries u lf ra.toNat rb.toNat x).map (·.access)
  let t := s.dispatch (some f) (s.accessMask u ls) none false false (.push 0 true none [])
  let t' := s'.dispatch (some f) (s.accessMask u ls) none false false (.push 0 true none [])
  have hquads : t'.quads = takenBy t.quads (s.spawnEntries u lf x ra.toNat rb.toNat) := by
    rw [show t = _ from s.dispatch_pushes (some f) _ true none [] hi,
      show t' = _ from s'.dispatch_pushes (some f) _ true none [] hi]
    rfl
  change execTaskSpawn c u lf f ra rb x s = _
  rw [execTaskSpawn, hok, State.checked, if_pos rfl, hwait, Option.orElse, hfree, State.after,
    s.access_of_allPass u false (fun _ => 0) _ _ _ (h.allPass he) fun _ _ => rfl]
  refine congrArg Host.Outcome.next ?_
  change State.endPush (State.onCore (ls.foldl (fun t y => t.spawn (s.party s.nextId) (s.spawnQuad lf rb.toNat x) y) t)
    (·.modOp s.nextId (·.setPush ((ls.foldl (fun t y => t.spawn (s.party s.nextId) (s.spawnQuad lf rb.toNat x) y)
      t).waitingPushes - t.waitingPushes) true none []))) s.issue.core s.nextId = _
  rw [h.pushed (some f) _ hi hon hroom, waitingPushes_takenBy t t' _ hquads, Nat.sub_self]
  refine (s'.pushes_end (some f) _ true none [] hi hfresh hhome hrun hpat).trans ?_
  exact congrArg (fun u : State => { u with nextId := s.nextId + 1 }) (s'.onGrp_id (Group.pushed none _ []) s'.grp hgrp rfl)

end Spawn

/-- `task.spawn` pushes its lanes' records and changes nothing else (R131, R343). -/
theorem taskSpawn_pushes (s : State) (c u lf f x : Bool) (a b : BitVec 7) (hi : s.issuing = true)
    (he : s.issue.exec ≠ 0) (hfresh : s.fresh) (hhome : s.cur.saved = []) (hpat : s.grp.tryUntil = none)
    (hrun : s.grp.phase = .running) (hk : s.issue.core < 384) (ha : s.v2Ok a.toNat = true)
    (hb : lf = true → s.bOk b.toNat x = true) (hwait : s.releaseWait f = none) (hlen : s.quads.length = 96)
    (hquads : ∀ q, q < 96 → s.quadOn q = true ∧ (s.quad q).waiting = [] ∧ (s.quad q).ringLen = 0 ∧
      (s.quad q).chip.length ≤ 224)
    (hfree : s.roomWait 64 (s.spawnTries u lf a.toNat b.toNat x) = none)
    (htries : ∀ t ∈ s.spawnTries u lf a.toNat b.toNat x, t.fault = none ∧ s.beyond t.access.loc = none ∧
      ∀ pa, t.access.loc = .phys pa → s.sound pa 64) :
    ∃ t, exec (.taskSpawn c u lf f a b x) s = .next t ∧ SameMemory s t ∧ t.grp = s.grp ∧ t.cur.flight = s.cur.flight ∧
      ∀ q, q < 96 → (t.quad q).chip = (s.quad q).chip ++
        ((s.doers u).filter fun l => s.spawnQuad lf b.toNat x l == q).map fun l =>
          s.spawned (s.party s.nextId) (s.A2 a.toNat l) := by
  have hroom : Roomy s.quads 32 := ⟨hlen, fun q hq => by
    obtain ⟨-, hw, hring, hc⟩ := hquads q hq
    exact ⟨hw, hring, Nat.add_le_add_right hc 32⟩⟩
  refine ⟨_, taskSpawn_eq c f a b (s.spawnable u lf x a.toNat b.toNat hk htries) hi he hfresh hhome hpat hrun ha hb hwait
    (fun q hq => (hquads q hq).1) hroom hfree, fun _ => rfl, rfl, rfl, fun q hq => ?_⟩
  refine (takenBy_chip _ q s.quads (hlen ▸ hq)).trans (congrArg ((s.quad q).chip ++ ·) ?_)
  rw [State.spawnEntries, List.filter_map, List.map_map]
  rfl

end Sys2Proof.Machine
end

section
/-! PROOF. `task.done` (O27; R66, R344). -/

namespace Sys2Proof.Machine

/-- A group that ends its part of its task. -/
def Group.ended (g : Group) : Group := { g with partDone := true }

/-- A team whose cover takes the accesses of its group that are not performed yet (R66). -/
def State.covering (s : State) (t : Team) : Team :=
  { t with cover := t.cover ++ s.cur.before s.issue.slot s.grp.team s.grp.seen }

theorem taskDone_eq (s : State) (c : Bool) (he : s.issue.exec ≠ 0) :
    exec (.taskDone c) s = .next (s.onCore (·.partDone s.issue.slot)) := by
  change execTaskDone c s = _
  rw [execTaskDone, if_neg he]

/-- A part that is over is over once. -/
theorem taskDone_over (s : State) (c : Bool) (hi : s.issuing = true) (he : s.issue.exec ≠ 0) (h : s.grp.partDone = true) :
    exec (.taskDone c) s = .next s := by
  have hg : s.cur.group s.issue.slot = some s.grp := (s.issuing_grp hi).1
  have hsame : s.cur.partDone s.issue.slot = id s.cur := by
    rw [Core.partDone, hg]
    exact if_pos h
  rw [taskDone_eq s c he, s.onCore_congr _ id hsame, s.onCore_id id fun _ => rfl]

/-- A part that ends covers the accesses that come before its end and are not performed yet (R66, R344). -/
theorem taskDone_covers (s : State) (c : Bool) (hi : s.issuing = true) (he : s.issue.exec ≠ 0)
    (ht : s.cur.team s.grp.team ≠ none) (h : s.grp.partDone = false) :
    ∃ t, exec (.taskDone c) s = .next t ∧ SameMemory s t ∧ t.grp = s.grp.ended ∧ t.curTeam = s.covering s.curTeam ∧
      t.cur.flight = s.cur.flight := by
  have hg : s.cur.group s.issue.slot = some s.grp := (s.issuing_grp hi).1
  obtain ⟨tm, htm⟩ := Option.ne_none_iff_exists'.1 ht
  have hcur : s.curTeam = tm := by rw [State.curTeam, htm]; rfl
  let cover := fun k : Core => k.modTeam s.grp.team s.covering
  have hcore : s.cur.partDone s.issue.slot = cover (s.cur.modGroup s.issue.slot Group.ended) := by
    rw [Core.partDone, hg]
    exact if_neg (by simp [h])
  have hexec : exec (.taskDone c) s = .next ((s.onGrp Group.ended).onCore cover) := by
    rw [taskDone_eq s c he, s.onCore_congr _ (cover ∘ (·.modGroup s.issue.slot Group.ended)) hcore]
    exact congrArg Host.Outcome.next (s.modCore_modCore s.issue.core _ _).symm
  have hgroup : (cover (s.cur.modGroup s.issue.slot Group.ended)).group s.issue.slot = some s.grp.ended := by
    rw [Core.group_modTeam, Core.group_modGroup, hg]
    rfl
  have hteam : (cover (s.cur.modGroup s.issue.slot Group.ended)).team s.grp.ended.team = some (s.covering tm) := by
    refine (Core.team_modTeam _ s.grp.team s.covering fun _ => rfl).trans ?_
    rw [Core.team_modGroup, htm]
    rfl
  obtain ⟨hmem, hgrp, hcurTeam⟩ := s.onGrp_onCore_next Group.ended cover _ _ hi hgroup hteam
  refine ⟨_, hexec, hmem, hgrp, hcur ▸ hcurTeam, ?_⟩
  rw [s.cur_onGrp_onCore Group.ended cover hi]
  rfl

end Sys2Proof.Machine
end

section
/-! PROOF. `ctr.add` in the lane that acts (O27; R134, R135, R345). -/

namespace Sys2Proof.Machine

/-! ## An update of a counter record -/

section Counter

variable {s : State} {p : Party} {pa : Nat}

/-- A counter record whose data are sound, behind no access of the core, is updated in one exchange (R135). -/
theorem State.sound.ctrSwap_eq (h : s.sound pa 16) (hb : s.beyond (.phys pa) = none)
    (hq : (s.core p.core).passes s.nextId pa 8 = false) (n : Nat) (delta : Int) (err : Bool) :
    State.ctrSwap (n + 1) s p pa delta err =
      (s.performWrite pa (leBytes 8 ((s.ctrNew pa delta err).1 + (s.ctrNew pa delta err).2.1 * 2 ^ 32)),
        some (s.ctrOld pa % 2 ^ 32, BitVec.ofNat 64 (leNat (s.mem.bytes (pa + 8) 8)), (s.ctrNew pa delta err).2)) := by
  have hread : s.readAt p.core 0 p.who pa 16 = (s, some (0, s.mem.bytes pa 8 ++ s.mem.bytes (pa + 8) 8)) := by
    rw [h.readAt_eq hb, State.coreRead_zero, ← Memory.bytes_add]
    rfl
  have htake : (s.mem.bytes pa 8 ++ s.mem.bytes (pa + 8) 8).take 8 = s.mem.bytes pa 8 :=
    List.take_left' (Memory.bytes_length _ _ _)
  have hdrop : (s.mem.bytes pa 8 ++ s.mem.bytes (pa + 8) 8).drop 8 = s.mem.bytes (pa + 8) 8 :=
    List.drop_left' (Memory.bytes_length _ _ _)
  have hswap := fun new => (h.mono (show 8 ≤ 16 by decide)).swapAt_eq hb p.core s.nextId p.who (s.ctrOld pa) new hq rfl
  rw [State.ctrSwap, hread]
  simp only [htake, hdrop, show leNat (s.mem.bytes pa 8) = s.ctrOld pa from rfl, hswap, if_true]
  rfl

/-- An update of a record that names no next record where the count becomes zero is that exchange alone (R135, R136). -/
theorem State.sound.counter_eq (h : s.sound pa 16) (hb : s.beyond (.phys pa) = none)
    (hq : (s.core p.core).passes s.nextId pa 8 = false) (va : DWord) (delta : Int) (err : Bool)
    (ht : ∃ sc page m, s.translate p.space p.origin.tenant .write va.toNat = (.ok pa sc page, m))
    (hz : (s.ctrNew pa delta err).2.2 = true → leNat (s.mem.bytes (pa + 8) 8) = 0) :
    s.counter p va delta err =
      (s.performWrite pa (leBytes 8 ((s.ctrNew pa delta err).1 + (s.ctrNew pa delta err).2.1 * 2 ^ 32)),
        s.ctrOld pa % 2 ^ 32) := by
  obtain ⟨sc, page, m, ht⟩ := ht
  have hend : ¬((s.ctrNew pa delta err).2.2 = true ∧ BitVec.ofNat 64 (leNat (s.mem.bytes (pa + 8) 8)) ≠ 0) :=
    fun ⟨hzero, hnext⟩ => hnext (by rw [hz hzero]; rfl)
  rw [State.counter, State.ctrUpdate, State.look_ok _ _ _ _ _ _ _ _ _ ht]
  simp only [h.ctrSwap_eq hb hq, hend, if_false]

end Counter

/-- The bytes that an update without an error of its own writes over a count and its flag word: a count that would leave its
range stays and sets err; one that comes down to zero sets zero (R135). -/
def counterBytes (old flags : Nat) (delta : Int) : List Byte :=
  if (old : Int) + delta < 0 ∨ 2 ^ 32 ≤ (old : Int) + delta then leBytes 4 old ++ leBytes 4 (flags ||| 2 ^ 31)
  else leBytes 4 ((old : Int) + delta).toNat ++
    leBytes 4 (if delta < 0 ∧ (old : Int) + delta = 0 then flags ||| 2 ^ 30 else flags)

/-- A state in which a counter record has been updated (R135). -/
def State.counterWritten (s : State) (pa : Nat) (delta : Int) : State :=
  { s with mem := s.mem.write pa (counterBytes (leNat (s.mem.bytes pa 4)) (leNat (s.mem.bytes (pa + 4) 4)) delta) }

theorem State.counterWritten_writesAt (s : State) (pa : Nat) (delta : Int) : WritesAt s (s.counterWritten pa delta) pa
    (counterBytes (leNat (s.mem.bytes pa 4)) (leNat (s.mem.bytes (pa + 4) 4)) delta) :=
  ⟨fun _ h => Memory.read_write_in _ _ _ _ h, fun _ h => Memory.read_write_out _ _ _ _ h, rfl⟩

/-- Whether an update brings the count down to zero (R135). -/
theorem ctrWords_zero (old flags : Nat) (delta : Int) :
    (ctrWords old flags delta false).2.2 = true ↔ delta < 0 ∧ (old : Int) + delta = 0 := by
  unfold ctrWords
  dsimp only
  split
  · next hout => simp only [Bool.false_eq_true, false_iff]; omega
  · split
    · next hzero => simp only [hzero, and_self]
    · next hzero => simp only [hzero, Bool.false_eq_true]

theorem ctrWords_bytes (old flags : Nat) (delta : Int) (ho : old < 2 ^ 32) :
    leBytes 8 ((ctrWords old flags delta false).1 + (ctrWords old flags delta false).2.1 * 2 ^ 32) =
      counterBytes old flags delta := by
  have hcut : ∀ count flags : Nat, count < 2 ^ 32 → leBytes 8 (count + flags * 2 ^ 32) = leBytes 4 count ++ leBytes 4 flags :=
    fun count flags hc => by rw [← leBytes_add_mul 4 4 count flags (hc.trans_eq (by norm_num)), Nat.mul_comm]; norm_num
  unfold ctrWords counterBytes
  dsimp only
  split
  · exact hcut _ _ ho
  · next hout =>
    split
    · next hzero => rw [hzero.2]; exact hcut 0 _ (by norm_num)
    · next hzero => simp only [Bool.false_eq_true, if_false]; exact hcut _ _ (by omega)

/-! ## A core with pushes on their way -/

/-- What a core's groups hold does not tell that one of them counts one more. -/
theorem flatMap_countOn {α : Type} (h : Group → List α) (flag : Option Nat) (hh : ∀ g, h (g.countOn flag) = h g)
    (gs : List (Option Group)) : ∀ j, ((gs.modify j (Option.map (Group.countOn flag))).filterMap id).flatMap h =
      (gs.filterMap id).flatMap h := by
  induction gs with
  | nil => intro j; rw [List.modify_nil]
  | cons o gs ih =>
    intro j
    cases j with
    | zero => cases o <;> simp [hh]
    | succ j =>
      cases o with
      | none => exact ih j
      | some g => exact congrArg (h g ++ ·) (ih j)

/-- The parked lanes of a core whose group counts one more. -/
theorem Core.withPushes_watchers (c : Core) (slot : Nat) (f : Flight) : (c.withPushes slot f).watchers = c.watchers := by
  unfold Core.watchers
  rw [List.flatMap_append, List.flatMap_append]
  exact congrArg (· ++ _) (flatMap_countOn _ f.flag (fun _ => rfl) c.groups slot)

theorem Core.withPushes_cares (c : Core) (slot : Nat) (f : Flight) (pa n : Nat) :
    (c.withPushes slot f).cares pa n = c.cares pa n := by
  rw [Core.cares, c.withPushes_watchers]
  rfl

/-- Pushes have no bytes that an exchange could pass (R57). -/
theorem State.passes_pushing (s : State) (slot pa n : Nat) (fs : Option Bool) (mask : Word) (b : Bool) (d : Option Nat)
    (hfresh : s.fresh) : (s.cur.withPushes slot (s.pushing fs mask b d [])).passes (s.nextId + 1) pa n =
      s.cur.passes s.nextId pa n := by
  have hold : ∀ e ∈ s.cur.flight, decide (e.id < s.nextId + 1) = decide (e.id < s.nextId) := fun e he => by
    have := (hfresh e he).1
    simp [this, Nat.lt_succ_of_lt this]
  have hnew : (s.pushing fs mask b d []).kind.locs = [] := rfl
  change (s.cur.flight ++ [s.pushing fs mask b d []]).any _ = _
  rw [List.any_append, List.any_cons, hnew, List.any_nil, List.any_nil, Bool.and_false, Bool.or_false, Bool.or_false]
  rw [Core.passes, Bool.eq_iff_iff, List.any_eq_true, List.any_eq_true]
  exact exists_congr fun e => and_congr_right fun he => by rw [hold e he]

/-! ## The word -/

/-- A lane that acts is the one that its own operands come from (R37). -/
theorem State.from_doer (s : State) (u : Bool) (l : Nat) (h : s.doers u = [l]) : s.from u l = l := by
  cases u with
  | false => rfl
  | true =>
    by_cases he : s.issue.exec = 0
    · rw [State.doers, if_pos he] at h
      cases h
    · rw [State.doers, if_neg he] at h
      simpa [State.from] using h

/-- One lane's update in a `ctr.add` (R345). -/
def State.ctrStep (p : Party) (delta : Nat → Int) (r : State × List (Nat × Nat)) (y : LaneAccess) :
    State × List (Nat × Nat) :=
  ((r.1.counter p y.va (delta y.lane) false).1, r.2 ++ [(y.lane, (r.1.counter p y.va (delta y.lane) false).2)])

section CtrAdd

variable {s : State} {u x : Bool} {l pa : Nat}

/-- `ctr.add` in the lane that acts, up to the operation that its update stands for (R345, R360). -/
theorem ctrAdd_eq (c : Bool) (d a b : BitVec 7) (hd : s.vOk d.toNat = true) (ha : s.v2Ok a.toNat = true)
    (hb : s.bOk b.toNat x = true) (hwait : s.releaseWait false = none) (hl : s.doers u = [l])
    (h : Reaches s .write l 16 (s.A2 a.toNat l) pa) (hu : s.unwatched l)
    (hheld : s.holdFor [(false, (s.A2 a.toNat l).toNat, 8)] = none) :
    let t := s.dispatch (some false) s.issue.exec none false false (.push 0 false (some d.toNat) [])
    let r := State.ctrStep (s.party s.nextId) (fun k => (s.B b.toNat x (s.from u k)).toInt) (t, [])
      ⟨l, s.A2 a.toNat l, .phys pa, true⟩
    exec (.ctrAdd c u d a b x) s = .next ((r.1.onCore
      (·.modOp s.nextId (·.setPush (r.1.waitingPushes - t.waitingPushes) false (some d.toNat) r.2))).endPush
        s.issue.core s.nextId) := by
  obtain ⟨sc, htry⟩ := h.toLies.try_eq
  have hroom := h.room
  rw [htry] at hroom
  have hmask := (s.doers_one u l hl).2.2 ⟨l, s.A2 a.toNat l, .phys pa, true⟩ rfl
  have hpassed : passed [Try.pass l (s.A2 a.toNat l) (.phys pa) sc true] = [⟨l, s.A2 a.toNat l, .phys pa, true⟩] := rfl
  have hspan : [(⟨l, s.A2 a.toNat l, .phys pa, true⟩ : LaneAccess)].flatMap (·.span 8) =
      [(false, (s.A2 a.toNat l).toNat, 8)] := rfl
  have hsample := s.sampled_of_unwatched true 8 ⟨l, s.A2 a.toNat l, .phys pa, true⟩ hu rfl
  intro t r
  change execCtrAdd c u d a b x s = _
  rw [execCtrAdd]
  simp only [hl, List.map_cons, List.map_nil, htry, hd, ha, hb, hwait, hroom, hpassed, hspan, hheld, Option.orElse, Bool.and_self,
    State.checked, if_true, State.after, hsample]
  refine congrArg Host.Outcome.next ((s.access_one u sc l _ (.phys pa) true _ _
    (s.watchers_of_unwatched l hu true _ 8 rfl rfl _ _)).trans ?_)
  simp only [hmask]
  rfl

/-- The update that a dispatched `ctr.add` makes changes memory alone (R135, R345). -/
theorem ctrAdd_counter (fs : Option Bool) (mask : Word) (b : Bool) (d : Option Nat) (va : DWord) (delta : Int)
    (hi : s.issuing = true) (hfresh : s.fresh) (h : Reaches s .write l 16 va pa) (hplain : s.plain pa 8)
    (hq : s.cur.passes s.nextId pa 8 = false) (hz : delta < 0 ∧ (leNat (s.mem.bytes pa 4) : Int) + delta = 0 →
      leNat (s.mem.bytes (pa + 8) 8) = 0) :
    (s.dispatch fs mask none false false (.push 0 b d [])).counter (s.party s.nextId) va delta false =
      ((s.counterWritten pa delta).dispatch fs mask none false false (.push 0 b d []), leNat (s.mem.bytes pa 4)) := by
  obtain ⟨hold, hflags⟩ := s.ctrOld_words pa
  have hnew : s.ctrNew pa delta false = ctrWords (leNat (s.mem.bytes pa 4)) (leNat (s.mem.bytes (pa + 4) 4)) delta false := by
    rw [State.ctrNew, hold, hflags]
  have hlt : leNat (s.mem.bytes pa 4) < 2 ^ 32 := by
    rw [← hold]
    exact Nat.mod_lt _ (by norm_num)
  obtain ⟨-, qa, sc, htry, there⟩ := State.tryGlobal_translates h.passes
  obtain rfl : qa = pa := by
    have hplace := h.place
    rw [htry] at hplace
    exact Loc.phys.inj hplace
  let W := fun c : Core => c.withPushes s.issue.slot (s.pushing fs mask b d [])
  let t : State := { s.onCore W with nextId := s.nextId + 1 }
  have hk := s.core_lt_of_group _ _ _ (s.issuing_grp hi).1
  have hpasses : (t.core (s.party s.nextId).core).passes t.nextId qa 8 = false := by
    rw [show t.core (s.party s.nextId).core = W s.cur from s.core_modCore s.issue.core W hk]
    exact (s.passes_pushing _ _ _ fs mask b d hfresh).trans hq
  have hsound : t.sound qa 16 := ⟨h.good, h.strong⟩
  have hcounter := hsound.counter_eq (p := s.party s.nextId) h.here hpasses va delta false ⟨sc, there⟩
    fun hzero => hz ((ctrWords_zero _ _ _).1 (hnew ▸ hzero))
  have hcares : ∀ c : Core, (W c).cares qa 8 = c.cares qa 8 := fun c => c.withPushes_cares _ _ _ _
  have hfree := s.plain_modCore s.issue.core qa 8 W hcares hplain
  have hwrite : ∀ n, t.performWrite qa (leBytes 8 n) = { t with mem := s.mem.write qa (leBytes 8 n) } := fun n =>
    t.performWrite_plain qa _ (by rw [leBytes_length]; exact ⟨hfree.unwatched, hfree.bad, hfree.weak⟩)
  rw [s.dispatch_pushes fs mask b d [] hi, (s.counterWritten qa delta).dispatch_pushes fs mask b d [] hi]
  refine hcounter.trans (Prod.ext ?_ hold)
  refine (hwrite _).trans ?_
  rw [show t.ctrNew qa delta false = s.ctrNew qa delta false from rfl, hnew, ctrWords_bytes _ _ _ hlt]
  rfl

end CtrAdd

/-- `ctr.add` in the lane that acts: the record changes in memory, and the executing lanes take the count that was read (R134,
R135, R345). -/
theorem ctrAdd_updates (s : State) (c u x : Bool) (d a b : BitVec 7) (l pa : Nat) (hi : s.issuing = true)
    (hfresh : s.fresh) (hhome : s.cur.saved = []) (hpat : s.grp.tryUntil = none) (hrun : s.grp.phase = .running)
    (hd : s.vOk d.toNat = true) (ha : s.v2Ok a.toNat = true)
    (hb : s.bOk b.toNat x = true) (hwait : s.releaseWait false = none) (hl : s.doers u = [l])
    (h : Reaches s .write l 16 (s.A2 a.toNat l) pa) (hu : s.unwatched l) (hplain : s.plain pa 8)
    (hq : s.cur.passes s.nextId pa 8 = false) (hheld : s.holdFor [(false, (s.A2 a.toNat l).toNat, 8)] = none)
    (hz : (s.B b.toNat x l).toInt < 0 ∧ (leNat (s.mem.bytes pa 4) : Int) + (s.B b.toNat x l).toInt = 0 →
      leNat (s.mem.bytes (pa + 8) 8) = 0) :
    ∃ p t, exec (.ctrAdd c u d a b x) s = .next t ∧
      WritesAt s p pa (counterBytes (leNat (s.mem.bytes pa 4)) (leNat (s.mem.bytes (pa + 4) 4)) (s.B b.toNat x l).toInt) ∧
      Vectors { p with nextId := p.nextId + 1 } t d.toNat 1 s.issue.exec
        (fun _ _ => BitVec.ofNat 32 (leNat (s.mem.bytes pa 4))) 0 := by
  let old := leNat (s.mem.bytes pa 4)
  let p := s.counterWritten pa (s.B b.toNat x l).toInt
  let t := p.dispatch (some false) s.issue.exec none false false (.push 0 false (some d.toNat) [])
  have hupdate := ctrAdd_counter (some false) s.issue.exec false (some d.toNat) _ _ hi hfresh h hplain hq hz
  have hquads : t.waitingPushes = (s.dispatch (some false) s.issue.exec none false false
      (.push 0 false (some d.toNat) [])).waitingPushes := by
    rw [s.dispatch_pushes _ _ _ _ _ hi, show t = _ from p.dispatch_pushes _ _ _ _ _ hi]
    rfl
  have hend := p.pushes_end (some false) s.issue.exec false (some d.toNat) [(l, old)] hi hfresh hhome hrun hpat
  have hexec := ctrAdd_eq c d a b hd ha hb hwait hl h hu hheld
  simp only [State.ctrStep, s.from_doer u l hl, hupdate, List.nil_append] at hexec
  rw [show State.waitingPushes (State.dispatch (s.counterWritten pa _) _ _ _ _ _ _) = _ from hquads, Nat.sub_self] at hexec
  obtain ⟨hrow, hlen⟩ := s.issuing_rows hi
  refine ⟨p, _, hexec.trans (congrArg Host.Outcome.next hend), s.counterWritten_writesAt pa _, ?_⟩
  refine State.setWords_vectors { p with nextId := p.nextId + 1 } d.toNat 1 (pushValue [(l, old)]) _ (s.issuing_grp hi).1
    hrow ?_ fun i k hi1 _ => ?_
  · rw [show (State.grp { p with nextId := p.nextId + 1 }).rf.v.length = s.issue.src.v.length from hlen]
    simpa [State.vOk] using hd
  · obtain rfl : i = 0 := Nat.lt_one_iff.1 hi1
    have hvalue : pushValue [(l, old)] k = old := rfl
    rw [hvalue, wordOf, Nat.mul_zero, pow_zero, Nat.div_one]

/-- Settles O27: the pushes and the update of a word all happen as it is dispatched, so that its operation ends at once; an end
of a part covers what is not performed yet. -/
theorem taskWords : Obligations.TaskWords := by
  unfold Obligations.TaskWords
  intro s c u lf f x d a b hi he hfresh hhome hpat hrun hk
  refine ⟨fun ha hb hwait hlen hquads hfree htries => ?spawn, taskDone_over s c hi he, taskDone_covers s c hi he,
    fun l pa hd ha hb hwait hl h hu hplain hq hheld => ?add⟩
  case spawn => exact taskSpawn_pushes s c u lf f x a b hi he hfresh hhome hpat hrun hk ha hb hwait hlen hquads hfree htries
  case add =>
    intro old flags delta new out zero hz
    exact ctrAdd_updates s c u x d a b l pa hi hfresh hhome hpat hrun hd ha hb hwait hl h hu hplain hq hheld hz

end Sys2Proof.Machine
end

section
/-! PROOF. Every row of the opcode table answers a next state (O55). -/

namespace Sys2Proof.Machine

/-- What an instruction makes of a state is a next state. -/
def Result.Answers (r : Result) : Prop := ∃ t, r = .next t

theorem Result.Answers.ite {p : Prop} [Decidable p] {r q : Result} (hr : r.Answers) (hq : q.Answers) :
    (if p then r else q).Answers := by
  split <;> assumption

theorem State.wide_answers (s : State) (u : Bool) (d : Nat) (k : Bool) (a b : Nat) (x : Bool) (f : DWord → DWord → DWord) :
    Result.Answers (s.wide u d k a b x f) :=
  .ite ⟨_, rfl⟩ ⟨_, rfl⟩

theorem execCmp64_answers (c u : Bool) (n : BitVec 4) (p : BitVec 3) (k : Bool) (a : BitVec 6) (b : BitVec 7) (x : Bool)
    (s : State) : Result.Answers (execCmp64 c u n p k a b x s) :=
  .ite ⟨_, rfl⟩ ⟨_, rfl⟩

theorem execClause_answers (w : BitVec 12) (a b : BitVec 4) (va vb : Bool) (s : State) :
    Result.Answers (execClause w a b va vb s) :=
  .ite ⟨_, rfl⟩ (.ite ⟨_, rfl⟩ ⟨_, rfl⟩)

theorem execRdsr_answers (c u : Bool) (d k : BitVec 7) (m : BitVec 8) (s : State) :
    Result.Answers (execRdsr c u d k m s) :=
  .ite ⟨_, rfl⟩ ⟨_, rfl⟩

theorem execWrsr_answers (c u : Bool) (k a : BitVec 7) (m : BitVec 8) (s : State) :
    Result.Answers (execWrsr c u k a m s) :=
  .ite ⟨_, rfl⟩ ⟨_, rfl⟩

theorem execRoleGive_answers (c u : Bool) (n : BitVec 15) (s : State) : Result.Answers (execRoleGive c u n s) :=
  .ite ⟨_, rfl⟩ ⟨_, rfl⟩

/-- A `vote` of any form, the forms that R231 does not name included. -/
theorem execVote_answers (c u : Bool) (d : BitVec 7) (f p : BitVec 3) (s : State) :
    Result.Answers (execVote c u d f p s) := by
  unfold execVote
  dsimp only
  split
  all_goals exact ⟨_, rfl⟩

/-- Settles O55: the meaning of each row ends in a next state on every path: at once, or behind the choice of a word between waiting and
going on, or between its forms. -/
theorem everyInstructionAnswersNext : Obligations.EveryInstructionAnswersNext := by
  intro i s
  change Result.Answers (exec i s)
  cases i <;> dsimp only [exec]
  case clause => exact execClause_answers ..
  case vote => exact execVote_answers ..
  case cmp64 => exact execCmp64_answers ..
  case add64 | sub64 | mul64 | shl64 | shr64 => exact s.wide_answers ..
  case rdsr => exact execRdsr_answers ..
  case wrsr => exact execWrsr_answers ..
  case roleGive => exact execRoleGive_answers ..
  all_goals exact ⟨_, rfl⟩

end Sys2Proof.Machine
end

section
/-! SUPPORT. The measurement log of bring-up (O54; R458, R459): its entries, and what laying it down makes of memory. -/

namespace Sys2Proof.Machine

/-! ## Lengths of digests and entries -/

theorem shaRound_length (h : List Word) (kw : Word × Word) : (shaRound h kw).length = h.length := by
  unfold shaRound
  split <;> rfl

theorem foldl_shaRound_length (l : List (Word × Word)) (h : List Word) : (l.foldl shaRound h).length = h.length := by
  induction l generalizing h with
  | nil => rfl
  | cons kw l ih => rw [List.foldl_cons, ih, shaRound_length]

theorem shaBlock_length (h : List Word) (b : List Byte) : (shaBlock h b).length = h.length := by
  simp only [shaBlock, List.length_map, List.length_zip, foldl_shaRound_length, Nat.min_self]

theorem shaBlocks_length (n : Nat) (h : List Word) (bs : List Byte) : (shaBlocks n h bs).length = h.length := by
  induction n generalizing h bs with
  | zero => rfl
  | succ n ih =>
    unfold shaBlocks
    split
    · rfl
    · rw [ih, shaBlock_length]

/-- A digest has 32 bytes, whatever is digested (R458). -/
theorem sha256_length (bs : List Byte) : (sha256 bs).length = 32 := by
  have hwords : (shaBlocks ((shaPad bs).length / 64) shaStart (shaPad bs)).length = 8 := shaBlocks_length _ _ _
  simp [sha256, List.length_flatMap, hwords]

theorem secret_length (what : Nat) (bs : List Byte) (n : Nat) : (secret what bs n).length = n := by
  simp [secret]

/-- An entry of the log has 48 bytes (R459). -/
theorem logEntry_length (kind index svn : Nat) (digest : List Byte) (h : digest.length = 32) :
    (logEntry kind index svn digest).length = 48 := by
  simp [logEntry, h]

/-! ## A package of which nothing watches memory -/

/-- No core of a package that has been reset cares for a byte, and no byte is in error. -/
theorem State.plain_of_reset (s : State) (pa n : Nat) (hc : s.cores = State.reset.cores) (hb : s.bad = [])
    (hw : s.weak = []) : s.plain pa n := by
  refine ⟨fun c hmem => ?_, by simp [hb], by simp [hw]⟩
  rw [hc] at hmem
  obtain rfl := List.eq_of_mem_replicate hmem
  rfl

theorem State.deviceWrite_plain (s : State) (pa : Nat) (bs : List Byte) (h : s.plain pa bs.length) :
    s.deviceWrite pa bs = { s with mem := s.mem.write pa bs } := by
  have hmask : s.masksBad pa bs.length = false :=
    s.masksBad_covered pa _ fun w hw ho => absurd ho (by simp [h.bad w hw])
  rw [State.deviceWrite, hmask, if_neg Bool.false_ne_true, s.performWrite_plain pa bs h]

/-! ## Laying down the log -/

/-- Memory `m` holds the entries `es` one behind another from `pa` on, and elsewhere what `old` holds. -/
structure Memory.HoldsLog (old m : Memory) (pa : Nat) (es : List (List Byte)) : Prop where
  entries : m.bytes pa (48 * es.length) = es.flatten
  others : ∀ a, ¬(pa ≤ a ∧ a < pa + 48 * es.length) → m.read a = old.read a

theorem Memory.HoldsLog.nil (m : Memory) (pa : Nat) : m.HoldsLog m pa [] := ⟨rfl, fun _ _ => rfl⟩

/-- A log that starts behind an entry makes with it one log. -/
theorem Memory.HoldsLog.cons {old m : Memory} {pa : Nat} {e : List Byte} {es : List (List Byte)} (he : e.length = 48)
    (h : (old.write pa e).HoldsLog m (pa + 48) es) : old.HoldsLog m pa (e :: es) := by
  have hlen : 48 * (e :: es).length = 48 + 48 * es.length := by rw [List.length_cons]; omega
  have hfirst : m.bytes pa 48 = e := by
    calc m.bytes pa 48 = (old.write pa e).bytes pa 48 :=
          List.map_congr_left fun i hi => h.others _ (by have := List.mem_range.1 hi; omega)
      _ = e := by rw [← he]; exact Memory.bytes_write _ _ _
  refine ⟨?_, fun a ha => ?_⟩
  · rw [hlen, Memory.bytes_add, hfirst, h.entries, List.flatten_cons]
  · rw [h.others a (by omega)]
    exact Memory.read_write_out _ _ _ _ (by omega)

theorem State.appendLog_plain (s : State) (e : List Byte) (h : ∀ pa n, s.plain pa n) : s.appendLog e = { s with
    mem := s.mem.write (s.host.logAt + 48 * s.host.log.length) e, host := { s.host with log := s.host.log ++ [e] } } := by
  rw [State.appendLog, s.deviceWrite_plain _ e (h _ _)]

/-- Entries appended one after another change the log, and memory where it ends (R459). -/
theorem State.foldl_appendLog (es : List (List Byte)) (hes : ∀ e ∈ es, e.length = 48) (s : State)
    (h : ∀ pa n, s.plain pa n) :
    ∃ m, es.foldl State.appendLog s = { s with mem := m, host := { s.host with log := s.host.log ++ es } } ∧
      s.mem.HoldsLog m (s.host.logAt + 48 * s.host.log.length) es := by
  induction es generalizing s with
  | nil => exact ⟨s.mem, by simp only [List.append_nil, List.foldl_nil], .nil _ _⟩
  | cons e es ih =>
    obtain ⟨he, hes⟩ := List.forall_mem_cons.1 hes
    rw [List.foldl_cons, s.appendLog_plain e h]
    obtain ⟨m, hfold, hlog⟩ := ih hes
      { s with
        mem := s.mem.write (s.host.logAt + 48 * s.host.log.length) e
        host := { s.host with log := s.host.log ++ [e] } }
      fun pa n => ⟨(h pa n).unwatched, (h pa n).bad, (h pa n).weak⟩
    rw [List.length_append, List.length_singleton, Nat.mul_add, ← Nat.add_assoc] at hlog
    exact ⟨m, by simp only [hfold, List.append_assoc, List.singleton_append], hlog.cons he⟩

/-- The log of bring-up stands where the firmware has placed it (R459). -/
theorem State.placeLog_eq (s : State) (h : ∀ pa n, s.plain pa n) (hes : ∀ e ∈ s.host.log, e.length = 48) :
    ∃ m pa, s.placeLog = { s with mem := m, choice := s.choice + 1, host := { s.host with logAt := pa } } ∧
      s.mem.HoldsLog m pa s.host.log := by
  have hplaced : ∀ pa, ∃ m, s.host.log.foldl State.appendLog
        { s with choice := s.choice + 1, host := { s.host with logAt := pa, log := [] } } =
        { s with mem := m, choice := s.choice + 1, host := { s.host with logAt := pa } } ∧
      s.mem.HoldsLog m pa s.host.log := fun pa =>
    State.foldl_appendLog s.host.log hes { s with choice := s.choice + 1, host := { s.host with logAt := pa, log := [] } }
      fun pa n => ⟨(h pa n).unwatched, (h pa n).bad, (h pa n).weak⟩
  obtain ⟨m, hfold, hlog⟩ := hplaced (s.localPa (leNat (s.freeBytes 4) % 2 ^ 30 / 64 * 64))
  exact ⟨m, _, hfold, hlog⟩

/-! ## Bring-up -/

/-- The ports that train change the ports alone (R448). -/
theorem State.foldl_modPort (l : List (Training × Nat)) (f : State → Training × Nat → Port → Port) (s : State) :
    ∃ ps, l.foldl (fun s x => s.modPort x.2 (f s x)) s = { s with fabric := { s.fabric with ports := ps } } := by
  induction l generalizing s with
  | nil => exact ⟨_, rfl⟩
  | cons x l ih => exact ih (s.modPort x.2 (f s x))

/-- What the steps 5 to 7 of bring-up leave behind (R397). -/
structure BroughtUp (s u : State) (t : BringUp) (slotB : Bool) : Prop where
  status : u.host.bootStatus = bootStatus 7 0 0 slotB true
  link : u.host.up = (t.rate != 0 && t.width != 0)
  node : u.fabric.fnode = s.boot.node
  locked : u.mc.klock = 1
  log : u.host.log = s.host.log
  memory : s.mem.HoldsLog u.mem u.host.logAt s.host.log
  cores : u.cores = s.cores
  quads : u.quads = s.quads

theorem State.bringLinks_broughtUp (s : State) (t : BringUp) (slotB : Bool) (h : ∀ pa n, s.plain pa n)
    (hes : ∀ e ∈ s.host.log, e.length = 48) : BroughtUp s (s.bringLinks t slotB) t slotB := by
  obtain ⟨ps, hports⟩ := State.foldl_modPort t.ports.zipIdx (fun s x q => q.train s.node x.1)
    { s with
      host := { s.host with up := t.rate != 0 && t.width != 0 }
      fabric := { s.fabric with fnode := s.boot.node } }
  rw [show s.bringLinks t slotB = _ from congrArg
    (fun v : State => (v.lockFrames.placeLog.publishInfo t).setBoot (bootStatus 7 0 0 slotB true)) hports]
  generalize hlocked : State.lockFrames _ = v
  obtain ⟨m, pa, hplaced, hlog⟩ := v.placeLog_eq
    (fun pa n => by subst hlocked; exact ⟨(h pa n).unwatched, (h pa n).bad, (h pa n).weak⟩) (by subst hlocked; exact hes)
  rw [hplaced]
  subst hlocked
  exact ⟨rfl, rfl, rfl, rfl, rfl, hlog, rfl, rfl⟩

/-- What bring-up measures of an image: the image, and each of the 24 dies under it (R458, R459). -/
def measuredLog (img : List Byte) : List (List Byte) :=
  logEntry 1 0 (leNat ((img.drop 8).take 8)) (sha256 img) ::
    (List.range 24).map fun i => logEntry 2 i 0 (secret 5 (leBytes 4 i ++ img) 32)

theorem measuredLog_length (img : List Byte) : (measuredLog img).length = 25 := by
  simp [measuredLog]

theorem length_of_mem_measuredLog (img : List Byte) : ∀ e ∈ measuredLog img, e.length = 48 := by
  refine List.forall_mem_cons.2 ⟨logEntry_length _ _ _ _ (sha256_length _), fun e he => ?_⟩
  obtain ⟨i, -, rfl⟩ := List.mem_map.1 he
  exact logEntry_length _ _ _ _ (secret_length _ _ _)

/-- The package once bring-up has measured an image that it has accepted (R458, R459). -/
def State.measured (s : State) (img : List Byte) : State :=
  { s with boot := s.boot.raise img, host := { s.host with log := measuredLog img } }

/-- POWER_GOOD with an image in slot A that the boot ROM accepts, and memory that comes up: the steps behind the measurement
follow (R397). -/
theorem State.bringUp_slotA (s : State) (t : BringUp) (ha : s.boot.accepts s.boot.slotA) (hh : t.hbmFail = none)
    (ht : t.tierFail = none) : s.bringUp t = (s.measured s.boot.slotA).bringLinks t false := by
  simp only [State.bringUp, ha, hh, ht, Bool.not_true, Bool.false_eq_true, if_false]
  rfl

/-- POWER_GOOD without an image that the boot ROM accepts: bring-up stops in its first stage (R397, R398). -/
theorem State.bringUp_refused (s : State) (t : BringUp) (ha : s.boot.accepts s.boot.slotA = false)
    (hb : s.boot.accepts s.boot.slotB = false) : s.bringUp t = s.stopBoot 0x01010000 := by
  simp [State.bringUp, ha, hb, bootStatus]

@[simp] theorem Boot.raise_node (b : Boot) (img : List Byte) : (b.raise img).node = b.node := by
  simp only [Boot.raise]
  split <;> rfl

end Sys2Proof.Machine
end

section
/-! SUPPORT and PROOF. The debug interface and the resets (O54). -/

namespace Sys2Proof.Machine

/-! ## Barrier waits that a release of the core ends -/

/-- The group in a slot of a core of which every group is changed. -/
theorem Core.group_map (c : Core) (f : Group → Group) (j : Nat) :
    Core.group { c with groups := c.groups.map (Option.map f) } j = (c.group j).map f := by
  simp only [Core.group, List.getD_eq_getElem?_getD, List.getElem?_map]
  cases c.groups[j]? <;> rfl

/-- The groups of a core that wait at no barrier are as before (R168, R351). -/
theorem State.catchUp_idle (s : State) (k : Nat) (h : ∀ i g, (s.core k).group i = some g → g.barWait = none) :
    s.catchUp k = s := by
  have hgroups : (s.core k).groups.map (Option.map fun g => match g.barWait with
      | some w => g.endWait w.scope.toNat w.num.toNat (s.barrier k w.scope.toNat w.num.toNat).completions s.nextId
      | none => g) = (s.core k).groups := by
    conv => rhs; rw [← List.map_id (s.core k).groups]
    refine List.map_congr_left fun x hx => ?_
    cases x with
    | none => rfl
    | some g =>
      obtain ⟨i, hi, hg⟩ := List.getElem_of_mem hx
      have hwait := h i g (by rw [Core.group, List.getD_eq_getElem _ _ hi, hg])
      simp only [Option.map_some, hwait, id]
  refine (State.modCore_congr s k _ id ?_).trans (by simp [State.modCore, List.modify_id])
  exact congrArg (fun gs => { s.core k with groups := gs }) hgroups

/-- DEBUG_RELEASE leaves a core on which no group waits at a barrier running (R168). -/
theorem debugRelease_idle (s : State) (k : Nat) (h : ∀ i g, (s.core k).group i = some g → g.barWait = none) :
    exec (.debugRelease k) s = .next (s.modCore k fun c => { c with halted := false, quiescent := false }) := by
  refine congrArg Host.Outcome.next (State.catchUp_idle _ k fun i g hg => h i g ?_)
  by_cases hk : k < s.cores.length
  · rw [State.core_modCore _ _ _ hk] at hg
    exact hg
  · exact absurd (State.core_lt_of_group _ _ _ _ hg) (by simpa [State.modCore] using hk)

/-- A group that has waited at a barrier that completed while its core stood still goes on behind it (R351). -/
theorem Group.endWait_completed (g : Group) (w : BarWait) (x count : Word) (upto : Nat) (hr : g.phase = .running)
    (hw : g.barWait = some w) (ht : w.token = some x) (hx : x ≠ count) :
    g.endWait w.scope.toNat w.num.toNat count upto = { g with barWait := none, seen := upto } := by
  simp [Group.endWait, hr, hw, ht, hx]

theorem debugRelease_completed (s : State) (k j : Nat) (g : Group) (w : BarWait) (x : Word)
    (hg : (s.core k).group j = some g) (hr : g.phase = .running) (hw : g.barWait = some w) (ht : w.token = some x)
    (hx : x ≠ (s.barrier k w.scope.toNat w.num.toNat).completions) :
    ∃ u, exec (.debugRelease k) s = .next u ∧ SameMemory s u ∧ (u.core k).halted = false ∧
      (u.core k).group j = some { g with barWait := none, seen := s.nextId } := by
  have hk := s.core_lt_of_group k j g hg
  have hcore := s.core_modCore k (fun c => { c with halted := false, quiescent := false }) hk
  have hbar : (s.modCore k fun c => { c with halted := false, quiescent := false }).barrier k w.scope.toNat w.num.toNat =
      s.barrier k w.scope.toNat w.num.toNat := by
    unfold State.barrier
    rw [hcore]
    rfl
  refine ⟨_, rfl, fun _ => rfl, ?_, ?_⟩
  · rw [State.catchUp, State.core_modCore _ _ _ (by simpa [State.modCore] using hk), hcore]
  · rw [State.catchUp, State.core_modCore _ _ _ (by simpa [State.modCore] using hk), hcore, Core.group_map]
    have hslot : Core.group { s.core k with halted := false, quiescent := false } j = some g := hg
    simp only [hslot, Option.map_some, hw, hbar]
    exact congrArg some (g.endWait_completed w x _ _ hr hw ht hx)

/-! ## A core that stands still -/

theorem debugQuiescent_at_rest (s : State) (k : Nat) (hh : (s.core k).halted)
    (hf : ∀ f ∈ (s.core k).flight, (∃ a b c d, f.kind = .arrive a b c d) ∨ ∃ a b c d, f.kind = .push a b c d)
    (hr : (s.core k).runs = []) (hm : ∀ i, s.midBundle k i = false) :
    exec (.debugQuiescent k) s = .next (s.modCore k fun c => { c with quiescent := true }) := by
  have hidle : (s.core k).flight.any (·.kind.busy) = false := by
    refine List.any_eq_false.2 fun f hmem => ?_
    rcases hf f hmem with ⟨a, b, c, d, hkind⟩ | ⟨a, b, c, d, hkind⟩
    all_goals simp [hkind, FlightKind.busy]
  refine congrArg Host.Outcome.next (if_pos ?_)
  simp [hh, hidle, hr, hm]

/-- A read through the debug interface shows what stands at a quiescent core's group, and nothing else changes (R168). -/
theorem debugReads (s : State) (k j r l o n : Nat) (g : Group) (hq : (s.core k).quiescent) (hg : (s.core k).group j = some g) :
    exec (.debugAccess k (.readV j r l)) s = .next (s.debugData (leBytes 4 (g.rf.rv r l).toNat)) ∧
    exec (.debugAccess k (.readVpc j l)) s = .next (s.debugData (leBytes 4 (g.lane l).vpc.toNat)) ∧
    exec (.debugAccess k (.readGroup j o n)) s = .next (s.debugData
      (((g.image j (((s.core k).team g.team).getD Team.blank).origin.lseq false).drop o).take n)) := by
  refine ⟨?_, ?_, ?_⟩
  all_goals simp [exec, execDebugAccess, hq, hg]

/-- A comparator that compares is set as it is given (R170, R356). -/
theorem State.setWatch_on (s : State) (k n : Nat) (w : Comparator) (h : w.access ≠ 0) :
    s.setWatch k n w = s.modCore k fun c => { c with watch := c.watch.set n w } := by
  simp only [State.setWatch, if_neg h]

/-- A line that was requested first arrives (R468). -/
theorem prefetchFill_first (s : State) (k n a : Nat) (rest : List (Nat × Nat × Bool))
    (h : (s.core k).pref = (n, a, false) :: rest) :
    exec (.prefetchFill k n) s = .next (s.modCore k fun c => { c with pref := rest ++ [(n, a, true)] }) := by
  refine congrArg Host.Outcome.next (State.modCore_congr s k _ _ ?_)
  simp [h]

/-! ## The resets -/

theorem State.rebooted_plain (s : State) (pa n : Nat) : s.rebooted.plain pa n := State.plain_of_reset _ pa n rfl rfl rfl

theorem powerGood_slotA (s : State) (b : BringUp) (ha : s.boot.accepts s.boot.slotA) (hh : b.hbmFail = none)
    (ht : b.tierFail = none) :
    ∃ u, exec (.powerGood b) s = .next u ∧
      u.host.bootStatus = 0x07000001 ∧ u.host.up = (b.rate != 0 && b.width != 0) ∧ u.fabric.fnode = s.boot.node ∧
      u.mc.klock = 1 ∧ u.host.log.length = 25 ∧ u.mem.bytes u.host.logAt (48 * 25) = u.host.log.flatten ∧
      (∀ a, ¬(u.host.logAt ≤ a ∧ a < u.host.logAt + 48 * 25) → u.mem.read a = s.rebooted.mem.read a) ∧
      u.cores = State.reset.cores ∧ u.quads = State.reset.quads := by
  have hup := State.bringLinks_broughtUp (s.rebooted.measured s.boot.slotA) b false
    (fun pa n => State.plain_of_reset _ pa n rfl rfl rfl) (length_of_mem_measuredLog _)
  have hlog : (s.rebooted.measured s.boot.slotA).host.log.length = 25 := measuredLog_length s.boot.slotA
  obtain ⟨hentries, hothers⟩ := hup.memory
  rw [hlog] at hentries hothers
  refine ⟨_, congrArg Host.Outcome.next (State.bringUp_slotA s.rebooted b ha hh ht), hup.status, hup.link,
    hup.node.trans (Boot.raise_node _ _), hup.locked, ?length, ?entries, hothers, hup.cores, hup.quads⟩
  case length => exact (congrArg List.length hup.log).trans hlog
  case entries => exact hentries.trans (congrArg List.flatten hup.log.symm)

/-- Settles O54: what the debug interface does is done to the one core or group that it names; a reset leaves the reset state, from which
bring-up goes on to its last stage or stops in its first. -/
theorem debugAndReset : Obligations.DebugAndReset := by
  unfold Obligations.DebugAndReset
  intro s k o n t r l j v tag bs b
  refine ⟨rfl, debugRelease_idle s k, debugRelease_completed s k j, debugQuiescent_at_rest s k, fun hq => ?access,
    fun access data tenant base len value mask ha => ?comparator, fun a rest => prefetchFill_first s k n a rest, rfl,
    fun ha hb => ?refused, fun ha hh ht => powerGood_slotA s b ha hh ht⟩
  case access =>
    have hopen : ∀ u : State, (if (!(s.core k).quiescent) = true then s else u) = u := fun u => by simp [hq]
    refine ⟨congrArg Host.Outcome.next (hopen _), congrArg Host.Outcome.next (hopen _), congrArg Host.Outcome.next (hopen _),
      congrArg Host.Outcome.next (hopen _), congrArg Host.Outcome.next (hopen _), fun g hg => debugReads s k j r l o n g hq hg⟩
  case comparator => exact congrArg Host.Outcome.next (s.setWatch_on k n _ ha)
  case refused => exact congrArg Host.Outcome.next (State.bringUp_refused s.rebooted b ha hb)

end Sys2Proof.Machine
end

section
/-! PROOF. A group whose report says that it has exited (O47). -/

namespace Sys2Proof.Machine

/-- A `trap` reported of a group that has exited: such a report lets no group wait for its record (R133, R417). -/
def exitedReport : Report :=
  { cause := .softwareTrap, pc := 3, mask := 1, unfin := 0, va := 0, code := 7, imprecise := false, exited := true, pages := [],
    comps := [], after := 4, tick := 0 }

/-- The group that stands at the checkpoint with that report. -/
def exitedGroup : Group := { Group.blank with report := some exitedReport }

/-- Its run-ahead, which has ended. -/
def exitedRun : RunAhead := ⟨0, exitedGroup, 5, [], [0x3000], true⟩

/-- The group in slot 0 of core 0. -/
def exitedCore : State :=
  { State.reset with cores :=
    { Core.reset with groups := [some exitedGroup], runs := [exitedRun] } :: List.replicate 383 Core.reset }

/-- Whose the oldest record is that waits for the fault queue. -/
def oldestOwner (r : Result) : Option (Option (Nat × Nat)) :=
  match r with
  | .next t => t.fq.pending.head?.map (·.1)
  | _ => none

/-- The record waits for nobody. -/
theorem runAheadEnd_exitedCore : oldestOwner (exec (.runAheadEnd 0 0) exitedCore) = some none := by
  decide +kernel

theorem exitedCore_plain (pa n : Nat) : exitedCore.plain pa n := by
  refine ⟨fun c hc => ?_, (fun _ hw => nomatch hw), (fun _ hw => nomatch hw)⟩
  rcases List.mem_cons.1 hc with rfl | hc
  · rfl
  · rw [List.eq_of_mem_replicate hc]
    rfl

/-- Refutes O47: the record of a report whose exited bit is set belongs to no group (R133, R417), which nothing in the statement
excludes; `exitedCore` meets every hypothesis, and there the record's owner is none where the statement asks for slot 0 of
core 0. -/
theorem not_switchOut : ¬ Obligations.SwitchOut := by
  unfold Obligations.SwitchOut
  intro h
  obtain ⟨t, -, hexec, -, -, -, -, -, -, -, -, -, -, pending, -⟩ :=
    h exitedCore 0 0 exitedRun exitedGroup exitedReport (by decide +kernel) rfl (by decide +kernel) rfl rfl rfl rfl rfl rfl rfl rfl
      (exitedCore_plain _ _)
  have owner := runAheadEnd_exitedCore
  rw [hexec, oldestOwner, pending] at owner
  exact absurd owner (by decide)

end Sys2Proof.Machine
end

section
/-! SUPPORT. Writes of the device's own on a calm package (O48): nothing is in error, and no residency is on the move. -/

namespace Sys2Proof.Machine

/-- No migration is pending and no data are in error: a write of the device's own is made, and breaks nothing off (R103, R436). -/
structure State.Calm (s : State) : Prop where
  unmoved : s.unmoved
  good : s.bad = []

theorem State.Calm.deviceWrite {s : State} (h : s.Calm) (pa : Nat) (bs : List Byte) : s.deviceWrite pa bs = s.rawWrite pa bs := by
  have hmask : s.masksBad pa bs.length = false := s.masksBad_covered pa _ (by simp [h.good])
  rw [State.deviceWrite, hmask, if_neg Bool.false_ne_true, State.performWrite_unmoved h.unmoved]

/-- Of core `k` the residencies, the rechecks and the operations in flight alone may differ, and a calm package is still calm. -/
structure CoreFrame (k : Nat) (s t : State) : Prop where
  core : ∃ es ws fs, t.core k = { s.core k with res := es, rechecks := ws, flight := fs }
  length : t.cores.length = s.cores.length
  calm : s.Calm → t.Calm

namespace CoreFrame

variable {k : Nat} {s t u : State}

/-- A change outside the cores. -/
theorem of_cores (hc : t.cores = s.cores) (hb : t.bad = s.bad) : CoreFrame k s t := by
  refine ⟨⟨_, _, _, congrArg (·.getD k Core.reset) hc⟩, congrArg List.length hc, fun h => ⟨?_, hb.trans h.good⟩⟩
  unfold State.unmoved
  rw [hc]
  exact h.unmoved

theorem refl : CoreFrame k s s := of_cores rfl rfl

theorem trans (h : CoreFrame k s t) (h' : CoreFrame k t u) : CoreFrame k s u := by
  obtain ⟨es, ws, fs, hc⟩ := h.core
  obtain ⟨es', ws', fs', hc'⟩ := h'.core
  exact ⟨⟨es', ws', fs', by rw [hc', hc]⟩, h'.length.trans h.length, fun hs => h'.calm (h.calm hs)⟩

/-- Steps each of which keeps the frame of a calm package. -/
theorem foldl {α : Type} {l : List α} {f : State → α → State} (hs : s.Calm) (hf : ∀ t a, t.Calm → CoreFrame k t (f t a)) :
    CoreFrame k s (l.foldl f s) := by
  induction l generalizing s with
  | nil => exact refl
  | cons a l ih =>
    have h := hf s a hs
    exact h.trans (ih (h.calm hs))

theorem regs (h : CoreFrame k s t) : (t.core k).regs = (s.core k).regs := by
  obtain ⟨es, ws, fs, hc⟩ := h.core
  rw [hc]

theorem teams (h : CoreFrame k s t) : (t.core k).teams = (s.core k).teams := by
  obtain ⟨es, ws, fs, hc⟩ := h.core
  rw [hc]

theorem saved (h : CoreFrame k s t) : (t.core k).saved = (s.core k).saved := by
  obtain ⟨es, ws, fs, hc⟩ := h.core
  rw [hc]

theorem tiles (h : CoreFrame k s t) : (t.core k).tiles = (s.core k).tiles := by
  obtain ⟨es, ws, fs, hc⟩ := h.core
  rw [hc]

theorem groups (h : CoreFrame k s t) : (t.core k).groups = (s.core k).groups := by
  obtain ⟨es, ws, fs, hc⟩ := h.core
  rw [hc]

theorem rawWrite (s : State) (pa : Nat) (bs : List Byte) : CoreFrame k s (s.rawWrite pa bs) := by
  refine ⟨?_, List.length_map _, fun h => ⟨(s.rawWrite_sameFlights pa bs).unmoved h.unmoved, ?_⟩⟩
  · by_cases hk : k < s.cores.length
    · have hcore : (s.rawWrite pa bs).core k =
          if (s.core k).cares pa bs.length then (s.core k).touch pa bs.length else s.core k := by
        simp [State.core, State.rawWrite, List.getD_eq_getElem?_getD, hk]
      rw [hcore]
      split
      · exact ⟨_, _, _, rfl⟩
      · exact ⟨_, _, _, rfl⟩
    · have hcore : (s.rawWrite pa bs).core k = s.core k := by
        simp [State.core, State.rawWrite, List.getD_eq_getElem?_getD, List.getElem?_eq_none (Nat.not_lt.1 hk)]
      rw [hcore]
      exact ⟨_, _, _, rfl⟩
  · simp [State.rawWrite, h.good]

theorem deviceWrite (h : s.Calm) (pa : Nat) (bs : List Byte) : CoreFrame k s (s.deviceWrite pa bs) := by
  rw [h.deviceWrite pa bs]
  exact rawWrite s pa bs

end CoreFrame

/-- A command of a core ends: its status alone changes (R401). -/
theorem State.core_endCommand (s : State) (k : Nat) (st : DWord) (hk : k < s.cores.length) :
    (s.endCommand k st).core k = { s.core k with regs := { (s.core k).regs with cstat := st } } :=
  s.core_modCore k _ hk

end Sys2Proof.Machine
end

section
/-! SUPPORT. SAVE_TEAM (O48; R165, R166): what a team that leaves makes of its core, and its groups' images in its save area. -/

namespace Sys2Proof.Machine

/-! ## What leaves -/

/-- The groups of a team that stand in its slots. -/
def Core.teamGroups (c : Core) (t : Team) : List (Nat × Group) :=
  t.live.filterMap fun j => (c.owner j t.id).map fun g => (j, g)

/-- The save area of a team written: header, images, scratchpad, tiles (R165, R419). -/
def State.writeSave (s : State) (k : Nat) (t : Team) (area : Nat) : State :=
  let c := s.core k
  let tiles := c.ownTiles t.id
  let s := s.deviceWrite area (saveHeader t tiles)
  let s := (c.teamGroups t).foldl
    (fun s x => s.deviceWrite (area + 256 + imagePlace * x.2.tix) (s.saveImage k x.1 t x.2)) s
  let s := s.deviceWrite (area + t.spadAt) (c.spadBytes t)
  tiles.zipIdx.foldl (fun s x => s.deviceWrite (area + t.tileAt x.2) (c.tile x.1).bytes) s

/-- A core that a team has left: its `n` blocks beside the pool, its slots and its tiles are free (R165, R166). -/
def Core.leftBy (c : Core) (t : Team) (n : Nat) (sv : SavedTeam) : Core :=
  { c with
    groups := t.live.foldl (fun gs j => gs.set j none) c.groups
    teams := c.teams.filter (·.id != t.id)
    freeBlocks := c.freeBlocks + t.pool + n
    tiles := c.tiles.map fun a => if a.owner = some t.id then { a with owner := none } else a
    res := c.res.map (·.evict t.origin.tenant)
    saved := c.saved ++ [sv] }

theorem State.drainLoads_of_empty (s : State) (k slot team : Nat) (hf : (s.core k).flight = []) :
    s.drainLoads k slot team = s := by
  rw [State.drainLoads, hf, List.foldl_nil]

/-- A team without operations in flight is pre-empted: its save area is written, and it leaves the core. -/
theorem State.preempt_eq (s : State) (k : Nat) (t : Team) (area : Nat) (hf : (s.core k).flight = []) :
    ∃ n sv, s.preempt k t area = ((s.writeSave k t area).takeReplays k t).1.modCore k (·.leftBy t n sv) ∧
      sv.team = t ∧ sv.area = area ∧ sv.wanted = false := by
  have hdrained : t.live.foldl (fun s j => s.drainLoads k j t.id) s = s :=
    List.foldlRecOn (motive := (· = s)) _ _ rfl fun u hu j _ => hu.symm ▸ s.drainLoads_of_empty k j t.id hf
  unfold State.preempt
  rw [hdrained]
  exact ⟨_, _, rfl, rfl, rfl, rfl⟩

/-! ## The core -/

theorem State.writeSave_frame (s : State) (k : Nat) (t : Team) (area : Nat) (h : s.Calm) :
    CoreFrame k s (s.writeSave k t area) := by
  have hheader : CoreFrame k s (s.deviceWrite area (saveHeader t ((s.core k).ownTiles t.id))) := .deviceWrite h _ _
  have himages := hheader.trans (.foldl (l := (s.core k).teamGroups t)
    (f := fun s x => s.deviceWrite (area + 256 + imagePlace * x.2.tix) (s.saveImage k x.1 t x.2)) (hheader.calm h)
    fun u x hu => .deviceWrite hu _ _)
  have hspad := himages.trans (.deviceWrite (himages.calm h) (area + t.spadAt) ((s.core k).spadBytes t))
  exact hspad.trans (.foldl (hspad.calm h) fun u x hu => .deviceWrite hu _ _)

theorem State.dropGroupAsks_cores (s : State) (k : Nat) (js : List Nat) :
    (js.foldl (fun s j => s.dropGroupAsks k j) s).cores = s.cores :=
  List.foldlRecOn (motive := fun u : State => u.cores = s.cores) _ _ rfl fun _ hu _ _ => hu

theorem State.dropGroupAsks_mem (s : State) (k : Nat) (js : List Nat) :
    (js.foldl (fun s j => s.dropGroupAsks k j) s).mem = s.mem :=
  List.foldlRecOn (motive := fun u : State => u.mem = s.mem) _ _ rfl fun _ hu _ _ => hu

/-- The loads that are to be replayed leave the core, and nothing else of it (R149). -/
theorem State.takeReplays_cores (s : State) (k : Nat) (t : Team) :
    ∃ f : Core → Core, (s.takeReplays k t).1.cores = (s.modCore k f).cores ∧
      ∀ c, ∃ fs rs, f c = { c with flight := fs, replays := rs } :=
  ⟨_, congrArg (List.modify · k _) (s.dropGroupAsks_cores k t.live), fun _ => ⟨_, _, rfl⟩⟩

theorem State.takeReplays_core (s : State) (k : Nat) (t : Team) (hk : k < s.cores.length) :
    (s.takeReplays k t).1.cores.length = s.cores.length ∧
      ∃ fs rs, (s.takeReplays k t).1.core k = { s.core k with flight := fs, replays := rs } := by
  obtain ⟨f, hcores, hf⟩ := s.takeReplays_cores k t
  obtain ⟨fs, rs, hcore⟩ := hf (s.core k)
  refine ⟨(congrArg List.length hcores).trans (List.length_modify ..), fs, rs, ?_⟩
  rw [← hcore, ← s.core_modCore k f hk]
  exact congrArg (·.getD k Core.reset) hcores

theorem State.takeReplays_mem (s : State) (k : Nat) (t : Team) : (s.takeReplays k t).1.mem = s.mem :=
  s.dropGroupAsks_mem k t.live

/-- The core that a team has left, up to its residencies, its rechecks, its operations in flight and its free blocks. -/
theorem State.preempt_core (s : State) (k : Nat) (t : Team) (area : Nat) (hk : k < s.cores.length)
    (hf : (s.core k).flight = []) (h : s.Calm) :
    ∃ (c : Core) (n : Nat) (sv : SavedTeam), (s.preempt k t area).core k = c.leftBy t n sv ∧ (s.preempt k t area).cores.length = s.cores.length ∧
      sv.team = t ∧ sv.area = area ∧ sv.wanted = false ∧ c.regs = (s.core k).regs ∧ c.teams = (s.core k).teams ∧
      c.groups = (s.core k).groups ∧ c.tiles = (s.core k).tiles ∧ c.saved = (s.core k).saved := by
  obtain ⟨n, sv, heq, hteam, harea, hwanted⟩ := s.preempt_eq k t area hf
  have hw := s.writeSave_frame k t area h
  obtain ⟨hlen, fs, rs, hcore⟩ := (s.writeSave k t area).takeReplays_core k t (hw.length ▸ hk)
  have hk' : k < ((s.writeSave k t area).takeReplays k t).1.cores.length := by rw [hlen, hw.length]; exact hk
  have hleft := State.core_modCore _ k (·.leftBy t n sv) hk'
  rw [← heq, hcore] at hleft
  refine ⟨_, n, sv, hleft, ?_, hteam, harea, hwanted, hw.regs, hw.teams, hw.groups, hw.tiles, hw.saved⟩
  rw [heq]
  exact (List.length_modify ..).trans (hlen.trans hw.length)

/-- The slots that are given up are empty, the others as before. -/
theorem getD_foldl_set_none {α : Type} (js : List Nat) (gs : List (Option α)) (i : Nat) :
    (js.foldl (fun gs j => gs.set j none) gs).getD i none = if i ∈ js then none else gs.getD i none := by
  induction js generalizing gs with
  | nil => simp
  | cons j js ih =>
    rw [List.foldl_cons, ih]
    by_cases hi : i ∈ js
    · simp [hi]
    · by_cases hj : j = i
      · subst hj
        simp [hi, List.getD_eq_getElem?_getD, List.getElem?_set]
        split <;> rfl
      · simp [hi, hj, Ne.symm hj, List.getD_eq_getElem?_getD]

theorem Core.leftBy_tile (c : Core) (t : Team) (n : Nat) (sv : SavedTeam) (a : Nat) :
    (c.leftBy t n sv).tiles.getD a Tile.reset =
      if (c.tile a).owner = some t.id then { c.tile a with owner := none } else c.tile a := by
  have hfree : (if Tile.reset.owner = some t.id then { Tile.reset with owner := none } else Tile.reset) = Tile.reset :=
    if_neg nofun
  unfold Core.leftBy Core.tile
  dsimp only
  conv => lhs; rw [← hfree]
  exact List.getD_map ..

/-! ## The image of a team's only group -/

theorem LaneState.record_length (t : LaneState) : t.record.length = 64 := by
  simp [LaneState.record]

/-- An image's length depends on its registers alone (R419). -/
theorem Group.image_length (g : Group) (gid : Nat) (lseq : Word) (ctx : Bool) :
    (g.image gid lseq ctx).length = imageHead + 128 * g.rf.v.length + 192 := by
  simp [Group.image, List.length_flatMap, LaneState.record_length, imageHead]
  omega

/-- On a core without operations in flight no lane waits for a load, and the image is that of the group (R419). -/
theorem State.saveImage_of_empty (s : State) (k slot : Nat) (t : Team) (g : Group) (hf : (s.core k).flight = [])
    (hp : g.phase = .running) : s.saveImage k slot t g = g.image slot t.origin.lseq false := by
  have hload : ∀ l, s.remoteLoad k slot t.id l = none := fun l => by rw [State.remoteLoad, hf, List.findSome?_nil]
  rw [State.saveImage, if_neg (by simp [hp])]
  exact List.foldlRecOn (motive := (· = g.image slot t.origin.lseq false)) _ _ rfl fun b hb l _ => by
    simp [hload, hb]

theorem saveHeader_length (t : Team) (tiles : List Nat) : (saveHeader t tiles).length = 256 := by
  simp [saveHeader]

/-- The image of the only group of a team without scratchpad and tiles in the team's save area. -/
theorem State.writeSave_image (s : State) (k j : Nat) (t : Team) (g : Group) (area : Nat) (h : s.Calm)
    (hf : (s.core k).flight = []) (hg : (s.core k).group j = some g) (hteam : g.team = t.id) (hlive : t.live = [j])
    (hp : g.phase = .running) (hspad : t.spadMap = []) (htiles : (s.core k).ownTiles t.id = []) (i : Nat)
    (hi : i < imageHead + 128 * g.rf.v.length + 192) :
    (s.writeSave k t area).mem.read (area + 256 + imagePlace * g.tix + i) = (g.image j t.origin.lseq false).getD i 0 := by
  have hgroups : (s.core k).teamGroups t = [(j, g)] := by simp [Core.teamGroups, hlive, Core.owner, hg, hteam]
  have hbytes : (s.core k).spadBytes t = [] := by simp [Core.spadBytes, hspad]
  have hheader : (s.rawWrite area (saveHeader t [])).Calm := (CoreFrame.rawWrite (k := k) s area _).calm h
  have hflight : ((s.rawWrite area (saveHeader t [])).core k).flight = [] :=
    ((s.rawWrite_sameFlights area _).flight k).trans hf
  have hsave : s.writeSave k t area = ((s.rawWrite area (saveHeader t [])).rawWrite (area + 256 + imagePlace * g.tix)
      (g.image j t.origin.lseq false)).rawWrite (area + t.spadAt) [] := by
    simp only [State.writeSave, hgroups, hbytes, htiles, List.zipIdx_nil, List.foldl_nil, List.foldl_cons]
    rw [h.deviceWrite, State.saveImage_of_empty _ k j t g hflight hp, hheader.deviceWrite]
    exact ((CoreFrame.rawWrite (k := k) _ _ _).calm hheader).deviceWrite _ _
  rw [hsave]
  refine (Memory.read_write_out _ _ [] _ (by simp)).trans (Memory.read_write_in _ _ _ _ ?_)
  rw [Group.image_length]
  exact hi

end Sys2Proof.Machine
end

section
/-! PROOF. SAVE_TEAM and RESTORE_TEAM (O48). -/

namespace Sys2Proof.Machine

theorem Core.team_id (c : Core) (id : Nat) (t : Team) (h : c.team id = some t) : t.id = id := by
  have hid := List.find?_some h
  exact beq_iff_eq.1 hid

/-- SAVE_TEAM of a team that may be pre-empted and for which nothing has to be waited (R164, R402). -/
theorem saveTeam_eq (s : State) (k : Nat) (m : Word) (j : Nat) (g : Group) (t : Team)
    (hj : ((s.core k).named m).head? = some j) (hg : (s.core k).group j = some g) (ht : (s.core k).team g.team = some t)
    (hmay : s.mayPreempt k t) (hwait : s.saveWaits k t = false) :
    exec (.saveTeam k m) s = .next ((s.preempt k t (s.cargPa k)).endCommand k 2) := by
  have hfound : ((s.core k).named m).head?.bind (fun j => ((s.core k).group j).bind fun g => (s.core k).team g.team) =
      some t := by
    rw [hj, Option.bind_some, hg, Option.bind_some, ht]
  change execSaveTeam k m s = _
  simp only [execSaveTeam, hfound, hmay, hwait, Bool.not_true, Bool.false_eq_true, if_false]

theorem saveTeam_saves (s : State) (k : Nat) (m : Word) (j : Nat) (g : Group) (t : Team) (hk : k < s.cores.length)
    (hf : (s.core k).flight = []) (h : s.Calm) (hj : ((s.core k).named m).head? = some j)
    (hg : (s.core k).group j = some g) (ht : (s.core k).team g.team = some t)
    (hmay : s.mayPreempt k t) (hwait : s.saveWaits k t = false) :
    ∃ u sv, exec (.saveTeam k m) s = .next u ∧ (u.core k).regs = { (s.core k).regs with cstat := 2 } ∧
      (u.core k).teams = (s.core k).teams.filter (·.id != t.id) ∧ (∀ i ∈ t.live, (u.core k).group i = none) ∧
      (∀ i, i ∉ t.live → (u.core k).group i = (s.core k).group i) ∧ (u.core k).saved = (s.core k).saved ++ [sv] ∧
      sv.team = t ∧ sv.area = s.cargPa k ∧ sv.wanted = false ∧
      (∀ a, (u.core k).tiles.getD a Tile.reset =
        if ((s.core k).tile a).owner = some t.id then { (s.core k).tile a with owner := none } else (s.core k).tile a) ∧
      (t.live = [j] → g.phase = .running → t.spadSize = 0 → t.spadMap = [] → (s.core k).ownTiles t.id = [] →
        imageHead + 128 * g.rf.v.length + 192 ≤ imagePlace → ∀ i, i < imageHead + 128 * g.rf.v.length + 192 →
        u.mem.read (s.cargPa k + 256 + imagePlace * g.tix + i) = (g.image j t.origin.lseq false).getD i 0) := by
  obtain ⟨c, n, sv, hcore, hlen, hteam, harea, hwanted, hregs, hteams, hgroups, htiles, hsaved⟩ :=
    s.preempt_core k t (s.cargPa k) hk hf h
  have hend := State.core_endCommand (s.preempt k t (s.cargPa k)) k 2 (hlen ▸ hk)
  rw [hcore] at hend
  have hslots : ∀ i, (c.leftBy t n sv).group i = if i ∈ t.live then none else (s.core k).group i := fun i => by
    rw [Core.group, Core.leftBy, getD_foldl_set_none, hgroups]
    rfl
  have htile : ∀ a, c.tile a = (s.core k).tile a := fun a => by rw [Core.tile, htiles, Core.tile]
  refine ⟨_, sv, saveTeam_eq s k m j g t hj hg ht hmay hwait, ?_⟩
  rw [hend]
  refine ⟨?regs, ?teams, fun i hi => ?gone, fun i hi => ?stays, ?saved, hteam, harea, hwanted, fun a => ?tile,
    fun hlive hp _ hspad htl _ i hi => ?image⟩
  case regs => exact congrArg (fun r => { r with cstat := 2 }) hregs
  case teams => exact congrArg (List.filter (·.id != t.id)) hteams
  case gone => exact (hslots i).trans (if_pos hi)
  case stays => exact (hslots i).trans (if_neg hi)
  case saved => exact congrArg (· ++ [sv]) hsaved
  case tile => rw [← htile]; exact c.leftBy_tile t n sv a
  case image =>
    obtain ⟨n', sv', heq, -⟩ := s.preempt_eq k t (s.cargPa k) hf
    have hmem : (s.preempt k t (s.cargPa k)).mem = (s.writeSave k t (s.cargPa k)).mem := by
      rw [heq]
      exact State.takeReplays_mem _ k t
    exact (congrArg (Memory.read · _) hmem).trans
      (s.writeSave_image k j t g _ h hf hg (Core.team_id _ _ _ ht).symm hlive hp hspad htl i hi)

theorem restoreTeam_asks (s : State) (k : Nat) (h : ∃ t ∈ (s.core k).saved, t.area = s.cargPa k) :
    exec (.restoreTeam k) s = .next (s.modCore k fun c => { c with
      saved := c.saved.map fun t => if t.area = s.cargPa k then { t with wanted := true } else t }) := by
  have hany : (s.core k).saved.any (·.area == s.cargPa k) = true := by simpa using h
  exact congrArg Host.Outcome.next (if_pos hany)

end Sys2Proof.Machine
end

section
/-! PROOF. RETURN_GROUP (O48; R158, R160, R402): a group whose lanes wait for nothing is as its image gives it. -/

namespace Sys2Proof.Machine

/-! ## What a return keeps of a group -/

@[simp] theorem Group.resumeWith_team (g : Group) : g.resumeWith.team = g.team := by
  unfold Group.resumeWith
  split
  · rfl
  · split_ifs <;> rfl

@[simp] theorem Group.resumeWith_errors (g : Group) : g.resumeWith.errors = g.errors := by
  unfold Group.resumeWith
  split
  · rfl
  · split_ifs <;> rfl

/-! ## A group that waits for nothing -/

/-- Nothing is looked up anew for lanes that neither wait on a word nor hold a descriptor (R158, R419). -/
theorem State.reload_idle (s : State) (k slot : Nat) (g : Group) (h : ∀ l, (g.lane l).park = none ∧ (g.lane l).sd = 0) :
    s.reload k slot g = (s, g) := by
  unfold State.reload
  extract_lets team space look parks descs
  have hparks : parks = (s, g) := List.foldlRecOn (motive := (· = (s, g))) _ _ rfl fun r hr l _ => by
    subst hr
    simp only [(h l).1]
  have hdescs : descs = (s, []) := List.foldlRecOn (motive := (· = (s, []))) _ _ (by rw [hparks]) fun r hr l _ => by
    subst hr
    simp only [hparks, (h l).2, if_true]
  clear_value descs parks
  subst hparks hdescs
  exact if_pos rfl

theorem Group.wakeReturned_idle (g : Group) (clk : Nat) (changed : ParkRec → Bool) (h : ∀ l, (g.lane l).park = none) :
    g.wakeReturned clk changed = g := by
  have hfold : (List.range 32).foldl (fun g l => match (g.lane l).park with
      | none => g
      | some p => match p.event with
        | some e => g.wake l e
        | none => if p.deadline ≤ clk then g.wake l 3 else g) g = g :=
    List.foldlRecOn (motive := (· = g)) _ _ rfl fun r hr l _ => by
      subst hr
      simp only [h l]
  exact (congrArg (Group.allParked · changed) hfold).trans (g.allParked_of_unparked changed fun l _ => h l)

theorem State.settleGroup_idle (s : State) (k j : Nat) (g : Group) (hg : (s.core k).group j = some g)
    (hpark : ∀ l, (g.lane l).park = none) (hbar : g.barWait = none) : s.settleGroup k j = s := by
  refine State.modGroup_id s k j _ g hg ?_
  simp only [g.wakeReturned_idle _ _ hpark, hbar, ite_self]

theorem Core.serveClaims_idle (c : Core) (id : Nat) (h : ∀ t, c.team id = some t → t.claims = []) :
    c.serveClaims id = c := by
  cases ht : c.team id with
  | none => rw [Core.serveClaims, Core.serve, ht]
  | some t => exact c.serve_of_claims_nil 16 id t ht (h t ht)

/-- Where no load is to be replayed and none is in flight, none leaves (R149). -/
theorem State.replayGroup_idle (s : State) (k slot team : Nat) (hr : (s.core k).replays = []) (hf : (s.core k).flight = []) :
    s.replayGroup k slot team = s := by
  have hsame : (s.modCore k fun c => { c with replays := c.replays.filter fun f => !(f.slot == slot && f.team == team) }) = s := by
    refine (State.modCore_congr s k _ id ?_).trans (by simp [State.modCore, List.modify_id])
    simp only [hr, List.filter_nil, id]
    rw [← hr]
  unfold State.replayGroup
  extract_lets mine fs
  have hfs : fs = [] := by simp [fs, hr]
  rw [hfs, List.foldl_nil, show (s.modCore k _) = s from hsame, State.sendRequests, hf, List.foldl_nil]

/-! ## The return -/

/-- A switched-out group as the image at `pa` gives it, on its way again (R160, R419). -/
def State.fromImage (s : State) (g : Group) (pa : Nat) : Group :=
  (g.restore (s.readPa pa (imageHead + 128 * (s.wordPa pa 8 / 256 % 256) + 192))).resumeWith

/-- A group that runs again: the exception is over. -/
def Group.cleared (g : Group) : Group :=
  { g with phase := .running, report := none, unfin := 0, cause := 0, resume := 0, missed := [] }

theorem State.returnFrom_idle (s : State) (k j pa : Nat) (g : Group) (hg : (s.core k).group j = some g)
    (hp : g.phase = .switchedOut) (he : g.errors = [])
    (hl : ∀ l, ((s.fromImage g pa).lane l).park = none ∧ ((s.fromImage g pa).lane l).sd = 0) :
    s.returnFrom k j pa = (s.modGroup k j fun _ => (s.fromImage g pa).cleared).modCore k
      (·.setLseq g.team (BitVec.ofNat 32 (s.wordPa pa 8 / 2 ^ 32))) := by
  have hteam : (s.fromImage g pa).team = g.team := Group.resumeWith_team _
  have herr : (s.fromImage g pa).errors = [] := (Group.resumeWith_errors _).trans he
  have hload : s.reload k j (g.restore (s.readPa pa (imageHead + 128 * bits (s.wordPa pa 8) 15 8 + 192))).resumeWith =
      (s, s.fromImage g pa) := s.reload_idle k j _ hl
  simp only [State.returnFrom, hg, hp, ne_eq, not_true_eq_false, if_false, hload]
  split
  next => rw [← hteam]; rfl
  next e es hcons => cases herr.symm.trans hcons

theorem returnGroup_returns (s : State) (k : Nat) (m : Word) (j : Nat) (g : Group) (hk : k < s.cores.length)
    (hf : (s.core k).flight = []) (hr : (s.core k).replays = [])
    (hj : (lanesOf m).find? (fun j => ((s.core k).group j).any (·.phase == .switchedOut)) = some j)
    (hg : (s.core k).group j = some g) (he : g.errors = []) (hq : ∀ r ∈ s.fq.pending, r.1 ≠ some (k, j))
    (hl : ∀ l, ((s.fromImage g (s.cargPa k)).lane l).park = none ∧ ((s.fromImage g (s.cargPa k)).lane l).sd = 0)
    (hb : (s.fromImage g (s.cargPa k)).barWait = none) (hc : ∀ t, (s.core k).team g.team = some t → t.claims = []) :
    ∃ u, exec (.returnGroup k m) s = .next u ∧ (u.core k).regs = { (s.core k).regs with cstat := 2 } ∧ u.mem = s.mem ∧
      (∀ t, (s.core k).team g.team = some t → (u.core k).team g.team = some
        { t with origin := { t.origin with lseq := BitVec.ofNat 32 (s.wordPa (s.cargPa k) 8 / 2 ^ 32) } }) ∧
      (u.core k).group j = some (s.fromImage g (s.cargPa k)).cleared := by
  let lseq : Word := BitVec.ofNat 32 (s.wordPa (s.cargPa k) 8 / 2 ^ 32)
  let back := (s.fromImage g (s.cargPa k)).cleared
  let v := (s.modGroup k j fun _ => back).modCore k (·.setLseq g.team lseq)
  have hp : g.phase = .switchedOut := by
    have := List.find?_some hj
    simpa [hg] using this
  have hcore : v.core k = ((s.core k).modGroup j fun _ => back).setLseq g.team lseq := by
    rw [State.core_modCore _ k _ (by simpa [State.modGroup, State.modCore] using hk), State.modGroup, s.core_modCore k _ hk]
  have hgroup : (v.core k).group j = some back := by
    rw [hcore]
    exact (Core.group_modGroup _ _ _).trans (by rw [hg]; rfl)
  have hteam : (v.core k).team g.team = ((s.core k).team g.team).map
      fun t => { t with origin := { t.origin with lseq := lseq } } := by
    rw [hcore]
    exact Core.team_modTeam _ _ _ fun _ => rfl
  have hclaims : ∀ t, (v.core k).team g.team = some t → t.claims = [] := fun t ht => by
    rw [hteam] at ht
    obtain ⟨t', ht', rfl⟩ := Option.map_eq_some_iff.1 ht
    exact hc t' ht'
  have hserve : v.modCore k (·.serveClaims g.team) = v :=
    (State.modCore_congr v k _ id (Core.serveClaims_idle _ _ hclaims)).trans (by simp [State.modCore, List.modify_id])
  have hexec : exec (.returnGroup k m) s = .next (v.endCommand k 2) := by
    have hfind : (lanesOf m).find? (fun j => (((s.core k).group j).map fun g => g.phase == .switchedOut).getD false) =
        some j := by
      rw [← hj]
      congr 1
      funext i
      cases (s.core k).group i <;> rfl
    have hpend : s.fq.pending.any (·.1 == some (k, j)) = false :=
      List.any_eq_false.2 fun r hmem => by simpa using hq r hmem
    have hsettle : (s.returnFrom k j (s.cargPa k)).settleGroup k j = v := by
      rw [s.returnFrom_idle k j _ g hg hp he hl]
      exact v.settleGroup_idle k j back hgroup (fun l => (hl l).1) hb
    have hreplay : v.replayGroup k j g.team = v :=
      v.replayGroup_idle k j g.team (by rw [hcore]; exact hr) (by rw [hcore]; exact hf)
    change execReturnGroup k m s = _
    simp only [execReturnGroup, hfind, hpend, Bool.false_eq_true, if_false, hg, Option.map_some, Option.getD_some, hsettle,
      hserve, hreplay]
  refine ⟨_, hexec, ?_⟩
  rw [State.core_endCommand v k 2 (by simpa [v, State.modGroup, State.modCore] using hk)]
  refine ⟨?_, rfl, fun t ht => ?_, hgroup⟩
  · rw [hcore]
    rfl
  · refine hteam.trans ?_
    rw [ht]
    rfl

end Sys2Proof.Machine
end

section
/-! PROOF. TERMINATE (O48; R133, R402): the groups that are named end, and no group that has ended stirs again. -/

namespace Sys2Proof.Machine

/-! ## Changes of one core on a calm package -/

/-- A change of a core that brings no migration leaves none pending. -/
theorem State.unmoved_modCore {s : State} (h : s.unmoved) (k : Nat) (f : Core → Core)
    (hf : ∀ c, ∀ o ∈ (f c).flight, o ∈ c.flight ∨ ∀ e w d b, o.kind ≠ .migrate e w d b) : (s.modCore k f).unmoved := by
  intro c hc o ho
  obtain ⟨i, hi, rfl⟩ := List.getElem_of_mem hc
  have hi' : i < s.cores.length := by simpa [State.modCore] using hi
  have hstill := h _ (List.getElem_mem hi')
  simp only [State.modCore, List.getElem_modify] at ho
  split at ho
  next =>
    rcases hf _ o ho with hold | hnew
    · exact hstill o hold
    · exact hnew
  next => exact hstill o ho

theorem State.Calm.modCore {s : State} (h : s.Calm) (k : Nat) (f : Core → Core)
    (hf : ∀ c, ∀ o ∈ (f c).flight, o ∈ c.flight ∨ ∀ e w d b, o.kind ≠ .migrate e w d b) : (s.modCore k f).Calm :=
  ⟨State.unmoved_modCore h.unmoved k f hf, h.good⟩

/-- A look at the translation tables changes no core (R426). -/
theorem State.look_frame (s : State) (k space : Nat) (tenant : BitVec 16) (want : Want) (va : DWord) :
    CoreFrame k s (s.look space tenant want va).1 := by
  unfold State.look
  split
  · exact .of_cores rfl rfl
  · exact .of_cores rfl rfl

/-- A counter that gets its err bit (R133). -/
theorem State.setErr_frame {s : State} (h : s.Calm) (k : Nat) (p : Party) (va : DWord) : CoreFrame k s (s.setErr p va) := by
  have hlook := s.look_frame k p.space p.origin.tenant .write va
  unfold State.setErr
  split
  · exact .refl
  · generalize s.look p.space p.origin.tenant .write va = r at hlook
    obtain ⟨t, pa⟩ := r
    have ht : t.Calm := hlook.calm h
    cases pa with
    | none => exact hlook
    | some pa =>
      refine hlook.trans ?_
      dsimp only
      split
      · exact .of_cores rfl rfl
      · split
        · exact .refl
        · rw [State.performWrite_unmoved ht.unmoved]
          exact .rawWrite _ _ _

/-! ## Groups that have ended -/

/-- Every lane has exited, and the group waits for no return. -/
structure Group.Gone (g : Group) : Prop where
  lanes : ∀ t ∈ g.lanes, t.vpc = 0xFFFFFFFF
  report : g.report = none
  phase : g.phase = .running

theorem Group.kill_gone (g : Group) : g.kill.Gone := by
  refine ⟨fun t ht => ?_, rfl, rfl⟩
  obtain ⟨u, -, rfl⟩ := List.mem_map.1 ht
  rfl

/-- A group's lanes are as many as before, and if it has ended it stays so. -/
structure Group.Ends (g h : Group) : Prop where
  lanes : h.lanes.length = g.lanes.length
  gone : g.Gone → h.Gone

/-- The core's registers are as before, and so are its groups but for what may still befall them as others end. -/
structure Core.Ends (c d : Core) : Prop where
  regs : d.regs = c.regs
  groups : ∀ j g, c.group j = some g → ∃ h, d.group j = some h ∧ g.Ends h

namespace Core.Ends

variable {c d e : Core}

theorem of_same (hr : d.regs = c.regs) (hg : d.groups = c.groups) : c.Ends d :=
  ⟨hr, fun j g h => ⟨g, by rw [Core.group, hg]; exact h, rfl, id⟩⟩

theorem refl : c.Ends c := of_same rfl rfl

theorem trans (h : c.Ends d) (h' : d.Ends e) : c.Ends e := by
  refine ⟨h'.regs.trans h.regs, fun j g hg => ?_⟩
  obtain ⟨g', hg', he⟩ := h.groups j g hg
  obtain ⟨g'', hg'', he'⟩ := h'.groups j g' hg'
  exact ⟨g'', hg'', he'.lanes.trans he.lanes, fun hgone => he'.gone (he.gone hgone)⟩

theorem modGroup (c : Core) (j : Nat) (f : Group → Group) (hf : ∀ g : Group, g.Ends (f g)) : c.Ends (c.modGroup j f) := by
  refine ⟨rfl, fun i g hg => ?_⟩
  by_cases hi : i = j
  · subst hi
    exact ⟨f g, by rw [Core.group_modGroup, hg]; rfl, hf g⟩
  · exact ⟨g, by rw [Core.group_modGroup_ne _ _ _ _ hi]; exact hg, rfl, id⟩

/-- A claim that is served gives registers, and no lane a place (R46). -/
theorem serve (n : Nat) (c : Core) (id : Nat) : c.Ends (c.serve n id) := by
  induction n generalizing c with
  | zero => exact refl
  | succ n ih =>
    unfold Core.serve
    split
    · exact refl
    · split
      · exact refl
      · split
        · exact refl
        · next slot m rest _ _ =>
          have hgrow : c.Ends (c.modGroup slot (·.grow m)) :=
            modGroup c slot _ fun g => ⟨rfl, fun h => ⟨h.lanes, h.report, h.phase⟩⟩
          have hserved : c.Ends ((c.modGroup slot (·.grow m)).modTeam id
              fun t => { t with pool := t.pool - m, claims := rest }) := hgrow.trans (of_same rfl rfl)
          exact hserved.trans (ih _)

theorem partDone (c : Core) (slot : Nat) : c.Ends (c.partDone slot) := by
  unfold Core.partDone
  split
  · exact refl
  · split
    · exact refl
    · exact (modGroup c slot (fun g => { g with partDone := true })
        fun g => ⟨rfl, fun h => ⟨h.lanes, h.report, h.phase⟩⟩).trans (of_same rfl rfl)

end Core.Ends

theorem Core.serve_flight (n : Nat) (c : Core) (id : Nat) : (c.serve n id).flight = c.flight := by
  induction n generalizing c with
  | zero => rfl
  | succ n ih =>
    unfold Core.serve
    split
    · rfl
    · split
      · rfl
      · split
        · rfl
        · exact (ih _).trans rfl

theorem Core.partDone_flight (c : Core) (slot : Nat) : (c.partDone slot).flight = c.flight := by
  unfold Core.partDone
  split
  · rfl
  · split
    · rfl
    · rfl

/-! ## One group after another -/

/-- What may befall core `k` while groups of it are stopped. -/
structure EndFrame (k : Nat) (s t : State) : Prop where
  core : (s.core k).Ends (t.core k)
  length : t.cores.length = s.cores.length
  calm : s.Calm → t.Calm

namespace EndFrame

variable {k : Nat} {s t u : State}

theorem of_frame (h : CoreFrame k s t) : EndFrame k s t :=
  ⟨.of_same h.regs h.groups, h.length, h.calm⟩

theorem trans (h : EndFrame k s t) (h' : EndFrame k t u) : EndFrame k s u :=
  ⟨h.core.trans h'.core, h'.length.trans h.length, fun hs => h'.calm (h.calm hs)⟩

theorem modCore (s : State) (hk : k < s.cores.length) (f : Core → Core) (hf : ∀ c : Core, c.Ends (f c))
    (hflight : ∀ c, (f c).flight = c.flight) : EndFrame k s (s.modCore k f) := by
  refine ⟨?_, List.length_modify .., fun h => h.modCore k f fun c o ho => .inl (hflight c ▸ ho)⟩
  rw [s.core_modCore k f hk]
  exact hf _

theorem teamError (hk : k < s.cores.length) (h : s.Calm) (id : Nat) : EndFrame k s (s.teamError k id) := by
  unfold State.teamError
  split
  · exact of_frame .refl
  · have herr := modCore s hk (·.modAnyTeam id fun t => { t with err := true }) (fun c => .of_same rfl rfl) fun _ => rfl
    dsimp only
    split
    · exact herr.trans (of_frame (State.setErr_frame (herr.calm h) k _ _))
    · exact herr

end EndFrame

/-- The group in a slot stopped, its part of its task done (R402). -/
def Core.killSlot (c : Core) (j : Nat) : Core :=
  { c.modGroup j Group.kill with
    runs := c.runs.filter (·.slot != j)
    replays := c.replays.filter (·.slot != j) }.partDone j

theorem Core.killSlot_ends (c : Core) (j : Nat) : c.Ends (c.killSlot j) := by
  have hkill : c.Ends (c.modGroup j Group.kill) := .modGroup c j _ fun g => ⟨List.length_map _, fun _ => g.kill_gone⟩
  have hstopped : c.Ends { c.modGroup j Group.kill with
      runs := c.runs.filter (·.slot != j)
      replays := c.replays.filter (·.slot != j) } := hkill.trans (.of_same rfl rfl)
  exact hstopped.trans (.partDone _ j)

theorem Core.killSlot_gone (c : Core) (j : Nat) (g : Group) (hg : c.group j = some g) :
    ∃ g', (c.killSlot j).group j = some g' ∧ g'.Gone ∧ g'.lanes.length = g.lanes.length := by
  obtain ⟨g', hg', h⟩ := (Core.Ends.partDone { c.modGroup j Group.kill with
    runs := c.runs.filter (·.slot != j)
    replays := c.replays.filter (·.slot != j) } j).groups j g.kill ((Core.group_modGroup _ _ _).trans (by rw [hg]; rfl))
  exact ⟨g', hg', h.gone g.kill_gone, h.lanes.trans (List.length_map _)⟩

/-- The same with what the group has asked beyond the package dropped (R402). -/
def State.killSlot (s : State) (k j : Nat) : State := (s.dropGroupAsks k j).modCore k (·.killSlot j)

/-- What becomes of the team of a group that is stopped: its claims are served, and its task ends in error (R46, R133). -/
def State.dropFromTeam (s : State) (k j team : Nat) : State :=
  ((s.modCore k (·.modTeam team fun t => { t with claims := t.claims.filter (·.1 != j) })).modCore k
    (·.serveClaims team)).teamError k team

/-- One group of a core stopped and its task ended in error (R133, R402). -/
def State.killGroup (s : State) (k j : Nat) : State :=
  match (s.core k).group j with
  | none => s
  | some g => (s.killSlot k j).dropFromTeam k j g.team

theorem State.killGroups_eq (s : State) (k : Nat) (js : List Nat) :
    s.killGroups k js = js.foldl (fun s j => s.killGroup k j) s := rfl

theorem State.killSlot_ends (s : State) (k j : Nat) (g : Group) (hk : k < s.cores.length)
    (hg : (s.core k).group j = some g) :
    EndFrame k s (s.killSlot k j) ∧
      ∃ g', ((s.killSlot k j).core k).group j = some g' ∧ g'.Gone ∧ g'.lanes.length = g.lanes.length := by
  have hdrop : EndFrame k s (s.dropGroupAsks k j) := .of_frame (.of_cores rfl rfl)
  refine ⟨hdrop.trans (.modCore (s.dropGroupAsks k j) hk (·.killSlot j) (·.killSlot_ends j)
    fun c => Core.partDone_flight _ j), ?_⟩
  rw [State.killSlot, State.core_modCore (s.dropGroupAsks k j) k _ hk]
  exact Core.killSlot_gone _ j g hg

theorem State.dropClaims_ends (s : State) (k j team : Nat) (hk : k < s.cores.length) :
    EndFrame k s (s.modCore k (·.modTeam team fun t => { t with claims := t.claims.filter (·.1 != j) })) :=
  .modCore s hk _ (fun _ => .of_same rfl rfl) fun _ => rfl

theorem State.serveClaims_ends (s : State) (k team : Nat) (hk : k < s.cores.length) :
    EndFrame k s (s.modCore k (·.serveClaims team)) :=
  .modCore s hk (·.serveClaims team) (fun c => Core.Ends.serve 16 c team) fun c => Core.serve_flight 16 c team

theorem State.dropFromTeam_ends (s : State) (k j team : Nat) (hk : k < s.cores.length) (h : s.Calm) :
    EndFrame k s (s.dropFromTeam k j team) := by
  have hclaims := s.dropClaims_ends k j team hk
  unfold State.dropFromTeam
  generalize s.modCore k (·.modTeam team fun t => { t with claims := t.claims.filter (·.1 != j) }) = t at hclaims
  have hserve := t.serveClaims_ends k team (hclaims.length ▸ hk)
  generalize t.modCore k (·.serveClaims team) = u at hserve
  have hfirst := hclaims.trans hserve
  exact hfirst.trans (.teamError (hfirst.length ▸ hk) (hfirst.calm h) team)

theorem State.killGroup_of_none {s : State} {k j : Nat} (hg : (s.core k).group j = none) : s.killGroup k j = s := by
  rw [State.killGroup, hg]

theorem State.killGroup_of_some {s : State} {k j : Nat} {g : Group} (hg : (s.core k).group j = some g) :
    s.killGroup k j = (s.killSlot k j).dropFromTeam k j g.team := by
  rw [State.killGroup, hg]

theorem State.killGroup_ends (s : State) (k j : Nat) (hk : k < s.cores.length) (h : s.Calm) :
    EndFrame k s (s.killGroup k j) ∧ ∀ g, (s.core k).group j = some g →
      ∃ g', ((s.killGroup k j).core k).group j = some g' ∧ g'.Gone ∧ g'.lanes.length = g.lanes.length := by
  rcases Option.eq_none_or_eq_some ((s.core k).group j) with hnone | ⟨g, hg⟩
  · rw [State.killGroup_of_none hnone, hnone]
    exact ⟨.of_frame .refl, fun g hg => absurd hg.symm (Option.some_ne_none g)⟩
  · rw [State.killGroup_of_some hg, hg]
    obtain ⟨hkill, g₁, hg₁, hgone₁, hlen₁⟩ := s.killSlot_ends k j g hk hg
    have hrest := (s.killSlot k j).dropFromTeam_ends k j g.team (by rw [hkill.length]; exact hk) (hkill.calm h)
    obtain ⟨g₂, hg₂, h₂⟩ := hrest.core.groups j g₁ hg₁
    refine ⟨hkill.trans hrest, fun g₀ hg₀ => ⟨g₂, hg₂, h₂.gone hgone₁, ?_⟩⟩
    rw [h₂.lanes, hlen₁, Option.some.inj hg₀]

theorem State.killGroups_ends (k : Nat) (js : List Nat) (s : State) (hk : k < s.cores.length) (h : s.Calm) :
    EndFrame k s (s.killGroups k js) ∧ ∀ j ∈ js, ∀ g, (s.core k).group j = some g →
      ∃ g', ((s.killGroups k js).core k).group j = some g' ∧ g'.Gone ∧ g'.lanes.length = g.lanes.length := by
  rw [s.killGroups_eq]
  induction js generalizing s with
  | nil => exact ⟨.of_frame .refl, nofun⟩
  | cons i js ih =>
    obtain ⟨hfirst, hgone⟩ := s.killGroup_ends k i hk h
    obtain ⟨hrest, hothers⟩ := ih (s.killGroup k i) (by rw [hfirst.length]; exact hk) (hfirst.calm h)
    refine ⟨hfirst.trans hrest, fun j hj g hg => ?_⟩
    rcases List.mem_cons.1 hj with rfl | hj
    · obtain ⟨g₁, hg₁, hgone₁, hlen₁⟩ := hgone g hg
      obtain ⟨g₂, hg₂, h₂⟩ := hrest.core.groups j g₁ hg₁
      exact ⟨g₂, hg₂, h₂.gone hgone₁, h₂.lanes.trans hlen₁⟩
    · obtain ⟨g₁, hg₁, h₁⟩ := hfirst.core.groups j g hg
      obtain ⟨g₂, hg₂, hgone₂, hlen₂⟩ := hothers j hj g₁ hg₁
      exact ⟨g₂, hg₂, hgone₂, hlen₂.trans h₁.lanes⟩

theorem terminate_ends (s : State) (k : Nat) (m : Word) (hk : k < s.cores.length) (h : s.Calm)
    (hm : ∀ j, s.midBundle k j = false) :
    ∃ u, exec (.terminate k m) s = .next u ∧ (u.core k).regs = { (s.core k).regs with cstat := 2 } ∧
      ∀ j g, m.getLsbD j → (s.core k).group j = some g → ∃ h, (u.core k).group j = some h ∧
        (∀ t ∈ h.lanes, t.vpc = 0xFFFFFFFF) ∧ h.lanes.length = g.lanes.length ∧ h.report = none ∧ h.phase = .running := by
  obtain ⟨hframe, hgone⟩ := s.killGroups_ends k ((s.core k).named m) hk h
  have hmid : ¬((s.core k).named m).any (fun j => s.midBundle k j) = true := by simp [hm]
  have hend := State.core_endCommand (s.killGroups k ((s.core k).named m)) k 2 (by rw [hframe.length]; exact hk)
  refine ⟨_, congrArg Host.Outcome.next (if_neg hmid), ?_, fun j g hj hg => ?_⟩
  · rw [hend, hframe.core.regs]
  · have hnamed : j ∈ (s.core k).named m := List.mem_filter.2 ⟨(mem_lanesOf m j).2 hj, by rw [hg]; rfl⟩
    obtain ⟨g', hg', hgone', hlen⟩ := hgone j hnamed g hg
    rw [hend]
    exact ⟨g', hg', hgone'.lanes, hlen, hgone'.report, hgone'.phase⟩

end Sys2Proof.Machine
end

section
/-! PROOF. TEAM_RETURN (O48; R158, R165): each group of the team that returns stands in its slot again, as it was saved. -/

namespace Sys2Proof.Machine

/-! ## What a return does to a group -/

/-- A group of the same team in the same phase. -/
structure Group.Stays (g h : Group) : Prop where
  team : h.team = g.team
  phase : h.phase = g.phase

namespace Group.Stays

theorem refl {g : Group} : g.Stays g := ⟨rfl, rfl⟩

theorem trans {g h i : Group} (a : g.Stays h) (b : h.Stays i) : g.Stays i :=
  ⟨b.team.trans a.team, b.phase.trans a.phase⟩

/-- One lane after another. -/
theorem foldl {f : Group → Nat → Group} (hf : ∀ (g : Group) l, g.Stays (f g l)) (ls : List Nat) (g : Group) : g.Stays (ls.foldl f g) :=
  List.foldlRecOn (motive := g.Stays) _ _ refl fun h hh l _ => hh.trans (hf h l)

theorem wake (g : Group) (l how : Nat) : g.Stays (g.wake l how) := by
  unfold Group.wake
  split
  · exact refl
  · dsimp only
    split
    · exact ⟨rfl, rfl⟩
    · split
      · exact ⟨rfl, rfl⟩
      · exact ⟨rfl, rfl⟩

theorem allParked (g : Group) (changed : ParkRec → Bool) : g.Stays (g.allParked changed) := by
  unfold Group.allParked
  split
  · exact foldl (fun h l => wake h l _) _ g
  · exact refl

theorem wakeReturned (g : Group) (clk : Nat) (changed : ParkRec → Bool) : g.Stays (g.wakeReturned clk changed) := by
  unfold Group.wakeReturned
  refine (foldl (fun h l => ?_) _ g).trans (allParked _ changed)
  split
  · exact refl
  · split
    · exact wake h l _
    · split
      · exact wake h l 3
      · exact refl

theorem endWait (g : Group) (scope n : Nat) (count : Word) (upto : Nat) : g.Stays (g.endWait scope n count upto) := by
  unfold Group.endWait
  split
  · split
    · exact ⟨rfl, rfl⟩
    · exact refl
  · exact refl

end Group.Stays

/-! ## What a return looks up (R158) -/

/-- A look-up that has changed no core but as `CoreFrame` says, with what it has found. -/
structure LookedUp {α : Type} (k : Nat) (s : State) (P : α → Prop) (r : State × α) : Prop where
  frame : CoreFrame k s r.1
  found : P r.2

/-- One look-up after another. -/
theorem LookedUp.foldl {α : Type} {k : Nat} {s : State} {P : α → Prop} {f : State × α → Nat → State × α} (ls : List Nat)
    {r : State × α} (h : LookedUp k s P r) (hf : ∀ r l, LookedUp k s P r → LookedUp k s P (f r l)) :
    LookedUp k s P (ls.foldl f r) :=
  List.foldlRecOn (motive := LookedUp k s P) _ _ h fun r hr l _ => hf r l hr

/-- A core that begins an operation other than a migration. -/
theorem CoreFrame.addFlight (s : State) (k : Nat) (f : Flight) (hk : k < s.cores.length)
    (hf : ∀ e w d b, f.kind ≠ .migrate e w d b) : CoreFrame k s (s.modCore k fun c => { c with flight := c.flight ++ [f] }) := by
  refine ⟨⟨_, _, _, s.core_modCore k _ hk⟩, List.length_modify .., fun h => h.modCore k _ fun c o ho => ?_⟩
  rcases List.mem_append.1 ho with hold | hnew
  · exact .inl hold
  · rw [List.mem_singleton.1 hnew]
    exact .inr hf

/-- A group that returns is of its team and in its phase, and the core differs at most in a load of hidden term state. -/
theorem State.reload_looks (s : State) (k slot : Nat) (g : Group) (hk : k < s.cores.length) :
    LookedUp k s g.Stays (s.reload k slot g) := by
  unfold State.reload
  extract_lets t space look parks descs f
  have hlook : ∀ u a, CoreFrame k u (look u a).1 := fun u a => u.look_frame k _ _ _ a
  have hparks : LookedUp k s g.Stays parks := by
    refine .foldl _ ⟨.refl, .refl⟩ fun r l hr => ?_
    split
    · exact hr
    · exact ⟨hr.frame.trans (hlook _ _), hr.found.trans ⟨rfl, rfl⟩⟩
  clear_value parks
  have hdescs : LookedUp k s (fun _ => True) descs := by
    refine .foldl _ ⟨hparks.frame, trivial⟩ fun r l hr => ?_
    dsimp only
    split
    · exact hr
    · have hfound := hr.frame.trans (hlook r.1 (parks.2.lane l).sd)
      generalize look r.1 (parks.2.lane l).sd = x at hfound
      obtain ⟨u, pa⟩ := x
      cases pa with
      | some pa => exact ⟨hfound, trivial⟩
      | none => exact ⟨hfound, trivial⟩
  clear_value descs
  split
  · exact ⟨hdescs.frame, hparks.found⟩
  · have hnumbered : CoreFrame k s { descs.1 with nextId := descs.1.nextId + 1 } := hdescs.frame.trans (.of_cores rfl rfl)
    exact ⟨hnumbered.trans (.addFlight _ k _ (hdescs.frame.length ▸ hk) nofun), hparks.found⟩

/-! ## The groups of a team that returns -/

/-- Of core `k` the slots `js` alone take a group, and a calm package is still calm. -/
structure ReturnFrame (k : Nat) (js : List Nat) (s t : State) : Prop where
  regs : (t.core k).regs = (s.core k).regs
  teams : (t.core k).teams = (s.core k).teams
  saved : (t.core k).saved = (s.core k).saved
  slots : (t.core k).groups.length = (s.core k).groups.length
  others : ∀ j, j ∉ js → (t.core k).group j = (s.core k).group j
  length : t.cores.length = s.cores.length
  calm : s.Calm → t.Calm

namespace ReturnFrame

variable {k : Nat} {js js' : List Nat} {s t u : State}

theorem of_frame (h : CoreFrame k s t) : ReturnFrame k js s t :=
  ⟨h.regs, h.teams, h.saved, congrArg List.length h.groups, fun j _ => by rw [Core.group, h.groups]; rfl, h.length, h.calm⟩

theorem mono (h : ReturnFrame k js s t) (hjs : js ⊆ js') : ReturnFrame k js' s t :=
  { h with others := fun j hj => h.others j fun hmem => hj (hjs hmem) }

theorem trans (h : ReturnFrame k js s t) (h' : ReturnFrame k js t u) : ReturnFrame k js s u :=
  ⟨h'.regs.trans h.regs, h'.teams.trans h.teams, h'.saved.trans h.saved, h'.slots.trans h.slots,
    fun j hj => (h'.others j hj).trans (h.others j hj), h'.length.trans h.length, fun hs => h'.calm (h.calm hs)⟩

theorem setGroup (s : State) (k j : Nat) (g : Group) (hk : k < s.cores.length) :
    ReturnFrame k [j] s (s.modCore k fun c => { c with groups := c.groups.set j (some g) }) := by
  have hcore := s.core_modCore k (fun c => { c with groups := c.groups.set j (some g) }) hk
  refine ⟨by rw [hcore], by rw [hcore], by rw [hcore], by rw [hcore, List.length_set], fun i hi => ?_,
    List.length_modify .., fun h => h.modCore k _ fun c o ho => .inl ho⟩
  have hij : j ≠ i := fun h => hi (List.mem_singleton.2 h.symm)
  rw [hcore]
  simp [Core.group, List.getD_eq_getElem?_getD, hij]

theorem modGroup (s : State) (k j : Nat) (f : Group → Group) (hk : k < s.cores.length) :
    ReturnFrame k [j] s (s.modGroup k j f) := by
  have hcore : (s.modGroup k j f).core k = (s.core k).modGroup j f := s.core_modCore k _ hk
  refine ⟨by rw [hcore]; rfl, by rw [hcore]; rfl, by rw [hcore]; rfl, ?_, fun i hi => ?_, List.length_modify ..,
    fun h => h.modCore k _ fun c o ho => .inl ho⟩
  · rw [hcore]
    exact List.length_modify ..
  · rw [hcore]
    exact Core.group_modGroup_ne _ _ _ _ fun h => hi (List.mem_singleton.2 h)

end ReturnFrame

theorem State.group_setGroup (s : State) (k j : Nat) (g : Group) (hk : k < s.cores.length)
    (hj : j < (s.core k).groups.length) :
    ((s.modCore k fun c => { c with groups := c.groups.set j (some g) }).core k).group j = some g := by
  rw [s.core_modCore k _ hk]
  simp [Core.group, List.getD_eq_getElem?_getD, hj]

/-- What became of a group's waits changes neither its team nor its phase (R35, R167). -/
theorem State.settleGroup_stays (s : State) (k j : Nat) (g : Group) (hk : k < s.cores.length)
    (hg : (s.core k).group j = some g) : ∃ h, ((s.settleGroup k j).core k).group j = some h ∧ g.Stays h := by
  rw [State.settleGroup, State.modGroup, s.core_modCore k _ hk, Core.group_modGroup, hg]
  refine ⟨_, rfl, ?_⟩
  dsimp only
  split
  · exact .refl
  · split
    · exact (Group.Stays.wakeReturned g _ _).trans (.endWait _ _ _ _ _)
    · exact .wakeReturned g _ _

theorem State.returnGroup_stays (s : State) (k : Nat) (x : Nat × Group) (hk : k < s.cores.length) (h : s.Calm)
    (hx : x.1 < (s.core k).groups.length) :
    ReturnFrame k [x.1] s (s.returnGroup k x) ∧ ∃ g, ((s.returnGroup k x).core k).group x.1 = some g ∧ x.2.Stays g := by
  unfold State.returnGroup
  dsimp only
  split
  next hp =>
    have hwrite := CoreFrame.deviceWrite (k := k) h (s.localPa ((s.core k).regs.fsave.toNat % 2 ^ 44 / 4096 * 4096 +
      imagePlace * x.1)) (s.readPa x.2.area (imageHead + 128 * x.2.rf.v.length + 192))
    generalize s.deviceWrite _ _ = t at hwrite ⊢
    have hk' : k < t.cores.length := hwrite.length ▸ hk
    exact ⟨(ReturnFrame.of_frame hwrite).trans (.setGroup t k x.1 _ hk'), _,
      t.group_setGroup k x.1 _ hk' (hwrite.groups ▸ hx), rfl, rfl⟩
  next =>
    generalize s.readPa x.2.area (imageHead + 128 * x.2.rf.v.length + 192) = b
    obtain ⟨hload, hstays⟩ := s.reload_looks k x.1 (x.2.restore b) hk
    generalize s.reload k x.1 (x.2.restore b) = r at hload hstays
    have hk₁ : k < r.1.cores.length := hload.length ▸ hk
    have hset := ReturnFrame.setGroup r.1 k x.1 r.2 hk₁
    have hgroup := r.1.group_setGroup k x.1 r.2 hk₁ (hload.groups ▸ hx)
    generalize r.1.modCore k (fun c => { c with groups := c.groups.set x.1 (some r.2) }) = t at hset hgroup
    have hk₂ : k < t.cores.length := hset.length ▸ hk₁
    obtain ⟨g, hg, hsettled⟩ := t.settleGroup_stays k x.1 r.2 hk₂ hgroup
    have hrestored : x.2.Stays (x.2.restore b) := ⟨rfl, rfl⟩
    exact ⟨((ReturnFrame.of_frame hload).trans hset).trans (.modGroup t k x.1 _ hk₂), g, hg,
      (hrestored.trans hstays).trans hsettled⟩

/-- The groups return one after another, each to its own slot. -/
theorem State.returnGroups_stay (k : Nat) (xs : List (Nat × Group)) (s : State) (hk : k < s.cores.length) (h : s.Calm)
    (hdistinct : (xs.map (·.1)).Nodup) (hslots : ∀ x ∈ xs, x.1 < (s.core k).groups.length) :
    ReturnFrame k (xs.map (·.1)) s (xs.foldl (fun s x => s.returnGroup k x) s) ∧
      ∀ x ∈ xs, ∃ g, ((xs.foldl (fun s x => s.returnGroup k x) s).core k).group x.1 = some g ∧ x.2.Stays g := by
  induction xs generalizing s with
  | nil => exact ⟨.of_frame .refl, fun x hx => absurd hx List.not_mem_nil⟩
  | cons y ys ih =>
    rw [List.map_cons, List.nodup_cons] at hdistinct
    obtain ⟨hfirst, g, hg, hstays⟩ := s.returnGroup_stays k y hk h (hslots y List.mem_cons_self)
    rw [List.foldl_cons]
    generalize s.returnGroup k y = t at hfirst hg
    obtain ⟨hrest, hall⟩ := ih t (hfirst.length ▸ hk) (hfirst.calm h) hdistinct.2 fun x hx => by
      rw [hfirst.slots]
      exact hslots x (List.mem_cons_of_mem y hx)
    refine ⟨(hfirst.mono ?_).trans (hrest.mono (List.subset_cons_self ..)), fun x hx => ?_⟩
    · exact List.cons_subset_cons _ (List.nil_subset _)
    · rcases List.mem_cons.1 hx with rfl | hx
      · exact ⟨g, (hrest.others _ hdistinct.1).trans hg, hstays⟩
      · exact hall x hx

/-! ## The team -/

/-- A core to which a saved team has returned, its groups not yet back (R165). -/
def Core.takeBack (c : Core) (t : SavedTeam) (spad : List (Nat × List Byte)) (tiles : List (Nat × Tile)) : Core :=
  { c with
    teams := c.teams ++ [t.team]
    saved := c.saved.filter (·.area != t.area)
    freeBlocks := c.freeBlocks - (t.team.pool + (t.groups.map fun g => g.2.rf.v.length / 8).sum)
    spad := spad.foldl (fun m x => m.write (1024 * x.1) x.2) c.spad
    spadOwner := c.spadOwner.mapIdx fun i o => if t.team.spadMap.contains i then some t.team.origin.tenant else o
    tiles := tiles.foldl (fun ts x => ts.set x.1 x.2) c.tiles }

/-- A team without loads to be replayed returns: first its own state, then its groups, then the requests of the core. -/
theorem State.returnTeam_eq (s : State) (k : Nat) (t : SavedTeam) (hr : t.replays = []) : ∃ spad tiles,
    s.returnTeam k t =
      (t.groups.foldl (fun s x => s.returnGroup k x) (s.modCore k (·.takeBack t spad tiles))).sendRequests k := by
  unfold State.returnTeam
  rw [hr]
  exact ⟨_, _, rfl⟩

/-- The requests that a core sends change of it the operations in flight alone. -/
theorem State.core_sendRequests (s : State) (k : Nat) : ∃ fs, (s.sendRequests k).core k = { s.core k with flight := fs } := by
  obtain ⟨i, hi⟩ := Infinite.exists_notMem_finset ((s.core k).flight.map (·.id)).toFinset
  have hfree : ∀ f, (s.core k).op i = some f → f.unsent = false := fun f hf => by
    refine absurd ?_ hi
    rw [List.mem_toFinset, ← Core.op_id _ _ _ hf]
    exact List.mem_map_of_mem (List.mem_of_find?_eq_some hf)
  obtain ⟨fs, hcore, -⟩ := (SendFrame.sendRequests s hfree).core
  exact ⟨fs, hcore⟩

/-- A core with a team is one of the package's. -/
theorem State.lt_of_teams {s : State} {k : Nat} (h : (s.core k).teams ≠ []) : k < s.cores.length := by
  by_contra hk
  have hreset : s.core k = Core.reset := by
    rw [State.core, List.getD_eq_getElem?_getD, List.getElem?_eq_none (Nat.not_lt.1 hk), Option.getD_none]
  exact h (by rw [hreset]; rfl)

theorem teamReturn_returns (s : State) (k : Nat) (t : SavedTeam) (hk : k < s.cores.length) (h : s.Calm)
    (hfind : (s.core k).saved.find? (·.wanted) = some t) (hcan : (s.core k).canReturn t)
    (hdistinct : (t.groups.map (·.1)).Nodup) (hr : t.replays = [])
    (hslots : ∀ x ∈ t.groups, x.1 < (s.core k).groups.length) :
    ∃ u, exec (.teamReturn k) s = .next u ∧ (u.core k).regs = { (s.core k).regs with cstat := 2 } ∧
      (u.core k).teams = (s.core k).teams ++ [t.team] ∧
      (u.core k).saved = (s.core k).saved.filter (·.area != t.area) ∧
      ∀ x ∈ t.groups, ∃ g, (u.core k).group x.1 = some g ∧ g.team = x.2.team ∧ g.phase = x.2.phase := by
  have hexec : exec (.teamReturn k) s = .next ((s.returnTeam k t).endCommand k 2) := by
    change execTeamReturn k s = _
    rw [execTeamReturn, hfind]
    simp only [hcan, Bool.not_true, Bool.false_eq_true, if_false]
  obtain ⟨spad, tiles, hreturn⟩ := s.returnTeam_eq k t hr
  have htaken : (s.modCore k (·.takeBack t spad tiles)).core k = (s.core k).takeBack t spad tiles := s.core_modCore k _ hk
  have hcalm : (s.modCore k (·.takeBack t spad tiles)).Calm := h.modCore k _ fun c o ho => .inl ho
  have hk' : k < (s.modCore k (·.takeBack t spad tiles)).cores.length := (List.length_modify ..).symm ▸ hk
  generalize s.modCore k (·.takeBack t spad tiles) = s₁ at hreturn htaken hcalm hk'
  obtain ⟨hframe, hgroups⟩ := s₁.returnGroups_stay k t.groups hk' hcalm hdistinct (htaken ▸ hslots)
  generalize t.groups.foldl (fun s x => s.returnGroup k x) s₁ = s₂ at hreturn hframe hgroups
  obtain ⟨fs, hsent⟩ := s₂.core_sendRequests k
  rw [← hreturn] at hsent
  have hteams : (s₂.core k).teams = (s.core k).teams ++ [t.team] := by rw [hframe.teams, htaken]; rfl
  have hlt : k < (s.returnTeam k t).cores.length := State.lt_of_teams (by rw [hsent]; simp [hteams])
  have hend := State.core_endCommand (s.returnTeam k t) k 2 hlt
  rw [hsent] at hend
  refine ⟨_, hexec, ?regs, ?teams, ?saved, fun x hx => ?group⟩
  case regs =>
    rw [hend]
    have hregs : (s₂.core k).regs = (s.core k).regs := hframe.regs.trans (by rw [htaken]; rfl)
    exact congrArg (fun r => { r with cstat := 2 }) hregs
  case teams =>
    rw [hend]
    exact hteams
  case saved =>
    rw [hend]
    exact hframe.saved.trans (by rw [htaken]; rfl)
  case group =>
    obtain ⟨g, hg, hstays⟩ := hgroups x hx
    rw [hend]
    exact ⟨g, hg, hstays.team, hstays.phase⟩

/-! ## The obligation -/

/-- Settles O48: each of the five parts is what its command does, on a core that has nothing in flight. -/
theorem coreCommands : Obligations.CoreCommands := by
  unfold Obligations.CoreCommands
  intro s k m hk hf hu hb hr
  have hcalm : s.Calm := ⟨hu, hb⟩
  refine ⟨fun j g t _ hj hg ht hmay hwait => saveTeam_saves s k m j g t hk hf hcalm hj hg ht hmay hwait,
    restoreTeam_asks s k, fun t hfind hcan hdistinct hreplays hslots =>
      teamReturn_returns s k t hk hcalm hfind hcan hdistinct hreplays hslots,
    fun j g hj hg he hq hpend hl hbar hclaims => returnGroup_returns s k m j g hk hf hr hj hg he hpend hl hbar hclaims,
    fun hm => terminate_ends s k m hk hcalm hm⟩

end Sys2Proof.Machine
end

section
/-! SUPPORT. What a decoded word says of its bits (O58): a field of the word as a number, and an answer of the decoder that is
faithful to its word. -/

namespace Sys2Proof.Laws

open Sys2Proof

/-! ## Fields -/

theorem bf_toNat (n w d : Nat) : (bf n w d).toNat = w / d % 2 ^ n := BitVec.toNat_ofNat _ _

theorem bb_toNat (w d : Nat) : (bb w d).toNat = w / d % 2 := by
  rcases Nat.mod_two_eq_zero_or_one (w / d) with h | h <;> simp [bb, h]

/-- A field at its place, and what lies below it. -/
theorem field_add_below (w d m : Nat) : w / d % m * d + w % d = w % (d * m) := by
  rw [Nat.mod_mul, Nat.mul_comm d, Nat.add_comm]

/-- A field at its place, with zeros below it. -/
theorem field_of_below_zero (w d m : Nat) (h : w % d = 0) : w / d % m * d = w % (d * m) := by
  rw [← field_add_below, h, Nat.add_zero]

/-! ## Faithful answers -/

/-- An answer of the decoder that is faithful to the word `w`: the instruction that it gives, if it gives one, is well-formed, and
its word is `w`. -/
def Faithful (w : Nat) (r : Except Reject Instr) : Prop :=
  ∀ i, r = .ok i → i.wellFormed = true ∧ i.code = some w

theorem Faithful.error {w : Nat} (e : Reject) : Faithful w (.error e) := fun _ h => nomatch h

theorem Faithful.ite {w : Nat} {c : Prop} [Decidable c] {r q : Except Reject Instr} (hr : c → Faithful w r)
    (hq : ¬c → Faithful w q) : Faithful w (if c then r else q) := by
  by_cases h : c
  · rw [if_pos h]; exact hr h
  · rw [if_neg h]; exact hq h

/-- A row is faithful when, its reserved fields being zero, its fields make up the word (R14, R213). -/
theorem Faithful.row {w n : Nat} {zero : Prop} [Decidable zero] {i : Instr} (hc : i.code = some n) (hz : zero → n = w) :
    Faithful w (row zero i) := by
  refine .ite (fun z => .ite (fun wf j h => ?_) fun _ => .error _) fun _ => .error _
  cases h
  exact ⟨wf, hc.trans (congrArg some (hz z))⟩

/-- A row behind a selector field of the value `k` (R221, R333, R338). -/
theorem Faithful.selected {w n d : Nat} {k : BitVec n} {r q : Except Reject Instr}
    (hr : w / d % 2 ^ n = k.toNat → Faithful w r) (hq : Faithful w q) : Faithful w (if bf n w d == k then r else q) :=
  .ite (fun h => hr ((bf_toNat n w d).symm.trans (congrArg BitVec.toNat (eq_of_beq h)))) fun _ => hq

end Sys2Proof.Laws
end

section
/-! SUPPORT. Every row of the decoder is faithful to its word (O58; R195, R213, R214): the opcode byte, the fields of the row, and
its reserved fields, which are zero, are all 32 bits. Every row closes alike: the fields that meet are joined from the lowest up, and
what is left of the sum is linear arithmetic. -/

namespace Sys2Proof.Laws

open Sys2Proof

section
variable {w op : Nat} (hw : w < 4294967296)
include hw

theorem decodeRow0_faithful (ho : w / 4194304 % 256 = 0 + op) : Faithful w (decodeRow0 op w) := by
  unfold decodeRow0
  split
  case h_17 => exact .error _
  all_goals
    refine .row rfl fun z => ?_
    simp only [bf_toNat, bb_toNat, Nat.reducePow, Nat.add_assoc, Nat.div_one, Nat.mul_one, field_add_below,
      field_of_below_zero, z, Nat.reduceMul]
    omega

theorem decodeRow1_faithful (ho : w / 4194304 % 256 = 16 + op) : Faithful w (decodeRow1 op w) := by
  unfold decodeRow1
  split
  case h_17 => exact .error _
  case h_11 =>
    refine .selected (fun h => .row rfl fun _ => ?_) <| .selected (fun h => .row rfl fun _ => ?_) <|
      .selected (fun h => .row rfl fun _ => ?_) <| .error _
    all_goals
      simp only [BitVec.reduceToNat, Nat.reducePow] at h
      simp only [bf_toNat, bb_toNat, Nat.reducePow]
      omega
  all_goals
    refine .row rfl fun z => ?_
    simp only [bf_toNat, bb_toNat, Nat.reducePow, Nat.add_assoc, Nat.div_one, Nat.mul_one, field_add_below,
      field_of_below_zero, z, Nat.reduceMul]
    omega

theorem decodeRow2_faithful (ho : w / 4194304 % 256 = 32 + op) : Faithful w (decodeRow2 op w) := by
  unfold decodeRow2
  split
  case h_17 => exact .error _
  all_goals
    refine .row rfl fun z => ?_
    simp only [bf_toNat, bb_toNat, Nat.reducePow, Nat.add_assoc, Nat.div_one, Nat.mul_one, field_add_below,
      field_of_below_zero, z, Nat.reduceMul]
    omega

theorem decodeRow3_faithful (ho : w / 4194304 % 256 = 48 + op) : Faithful w (decodeRow3 op w) := by
  unfold decodeRow3
  split
  case h_16 => exact .error _
  all_goals
    refine .row rfl fun z => ?_
    simp only [bf_toNat, bb_toNat, Nat.reducePow, Nat.add_assoc, Nat.div_one, Nat.mul_one, field_add_below,
      field_of_below_zero, z, Nat.reduceMul]
    omega

theorem decodeRow4_faithful (ho : w / 4194304 % 256 = 64 + op) : Faithful w (decodeRow4 op w) := by
  unfold decodeRow4
  split
  case h_17 => exact .error _
  all_goals
    refine .row rfl fun z => ?_
    simp only [bf_toNat, bb_toNat, Nat.reducePow, Nat.add_assoc, Nat.div_one, Nat.mul_one, field_add_below,
      field_of_below_zero, z, Nat.reduceMul]
    omega

theorem decodeRow5_faithful (ho : w / 4194304 % 256 = 80 + op) : Faithful w (decodeRow5 op w) := by
  unfold decodeRow5
  split
  case h_17 => exact .error _
  all_goals
    refine .row rfl fun z => ?_
    simp only [bf_toNat, bb_toNat, Nat.reducePow, Nat.add_assoc, Nat.div_one, Nat.mul_one, field_add_below,
      field_of_below_zero, z, Nat.reduceMul]
    omega

theorem decodeRow6_faithful (ho : w / 4194304 % 256 = 96 + op) : Faithful w (decodeRow6 op w) := by
  unfold decodeRow6
  split
  case h_5 => exact .error _
  all_goals
    refine .row rfl fun z => ?_
    simp only [bf_toNat, bb_toNat, Nat.reducePow, Nat.add_assoc, Nat.div_one, Nat.mul_one, field_add_below,
      field_of_below_zero, z, Nat.reduceMul]
    omega

theorem decodeRow8_faithful (ho : w / 4194304 % 256 = 128 + op) : Faithful w (decodeRow8 op w) := by
  unfold decodeRow8
  split
  case h_17 => exact .error _
  all_goals
    refine .row rfl fun z => ?_
    simp only [bf_toNat, bb_toNat, Nat.reducePow, Nat.add_assoc, Nat.div_one, Nat.mul_one, field_add_below,
      field_of_below_zero, z, Nat.reduceMul]
    omega

theorem decodeRow9_faithful (ho : w / 4194304 % 256 = 144 + op) : Faithful w (decodeRow9 op w) := by
  unfold decodeRow9
  split
  case h_17 => exact .error _
  all_goals
    refine .row rfl fun z => ?_
    simp only [bf_toNat, bb_toNat, Nat.reducePow, Nat.add_assoc, Nat.div_one, Nat.mul_one, field_add_below,
      field_of_below_zero, z, Nat.reduceMul]
    omega

theorem decodeRow10_faithful (ho : w / 4194304 % 256 = 160 + op) : Faithful w (decodeRow10 op w) := by
  unfold decodeRow10
  split
  case h_17 => exact .error _
  all_goals
    refine .row rfl fun z => ?_
    simp only [bf_toNat, bb_toNat, Nat.reducePow, Nat.add_assoc, Nat.div_one, Nat.mul_one, field_add_below,
      field_of_below_zero, z, Nat.reduceMul]
    omega

theorem decodeRow11_faithful (ho : w / 4194304 % 256 = 176 + op) : Faithful w (decodeRow11 op w) := by
  unfold decodeRow11
  split
  case h_13 => exact .error _
  case h_3 =>
    refine .selected (fun h => .row rfl fun z => ?_) <| .selected (fun h => .row rfl fun z => ?_) <|
      .ite (fun _ => .error _) fun _ => .error _
    all_goals
      simp only [BitVec.reduceToNat, Nat.reducePow] at h
      simp only [bf_toNat, bb_toNat, Nat.reducePow]
      omega
  case h_11 =>
    refine .selected (fun h => .row rfl fun z => ?_) <| .selected (fun h => .row rfl fun z => ?_) <|
      .ite (fun _ => .error _) fun _ => .error _
    all_goals
      simp only [BitVec.reduceToNat, Nat.reducePow] at h
      simp only [bf_toNat, bb_toNat, Nat.reducePow]
      omega
  all_goals
    refine .row rfl fun z => ?_
    simp only [bf_toNat, bb_toNat, Nat.reducePow, Nat.add_assoc, Nat.div_one, Nat.mul_one, field_add_below,
      field_of_below_zero, z, Nat.reduceMul]
    omega

/-- The F class (R212). -/
theorem decodeF_faithful (hf : w / 268435456 % 4 = 3) : Faithful w (decodeF w) := by
  refine .ite (fun h => .row rfl fun _ => ?_) fun h => .row rfl fun _ => ?_
  all_goals
    simp only [bb, beq_iff_eq] at h
    simp only [bf_toNat, bb_toNat, Nat.reducePow]
    omega

/-- Every answer of the decoder is faithful to its word. -/
theorem decodeWord_faithful : Faithful w (decodeWord w) := by
  refine .ite (fun hf => decodeF_faithful hw hf) fun _ => ?_
  split
  case h_1 => exact decodeRow0_faithful hw (by omega)
  case h_2 => exact decodeRow1_faithful hw (by omega)
  case h_3 => exact decodeRow2_faithful hw (by omega)
  case h_4 => exact decodeRow3_faithful hw (by omega)
  case h_5 => exact decodeRow4_faithful hw (by omega)
  case h_6 => exact decodeRow5_faithful hw (by omega)
  case h_7 => exact decodeRow6_faithful hw (by omega)
  case h_8 => exact decodeRow8_faithful hw (by omega)
  case h_9 => exact decodeRow9_faithful hw (by omega)
  case h_10 => exact decodeRow10_faithful hw (by omega)
  case h_11 => exact decodeRow11_faithful hw (by omega)
  case h_12 => exact .error _

end

end Sys2Proof.Laws
end

section
/-! SUPPORT and PROOF. Encoding and decoding (O57, O58; R195, R213). -/

namespace Sys2Proof.Laws

open Sys2Proof

/-! ## Words of instructions -/

/-- The word of every well-formed instruction decodes to it: a row by its own lemma, and an event has no word. -/
theorem RoundTrip.all (i : Instr) : RoundTrip.Statement i := by
  cases i
  case clause => apply RoundTrip.clause
  case guard => apply RoundTrip.guard
  case nop => apply RoundTrip.nop
  case brk => apply RoundTrip.brk
  case iadd => apply RoundTrip.iadd
  case isub => apply RoundTrip.isub
  case imul => apply RoundTrip.imul
  case imulh => apply RoundTrip.imulh
  case imad => apply RoundTrip.imad
  case iabs => apply RoundTrip.iabs
  case imin => apply RoundTrip.imin
  case imax => apply RoundTrip.imax
  case ishl => apply RoundTrip.ishl
  case ishr => apply RoundTrip.ishr
  case irot => apply RoundTrip.irot
  case and => apply RoundTrip.and
  case or => apply RoundTrip.or
  case xor => apply RoundTrip.xor
  case andn => apply RoundTrip.andn
  case clz => apply RoundTrip.clz
  case popc => apply RoundTrip.popc
  case brev => apply RoundTrip.brev
  case bfx => apply RoundTrip.bfx
  case bfi => apply RoundTrip.bfi
  case icmp => apply RoundTrip.icmp
  case plog => apply RoundTrip.plog
  case movW32 => apply RoundTrip.movW32
  case movW64 => apply RoundTrip.movW64
  case movS => apply RoundTrip.movS
  case movi => apply RoundTrip.movi
  case movhi => apply RoundTrip.movhi
  case add64 => apply RoundTrip.add64
  case sub64 => apply RoundTrip.sub64
  case mul64 => apply RoundTrip.mul64
  case shl64 => apply RoundTrip.shl64
  case shr64 => apply RoundTrip.shr64
  case cmp64 => apply RoundTrip.cmp64
  case bra => apply RoundTrip.bra
  case jmp => apply RoundTrip.jmp
  case call => apply RoundTrip.call
  case ret => apply RoundTrip.ret
  case exit => apply RoundTrip.exit
  case brx => apply RoundTrip.brx
  case vote => apply RoundTrip.vote
  case rdsr => apply RoundTrip.rdsr
  case wrsr => apply RoundTrip.wrsr
  case taskSpawn => apply RoundTrip.taskSpawn
  case taskDone => apply RoundTrip.taskDone
  case ctrAdd => apply RoundTrip.ctrAdd
  case wqPop => apply RoundTrip.wqPop
  case wqPush => apply RoundTrip.wqPush
  case bar => apply RoundTrip.bar
  case barArrive => apply RoundTrip.barArrive
  case barWait => apply RoundTrip.barWait
  case roleGive => apply RoundTrip.roleGive
  case roleClaim => apply RoundTrip.roleClaim
  case park => apply RoundTrip.park
  case trap => apply RoundTrip.trap
  case sysret => apply RoundTrip.sysret
  case watch => apply RoundTrip.watch
  case clock => apply RoundTrip.clock
  case pmark => apply RoundTrip.pmark
  case hold => apply RoundTrip.hold
  case cap => apply RoundTrip.cap
  case sleep => apply RoundTrip.sleep
  case fadd => apply RoundTrip.fadd
  case fsub => apply RoundTrip.fsub
  case fmul => apply RoundTrip.fmul
  case ffma => apply RoundTrip.ffma
  case fmin => apply RoundTrip.fmin
  case fmax => apply RoundTrip.fmax
  case fcmp => apply RoundTrip.fcmp
  case frcp => apply RoundTrip.frcp
  case frsq => apply RoundTrip.frsq
  case fsqrt => apply RoundTrip.fsqrt
  case fdiv => apply RoundTrip.fdiv
  case fexp2 => apply RoundTrip.fexp2
  case flog2 => apply RoundTrip.flog2
  case fsin => apply RoundTrip.fsin
  case fcos => apply RoundTrip.fcos
  case frnd => apply RoundTrip.frnd
  case fclass => apply RoundTrip.fclass
  case fscale => apply RoundTrip.fscale
  case dadd => apply RoundTrip.dadd
  case dmul => apply RoundTrip.dmul
  case dfma => apply RoundTrip.dfma
  case dminmax => apply RoundTrip.dminmax
  case dcmp => apply RoundTrip.dcmp
  case hadd2 => apply RoundTrip.hadd2
  case hmul2 => apply RoundTrip.hmul2
  case hfma2 => apply RoundTrip.hfma2
  case bfma2 => apply RoundTrip.bfma2
  case cvt => apply RoundTrip.cvt
  case cvtpk => apply RoundTrip.cvtpk
  case cvtupk => apply RoundTrip.cvtupk
  case shfl => apply RoundTrip.shfl
  case bcast => apply RoundTrip.bcast
  case lred => apply RoundTrip.lred
  case lscan => apply RoundTrip.lscan
  case cellkey => apply RoundTrip.cellkey
  case fdot2 => apply RoundTrip.fdot2
  case ldg => apply RoundTrip.ldg
  case stg => apply RoundTrip.stg
  case lds => apply RoundTrip.lds
  case sts => apply RoundTrip.sts
  case ldp => apply RoundTrip.ldp
  case stp => apply RoundTrip.stp
  case ldacq => apply RoundTrip.ldacq
  case strel => apply RoundTrip.strel
  case atadd => apply RoundTrip.atadd
  case atminmax => apply RoundTrip.atminmax
  case atlogic => apply RoundTrip.atlogic
  case atxchg => apply RoundTrip.atxchg
  case atcas => apply RoundTrip.atcas
  case bankAdd => apply RoundTrip.bankAdd
  case bankFx => apply RoundTrip.bankFx
  case bankFxread => apply RoundTrip.bankFxread
  case bankApp => apply RoundTrip.bankApp
  case bankAxpy => apply RoundTrip.bankAxpy
  case bankRed => apply RoundTrip.bankRed
  case fence => apply RoundTrip.fence
  case fenceRng => apply RoundTrip.fenceRng
  case cpyL => apply RoundTrip.cpyL
  case cpyT => apply RoundTrip.cpyT
  case trywait => apply RoundTrip.trywait
  case pref => apply RoundTrip.pref
  case ldk => apply RoundTrip.ldk
  case stkCtx => apply RoundTrip.stkCtx
  case flushl1 => apply RoundTrip.flushl1
  case mma => apply RoundTrip.mma
  case accLd => apply RoundTrip.accLd
  case accSt => apply RoundTrip.accSt
  case accStrows => apply RoundTrip.accStrows
  case accZero => apply RoundTrip.accZero
  case resAlloc => apply RoundTrip.resAlloc
  case resLoad => apply RoundTrip.resLoad
  case resPin => apply RoundTrip.resPin
  case resFree => apply RoundTrip.resFree
  case resQuery => apply RoundTrip.resQuery
  case resHeat => apply RoundTrip.resHeat
  case resAge => apply RoundTrip.resAge
  case resMigrate => apply RoundTrip.resMigrate
  case mfmt => apply RoundTrip.mfmt
  case fireSet => apply RoundTrip.fireSet
  case budgetRd => apply RoundTrip.budgetRd
  case tag => apply RoundTrip.tag
  case mkt => apply RoundTrip.mkt
  case mkvar => apply RoundTrip.mkvar
  case mkstr => apply RoundTrip.mkstr
  case arg => apply RoundTrip.arg
  case deref => apply RoundTrip.deref
  case unifyP => apply RoundTrip.unifyP
  case unifyF => apply RoundTrip.unifyF
  case bind => apply RoundTrip.bind
  case choice => apply RoundTrip.choice
  case retry => apply RoundTrip.retry
  case trust => apply RoundTrip.trust
  case fail => apply RoundTrip.fail
  case cut => apply RoundTrip.cut
  case adopt => apply RoundTrip.adopt
  case publishOpen => apply RoundTrip.publishOpen
  case publishClose => apply RoundTrip.publishClose
  case btld => apply RoundTrip.btld
  case faddi => apply RoundTrip.faddi
  case fmuli => apply RoundTrip.fmuli
  all_goals exact fun _ _ e => nomatch e

/-- Little-endian bytes stand for the number that they were cut from (R12). -/
theorem natOfBytes_bytesOf (n w : Nat) : natOfBytes (bytesOf n w) = w % 256 ^ n := by
  induction n generalizing w with
  | zero => rw [Nat.pow_zero, Nat.mod_one]; rfl
  | succ n ih =>
    rw [bytesOf, natOfBytes, ih, Nat.pow_succ', Nat.mod_mul, BitVec.toNat_ofNat]

/-- The bytes of a word decode as the word does, whatever follows. -/
theorem decodeBytes_bytesOf {w : Word} {i : Instr} (h : decodeWord w.toNat = .ok i) (rest : List Byte) :
    decodeBytes (bytesOf 4 w.toNat ++ rest) = .ok (i, rest) := by
  have hw : natOfBytes (bytesOf 4 w.toNat) = w.toNat :=
    (natOfBytes_bytesOf 4 w.toNat).trans (Nat.mod_eq_of_lt w.isLt)
  rw [← hw] at h
  simp only [bytesOf] at h ⊢
  simp only [List.cons_append, List.nil_append, decodeBytes, h]

theorem encode_of_code {i : Instr} {n : Nat} (h : i.code = some n) : encode i = [BitVec.ofNat 32 n] := by
  rw [encode, h]

theorem encode_eq_singleton {i : Instr} {w : Word} (h : encode i = [w]) : ∃ n, i.code = some n ∧ BitVec.ofNat 32 n = w := by
  cases hc : i.code with
  | none => rw [encode, hc] at h; cases h
  | some n =>
    rw [encode_of_code hc] at h
    exact ⟨n, rfl, List.singleton_inj.1 h⟩

/-! ## The obligations -/

/-- Settles O57: each word is its instruction's word, which decodes to it. -/
theorem wordsDecode : Obligations.WordsDecode := by
  unfold Obligations.WordsDecode
  exact ⟨(RoundTrip.iadd true false 4 1 0x30 true _ rfl rfl).2, (RoundTrip.fmul false false 5 2 3 true _ rfl rfl).2,
    (RoundTrip.iadd false false 3 3 2 true _ rfl rfl).2⟩

/-- Settles O58: each row's word decodes to its instruction, and each answer of the decoder is faithful to its word. -/
theorem encodingRoundTrip : Obligations.EncodingRoundTrip := by
  unfold Obligations.EncodingRoundTrip
  refine ⟨fun i w rest hwf he => ?_, fun w i hd => ?_⟩
  · obtain ⟨n, hc, rfl⟩ := encode_eq_singleton he
    obtain ⟨hn, hd⟩ := RoundTrip.all i n hwf hc
    have ht : (BitVec.ofNat 32 n).toNat = n := by rw [BitVec.toNat_ofNat, Nat.mod_eq_of_lt hn]
    exact decodeBytes_bytesOf (ht.symm ▸ hd) rest
  · obtain ⟨hwf, hc⟩ := decodeWord_faithful w.isLt i hd
    exact ⟨hwf, by rw [encode_of_code hc, BitVec.ofNat_toNat, BitVec.setWidth_eq]⟩

end Sys2Proof.Laws
end

section
/-! SUPPORT and PROOF. Moves and constants (O4), packet control (O10) and the quiet float words (O12). -/

namespace Sys2Proof.Machine

/-! ## A word behind its operand check -/

/-- A word whose operands pass their check writes its vector register in every executing lane (R29, R37). -/
theorem State.checked_putV_writesV (s : State) (ok : Bool) (u : Bool) (d : Nat) (f f' : Nat → Word) (hi : s.issuing = true)
    (hd : s.vOk d = true) (hok : ok = true) (e : ∀ l, f l = f' l) : WritesV s (s.checked ok (s.putV u d f)) u d f' := by
  rw [State.checked_ok s ok _ hok]
  exact s.putV_writesV u d f f' hi hd e

/-- A word of two operands writes its function of them. -/
theorem State.alu_writesV (s : State) (u : Bool) (d a b : Nat) (x : Bool) (f : Word → Word → Word) (hi : s.issuing = true)
    (hd : s.vOk d = true) (ha : s.vOk a = true) (hb : s.bOk b x = true) :
    WritesV s (s.alu u d a b x f) u d fun l => f (s.A a l) (s.B b x l) :=
  s.checked_putV_writesV _ u d _ _ hi hd (by rw [hd, ha, hb]; rfl) fun _ => rfl

/-! ## Moves and constants -/

/-- A field joined below a word, as numbers. -/
theorem toNat_append_eq_add {m n : Nat} (x : BitVec m) (y : BitVec n) : (x ++ y).toNat = x.toNat * 2 ^ n + y.toNat := by
  rw [BitVec.toNat_append, ← Nat.shiftLeft_add_eq_or_of_lt y.isLt, Nat.shiftLeft_eq]

/-- `movhi` places its constant in the upper 15 bits (R222). -/
theorem append_zero_eq_ofNat (imm : BitVec 15) : imm ++ (0 : BitVec 17) = BitVec.ofNat 32 (imm.toNat * 2 ^ 17) := by
  apply BitVec.eq_of_toNat_eq
  have hz : (0 : BitVec 17).toNat = 0 := rfl
  rw [toNat_append_eq_add, hz, BitVec.toNat_ofNat]
  have := imm.isLt
  omega

/-- The format word of `mfmt`, field by field (R319). -/
theorem formatWord_eq (fa fb : BitVec 5) (sp : BitVec 2) (i : Bool) :
    BitVec.ofNat 32 ((if i then 2 ^ 12 else 0) + sp.toNat * 2 ^ 10 + fb.toNat * 2 ^ 5 + fa.toNat) =
      (0 : BitVec 19) ++ BitVec.ofBool i ++ sp ++ fb ++ fa := by
  have hbit : (if i then 2 ^ 12 else 0) = i.toNat * 2 ^ 12 := by cases i <;> rfl
  have hz : (0 : BitVec 19).toNat = 0 := rfl
  apply BitVec.eq_of_toNat_eq
  simp only [hbit, hz, BitVec.toNat_ofNat, toNat_append_eq_add, BitVec.toNat_ofBool]
  have := i.toNat_lt
  omega

/-- Settles O4: each word writes its operand, or its constant as R222 and R319 give it. -/
theorem moves : Obligations.Moves := by
  unfold Obligations.Moves
  intro s c u x i d b imm fa fb sp hi
  refine ⟨fun hd hb => ?w32, fun hd hb => ?w64, fun hd hb => ?scalar, fun hd => ⟨?movi, ?movhi, fun ha hb => ?mfmt⟩⟩
  case w32 => exact s.checked_putV_writesV _ u _ _ _ hi hd (by rw [hd, hb]; rfl) fun _ => rfl
  case w64 =>
    have he : exec (.movW64 c u d b x) s = .next (s.putV2 u d.toNat fun l => s.B2 b.toNat x l) :=
      State.checked_ok s _ _ (by rw [hd, hb]; rfl)
    exact ⟨_, he, s.putV2_vectors u _ _ hi hd⟩
  case scalar =>
    have he : exec (.movS c u d b x) s = .next (s.putS d.toNat (if x then s.B2 b.toNat x (lowest s.issue.exec)
        else (s.A b.toNat (lowest s.issue.exec)).setWidth 64)) := by
      refine State.checked_ok s _ _ ?_
      rw [decide_eq_true hd, Bool.true_and]
      cases x <;> exact hb
    rw [he, BitVec.ofNat_toNat]
    exact s.putS_writesS _ _ hi hd
  case movi => exact s.checked_putV_writesV _ u _ _ _ hi hd hd fun _ => rfl
  case movhi => exact s.checked_putV_writesV _ u _ _ _ hi hd hd fun _ => append_zero_eq_ofNat imm
  case mfmt =>
    exact s.checked_putV_writesV _ u _ _ _ hi hd (by simp [ha, hb, hd]) fun _ => formatWord_eq fa fb sp i

/-! ## Packet control -/

/-- Some flag that `clause` selects does not read zero (R204). -/
def State.flagRaised (s : State) (w : BitVec 12) : Bool :=
  (List.range 12).any fun i => w.getLsbD i && s.grp.flags.getD i 0 != 0

theorem State.flagRaised_iff (s : State) (w : BitVec 12) :
    s.flagRaised w = true ↔ ∃ i, i < 12 ∧ w.getLsbD i = true ∧ s.grp.flags.getD i 0 ≠ 0 := by
  simp only [State.flagRaised, List.any_eq_true, List.mem_range, Bool.and_eq_true, bne_iff_ne]

/-- `clause` with legal set flags waits, or gives the group its set flags (R204, R205). -/
theorem clause_eq (s : State) (w : BitVec 12) (a b : BitVec 4) (va vb : Bool) (ha : va = true → a.toNat < 12)
    (hb : vb = true → b.toNat < 12) : exec (.clause w a b va vb) s =
      if s.flagRaised w then .next (s.wait .clauseWait)
      else .next (s.onGrp fun g => { g with
        seta := if va then some a.toNat else none, setb := if vb then some b.toNat else none }) := by
  have hlegal : ¬((va && decide (12 ≤ a.toNat)) || (vb && decide (12 ≤ b.toNat))) = true := by
    simp only [Bool.or_eq_true, Bool.and_eq_true, decide_eq_true_eq]
    rintro (⟨h, ge⟩ | ⟨h, ge⟩)
    · exact absurd (ha h) (Nat.not_lt.2 ge)
    · exact absurd (hb h) (Nat.not_lt.2 ge)
  exact if_neg hlegal

/-- Settles O10: `clause` by whether a flag that it selects is raised; a count of 1 or 2 passes `guard`'s check. -/
theorem packetControl : Obligations.PacketControl := by
  unfold Obligations.PacketControl
  intro s w a b va vb c sense p n ha hb
  refine ⟨fun hz => ?sets, fun hw => ?waits, fun hn => ?guard, rfl⟩
  case sets =>
    have hno : ¬s.flagRaised w = true := fun h =>
      have ⟨i, h1, h2, h3⟩ := (s.flagRaised_iff w).1 h
      h3 (hz i h1 h2)
    rw [clause_eq s w a b va vb ha hb, if_neg hno]
    exact ⟨_, rfl, s.onGrp_onlyGroup _⟩
  case waits =>
    rw [clause_eq s w a b va vb ha hb, if_pos ((s.flagRaised_iff w).2 hw)]
    exact s.wait_waits .clauseWait
  case guard =>
    refine State.checked_ok s _ _ ?_
    rcases hn with rfl | rfl <;> rfl

/-! ## Quiet float words -/

/-- Settles O12: each word writes its value, which leaves no flag, behind its operand check. -/
theorem quietFloatWords : Obligations.QuietFloatWords := by
  unfold Obligations.QuietFloatWords
  intro s c u x d a b imm m hi hd
  refine ⟨fun ha hb => ⟨?fmin, ?fmax⟩, fun ha hm => ?frnd, fun ha => ?fclass, ?faddi, ?fmuli⟩
  case fmin =>
    exact s.alu_writesV u _ _ _ x (fun A B => BitVec.ofNat 32 (f32.minMax false A.toNat B.toNat)) hi hd ha hb
  case fmax =>
    exact s.alu_writesV u _ _ _ x (fun A B => BitVec.ofNat 32 (f32.minMax true A.toNat B.toNat)) hi hd ha hb
  case frnd => exact s.checked_putV_writesV _ u _ _ _ hi hd (by simp [hm, hd, ha]) fun _ => rfl
  case fclass => exact s.checked_putV_writesV _ u _ _ _ hi hd (by rw [hd, ha]; rfl) fun _ => rfl
  case faddi => exact s.checked_putV_writesV _ u _ _ _ hi hd hd fun _ => rfl
  case fmuli => exact s.checked_putV_writesV _ u _ _ _ hi hd hd fun _ => rfl

end Sys2Proof.Machine
end

section
/-! SUPPORT and PROOF. `trap`, `brk` and `sysret` (O31; R211, R354, R355). -/

namespace Sys2Proof.Machine

/-! ## Targets of lanes -/

/-- The lanes of `m` with what each is given, as a word collects them in lane order. -/
def givenTo {α : Type} (m : Word) (w : Nat → α) : List (Nat × α) := (lanesOf m).map fun l => (l, w l)

theorem mem_givenTo {α : Type} (m : Word) (w : Nat → α) (x : Nat × α) :
    x ∈ givenTo m w ↔ m.getLsbD x.1 = true ∧ x.2 = w x.1 := by
  obtain ⟨l, v⟩ := x
  simp only [givenTo, List.mem_map, mem_lanesOf, Prod.mk.injEq]
  constructor
  · rintro ⟨_, h, rfl, rfl⟩
    exact ⟨h, rfl⟩
  · rintro ⟨h, rfl⟩
    exact ⟨l, h, rfl, rfl⟩

theorem maskOf_givenTo {α : Type} (m : Word) (w : Nat → α) : (maskOf fun l => (givenTo m w).any (·.1 == l)) = m := by
  apply BitVec.eq_of_getLsbD_eq
  intro l hl
  rw [maskOf_getLsbD, decide_eq_true hl, Bool.true_and, Bool.eq_iff_iff, List.any_eq_true]
  simp only [mem_givenTo, beq_iff_eq]
  constructor
  · rintro ⟨_, ⟨h, _⟩, rfl⟩
    exact h
  · exact fun h => ⟨(l, w l), ⟨h, rfl⟩, rfl⟩

theorem find?_givenTo {α : Type} (m : Word) (w : Nat → α) (l : Nat) (h : m.getLsbD l = true) :
    (givenTo m w).find? (·.1 == l) = some (l, w l) := by
  cases e : (givenTo m w).find? (·.1 == l) with
  | none =>
    have := List.find?_eq_none.1 e (l, w l) ((mem_givenTo m w _).2 ⟨h, rfl⟩)
    simp at this
  | some x =>
    obtain ⟨k, v⟩ := x
    obtain rfl : k = l := by simpa using List.find?_some e
    exact congrArg (fun v => some (k, v)) ((mem_givenTo m w _).1 (List.mem_of_find?_eq_some e)).2

/-- A branch is decided by the targets of the lanes that it takes. -/
theorem Branched.congr {s t : State} {m : Word} {f f' : Nat → Word} (h : Branched s t m f)
    (e : ∀ l, m.getLsbD l = true → f l = f' l) : Branched s t m f' := by
  refine ⟨fun l hl => (h.placed l hl).trans ?_, h.exits.trans ?_, h.frame, h.memory⟩
  · by_cases hm : m.getLsbD l = true
    · rw [e l hm]
    · rw [if_neg hm, if_neg hm]
  · have hmap : (lanesOf m).map f = (lanesOf m).map f' := List.map_congr_left fun l hl => e l ((mem_lanesOf m l).1 hl)
    have hany := congrArg (List.any · (· == (0xFFFFFFFF : Word))) hmap
    simp only [List.any_map] at hany
    exact congrArg (fun b : Bool => if b = true then s.issue.pc else s.grp.heldPc) hany

/-! ## `sysret` -/

/-- What a lane of a `sysret` finds at its target: why it cannot go, or where it goes, with the code of an error of its fetch. -/
abbrev Target := Except (Cause × Nat) (Word × Nat)

/-- The faults of the lanes that cannot go. -/
def targetFaults (xs : List (Nat × Target)) : List LaneFault :=
  xs.filterMap fun x => match x.2 with
    | .error e => some (x.1, e.1, BitVec.ofNat 64 e.2)
    | .ok _ => none

/-- The lanes that go, and where. -/
def targetsFound (xs : List (Nat × Target)) : List (Nat × Word × Nat) :=
  xs.filterMap fun x => match x.2 with
    | .error _ => none
    | .ok w => some (x.1, w)

theorem targetFaults_found (m : Word) (w : Nat → Word × Nat) : targetFaults (givenTo m fun l => .ok (w l)) = [] := by
  rw [targetFaults, givenTo, List.filterMap_map]
  exact List.filterMap_eq_nil_iff.2 fun _ _ => rfl

theorem targetsFound_found (m : Word) (w : Nat → Word × Nat) : targetsFound (givenTo m fun l => .ok (w l)) = givenTo m w := by
  rw [targetsFound, givenTo, List.filterMap_map, givenTo]
  exact congrFun List.filterMap_eq_map _

/-- One lane's look at its target, as `sysTargets` takes one lane after another. -/
def State.sysTarget (s : State) (after : Bool) (a : Nat) (r : State × List (Nat × Target)) (l : Nat) :
    State × List (Nat × Target) :=
  if after then
    let x := (r.1.noteMalformed (s.codeMalformed s.space s.tenant (s.A a l))).afterTarget (s.A a l)
    (x.1, r.2 ++ [(l, x.2)])
  else (r.1, r.2 ++ [(l, .ok (s.A a l, 0))])

theorem State.sysTargets_eq_foldl (s : State) (after : Bool) (a : Nat) :
    s.sysTargets after a = (lanesOf s.issue.exec).foldl (s.sysTarget after a) (s, []) := rfl

/-- The target `w` of lane `l` is found without an error and without a change of the machine (R355). -/
def State.Finds (s : State) (after : Bool) (a l : Nat) (w : Word) : Prop :=
  if after then s.codeMalformed s.space s.tenant (s.A a l) = 0 ∧ s.afterTarget (s.A a l) = (s, .ok (w, 0)) else w = s.A a l

theorem State.sysTarget_found {s : State} {after : Bool} {a l : Nat} {w : Word} (h : s.Finds after a l w)
    (done : List (Nat × Target)) : s.sysTarget after a (s, done) l = (s, done ++ [(l, .ok (w, 0))]) := by
  cases after with
  | false =>
    obtain rfl : w = s.A a l := h
    rfl
  | true =>
    obtain ⟨hm, ht⟩ : s.codeMalformed s.space s.tenant (s.A a l) = 0 ∧ s.afterTarget (s.A a l) = (s, .ok (w, 0)) := h
    rw [State.sysTarget, if_pos rfl, hm, State.noteMalformed_zero, ht]

theorem State.foldl_sysTarget {s : State} {after : Bool} {a : Nat} {w : Nat → Word} (ls : List Nat)
    (h : ∀ l ∈ ls, s.Finds after a l (w l)) (done : List (Nat × Target)) :
    ls.foldl (s.sysTarget after a) (s, done) = (s, done ++ ls.map fun l => (l, .ok (w l, 0))) := by
  induction ls generalizing done with
  | nil => rw [List.map_nil, List.append_nil]; rfl
  | cons l ls ih =>
    rw [List.foldl_cons, State.sysTarget_found (h l List.mem_cons_self), ih fun k hk => h k (List.mem_cons_of_mem l hk),
      List.append_assoc, List.map_cons, List.singleton_append]

/-- Every executing lane's target is found when each one's is. -/
theorem State.sysTargets_found {s : State} {after : Bool} {a : Nat} {w : Nat → Word}
    (h : ∀ l, s.issue.exec.getLsbD l = true → s.Finds after a l (w l)) :
    s.sysTargets after a = (s, givenTo s.issue.exec fun l => .ok (w l, 0)) := by
  rw [s.sysTargets_eq_foldl, State.foldl_sysTarget _ fun l hl => h l ((mem_lanesOf _ l).1 hl)]
  rfl

/-- The lanes that met an error of code `c` at their targets. -/
def metError (going : List (Nat × Word × Nat)) (c : Nat) : Word :=
  maskOf fun l => going.any fun x => x.1 == l && x.2.2 == c

theorem metError_of_sound (m : Word) (w : Nat → Word) (c : Nat) (h : 0 ≠ c) :
    metError (givenTo m fun l => (w l, 0)) c = 0 := by
  apply BitVec.eq_of_getLsbD_eq
  intro l hl
  have hnone : ((givenTo m fun l => (w l, 0)).any fun x => x.1 == l && x.2.2 == c) = false := by
    refine List.any_eq_false.2 fun ⟨k, v⟩ hx => ?_
    have hv : v.2 = 0 := congrArg Prod.snd ((mem_givenTo m _ _).1 hx).2
    simp [hv, h]
  rw [metError, maskOf_getLsbD, hnone, Bool.and_false]
  exact BitVec.getLsbD_zero.symm

/-- What a `sysret` does once the targets of its lanes are known. -/
def State.sysReturn (s : State) (f : BitVec 2) (faults : List LaneFault) (going : List (Nat × Word × Nat)) : State :=
  let go := maskOf fun l => going.any (·.1 == l)
  let note := fun (s : State) c => if metError going c = 0 then s else s.noteError (errCause c) (metError going c)
  let t := note (note ((s.raiseLanes false false faults []).branch false go fun l =>
    (going.find? (·.1 == l)).elim 0 (·.2.1)) 1) 2
  if f = 2 then t.onGrp fun g => { g with noWatch := g.noWatch ||| go } else t

theorem execSysret_eq (c : Bool) (f : BitVec 2) (a : BitVec 7) (s : State) :
    exec (.sysret c f a) s = s.checked (f != 3 && s.vOk a.toNat) ((s.sysTargets (f == 1) a.toNat).1.sysReturn f
      (targetFaults (s.sysTargets (f == 1) a.toNat).2) (targetsFound (s.sysTargets (f == 1) a.toNat).2)) := rfl

/-- The lanes of a `sysret` whose targets are all found stand at them. -/
def State.returned (s : State) (w : Nat → Word) : State :=
  s.branch false s.issue.exec fun l => ((givenTo s.issue.exec fun l => (w l, 0)).find? (·.1 == l)).elim 0 (·.2.1)

theorem State.returned_branched (s : State) (w : Nat → Word) (hi : s.issuing = true) :
    Branched s (s.returned w) s.issue.exec w := by
  refine (s.branch_branched false s.issue.exec _ hi).congr fun l hl => ?_
  change ((givenTo s.issue.exec fun l => (w l, 0)).find? (·.1 == l)).elim 0 (·.2.1) = w l
  rw [find?_givenTo _ _ l hl]
  rfl

/-- A `sysret` whose lanes' targets are all found (R355). -/
theorem sysret_found {s : State} {c : Bool} {f : BitVec 2} {a : BitVec 7} {w : Nat → Word} (hf : f ≠ 3)
    (ha : s.vOk a.toNat = true) (h : ∀ l, s.issue.exec.getLsbD l = true → s.Finds (f == 1) a.toNat l (w l)) :
    exec (.sysret c f a) s = .next (if f = 2 then
      (s.returned w).onGrp fun g => { g with noWatch := g.noWatch ||| s.issue.exec } else s.returned w) := by
  rw [execSysret_eq, State.sysTargets_found h, State.checked_ok _ _ _ (by rw [bne_iff_ne.2 hf, ha]; rfl), targetFaults_found,
    targetsFound_found]
  simp only [State.sysReturn, State.raiseLanes_nil, maskOf_givenTo, metError_of_sound _ _ 1 Nat.zero_ne_one,
    metError_of_sound _ _ 2 (by decide), if_true]
  rfl

/-! ## `trap` and `brk` -/

/-- A word that raises a cause of its own takes it in every executing lane (R211, R354). -/
theorem State.raises_takes (s : State) (cause : Cause) (k : BitVec 22) (hi : s.issuing = true) (he : s.issue.exec ≠ 0)
    (hr : s.grp.report = none) : Takes s (.next (if s.issue.exec = 0 then s
      else s.takeFault cause s.issue.exec s.issue.exec 0 k [] [])) cause k := by
  rw [if_neg he]
  exact ⟨_, rfl, s.takeFault_taken cause _ _ _ k _ _ hi hr⟩

/-- Settles O31: `trap` and `brk` raise their cause for the whole word; `sysret` goes where its lanes' targets are found. -/
theorem trapsAndReturns : Obligations.TrapsAndReturns := by
  unfold Obligations.TrapsAndReturns
  intro s c k a hi he
  have found : ∀ l, s.issue.exec.getLsbD l = true → s.Finds false a.toNat l (s.A a.toNat l) := fun _ _ => rfl
  refine ⟨fun hr => ⟨?trap, ?brk⟩, fun ha => ⟨?place, fun w hw => ?after, ?unwatched⟩⟩
  case trap => exact s.raises_takes .softwareTrap k hi he hr
  case brk => exact s.raises_takes .debugBreak k hi he hr
  case place =>
    rw [sysret_found (f := 0) (by decide) ha found]
    exact ⟨_, rfl, s.returned_branched _ hi⟩
  case after =>
    rw [sysret_found (f := 1) (w := w) (by decide) ha hw]
    exact ⟨_, rfl, s.returned_branched _ hi⟩
  case unwatched =>
    rw [sysret_found (f := 2) (by decide) ha found]
    exact ⟨_, _, rfl, s.returned_branched _ hi, State.onGrp_onlyGroup _ _⟩

end Sys2Proof.Machine
end

section
/-! SUPPORT and PROOF. Integer words (O1, O2, O3; R220), 64-bit words (O5; R225, R226) and comparisons (O6; R218, R223,
R224, R241, R247). -/

namespace Sys2Proof.Machine

/-! ## Arithmetic of words of any width -/

theorem sub_eq_ofInt {w : Nat} (a b : BitVec w) : a - b = BitVec.ofInt w (a.toInt - b.toInt) := by
  rw [Int.sub_eq_add_neg, BitVec.ofInt_add, BitVec.ofInt_neg, BitVec.ofInt_toInt, BitVec.ofInt_toInt, BitVec.sub_eq_add_neg]

theorem mul_eq_ofNat {w : Nat} (a b : BitVec w) : a * b = BitVec.ofNat w (a.toNat * b.toNat) := by
  rw [BitVec.ofNat_mul, BitVec.ofNat_toNat, BitVec.ofNat_toNat, BitVec.setWidth_eq, BitVec.setWidth_eq]

theorem shiftLeft_eq_ofNat {w : Nat} (a : BitVec w) (n : Nat) : a <<< n = BitVec.ofNat w (a.toNat * 2 ^ n) := by
  apply BitVec.eq_of_toNat_eq
  rw [BitVec.toNat_shiftLeft, BitVec.toNat_ofNat, Nat.shiftLeft_eq]

theorem ushiftRight_eq_ofNat {w : Nat} (a : BitVec w) (n : Nat) : a >>> n = BitVec.ofNat w (a.toNat / 2 ^ n) := by
  apply BitVec.eq_of_toNat_eq
  rw [BitVec.toNat_ushiftRight, BitVec.toNat_ofNat, Nat.shiftRight_eq_div_pow,
    Nat.mod_eq_of_lt (Nat.lt_of_le_of_lt (Nat.div_le_self _ _) a.isLt)]

theorem sshiftRight_eq_ofInt {w : Nat} (a : BitVec w) (n : Nat) :
    a.sshiftRight n = BitVec.ofInt w (a.toInt / 2 ^ n) := by
  rw [BitVec.sshiftRight_eq, Int.shiftRight_eq_div_pow]
  norm_cast

/-- A condition below 10 compares as R223 says. -/
theorem condition_eq_meets {w : Nat} (k : Nat) (hk : k < 10) (a b : BitVec w) : condition k a b = meets k a b := by
  have heq : (a == b) = decide (a.toNat = b.toNat) := by
    rw [Bool.eq_iff_iff, beq_iff_eq, decide_eq_true_iff, BitVec.toNat_inj]
  interval_cases k
  · exact heq
  · exact (congrArg (!·) heq).trans decide_not.symm
  all_goals rfl

/-! ## 32-bit arithmetic -/

/-- The upper half of a 64-bit product, whose factors were extended, is the product divided by 2^32. -/
theorem upperHalf_ofInt (p : Int) : ((BitVec.ofInt 64 p) >>> 32).setWidth 32 = BitVec.ofInt 32 (p / 2 ^ 32) := by
  apply BitVec.eq_of_toNat_eq
  rw [BitVec.toNat_setWidth, BitVec.toNat_ushiftRight, Nat.shiftRight_eq_div_pow, BitVec.toNat_ofInt, BitVec.toNat_ofInt]
  omega

theorem mulHigh_eq (g : Bool) (a b : Word) : mulHigh g a b =
    if g then BitVec.ofInt 32 (a.toInt * b.toInt / 2 ^ 32) else BitVec.ofNat 32 (a.toNat * b.toNat / 2 ^ 32) := by
  cases g
  case true =>
    change ((BitVec.ofInt 64 a.toInt * BitVec.ofInt 64 b.toInt) >>> 32).setWidth 32 = BitVec.ofInt 32 _
    rw [← BitVec.ofInt_mul, upperHalf_ofInt]
  case false =>
    have hprod : a.setWidth 64 * b.setWidth 64 = BitVec.ofInt 64 (a.toNat * b.toNat : Nat) := by
      rw [BitVec.ofInt_natCast, BitVec.ofNat_mul, BitVec.ofNat_toNat, BitVec.ofNat_toNat]
    change ((a.setWidth 64 * b.setWidth 64) >>> 32).setWidth 32 = BitVec.ofNat 32 _
    rw [hprod, upperHalf_ofInt, ← BitVec.ofInt_natCast]
    rfl

/-- The absolute value modulo 2^32, the most negative word included (R220). -/
theorem absWord_eq (a : Word) : absWord a = BitVec.ofNat 32 a.toInt.natAbs := by
  apply BitVec.eq_of_toNat_eq
  have habs : (absWord a).toNat = if a.msb then 2 ^ 32 - a.toNat else a.toNat := BitVec.toNat_abs
  have := a.isLt
  rw [habs, BitVec.toNat_ofNat, BitVec.toInt_eq_msb_cond]
  by_cases hm : a.msb = true
  · have := BitVec.toNat_ge_of_msb_true hm
    rw [if_pos hm, if_pos hm]
    omega
  · rw [if_neg hm, if_neg hm]
    omega

theorem minWord_eq (g : Bool) (a b : Word) : minWord g a b =
    if g then BitVec.ofInt 32 (min a.toInt b.toInt) else BitVec.ofNat 32 (min a.toNat b.toNat) := by
  cases g
  case true =>
    simp only [minWord, if_true, BitVec.slt_iff_toInt_lt, min_def_lt, apply_ite (BitVec.ofInt 32), BitVec.ofInt_toInt]
  case false =>
    simp only [minWord, Bool.false_eq_true, if_false, BitVec.ult_iff_toNat_lt, min_def_lt, apply_ite (BitVec.ofNat 32),
      BitVec.ofNat_toNat, BitVec.setWidth_eq]

theorem maxWord_eq (g : Bool) (a b : Word) : maxWord g a b =
    if g then BitVec.ofInt 32 (max a.toInt b.toInt) else BitVec.ofNat 32 (max a.toNat b.toNat) := by
  rw [max_comm a.toInt, max_comm a.toNat]
  cases g
  case true =>
    simp only [maxWord, if_true, BitVec.slt_iff_toInt_lt, max_def_lt, apply_ite (BitVec.ofInt 32), BitVec.ofInt_toInt]
  case false =>
    simp only [maxWord, Bool.false_eq_true, if_false, BitVec.ult_iff_toNat_lt, max_def_lt, apply_ite (BitVec.ofNat 32),
      BitVec.ofNat_toNat, BitVec.setWidth_eq]

theorem mulAdd_eq_ofNat (a b old : Word) : a * b + old = BitVec.ofNat 32 (a.toNat * b.toNat + old.toNat) := by
  rw [mul_eq_ofNat, BitVec.ofNat_add, BitVec.ofNat_toNat, BitVec.setWidth_eq]

/-- The operand check of a word with a destination, an operand a and an operand b passes. -/
theorem State.operandsOk {s : State} {d a b : Nat} {x : Bool} (hd : s.vOk d = true) (ha : s.vOk a = true)
    (hb : s.bOk b x = true) : (s.vOk d && s.vOk a && s.bOk b x) = true := by
  rw [hd, ha, hb]; rfl

/-- Settles O1: each word writes, behind its operand check, a value that is R220's. -/
theorem integerArithmetic : Obligations.IntegerArithmetic := by
  unfold Obligations.IntegerArithmetic
  intro s c u g x d a b e hi hd he ha hb A B
  have okD := State.operandsOk hd ha hb
  have okE := State.operandsOk he ha hb
  refine ⟨?iadd, ?isub, ?imul, ?imulh, ?imad, ?iabs, ?imin, ?imax⟩
  case iadd => exact s.checked_putV_writesV _ u _ _ _ hi hd okD fun l => BitVec.add_def (A l) (B l)
  case isub => exact s.checked_putV_writesV _ u _ _ _ hi hd okD fun l => sub_eq_ofInt (A l) (B l)
  case imul => exact s.checked_putV_writesV _ u _ _ _ hi hd okD fun l => mul_eq_ofNat (A l) (B l)
  case imulh => exact s.checked_putV_writesV _ u _ _ _ hi he okE fun l => mulHigh_eq g (A l) (B l)
  case imad => exact s.checked_putV_writesV _ u _ _ _ hi hd okD fun l => mulAdd_eq_ofNat (A l) (B l) (s.A d.toNat l)
  case iabs => exact s.checked_putV_writesV _ u _ _ _ hi hd (by rw [hd, ha]; rfl) fun l => absWord_eq (A l)
  case imin => exact s.checked_putV_writesV _ u _ _ _ hi he okE fun l => minWord_eq g (A l) (B l)
  case imax => exact s.checked_putV_writesV _ u _ _ _ hi he okE fun l => maxWord_eq g (A l) (B l)

/-! ## Shifts, rotations and logic -/

theorem shiftLeft_eq (a b : Word) :
    shiftLeft a b = if b.toNat < 32 then BitVec.ofNat 32 (a.toNat * 2 ^ b.toNat) else 0 := by
  rw [shiftLeft, shiftLeft_eq_ofNat]

theorem shiftRight_eq (g : Bool) (a b : Word) : shiftRight g a b =
    if g then BitVec.ofInt 32 (a.toInt / 2 ^ min b.toNat 31)
    else if b.toNat < 32 then BitVec.ofNat 32 (a.toNat / 2 ^ b.toNat) else 0 := by
  rw [shiftRight, sshiftRight_eq_ofInt, ushiftRight_eq_ofNat]

/-- A word is the mask of its bits. -/
theorem eq_maskOf {w : Word} {f : Nat → Bool} (h : ∀ i, i < 32 → w.getLsbD i = f i) : w = maskOf f := by
  apply BitVec.eq_of_getLsbD_eq
  intro i hi
  rw [maskOf_getLsbD, decide_eq_true hi, Bool.true_and, h i hi]

/-- Bit i of a rotated word is the bit that stood as many places below it, around the word. -/
theorem rotate_eq (a b : Word) : rotate a b = maskOf fun i => a.getLsbD ((i + 32 - b.toNat % 32) % 32) := by
  refine eq_maskOf fun i hi => ?_
  rw [rotate, BitVec.getLsbD_rotateLeft, Nat.mod_mod]
  have hr : b.toNat % 32 < 32 := Nat.mod_lt _ (by decide)
  by_cases h : i < b.toNat % 32
  · rw [decide_eq_true h, cond_true]
    congr 1
    omega
  · rw [decide_eq_false h, cond_false, decide_eq_true hi, Bool.true_and]
    congr 1
    omega

/-- Settles O2: each word writes, behind its operand check, a value that is R220's, the logic words bit by bit. -/
theorem shiftsAndLogic : Obligations.ShiftsAndLogic := by
  unfold Obligations.ShiftsAndLogic
  intro s c u g x d a b e hi hd he ha hb A B
  have okD := State.operandsOk hd ha hb
  have okE := State.operandsOk he ha hb
  refine ⟨?ishl, ?ishr, ?irot, ?and, ?or, ?xor, ?andn⟩
  case ishl => exact s.checked_putV_writesV _ u _ _ _ hi hd okD fun l => shiftLeft_eq (A l) (B l)
  case ishr => exact s.checked_putV_writesV _ u _ _ _ hi he okE fun l => shiftRight_eq g (A l) (B l)
  case irot => exact s.checked_putV_writesV _ u _ _ _ hi hd okD fun l => rotate_eq (A l) (B l)
  case and => exact s.checked_putV_writesV _ u _ _ _ hi hd okD fun l => eq_maskOf fun i _ => BitVec.getLsbD_and
  case or => exact s.checked_putV_writesV _ u _ _ _ hi hd okD fun l => eq_maskOf fun i _ => BitVec.getLsbD_or
  case xor => exact s.checked_putV_writesV _ u _ _ _ hi hd okD fun l => eq_maskOf fun i _ => BitVec.getLsbD_xor
  case andn =>
    refine s.checked_putV_writesV _ u _ _ _ hi hd okD fun l => eq_maskOf fun i h => ?_
    rw [BitVec.getLsbD_and, BitVec.getLsbD_not, decide_eq_true h, Bool.true_and]

/-! ## Counts, reversal and bit fields -/

/-- The numbers from 0 on that meet a condition up to the first, `k`, that does not. -/
theorem takeWhile_range {p : Nat → Bool} {n k : Nat} (hk : k ≤ n) (hp : ∀ i, i < k → p i = true)
    (hn : k < n → p k = false) : (List.range n).takeWhile p = List.range k := by
  obtain ⟨m, rfl⟩ := Nat.exists_eq_add_of_le hk
  rw [List.range_add, List.takeWhile_append_of_pos fun i hi => hp i (List.mem_range.1 hi)]
  cases m with
  | zero => exact List.append_nil _
  | succ m =>
    have h0 : p (k + 0) = false := hn (by omega)
    rw [List.range_succ_eq_map, List.map_cons, List.takeWhile_cons_of_neg (by rw [h0]; decide), List.append_nil]

theorem leadingZeros_eq (a : Word) :
    leadingZeros a = BitVec.ofNat 32 ((List.range 32).takeWhile fun i => !a.getLsbD (31 - i)).length := by
  rw [leadingZeros]
  congr 1
  by_cases h : a = 0
  · subst h
    decide
  · have hz : a.toNat ≠ 0 := fun e => h (BitVec.eq_of_toNat_eq e)
    have hlog : a.toNat.log2 < 32 := (Nat.log2_lt hz).2 a.isLt
    rw [if_neg h, takeWhile_range (k := 31 - a.toNat.log2) (by omega) (fun i hi => ?zeros) fun _ => ?one, List.length_range]
    case zeros =>
      have hbit : a.toNat < 2 ^ (31 - i) := (Nat.log2_lt hz).1 (by omega)
      rw [BitVec.getLsbD, Nat.testBit_lt_two_pow hbit]
      rfl
    case one =>
      rw [BitVec.getLsbD, show 31 - (31 - a.toNat.log2) = a.toNat.log2 by omega, Nat.testBit_log2 hz]
      rfl

theorem onesCount_eq (a : Word) :
    onesCount a = BitVec.ofNat 32 ((List.range 32).filter fun i => a.getLsbD i).length := by
  rw [onesCount, ← List.foldl_filter (f := fun n (_ : Nat) => n + 1), List.foldl_const, Nat.succ_iterate, Nat.zero_add]

theorem reverseBits_eq (a : Word) : reverseBits a = a.reverse := by
  refine (eq_maskOf fun i hi => ?_).symm
  rw [BitVec.getLsbD_reverse, BitVec.getMsbD, decide_eq_true hi, Bool.true_and]

/-- A field of `w` bits, sign-extended from its highest bit, is its balanced remainder by 2^w; an empty field is 0. -/
theorem signedField_eq (w f : Nat) (hw : w ≤ 32) (hf : f < 2 ^ w) :
    (if (w != 0 && bit f (w - 1)) = true then BitVec.ofNat 32 (f + 2 ^ 32 - 2 ^ w) else BitVec.ofNat 32 f) =
      BitVec.ofInt 32 (Int.bmod f (2 ^ w)) := by
  cases w with
  | zero =>
    obtain rfl : f = 0 := Nat.lt_one_iff.1 hf
    simp
  | succ n =>
    have hpow : 2 ^ (n + 1) ≤ 2 ^ 32 := Nat.pow_le_pow_right (by decide) hw
    have hdouble : 2 ^ (n + 1) = 2 * 2 ^ n := Nat.pow_succ'
    have hmod : (f : Int) % (2 ^ (n + 1) : Nat) = f := Int.emod_eq_of_lt (by omega) (by omega)
    rw [Nat.add_sub_cancel, bit]
    by_cases h : f < 2 ^ n
    · rw [Nat.testBit_lt_two_pow h, Int.bmod_eq_emod_of_lt (by omega), hmod, BitVec.ofInt_natCast]
      simp
    · have htop : f.testBit n = true := Nat.testBit_of_two_pow_le_and_two_pow_add_one_gt (by omega) hf
      have hneg : Int.bmod f (2 ^ (n + 1)) = f - (2 ^ (n + 1) : Nat) := by
        rw [Int.bmod_neg _ _ (by omega), hmod]
      rw [htop, hneg, if_pos (by simp)]
      apply BitVec.eq_of_toNat_eq
      rw [BitVec.toNat_ofNat, BitVec.toNat_ofInt]
      omega

/-- The field that `bfx` reads, zero-extended or sign-extended (R217, R220). -/
theorem bitExtract_of_field {b : Word} {pos w : Nat} (hb : fieldOf b = (pos, w)) (hw : w ≤ 32) (g : Bool) (a : Word) :
    bitExtract g a b = if g then BitVec.ofInt 32 (Int.bmod (a.toNat / 2 ^ pos % 2 ^ w : Nat) (2 ^ w))
      else BitVec.ofNat 32 (a.toNat / 2 ^ pos % 2 ^ w) := by
  rw [bitExtract, hb]
  cases g
  · simp only [Bool.false_and, Bool.false_eq_true, if_false]
  · simp only [Bool.true_and, if_true]
    exact signedField_eq w _ hw (Nat.mod_lt _ (Nat.two_pow_pos w))

theorem fieldOf_width_le (b : Word) : (fieldOf b).2 ≤ 32 :=
  (min_le_left _ _).trans (min_le_right _ _)

/-- The mask of a field holds the field's bits. -/
theorem getLsbD_fieldMask (w pos i : Nat) : (BitVec.ofNat 32 ((2 ^ w - 1) * 2 ^ pos)).getLsbD i =
    (decide (i < 32) && decide (pos ≤ i ∧ i < pos + w)) := by
  rw [BitVec.getLsbD_ofNat, Nat.testBit_mul_two_pow, Nat.testBit_two_pow_sub_one, ← Bool.decide_and]
  congr 2
  exact propext (by omega)

/-- The bits of `bfi`: those of the field come from the lowest of a, the others from the old value (R220). -/
theorem bitInsert_of_field {b : Word} {pos w : Nat} (hb : fieldOf b = (pos, w)) (old a : Word) :
    bitInsert old a b = maskOf fun i => if pos ≤ i ∧ i < pos + w then a.getLsbD (i - pos) else old.getLsbD i := by
  refine eq_maskOf fun i hi => ?_
  have hmask := getLsbD_fieldMask w pos i
  rw [decide_eq_true hi, Bool.true_and] at hmask
  rw [bitInsert, hb]
  dsimp only
  rw [BitVec.getLsbD_or, BitVec.getLsbD_and, BitVec.getLsbD_and, BitVec.getLsbD_not, BitVec.getLsbD_shiftLeft, hmask,
    decide_eq_true hi]
  by_cases h : pos ≤ i ∧ i < pos + w
  · simp [h]
  · simp [h]

/-- Settles O3: each word writes, behind its operand check, a value that is R220's. -/
theorem bitWords : Obligations.BitWords := by
  unfold Obligations.BitWords
  intro s c u g x d a b e hi hd he ha hb A B pos w
  have ok1 : (s.vOk d.toNat && s.vOk a.toNat) = true := by rw [hd, ha]; rfl
  refine ⟨?clz, ?popc, ?brev, ?bfx, ?bfi⟩
  case clz => exact s.checked_putV_writesV _ u _ _ _ hi hd ok1 fun l => leadingZeros_eq (A l)
  case popc => exact s.checked_putV_writesV _ u _ _ _ hi hd ok1 fun l => onesCount_eq (A l)
  case brev => exact s.checked_putV_writesV _ u _ _ _ hi hd ok1 fun l => reverseBits_eq (A l)
  case bfx =>
    exact s.checked_putV_writesV _ u _ _ _ hi he (State.operandsOk he ha hb) fun l =>
      bitExtract_of_field rfl (fieldOf_width_le (B l)) g (A l)
  case bfi =>
    exact s.checked_putV_writesV _ u _ _ _ hi hd (State.operandsOk hd ha hb) fun l =>
      bitInsert_of_field rfl (s.A d.toNat l) (A l)

/-! ## 64-bit words -/

/-- A 64-bit word on pairs writes a value of its operands in every executing lane. -/
theorem State.wide_writesV2 (s : State) {r : Result} (u : Bool) {d a b : Nat} {x : Bool} {f f' : DWord → DWord → DWord}
    (hi : s.issuing = true) (hd : s.v2Ok d = true) (ha : s.v2Ok a = true) (hb : s.b2Ok b x = true)
    (e : ∀ A B, f A B = f' A B) (hr : r = s.wide u d false a b x f) :
    WritesV2 s r u d fun l => f' (s.A2 a l) (s.B2 b x l) := by
  obtain rfl : f = f' := funext₂ e
  exact ⟨_, hr.trans (State.checked_ok s _ _ (by rw [hd, ha, hb]; rfl)), s.putV2_vectors u d _ hi hd⟩

/-- A 64-bit word on scalars writes a value of its operands once. -/
theorem State.wide_writesS (s : State) {r : Result} (u : Bool) {d a b : Nat} {x : Bool} {f f' : DWord → DWord → DWord}
    (hi : s.issuing = true) (hd : d < 64) (hb : s.b2Ok b x = true) (e : ∀ A B, f A B = f' A B)
    (hr : r = s.wide u d true a b x f) :
    WritesS s r d (f' (s.issue.src.rs a) (s.B2 b x (lowest s.issue.exec))) := by
  obtain rfl : f = f' := funext₂ e
  rw [hr.trans (State.checked_ok s _ _ hb)]
  exact s.putS_writesS d _ hi hd

/-- A word whose operands pass their check writes its predicate in every executing lane (R218). -/
theorem State.checked_putP_writesP (s : State) {ok : Bool} (u : Bool) {p : Nat} {f f' : Nat → Bool}
    (hi : s.issuing = true) (hp : p < 8) (hok : ok = true) (e : ∀ l, f l = f' l) :
    WritesP s (s.checked ok (s.putP u p f)) u p f' := by
  rw [State.checked_ok s ok _ hok]
  exact s.putP_writesP u p f f' hi hp e

/-- The shift to the left of R226. -/
theorem shl64_eq (A B : DWord) : (if B.toNat < 64 then A <<< B.toNat else 0) =
    if B.toNat < 64 then BitVec.ofNat 64 (A.toNat * 2 ^ B.toNat) else 0 := by
  rw [shiftLeft_eq_ofNat]

/-- The shift to the right of R226. -/
theorem shr64_eq (g : Bool) (A B : DWord) :
    (if g then A.sshiftRight (min B.toNat 63) else if B.toNat < 64 then A >>> B.toNat else 0) =
      if g then BitVec.ofInt 64 (A.toInt / 2 ^ min B.toNat 63)
      else if B.toNat < 64 then BitVec.ofNat 64 (A.toNat / 2 ^ B.toNat) else 0 := by
  rw [sshiftRight_eq_ofInt, ushiftRight_eq_ofNat]

/-- Settles O5: each word of either kind is the model's one wide operation, with a value that is R226's. -/
theorem wideArithmetic : Obligations.WideArithmetic := by
  unfold Obligations.WideArithmetic
  intro s c u g x d a b k p hi hb add sub mul shl shr
  have hs : d.toNat < 64 := d.isLt
  have hp : p.toNat < 8 := p.isLt
  refine ⟨fun hd ha => ⟨?vadd, ?vsub, ?vmul, ?vshl, ?vshr⟩, ⟨?sadd, ?ssub, ?smul, ?sshl, ?sshr⟩,
    fun hk => ⟨fun ha => ?vcmp, ?scmp⟩⟩
  case vadd => exact s.wide_writesV2 u hi hd ha hb BitVec.add_def rfl
  case vsub => exact s.wide_writesV2 u hi hd ha hb sub_eq_ofInt rfl
  case vmul => exact s.wide_writesV2 u hi hd ha hb mul_eq_ofNat rfl
  case vshl => exact s.wide_writesV2 u hi hd ha hb shl64_eq rfl
  case vshr => exact s.wide_writesV2 u hi hd ha hb (shr64_eq g) rfl
  case sadd => exact s.wide_writesS u hi hs hb BitVec.add_def rfl
  case ssub => exact s.wide_writesS u hi hs hb sub_eq_ofInt rfl
  case smul => exact s.wide_writesS u hi hs hb mul_eq_ofNat rfl
  case sshl => exact s.wide_writesS u hi hs hb shl64_eq rfl
  case sshr => exact s.wide_writesS u hi hs hb (shr64_eq g) rfl
  case vcmp =>
    exact s.checked_putP_writesP u hi hp (by rw [decide_eq_true hk, ha, hb]; rfl) fun l => condition_eq_meets _ hk _ _
  case scmp =>
    exact s.checked_putP_writesP true hi hp (by rw [decide_eq_true hk, hb]; rfl) fun l => condition_eq_meets _ hk _ _

/-! ## Comparisons -/

/-- Settles O6: each comparison writes its condition behind its operand check; a write of p7 is dropped, and p7 reads 1
whatever the register file holds. -/
theorem comparisons : Obligations.Comparisons := by
  unfold Obligations.Comparisons
  intro s c u x k l p pa pb a b hi
  have hp : p.toNat < 8 := p.isLt
  refine ⟨fun hk ha hb => ?icmp, fun hk ha hb => ?fcmp, fun hk ha hb => ?dcmp, fun i _ => ⟨rfl, rfl⟩, ?plog⟩
  case icmp =>
    exact s.checked_putP_writesP u hi hp (by rw [decide_eq_true hk, ha, hb]; rfl) fun l => condition_eq_meets _ hk _ _
  case fcmp => exact s.checked_putP_writesP u hi hp (by rw [decide_eq_true hk, ha, hb]; rfl) fun l => rfl
  case dcmp => exact s.checked_putP_writesP u hi hp (by rw [decide_eq_true hk, ha, hb]; rfl) fun l => rfl
  case plog => exact s.putP_writesP u _ _ _ hi hp fun _ => rfl

end Sys2Proof.Machine
end

section
/-! SUPPORT and PROOF. Float words that set flags: f32 (O11), f64 (O14) and packed halves (O15) (R37, R237, R239, R245 to
R249). -/

namespace Sys2Proof.Machine

/-! ## Writes with flags -/

/-- The lanes that make a result of their own are those whose flags count (R37, R237). -/
theorem State.flagsOf_doers (s : State) (u : Bool) (f : Nat → Nat) : flagsOf (s.doers u) f = s.anyFlags u f := by
  by_cases he : s.issue.exec = 0
  · rw [State.doers, if_pos he, State.anyFlags, if_pos he, (lanesOf_eq_nil _).2 he]
    exact (ite_self 0).symm
  · rw [State.doers, if_neg he, State.anyFlags, if_neg he]
    cases u with
    | false => rfl
    | true => exact Nat.zero_or _

/-- Flags set after a write of registers change nothing else of it (R237). -/
theorem Vectors.setFlags {s t : State} {d n : Nat} {m : Word} {f : Nat → Nat → Word} (h : Vectors s t d n m f 0) (fl : Nat) :
    Vectors s (t.setFlags fl) d n m f fl := by
  refine ⟨h.written, h.others, h.sizes, ?_, h.memory⟩
  have hframe := h.frame
  rw [State.flagged_zero] at hframe
  exact congrArg (·.setFlags fl) hframe

/-- A word whose operands pass their check writes its result in every executing lane, with the flags of its lanes. -/
theorem State.checked_putF_writesF (s : State) {ok : Bool} (u : Bool) {d : Nat} {f f' : Nat → Word × Nat}
    (hi : s.issuing = true) (hd : s.vOk d = true) (hok : ok = true) (e : ∀ l, f l = f' l) :
    WritesF s (s.checked ok (s.putF u d f)) u d f' := by
  obtain rfl : f = f' := funext e
  refine ⟨_, s.checked_ok ok _ hok, ?_⟩
  rw [← State.flagsOf_doers]
  exact (s.putV_vectors u d _ hi hd).setFlags _

/-- The same of a word whose result is a pair. -/
theorem State.checked_putF2_writesF2 (s : State) {ok : Bool} (u : Bool) {d : Nat} {f f' : Nat → DWord × Nat}
    (hi : s.issuing = true) (hd : s.v2Ok d = true) (hok : ok = true) (e : ∀ l, f l = f' l) :
    WritesF2 s (s.checked ok (s.putF2 u d f)) u d f' := by
  obtain rfl : f = f' := funext e
  refine ⟨_, s.checked_ok ok _ hok, ?_⟩
  rw [← State.flagsOf_doers]
  exact (s.putV2_vectors u d _ hi hd).setFlags _

/-- The operand check of a word on pairs passes. -/
theorem State.operands2Ok {s : State} {d a b : Nat} {x : Bool} (hd : s.v2Ok d = true) (ha : s.v2Ok a = true)
    (hb : s.b2Ok b x = true) : (s.v2Ok d && s.v2Ok a && s.b2Ok b x) = true := by
  rw [hd, ha, hb]; rfl

/-! ## The words -/

/-- An f32 word writes its function of the values of a, b and the old d. -/
theorem State.fop_writesF (s : State) (u : Bool) {d a b : Nat} {x : Bool} (f : Val → Val → Val → Word × Nat)
    (hi : s.issuing = true) (hd : s.vOk d = true) (ha : s.vOk a = true) (hb : s.bOk b x = true) :
    WritesF s (s.fop u d a b x f) u d fun l => f (decF (s.A a l)) (decF (s.B b x l)) (decF (s.A d l)) :=
  s.checked_putF_writesF u hi hd (State.operandsOk hd ha hb) fun _ => rfl

/-- An f32 word of one operand writes its function of it. -/
theorem State.fop1_writesF (s : State) (u : Bool) {d a : Nat} (f : Word → Word × Nat) (hi : s.issuing = true)
    (hd : s.vOk d = true) (ha : s.vOk a = true) : WritesF s (s.fop1 u d a f) u d fun l => f (s.A a l) :=
  s.checked_putF_writesF u hi hd (by rw [hd, ha]; rfl) fun _ => rfl

/-- Settles O11: every word but `fscale` is an f32 word of one or of two operands; `fscale` multiplies by a power of two. -/
theorem singlePrecision : Obligations.SinglePrecision := by
  unfold Obligations.SinglePrecision
  intro s c u x d a b hi hd ha hb A B D
  refine ⟨?fadd, ?fsub, ?fmul, ?ffma, ?fsqrt, ?fdiv, ?fscale⟩
  case fadd => exact s.fop_writesF u (fun a b _ => round32 s.rm (a.add b) [a, b]) hi hd ha hb
  case fsub => exact s.fop_writesF u (fun a b _ => round32 s.rm (a.add b.negate) [a, b]) hi hd ha hb
  case fmul => exact s.fop_writesF u (fun a b _ => round32 s.rm (a.mul b) [a, b]) hi hd ha hb
  case ffma => exact s.fop_writesF u (fun a b old => round32 s.rm ((a.mul b).add old) [a, b, old]) hi hd ha hb
  case fsqrt => exact s.fop1_writesF u (fun A => round32 s.rm (decF A).sqrt [decF A]) hi hd ha
  case fdiv =>
    exact s.fop_writesF u (fun a b _ =>
      ((round32 s.rm (a.div b) [a, b]).1, (round32 s.rm (a.div b) [a, b]).2 ||| dzOf a b)) hi hd ha hb
  case fscale => exact s.checked_putF_writesF u hi hd (State.operandsOk hd ha hb) fun _ => rfl

/-- An f64 word writes the rounding of its value, with the flags that its operands leave. -/
theorem State.dop_writesF2 (s : State) (u : Bool) {d a b : Nat} {x : Bool} (f : Val → Val → Val → Val × List Val)
    (hi : s.issuing = true) (hd : s.v2Ok d = true) (ha : s.v2Ok a = true) (hb : s.b2Ok b x = true) :
    WritesF2 s (s.dop u d a b x f) u d fun l =>
      let v := f (decD (s.A2 a l)) (decD (s.BD b x l)) (decD (s.A2 d l))
      (BitVec.ofNat 64 (f64.result s.rm v.1 v.2).1, (f64.result s.rm v.1 v.2).2) :=
  s.checked_putF2_writesF2 u hi hd (State.operands2Ok hd ha hb) fun _ => rfl

/-- Settles O14: the words with flags are one f64 word each; `dminmax` picks one of its operands and sets none. -/
theorem doublePrecision : Obligations.DoublePrecision := by
  unfold Obligations.DoublePrecision
  intro s c u y x d a b hi hd ha hb A B D r
  refine ⟨?dadd, ?dmul, ?dfma, ?dminmax⟩
  case dadd => exact s.dop_writesF2 u (fun a b _ => (a.add (if y then b.negate else b), [a, b])) hi hd ha hb
  case dmul => exact s.dop_writesF2 u (fun a b _ => (a.mul b, [a, b])) hi hd ha hb
  case dfma => exact s.dop_writesF2 u (fun a b old => ((a.mul b).add old, [a, b, old])) hi hd ha hb
  case dminmax =>
    exact ⟨_, State.checked_ok s _ _ (State.operands2Ok hd ha hb), s.putV2_vectors u d.toNat _ hi hd⟩

/-- A packed word rounds each of its two elements, and joins their flags. -/
theorem State.pairOp_writesF (s : State) (u : Bool) (f : Fmt) {d a b : Nat} {x : Bool}
    (op : Val → Val → Val → Val × List Val) (hi : s.issuing = true) (hd : s.vOk d = true) (ha : s.vOk a = true)
    (hb : s.bOk b x = true) : WritesF s (s.pairOp u f d a b x op) u d fun l =>
      let one := fun i =>
        let v := op (f.dec (half (s.A a l) i)) (f.dec (half (s.B b x l) i)) (f.dec (half (s.A d l) i))
        f.result s.rm v.1 v.2
      (BitVec.ofNat 32 ((one 0).1 + (one 1).1 * 2 ^ 16), (one 0).2 ||| (one 1).2) :=
  s.checked_putF_writesF u hi hd (State.operandsOk hd ha hb) fun _ => rfl

/-- Settles O15: the packed words differ in their format and their operation; `fdot2` rounds one f32 sum of its products. -/
theorem packedHalves : Obligations.PackedHalves := by
  unfold Obligations.PackedHalves
  intro s c u t x d a b e hi hd he ha hb two
  refine ⟨?hadd2, ?hmul2, ?hfma2, ?bfma2, ?fdot2⟩
  case hadd2 => exact s.pairOp_writesF u f16 (fun a b _ => (a.add b, [a, b])) hi hd ha hb
  case hmul2 => exact s.pairOp_writesF u f16 (fun a b _ => (a.mul b, [a, b])) hi hd ha hb
  case hfma2 => exact s.pairOp_writesF u f16 (fun a b old => ((a.mul b).add old, [a, b, old])) hi hd ha hb
  case bfma2 => exact s.pairOp_writesF u bf16 (fun a b old => ((a.mul b).add old, [a, b, old])) hi hd ha hb
  case fdot2 => exact s.checked_putF_writesF u hi he (State.operandsOk he ha hb) fun _ => rfl

end Sys2Proof.Machine
end

section
/-! SUPPORT and PROOF. Approximate functions (O13; R243): what each gives for each kind of operand, whatever value the device
chooses within the bounds. -/

namespace Sys2Proof.Machine

section Kinds

variable {w : Word} {n : Bool} {m : Nat} {e : Int}

/-! ## A NaN and an infinity -/

theorem approxRcp_nan (h : decF w = .nan) : approxRcp w = (0x7FC00000, 0) := by rw [approxRcp, h]

theorem approxRsq_nan (h : decF w = .nan) : approxRsq w = (0x7FC00000, 0) := by rw [approxRsq, h]

theorem approxExp2_nan (h : decF w = .nan) : approxExp2 w = (0x7FC00000, 0) := by rw [approxExp2, h]

theorem approxLog2_nan (h : decF w = .nan) : approxLog2 w = (0x7FC00000, 0) := by rw [approxLog2, h]

theorem approxTrig_nan (cos : Bool) (h : decF w = .nan) : approxTrig cos w = (0x7FC00000, 0) := by rw [approxTrig, h]

theorem approxRcp_inf (h : decF w = .inf n) : approxRcp w = (BitVec.ofNat 32 (f32.pattern n 0), 0) := by rw [approxRcp, h]

theorem approxRsq_inf (h : decF w = .inf false) : approxRsq w = (0, 0) := by
  rw [approxRsq, h]
  rfl

theorem approxExp2_inf (h : decF w = .inf n) : approxExp2 w = (if n then 0 else 0x7F800000, 0) := by rw [approxExp2, h]

theorem approxLog2_inf (h : decF w = .inf false) : approxLog2 w = (0x7F800000, 0) := by
  rw [approxLog2, h]
  rfl

theorem approxTrig_inf (cos : Bool) (h : decF w = .inf n) : approxTrig cos w = (0x7FC00000, fNv) := by rw [approxTrig, h]

/-! ## Zeros -/

theorem approxRcp_zero (h : decF w = .num n 0 e) : approxRcp w = (BitVec.ofNat 32 (f32.pattern n f32.infCode), fDz) := by
  rw [approxRcp, h]
  rfl

theorem approxRsq_zero (h : decF w = .num n 0 e) : approxRsq w = (BitVec.ofNat 32 (f32.pattern n f32.infCode), fDz) := by
  rw [approxRsq, h]
  rfl

theorem approxLog2_zero (h : decF w = .num n 0 e) : approxLog2 w = (0xFF800000, fDz) := by
  rw [approxLog2, h]
  rfl

theorem approxTrig_zero (cos : Bool) (h : decF w = .num n 0 e) : approxTrig cos w = (if cos then 0x3F800000 else w, 0) := by
  rw [approxTrig, h]
  rfl

/-! ## Other finite values -/

theorem approxRsq_negative (h : decF w = .num true m e) (hm : m ≠ 0) : approxRsq w = (0x7FC00000, fNv) := by
  rw [approxRsq, h]
  exact if_neg hm

theorem approxLog2_negative (h : decF w = .num true m e) (hm : m ≠ 0) : approxLog2 w = (0x7FC00000, fNv) := by
  rw [approxLog2, h]
  exact if_neg hm

theorem approxLog2_pow2 (h : decF w = .num false m e) (hm : m ≠ 0) (hp : m = 2 ^ m.log2) :
    approxLog2 w = (rne32 (Val.ofInt (e + m.log2)), 0) := by
  rw [approxLog2, h]
  exact (if_neg hm).trans (if_pos hp)

/-- The quotient of which `frcp` gives a neighbour. -/
theorem approxRcp_num (h : decF w = .num n m e) (hm : m ≠ 0) (hp : m ≠ 2 ^ m.log2) :
    let v := Val.div (.num false 1 0) (.num n m e)
    approxRcp w = (if Config.approx 0 w = BitVec.ofNat 32 (f32.round 3 v).1 then BitVec.ofNat 32 (f32.round 3 v).1
      else BitVec.ofNat 32 (f32.round 2 v).1, 0) := by
  rw [approxRcp, h]
  exact (if_neg hm).trans (if_neg hp)

/-- Whichever value the device chooses, `frcp` gives one of the two f32 values around the quotient. -/
theorem approxRcp_neighbour (h : decF w = .num n m e) (hm : m ≠ 0) (hp : m ≠ 2 ^ m.log2) :
    let v := Val.div (.num false 1 0) (.num n m e)
    (approxRcp w).2 = 0 ∧ ((approxRcp w).1 = BitVec.ofNat 32 (f32.round 2 v).1 ∨
      (approxRcp w).1 = BitVec.ofNat 32 (f32.round 3 v).1) := by
  intro v
  rw [approxRcp_num h hm hp]
  refine ⟨rfl, ?_⟩
  by_cases hhi : Config.approx 0 w = BitVec.ofNat 32 (f32.round 3 v).1
  · exact .inr (if_pos hhi)
  · exact .inl (if_neg hhi)

end Kinds

/-- A NaN operand gives the canonical NaN and no flag in every row. -/
theorem approx_nan {w : Word} (h : decF w = .nan) {f : Word → Word × Nat}
    (hf : f ∈ [approxRcp, approxRsq, approxExp2, approxLog2, approxTrig false, approxTrig true]) :
    f w = (0x7FC00000, 0) := by
  simp only [List.mem_cons, List.not_mem_nil, or_false] at hf
  obtain rfl | rfl | rfl | rfl | rfl | rfl := hf
  · exact approxRcp_nan h
  · exact approxRsq_nan h
  · exact approxExp2_nan h
  · exact approxLog2_nan h
  · exact approxTrig_nan false h
  · exact approxTrig_nan true h

/-! ## The words that have a row of their own in R243 -/

theorem decF_zero : decF 0 = .num false 0 (-149) := by decide

theorem decF_negZero : decF 0x80000000 = .num true 0 (-149) := by decide

theorem decF_inf : decF 0x7F800000 = .inf false := by decide

theorem decF_negInf : decF 0xFF800000 = .inf true := by decide

theorem decF_one : decF 0x3F800000 = .num false (2 ^ 23) (-23) := by decide

/-- The logarithm of one is exact. -/
theorem approxLog2_one : approxLog2 0x3F800000 = (0, 0) :=
  approxLog2_pow2 decF_one (by decide) (by decide)

/-- Settles O13: each word writes its function of its operand, and each function is given by the kind of that operand. -/
theorem approximateWords : Obligations.ApproximateWords := by
  unfold Obligations.ApproximateWords
  refine ⟨fun s c u d a hi hd ha => ?words, fun w h f hf => approx_nan h hf, approxRcp_zero decF_zero,
    approxRcp_zero decF_negZero, approxRcp_inf decF_inf, approxRcp_inf decF_negInf, approxRsq_zero decF_zero,
    approxRsq_zero decF_negZero, approxRsq_inf decF_inf, approxExp2_inf decF_negInf, approxExp2_inf decF_inf,
    approxLog2_zero decF_zero, approxLog2_zero decF_negZero, approxLog2_inf decF_inf, approxLog2_one,
    approxTrig_zero false decF_zero, approxTrig_zero false decF_negZero, approxTrig_zero true decF_zero,
    fun w ⟨n, h⟩ => ⟨approxTrig_inf false h, approxTrig_inf true h⟩, ?negative,
    fun w n m e h hm hp => approxRcp_neighbour h hm hp⟩
  case words =>
    exact ⟨s.fop1_writesF u approxRcp hi hd ha, s.fop1_writesF u approxRsq hi hd ha, s.fop1_writesF u approxExp2 hi hd ha,
      s.fop1_writesF u approxLog2 hi hd ha, s.fop1_writesF u (approxTrig false) hi hd ha,
      s.fop1_writesF u (approxTrig true) hi hd ha⟩
  case negative =>
    rintro w n m e h rfl hm
    exact ⟨approxRsq_negative h hm, approxLog2_negative h hm⟩

end Sys2Proof.Machine
end

section
/-! SUPPORT and PROOF. Conversions (O16; R250 to R256): registers written one after another, and the words on packed blocks. -/

namespace Sys2Proof.Machine

/-! ## Registers written one after another -/

/-- A write of the register behind those already written. -/
theorem Vectors.snoc {s p t : State} {d n : Nat} {m : Word} {f : Nat → Nat → Word} (h : Vectors s p d n m f 0)
    (h' : Vectors p t (d + n) 1 m (fun _ => f n) 0) : Vectors s t d (n + 1) m f 0 := by
  refine ⟨fun i l hi hl => ?_, fun r l hr => ?_, h'.sizes.trans h.sizes, ?_, fun a => (h'.memory a).trans (h.memory a)⟩
  · obtain hlt | rfl := Nat.lt_succ_iff_lt_or_eq.1 hi
    · rw [h'.others _ l (.inl (Nat.add_lt_add_left hlt d)), h.written i l hlt hl]
    · have hw := h'.written 0 l Nat.one_pos hl
      rw [Nat.add_zero, h.others _ l (.inr (Nat.le_refl _))] at hw
      exact hw
  · rw [h'.others r l (by omega), h.others r l (by omega)]
  · have e := h'.frame
    rw [State.flagged_zero] at e ⊢
    refine e.trans ?_
    conv => lhs; lhs; rw [h.frame, State.flagged_zero]
    rw [State.onGrp_onGrp]
    rfl

/-- No write at all. -/
theorem Vectors.none (s : State) (d : Nat) (m : Word) (f : Nat → Nat → Word) (hi : s.issuing = true) :
    Vectors s s d 0 m f 0 := by
  refine ⟨fun i l h => absurd h (Nat.not_lt_zero i), fun _ _ _ => rfl, rfl, ?_, fun _ => rfl⟩
  rw [State.flagged_zero]
  exact (s.onGrp_id _ s.grp (s.issuing_grp hi).1 rfl).symm

/-- Vector registers d, d+1, … of every executing lane, as a word writes them in order. -/
def State.putVs (s : State) (u : Bool) (d n : Nat) (f : Nat → Nat → Word) : State :=
  (List.range n).foldl (fun t k => t.putV u (d + k) (f k)) s

theorem State.putVs_succ (s : State) (u : Bool) (d n : Nat) (f : Nat → Nat → Word) :
    s.putVs u d (n + 1) f = (s.putVs u d n f).putV u (d + n) (f n) := by
  rw [State.putVs, List.range_succ, List.foldl_append]
  rfl

theorem State.putWords_eq_putVs (s : State) (u : Bool) (d n : Nat) (f : Nat → Nat) :
    s.putWords u d n f = s.putVs u d n fun k l => wordOf (f l) k := rfl

@[simp] theorem State.putVs_issue (s : State) (u : Bool) (d n : Nat) (f : Nat → Nat → Word) :
    (s.putVs u d n f).issue = s.issue := by
  induction n with
  | zero => rfl
  | succ n ih =>
    rw [State.putVs_succ]
    exact ih

theorem State.putVs_issuing (s : State) (u : Bool) (d n : Nat) (f : Nat → Nat → Word) (hi : s.issuing = true) :
    (s.putVs u d n f).issuing = true := by
  induction n with
  | zero => exact hi
  | succ n ih =>
    rw [State.putVs_succ]
    exact State.putV_issuing _ u _ _ ih

/-- Each register is written from sources as they stood before the bundle (R200), so that their order does not matter. -/
theorem State.putVs_vectors (s : State) (u : Bool) (d n : Nat) (f : Nat → Nat → Word) (hi : s.issuing = true)
    (hd : d + n ≤ s.issue.src.v.length) :
    Vectors s (s.putVs u d n f) d n s.issue.exec (fun i l => f i (s.from u l)) 0 := by
  induction n with
  | zero => exact Vectors.none s d _ _ hi
  | succ n ih =>
    have hok : (s.putVs u d n f).vOk (d + n) = true := by
      rw [State.vOk, State.putVs_issue]
      exact decide_eq_true hd
    have last := (s.putVs u d n f).putV_vectors u (d + n) (f n) (s.putVs_issuing u d n f hi) hok
    simp only [State.from, State.putVs_issue] at last ⊢
    rw [State.putVs_succ]
    exact (ih (Nat.le_of_succ_le hd)).snoc last

/-! ## Packed blocks -/

/-- A block has no more words than elements (R253). -/
theorem packShape_le (fmt : Nat) : (packShape fmt).2 ≤ (packShape fmt).1 := by
  unfold packShape
  split <;> decide

/-- The elements of a block lie within the allotment (R252, R253). -/
theorem State.packOk_elements {s : State} {fmt a b : Nat} {x : Bool} (h : s.packOk fmt a b x = true) :
    a + (packShape fmt).1 ≤ s.issue.src.v.length := by
  simp only [State.packOk, Bool.and_eq_true, decide_eq_true_eq] at h
  exact h.1.2

/-- A word on a block writes its registers behind its operand check, with the flags of its lanes. -/
theorem State.checked_putVs_vectors (s : State) {ok : Bool} (u : Bool) {d n : Nat} {f : Nat → Nat → Word} {fl : Nat → Nat}
    (hi : s.issuing = true) (hd : d + n ≤ s.issue.src.v.length) (hok : ok = true) :
    ∃ t, s.checked ok ((s.putVs u d n f).setFlags (flagsOf (s.doers u) fl)) = .next t ∧
      Vectors s t d n s.issue.exec (fun i l => f i (s.from u l)) (s.anyFlags u fl) := by
  refine ⟨_, s.checked_ok ok _ hok, ?_⟩
  rw [← State.flagsOf_doers]
  exact (s.putVs_vectors u d n f hi hd).setFlags _

/-- Settles O16: `cvt` writes a register or a pair by its destination type; `cvtpk` writes the words of its block in order, and
`cvtupk` its elements. -/
theorem conversions : Obligations.Conversions := by
  unfold Obligations.Conversions
  refine ⟨?elements, ?blocks⟩
  case' elements =>
    intro s c u t st m d a hi ha r
    have hsrc : (if st = 15 then s.v2Ok a.toNat else s.vOk a.toNat) = true := (apply_ite (· = true) _ _ _).mpr ha
    refine ⟨fun ht hd => ?word, fun ht hd => ?pair⟩
  case' blocks =>
    intro s c u x f m a b hi hok n w scale special pk up
    refine ⟨?pack, ?unpack⟩
  case word =>
    have he : exec (.cvt c u t st m d a) s = s.checked _ (s.putF u d.toNat fun l => (BitVec.ofNat 32 (r l).1, (r l).2)) :=
      congrArg (s.checked _) (if_neg ht)
    rw [he]
    refine s.checked_putF_writesF u hi hd ?_ fun _ => rfl
    rw [if_neg ht, hd, Bool.true_and]
    exact hsrc
  case pair =>
    have he : exec (.cvt c u t st m d a) s = s.checked _ (s.putF2 u d.toNat fun l => (BitVec.ofNat 64 (r l).1, (r l).2)) :=
      congrArg (s.checked _) (if_pos ht)
    rw [he]
    refine s.checked_putF2_writesF2 u hi hd ?_ fun _ => rfl
    rw [if_pos ht, hd, Bool.true_and]
    exact hsrc
  case pack =>
    exact s.checked_putVs_vectors u
      (f := fun i l => wordOf (packWords f.toNat ((List.range n).map fun j => (pk l j).1)) i) hi
      (le_trans (Nat.add_le_add_left (packShape_le f.toNat) _) (State.packOk_elements hok)) hok
  case unpack =>
    exact s.checked_putVs_vectors u (f := fun i l => (up l i).1) hi (State.packOk_elements hok) hok

end Sys2Proof.Machine
end

section
/-! SUPPORT and PROOF. Words that move values between lanes (O8; R231, R257, R258, R261), reductions and scans (O17; R259,
R260). -/

namespace Sys2Proof.Machine

/-! ## Ballots -/

/-- A mask is that of its lanes. -/
theorem maskOf_lanesOf (m : Word) : (maskOf fun l => (lanesOf m).contains l) = m := by
  refine (eq_maskOf fun i _ => ?_).symm
  rw [Bool.eq_iff_iff, List.contains_iff_mem, mem_lanesOf]

theorem lanesOf_inj {m m' : Word} : lanesOf m = lanesOf m' ↔ m = m' := by
  refine ⟨fun h => ?_, congrArg lanesOf⟩
  rw [← maskOf_lanesOf m, h, maskOf_lanesOf]

/-- The lanes of a ballot are the executing ones whose predicate reads 1. -/
theorem State.lanesOf_ballot (s : State) (p : Nat) :
    lanesOf (s.ballot p) = (lanesOf s.issue.exec).filter fun l => s.issue.src.rp p l := by
  rw [lanesOf, lanesOf, List.filter_filter]
  refine List.filter_congr fun l hl => ?_
  rw [State.ballot, BitVec.getLsbD_and, maskOf_getLsbD, decide_eq_true (List.mem_range.1 hl), Bool.true_and, Bool.and_comm]

theorem State.ballot_eq_exec (s : State) (p : Nat) :
    (s.ballot p == s.issue.exec) = (lanesOf s.issue.exec).all fun l => s.issue.src.rp p l := by
  rw [Bool.eq_iff_iff, beq_iff_eq, ← lanesOf_inj, s.lanesOf_ballot, List.filter_eq_self, List.all_eq_true]

theorem State.ballot_ne_zero (s : State) (p : Nat) :
    (s.ballot p != 0) = (lanesOf s.issue.exec).any fun l => s.issue.src.rp p l := by
  rw [Bool.eq_iff_iff, bne_iff_ne, ne_eq, ← lanesOf_eq_nil, s.lanesOf_ballot, List.filter_eq_nil_iff, List.any_eq_true]
  simp

/-! ## `bcast` -/

theorem bcast_eq (s : State) (c u : Bool) {d a : BitVec 7} (p : BitVec 3) (hd : s.vOk d.toNat = true)
    (ha : s.vOk a.toNat = true) : exec (.bcast c u d a p) s = .next (if s.ballot p.toNat = 0 then s
      else s.putV false d.toNat fun _ => s.A a.toNat (lowest (s.ballot p.toNat))) :=
  State.checked_ok s _ _ (by rw [hd, ha]; rfl)

/-- Settles O8: the votes and `bcast` by the lanes of their ballot; `shfl` and `cellkey` write their value behind their operand
check. -/
theorem laneWords : Obligations.LaneWords := by
  unfold Obligations.LaneWords
  refine ⟨?votes, fun s c u x d a b p hi hd ha =>
    ⟨fun hb => ?shfl, ⟨fun hno => ?silent, fun l ls hyes => ?bcast⟩, fun ha' hb => ?cellkey⟩⟩
  case' votes =>
    intro s c u d p hi E yes
    refine ⟨fun hd => ⟨?all, ?any⟩, fun hd => ⟨?ballot, ?count⟩⟩
  case all => exact s.checked_putP_writesP false hi hd (decide_eq_true hd) fun _ => s.ballot_eq_exec p.toNat
  case any => exact s.checked_putP_writesP false hi hd (decide_eq_true hd) fun _ => s.ballot_ne_zero p.toNat
  case ballot =>
    have hm : s.ballot p.toNat = maskOf fun l => yes.contains l := by
      rw [← maskOf_lanesOf (s.ballot p.toNat), s.lanesOf_ballot]
    exact s.checked_putV_writesV _ false _ _ _ hi hd hd fun _ => hm
  case count =>
    exact s.checked_putV_writesV _ false _ _ _ hi hd hd fun _ =>
      congrArg (fun ls : List Nat => BitVec.ofNat 32 ls.length) (s.lanesOf_ballot p.toNat)
  case shfl => exact s.checked_putV_writesV _ false _ _ _ hi hd (State.operandsOk hd ha hb) fun _ => rfl
  case silent =>
    have hzero : s.ballot p.toNat = 0 := by rw [← lanesOf_eq_nil, s.lanesOf_ballot, hno]
    rw [bcast_eq s c u p hd ha, if_pos hzero]
  case bcast =>
    have hlanes : lanesOf (s.ballot p.toNat) = l :: ls := (s.lanesOf_ballot p.toNat).trans hyes
    have hsome : s.ballot p.toNat ≠ 0 := by
      rw [ne_eq, ← lanesOf_eq_nil, hlanes]
      exact List.cons_ne_nil l ls
    have hfirst : lowest (s.ballot p.toNat) = l := by rw [lowest, hlanes, List.headD_cons]
    rw [bcast_eq s c u p hd ha, if_neg hsome, hfirst]
    exact s.putV_writesV false _ _ _ hi hd fun _ => rfl
  case cellkey => exact s.checked_putV_writesV _ u _ _ _ hi hd (by rw [hd, ha', hb]; rfl) fun _ => rfl

/-! ## Reductions -/

/-- One lane combined into a value, its flags joined to those so far (R260). -/
def reduceLane (op rm : Nat) (v : Nat → Word) (r : Word × Nat) (l : Nat) : Word × Nat :=
  ((reduceStep op rm r.1 (v l)).1, r.2 ||| (reduceStep op rm r.1 (v l)).2)

section Reduce

variable (op rm : Nat) (v : Nat → Word)

/-- The whole combination takes one lane after another. -/
theorem reduceAll_eq_foldl (ls : List Nat) (acc : Word) (fl : Nat) :
    ls.foldl (reduceLane op rm v) (acc, fl) =
      ((reduceAll op rm v ls acc).2.1, fl ||| (reduceAll op rm v ls acc).2.2) := by
  induction ls generalizing acc fl with
  | nil => exact congrArg (Prod.mk acc) (Nat.or_zero fl).symm
  | cons l ls ih =>
    rw [List.foldl_cons, reduceLane, ih, reduceAll, Nat.or_assoc]

/-- In ascending order, a lane's step finds what the lanes before it make, and leaves what the lanes up to it make. -/
theorem find?_reduceAll {ls : List Nat} (hs : ls.Pairwise (· < ·)) {l : Nat} (hl : l ∈ ls) (acc : Word) (fl : Nat) :
    (reduceAll op rm v ls acc).1.find? (·.1 == l) = some (l,
      ((ls.filter (· < l)).foldl (reduceLane op rm v) (acc, fl)).1,
      ((ls.filter (· ≤ l)).foldl (reduceLane op rm v) (acc, fl)).1) := by
  induction ls generalizing acc fl with
  | nil => exact absurd hl List.not_mem_nil
  | cons k ks ih =>
    obtain ⟨hk, hks⟩ := List.pairwise_cons.1 hs
    rw [reduceAll]
    by_cases e : k = l
    · subst e
      have hbefore : (k :: ks).filter (· < k) = [] := by
        refine List.filter_eq_nil_iff.2 fun j hj => ?_
        obtain rfl | hj := List.mem_cons.1 hj
        · simp
        · simpa using (hk j hj).le
      have hupto : (k :: ks).filter (· ≤ k) = [k] := by
        rw [List.filter_cons_of_pos (by simp), List.filter_eq_nil_iff.2 fun j hj => by simpa using hk j hj]
      rw [hbefore, hupto]
      exact List.find?_cons_of_pos (beq_self_eq_true k)
    · have hlt : k < l := hk l ((List.mem_cons.1 hl).resolve_left (Ne.symm e))
      have hmem : l ∈ ks := (List.mem_cons.1 hl).resolve_left (Ne.symm e)
      rw [List.find?_cons_of_neg (by simpa using e), List.filter_cons_of_pos (by simpa using hlt),
        List.filter_cons_of_pos (by simpa using hlt.le), List.foldl_cons, List.foldl_cons]
      exact ih hks hmem _ _

end Reduce

theorem lanesOf_ascending (m : Word) : (lanesOf m).Pairwise (· < ·) := List.pairwise_lt_range.filter _

/-- What the lanes `ls` make of register `a` (R260). -/
def State.reduced (s : State) (op a : Nat) (ls : List Nat) : Word × Nat :=
  ls.foldl (reduceLane op s.rm (s.A a)) (reduceIdentity op, 0)

/-- The word's own combination ends with what all executing lanes make. -/
theorem State.reduce_snd (s : State) (op a : Nat) : (s.reduce op a).2 = s.reduced op a (lanesOf s.issue.exec) := by
  rw [State.reduced, reduceAll_eq_foldl, Nat.zero_or]
  rfl

/-- A write counts in the lanes of its mask alone. -/
theorem Vectors.congr {s t : State} {d n : Nat} {m : Word} {f f' : Nat → Nat → Word} {fl : Nat}
    (h : Vectors s t d n m f fl) (e : ∀ i l, m.getLsbD l = true → f i l = f' i l) : Vectors s t d n m f' fl := by
  refine ⟨fun i l hi hl => (h.written i l hi hl).trans ?_, h.others, h.sizes, h.frame, h.memory⟩
  by_cases hm : m.getLsbD l = true
  · rw [if_pos hm, if_pos hm, e i l hm]
  · rw [if_neg hm, if_neg hm]

section Scan

variable {s : State} {d a : BitVec 7} {o : BitVec 4} (c u : Bool) (hi : s.issuing = true) (ho : o.toNat < 11)
  (hd : s.vOk d.toNat = true) (ha : s.vOk a.toNat = true)
include hi ho hd ha

/-- `lred` (R260). -/
theorem lred_vectors : ∃ t, exec (.lred c u d a o) s = .next t ∧ Vectors s t d.toNat 1 s.issue.exec
    (fun _ _ => (s.reduced o.toNat a.toNat (lanesOf s.issue.exec)).1)
    (s.reduced o.toNat a.toNat (lanesOf s.issue.exec)).2 := by
  refine ⟨_, State.checked_ok s _ _ (by rw [decide_eq_true ho, hd, ha]; rfl), ?_⟩
  rw [← State.reduce_snd]
  exact (s.putV_vectors false d.toNat _ hi hd).setFlags _

/-- `lscan` (R260): an executing lane takes what the lanes before it make, or those up to it. -/
theorem lscan_vectors (e : Bool) : ∃ t, exec (.lscan c u d a o e) s = .next t ∧ Vectors s t d.toNat 1 s.issue.exec
    (fun _ l => (s.reduced o.toNat a.toNat
      ((lanesOf s.issue.exec).filter fun k => if e then k < l else k ≤ l)).1)
    (s.reduced o.toNat a.toNat (lanesOf s.issue.exec)).2 := by
  refine ⟨_, State.checked_ok s _ _ (by rw [decide_eq_true ho, hd, ha]; rfl), ?_⟩
  rw [← State.reduce_snd]
  refine ((s.putV_vectors false d.toNat _ hi hd).setFlags _).congr fun _ l hl => ?_
  have hfind : (s.reduce o.toNat a.toNat).1.find? (·.1 == l) = _ :=
    find?_reduceAll o.toNat s.rm (s.A a.toNat) (lanesOf_ascending _) ((mem_lanesOf _ l).2 hl) _ 0
  simp only [State.from, Bool.false_eq_true, if_false, hfind]
  cases e <;> rfl

end Scan

/-- Settles O17: `lred` takes the end of the combination, and `lscan` each lane's place in it. -/
theorem reductionsAndScans : Obligations.ReductionsAndScans := by
  unfold Obligations.ReductionsAndScans
  intro s c u d a o hi ho hd ha step upto E
  exact ⟨lred_vectors c u hi ho hd ha, lscan_vectors c u hi ho hd ha false, lscan_vectors c u hi ho hd ha true⟩

end Sys2Proof.Machine
end

section
/-! SUPPORT. Two states of which the pod fence of the group being issued alone differs (O19): an access waits and is checked
alike in both (R263, R445). -/

set_option Elab.async false

namespace Sys2Proof.Machine

/-! ## Translations -/

/-- A walk looks at no core (R424). -/
theorem State.walk_cores (s : State) (cs : List Core) (level table va : Nat) :
    State.walk { s with cores := cs } level table va = s.walk level table va := by
  induction level generalizing table with
  | zero => rfl
  | succ n ih => unfold State.walk; simp only [ih]; rfl

/-- A translation looks at no core (R50, R427, R428). -/
theorem State.translate_cores (s : State) (cs : List Core) (space : Nat) (tenant : BitVec 16) (want : Want) (va : Nat) :
    State.translate { s with cores := cs } space tenant want va = s.translate space tenant want va := by
  unfold State.translate
  simp only [State.walk_cores]
  rfl

/-! ## The pod fence -/

/-- Of two states, the pod fence of the group being issued alone differs (R445). -/
structure State.FenceOnly (s p : State) : Prop where
  frame : p = { s with cores := p.cores }
  core : p.cur = { s.cur with groups := p.cur.groups }
  group : p.grp = { s.grp with podFence := p.grp.podFence }

namespace State.FenceOnly

variable {s p : State} (h : s.FenceOnly p)
include h

theorem issue_eq : p.issue = s.issue := by rw [h.frame]
theorem clk_eq : p.clk = s.clk := by rw [h.frame]
theorem fabric_eq : p.fabric = s.fabric := by rw [h.frame]

theorem flight_eq : p.cur.flight = s.cur.flight := by rw [h.core]
theorem watch_eq : p.cur.watch = s.cur.watch := by rw [h.core]
theorem regs_eq : p.cur.regs = s.cur.regs := by rw [h.core]
theorem space_eq : p.space = s.space := by rw [State.space, h.regs_eq]; rfl
theorem team_eq : p.grp.team = s.grp.team := by rw [h.group]

theorem tenant_eq : p.tenant = s.tenant := by
  rw [State.tenant, State.curTeam, h.team_eq, h.core]
  rfl

theorem translate_eq : p.translate = s.translate := by
  funext space tenant want va
  rw [h.frame]
  exact s.translate_cores _ _ _ _ _

theorem mine_eq : p.mine = s.mine := by
  rw [State.mine, h.flight_eq, h.team_eq, h.issue_eq]; rfl

theorem fenceHold_eq : p.fenceHold = s.fenceHold := by
  funext rs
  simp only [State.fenceHold, FenceHold.holds, h.mine_eq, h.issue_eq]
  rw [h.group]

theorem memWait_eq (fs : Option Bool) : p.memWait fs = s.memWait fs := by
  have hfull : p.flagFull fs = s.flagFull fs := by
    rw [State.flagFull, State.flag, h.group]; rfl
  simp only [State.memWait, State.memHeld, h.issue_eq, h.mine_eq, h.fenceHold_eq, hfull]

theorem crowded_eq (n : Nat) (tries : List Try) : p.crowded n tries = s.crowded n tries := by
  have hout : p.outstanding p.issue.core = s.outstanding s.issue.core := by
    have hc : p.core p.issue.core = _ := h.core
    rw [State.outstanding, hc, h.fabric_eq, h.issue_eq]; rfl
  rw [State.crowded, State.crowdedBy, hout, h.issue_eq]
  rfl

theorem accessWait_eq (fs : Option Bool) (n : Nat) (tries : List Try) : p.accessWait fs n tries = s.accessWait fs n tries := by
  simp only [State.accessWait, State.roomWait, h.memWait_eq, h.fenceHold_eq, h.crowded_eq, h.issue_eq]

theorem unseen_eq (store : Bool) (x : LaneAccess) (n : Nat) : p.unseen store x n = s.unseen store x n := by
  simp only [State.unseen, State.watches, State.seenAt, State.aliasOf, Comparator.hits, Comparator.compares, h.issue_eq,
    h.watch_eq, h.tenant_eq, h.space_eq, h.clk_eq, h.translate_eq]

/-- A store may issue in both or in neither. -/
theorem storeReady_eq (fs : Bool) (n : Nat) (tries : List Try) : p.storeReady fs n tries = s.storeReady fs n tries := by
  simp only [State.storeReady, State.allPass, h.accessWait_eq, h.unseen_eq]

end State.FenceOnly

/-- A state differs from itself in nothing. -/
theorem State.FenceOnly.refl (s : State) : s.FenceOnly s := ⟨rfl, rfl, rfl⟩

/-- A release at pod scope changes the fence alone. -/
theorem State.podRelease_fenceOnly (s : State) (scope : Nat) (hi : s.issuing = true) : s.FenceOnly (s.podRelease scope) := by
  obtain ⟨hg, -⟩ := s.issuing_grp hi
  unfold State.podRelease
  split
  · refine ⟨rfl, ?_, ?_⟩
    · have : (s.onGrp fun g => { g with podFence := g.podFence ||| s.issue.exec }).cur = _ :=
        s.core_modCore s.issue.core _ (s.core_lt_of_group _ _ _ hg)
      rw [this]; rfl
    · rw [s.grp_onGrp _ _ hg]
  · exact .refl s

/-- A release at pod scope leaves the group being issued in its slot, with its shape. -/
theorem State.podRelease_issuing (s : State) (scope : Nat) (hi : s.issuing = true) : (s.podRelease scope).issuing = true := by
  unfold State.podRelease
  split
  · obtain ⟨g, hg, hs, -⟩ := s.issuing_elim hi
    exact s.issuing_onGrp _ hi (by rw [s.grp_eq g hg]; exact hs) rfl
  · exact hi

end Sys2Proof.Machine
end

section
/-! SUPPORT and PROOF. Lane addresses (O20), loads (O18) and stores (O19). -/

set_option Elab.async false

namespace Sys2Proof.Machine

/-! ## Operations of a word -/

/-- A load of some accesses is dispatched as some operations. -/
theorem State.loadParts_ne_nil (s : State) (u sc : Bool) (dest : LoadDest) {ls : List LaneAccess} (h : ls ≠ []) :
    s.loadParts u sc dest ls ≠ [] := by
  obtain ⟨x, xs, rfl⟩ := List.exists_cons_of_ne_nil h
  cases dest with
  | reg d n sg => cases sc <;> by_cases h16 : n = 16 <;> simp [State.loadParts, h16]
  | _ => cases sc <;> simp [State.loadParts]

theorem State.rmwParts_ne_nil (s : State) (u sc : Bool) (dest : Option (Nat × Nat)) {ls : List (LaneAccess × Rmw)}
    (h : ls ≠ []) : s.rmwParts u sc dest ls ≠ [] := by
  obtain ⟨x, xs, rfl⟩ := List.exists_cons_of_ne_nil h
  cases sc <;> simp [State.rmwParts, List.eraseDups_cons]

/-! ## Loads -/

theorem State.ne_nil_of_allPass {s : State} {store : Bool} {n : Nat → Nat} {tries : List Try}
    (h : s.allPass store n tries = true) : tries ≠ [] := by
  simp only [State.allPass, Bool.and_eq_true, bne_iff_ne] at h
  exact h.1

/-- A load that may issue (R60, R263, R266). -/
theorem State.load_loads (s : State) (u acq : Bool) (n : Nat) (fs : Option Bool) (dest : LoadDest) (tries : List Try)
    (hi : s.issuing = true) (h : s.loadReady fs n tries = true) :
    Machine.Loads s (.next (s.load u n acq fs dest tries)) u fs acq dest tries := by
  have hne : tries ≠ [] := by
    simp only [State.loadReady, Bool.and_eq_true] at h
    exact State.ne_nil_of_allPass h.2
  refine ⟨_, rfl, ?_⟩
  rw [s.load_of_ready u acq n fs dest tries h]
  exact s.dispatchAll_dispatched fs acq _ _ hi (s.loadParts_ne_nil u _ dest (mt List.map_eq_nil_iff.1 hne))

/-- A load that may issue, behind its operand check. -/
theorem State.checked_load_loads (s : State) {ok : Bool} (u acq : Bool) (n : Nat) (fs : Option Bool) (dest : LoadDest)
    (tries : List Try) (hi : s.issuing = true) (hok : ok = true) (h : s.loadReady fs n tries = true) :
    Machine.Loads s (s.checked ok (s.load u n acq fs dest tries)) u fs acq dest tries := by
  rw [s.checked_ok _ _ hok]
  exact s.load_loads u acq n fs dest tries hi h

/-- A word whose one check has failed raises the cause for all its lanes (R38, R263). -/
theorem State.access_of_fail (s : State) (l : Nat) (va : DWord) (c : Cause) (watch : LaneAccess → List Nat)
    (go : List LaneAccess → Bool → State → State) : s.access true [.fail l va c false] watch go =
      s.takeFault c s.issue.exec s.issue.exec va 0 (missingPages [(l, c, va)]) [] := by
  simp [State.access, Try.fail, State.noteMalformed_zero, State.raiseLanes, lowestCause, lowestFault]

/-- An access that has failed meets no atomic (R60). -/
theorem State.meetsAtomic_of_fail (s : State) (n l : Nat) (va : DWord) (c : Cause) (m : Bool) :
    s.meetsAtomic [.fail l va c m] n = false := by
  rw [State.meetsAtomic, List.any_eq_false.2 fun f _ => ?_, Bool.and_false]
  cases f.kind <;> simp [Try.fail]

/-- A load whose one check has failed is no load (R263). -/
theorem State.load_of_fail (s : State) (n l : Nat) (fs : Option Bool) (dest : LoadDest) (va : DWord) (c : Cause)
    (hi : s.issuing = true) (hr : s.grp.report = none) (hw : s.accessWait fs n [.fail l va c false] = none) :
    Taken s (s.load true n false fs dest [.fail l va c false]) c s.issue.exec s.issue.exec va 0 := by
  have hload : s.load true n false fs dest [.fail l va c false] =
      s.takeFault c s.issue.exec s.issue.exec va 0 (missingPages [(l, c, va)]) [] := by
    have hnone : s.sampled false (fun _ => n) (passed [.fail l va c false]) = (s, []) := rfl
    simp only [State.load, hw, s.meetsAtomic_of_fail, hnone, Option.orElse, Bool.false_eq_true, if_false, State.after]
    exact s.access_of_fail l va c _ _
  rw [hload]
  exact s.takeFault_taken c _ _ va 0 _ _ hi hr

/-! ## Stores -/

/-- A store that may issue is dispatched, with no comparator asked (R170, R206, R266). -/
theorem State.store_of_ready (s : State) (u : Bool) (n : Nat) (data : Nat → List Byte) (tries : List Try)
    (h : s.storeReady false n tries = true) :
    s.store u n data tries = s.dispatchAll (some false) false (tries.any (·.sc))
      (s.storeParts u (tries.any (·.sc)) ((tries.map (·.access)).map fun x => (x, data x.lane))) := by
  simp only [State.storeReady, Bool.and_eq_true, Option.isNone_iff_eq_none] at h
  obtain ⟨hwait, hpass⟩ := h
  have hall := hpass
  simp only [State.allPass, Bool.and_eq_true, List.all_eq_true] at hall
  have hwatch : ∀ t ∈ tries, s.watchers true t.access n (data t.access.lane) (s.sample [] t.access n) = [] := fun t ht =>
    (s.unseen_spec true t.access n (hall.2 t ht).2 _ _).2
  rw [State.store, State.storeOn, hwait, State.after, s.sampled_of_allPass true n tries hpass]
  exact s.access_of_allPass u true (fun _ => n) tries _ _ hpass hwatch

/-- A store that may issue (R263, R266). -/
theorem State.store_stores (s : State) (u : Bool) (n : Nat) (data : Nat → List Byte) (tries : List Try)
    (hi : s.issuing = true) (h : s.storeReady false n tries = true) :
    Machine.Stores s (.next (s.store u n data tries)) u false data tries := by
  have hne : tries ≠ [] := by
    simp only [State.storeReady, Bool.and_eq_true] at h
    exact State.ne_nil_of_allPass h.2
  refine ⟨_, rfl, ?_⟩
  rw [s.store_of_ready u n data tries h]
  refine s.dispatchAll_dispatched (some false) false _ _ hi (s.storeParts_ne_nil u _ _ ?_)
  exact mt List.map_eq_nil_iff.1 (mt List.map_eq_nil_iff.1 hne)

/-- A store that may issue, behind its operand check. -/
theorem State.checked_store_stores (s : State) {ok : Bool} (u : Bool) (n : Nat) (data : Nat → List Byte)
    (tries : List Try) (hi : s.issuing = true) (hok : ok = true) (h : s.storeReady false n tries = true) :
    Machine.Stores s (s.checked ok (s.store u n data tries)) u false data tries := by
  rw [s.checked_ok _ _ hok]
  exact s.store_stores u n data tries hi h

/-! ## The obligations -/

/-- Settles O19: each form is one store of its lanes' bytes; a release is settled and then stores behind its pod fence, or it
waits. -/
theorem stores : Obligations.Stores := by
  unfold Obligations.Stores
  intro s c u d a sz scope w o o2 hi hsz ha n data far near pav rel
  have hok : (s.szOk d.toNat sz.toNat && s.vOk a.toNat) = true := by rw [hsz, ha]; rfl
  have strel (h6 : sz.toNat < 6) := s.checked_ite ((s.podRelease scope.toNat).store u n data rel)
    (s.wait ((s.memWait (some false)).getD .pipeBusy)) (decide (sz.toNat < 6) && s.szOk d.toNat sz.toNat && s.vOk a.toNat)
    (s.settled scope.toNat = true) _ (by rw [Bool.and_assoc, hok, decide_eq_true h6]; rfl) Iff.rfl
  refine ⟨s.checked_store_stores u n data far hi hok, s.checked_store_stores u n data near hi hok,
    s.checked_store_stores u n data pav hi hok, fun h6 hset hready => ?release, fun h6 hset => ?waits⟩
  case release =>
    have hp := s.podRelease_fenceOnly scope.toNat hi
    have h := (s.podRelease scope.toNat).store_stores u n data rel (s.podRelease_issuing _ hi)
      ((hp.storeReady_eq false n rel).trans hready)
    rwa [← (strel h6).1 hset] at h
  case waits =>
    exact (strel h6).2 (by rw [hset]; exact Bool.false_ne_true)

/-- Settles O20: a check answers by the alignment of its address and then by what the address translates to. -/
theorem laneAddresses : Obligations.LaneAddresses := by
  unfold Obligations.LaneAddresses
  intro s want n a l off va t
  obtain ⟨hlane, hva⟩ := s.tryGlobal_lane_va want n l va
  refine ⟨?sum, hlane, hva, fun hmis => ?misaligned, fun pa sc hb m hal he => ?passes, fun cause m hal he => ?fails⟩
  case sum => simp [va, State.globalVa, BitVec.ofInt_add]
  case misaligned => exact congrArg Try.fault (if_pos hmis)
  case passes =>
    have htry : t = .pass l va (.phys pa) sc true := (if_neg (not_not_intro hal)).trans (by rw [he])
    rw [htry]
    exact ⟨rfl, rfl, rfl, rfl⟩
  case fails =>
    have htry : t = .fail l va cause m := (if_neg (not_not_intro hal)).trans (by rw [he])
    rw [htry]
    rfl

/-- `ldk` of an address other than 0 is one load of the bank's 48 words; a misaligned address fails once for the word (R291). -/
theorem ldk_eq (s : State) (c u : Bool) {a : BitVec 7} (he : s.issue.exec ≠ 0) (ha : a.toNat < 64)
    (hz : s.issue.src.rs a.toNat ≠ 0) :
    let va := s.issue.src.rs a.toNat
    exec (.ldk c u a) s = .next (s.load true 4 false (some false) .bank
      (if va.toNat % 64 ≠ 0 then [.fail (lowest s.issue.exec) va .misaligned false]
        else (List.range 48).map fun i => s.tryGlobal .read 4 (lowest s.issue.exec) (va + BitVec.ofNat 64 (4 * i)))) :=
  (s.checked_ok _ _ (decide_eq_true ha)).trans (congrArg Host.Outcome.next (by rw [if_neg he, if_neg hz, if_neg he]))

/-- Settles O18: each form is one load into its registers; `ldk` by its address, and a misaligned one by its one failed
check. -/
theorem loads : Obligations.Loads := by
  unfold Obligations.Loads
  refine ⟨fun s c u d a sz scope w o o2 hi hsz ha => ?_, fun s c u a hi he ha => ?_⟩
  · intro n dest far near pav acq
    have hok : (s.szOk d.toNat sz.toNat && s.vOk a.toNat) = true := by rw [hsz, ha]; rfl
    refine ⟨s.checked_load_loads u false n _ dest far hi hok, s.checked_load_loads u false n _ dest near hi hok,
      s.checked_load_loads u false n _ dest pav hi hok, fun h6 => s.checked_load_loads u true n _ dest acq hi ?_⟩
    rw [Bool.and_assoc, hok, decide_eq_true h6]; rfl
  · intro va tries
    refine ⟨fun hz => ?clear, fun hz hal hready => ?load, fun hmis hrep hwait => ?misaligned⟩
    case clear =>
      refine ⟨_, s.checked_ok _ _ (decide_eq_true ha), ?_⟩
      rw [if_neg he, if_pos hz]
      exact s.onGrp_onlyGroup _
    case load =>
      rw [ldk_eq s c u he ha hz, if_neg (not_not_intro hal)]
      exact s.load_loads true false 4 _ .bank tries hi hready
    case misaligned =>
      have hz : va ≠ 0 := fun e => hmis (by rw [e]; rfl)
      refine ⟨_, ldk_eq s c u he ha hz, ?_⟩
      rw [if_pos hmis]
      exact s.load_of_fail 4 _ _ .bank va .misaligned hi hrep hwait

end Sys2Proof.Machine
end

section
/-! SUPPORT. What a read-modify-write makes of the bytes at its location (O21; R271 to R273). -/

set_option Elab.async false

namespace Sys2Proof.Machine

/-! ## Bytes and integers of a location -/

theorem pow_byte (n : Nat) : 256 ^ n = 2 ^ (8 * n) := (pow_mul 2 8 n).symm

/-- The bytes of a number are those of its low part (R12). -/
theorem leBytes_congr {n a b : Nat} (h : a % 2 ^ (8 * n) = b % 2 ^ (8 * n)) : leBytes n a = leBytes n b := by
  have hlow : ∀ w, leBytes n (w % 2 ^ (8 * n)) = leBytes n w := fun w => by
    have := leBytes_leNat (leBytes n w)
    rwa [leBytes_length, leNat_leBytes, pow_byte] at this
  rw [← hlow a, h, hlow b]

theorem intOf_unsigned (w b : Nat) : intOf w false b = ((b % 2 ^ w : Nat) : Int) := by simp [intOf]

theorem intOf_mod (w : Nat) (sg : Bool) (b : Nat) : intOf w sg (b % 2 ^ w) = intOf w sg b := by simp [intOf]

/-- A signed pattern as a word of its width. -/
theorem intOf_signed (w b : Nat) : intOf w true b = (BitVec.ofNat w b).toInt := by
  have hmsb : (BitVec.ofNat w b).msb = bit (b % 2 ^ w) (w - 1) := by
    rw [BitVec.msb_eq_getLsbD_last, bit, ← BitVec.toNat_ofNat]
    rfl
  rw [BitVec.toInt_eq_msb_cond, hmsb, BitVec.toNat_ofNat]
  simp only [intOf, Bool.true_and]
  split <;> simp

theorem intBits_natCast (w n : Nat) : intBits w (n : Int) = n % 2 ^ w := by
  rw [intBits, ← Nat.cast_ofNat, ← Nat.cast_pow, ← Int.natCast_emod, Int.toNat_natCast]

theorem intBits_toInt {w : Nat} (x : BitVec w) : intBits w x.toInt = x.toNat := by
  have h := congrArg BitVec.toNat (BitVec.ofInt_toInt (x := x))
  rwa [BitVec.toNat_ofInt] at h

/-- A location that took the pattern of a signed value holds that value. -/
theorem intOf_leNat_intBits (w b : Nat) :
    intOf (8 * w) true (leNat (leBytes w (intBits (8 * w) (intOf (8 * w) true b)))) = intOf (8 * w) true b := by
  rw [leNat_leBytes, pow_byte, intOf_mod, intOf_signed _ b, intBits_toInt, intOf_signed,
    BitVec.ofNat_toNat, BitVec.setWidth_eq]

/-! ## The operations -/

section Location

variable (w : Nat) (v : DWord) (old : List Byte)

theorem Rmw.write_add : (Rmw.add w v).write old = some (leBytes w ((leNat old + v.toNat) % 2 ^ (8 * w))) :=
  congrArg some (leBytes_congr (Nat.mod_mod _ _).symm)

theorem Rmw.write_xchg : (Rmw.xchg w v).write old = some (leBytes w (v.toNat % 2 ^ (8 * w))) :=
  congrArg some (leBytes_congr (Nat.mod_mod _ _).symm)

theorem Rmw.write_cas (c : DWord) : (Rmw.cas w c v).write old =
    if leNat old = c.toNat % 2 ^ (8 * w) then some (leBytes w (v.toNat % 2 ^ (8 * w))) else none :=
  congrArg (ite _ · none) (Rmw.write_xchg w v old)

/-- The logic operations see the low part of their operand alone. -/
theorem leBytes_logic (op : Nat → Nat → Nat) (hop : ∀ a b, op a b % 2 ^ (8 * w) = op (a % 2 ^ (8 * w)) (b % 2 ^ (8 * w))) :
    leBytes w (op (leNat old) v.toNat) = leBytes w (op (leNat old) (v.toNat % 2 ^ (8 * w))) :=
  leBytes_congr (by rw [hop, hop _ (_ % _), Nat.mod_mod])

variable {old} in
/-- An unsigned minimum or maximum of a location, as numbers. -/
theorem leBytes_unsigned (hl : old.length = w) (pick : Nat → Nat → Nat) :
    leBytes w (intBits (8 * w) (pick (leNat old % 2 ^ (8 * w)) (v.toNat % 2 ^ (8 * w)) : Nat)) =
      leBytes w (pick (leNat old) (v.toNat % 2 ^ (8 * w))) := by
  have hx : leNat old < 2 ^ (8 * w) := by
    have := leNat_lt old
    rwa [hl, pow_byte] at this
  rw [intBits_natCast, Nat.mod_eq_of_lt hx]
  exact leBytes_congr (Nat.mod_mod _ _)

/-- The unsigned minimum (R272). -/
theorem Rmw.write_minU (hl : old.length = w) :
    (Rmw.minmax w 2 v).write old = some (leBytes w (min (leNat old) (v.toNat % 2 ^ (8 * w)))) := by
  rw [← leBytes_unsigned w v hl min]
  simp [Rmw.write, intOf_unsigned]

/-- The unsigned maximum (R272). -/
theorem Rmw.write_maxU (hl : old.length = w) :
    (Rmw.minmax w 3 v).write old = some (leBytes w (max (leNat old) (v.toNat % 2 ^ (8 * w)))) := by
  rw [← leBytes_unsigned w v hl max]
  simp [Rmw.write, intOf_unsigned]

/-- A signed minimum or maximum of a location is the one value or the other. -/
theorem intOf_minmax (pick : Int → Int → Int) (hp : ∀ a b, pick a b = a ∨ pick a b = b) :
    intOf (8 * w) true (leNat (leBytes w (intBits (8 * w) (pick (intOf (8 * w) true (leNat old)) (intOf (8 * w) true v.toNat))))) =
      pick (intOf (8 * w) true (leNat old)) (intOf (8 * w) true (v.toNat % 2 ^ (8 * w))) := by
  rw [intOf_mod]
  rcases hp (intOf (8 * w) true (leNat old)) (intOf (8 * w) true v.toNat) with e | e <;>
    rw [e, intOf_leNat_intBits]

end Location

end Sys2Proof.Machine
end

section
/-! SUPPORT and PROOF. Global atomics (O21) and bank operations on single locations (O22). -/

set_option Elab.async false

namespace Sys2Proof.Machine

/-! ## A read-modify-write that may issue -/

/-- An access of no bytes is seen by no comparator (R357). -/
theorem State.unseen_zero (s : State) (store : Bool) (x : LaneAccess) : s.unseen store x 0 = true := by
  simp [State.unseen, State.watches, watchParts]

/-- Accesses that all pass go on together where no comparator is asked (R154, R263). -/
theorem State.access_of_passes (s : State) (u : Bool) (tries : List Try) (go : List LaneAccess → Bool → State → State)
    (hne : tries ≠ []) (h : ∀ t ∈ tries, t.fault = none ∧ t.malformed = false) :
    s.access u tries (fun _ => []) go = go (tries.map (·.access)) (tries.any (·.sc)) s := by
  refine s.access_of_allPass u true (fun _ => 0) tries _ go ?_ fun _ _ => rfl
  simp only [State.allPass, Bool.and_eq_true, bne_iff_ne, List.all_eq_true]
  exact ⟨hne, fun t ht => ⟨⟨by rw [(h t ht).1]; rfl, by rw [(h t ht).2]; rfl⟩, s.unseen_zero _ _⟩⟩

/-- A read-modify-write that may issue, and whose release is settled, is dispatched behind its pod fence (R206, R273, R445). -/
theorem State.rmw_rmws (s : State) (u acq : Bool) (rel : Option Nat) (op : Nat → Rmw) (dest : Option (Nat × Nat))
    (tries : List Try) (hi : s.issuing = true) (hrel : ∀ sc ∈ rel, s.settled sc = true) (h : s.rmwReady op tries = true) :
    Rmws (s.podRelease (rel.getD 0)) (.next (s.rmw u acq rel op dest tries)) u acq op dest tries := by
  simp only [State.rmwReady, Bool.and_eq_true, Option.isNone_iff_eq_none, bne_iff_ne, List.all_eq_true, Bool.not_eq_true'] at h
  obtain ⟨⟨hwait, hne⟩, hall⟩ := h
  have hwatch : ((passed tries).any fun x => s.rmwWatched x (op x.lane)) = false := by
    refine List.any_eq_false.2 fun x hx => ?_
    obtain ⟨t, ht, rfl⟩ := List.mem_map.1 hx
    rw [(hall t (List.mem_filter.1 ht).1).2]
    exact Bool.false_ne_true
  have hrmw : s.rmw u acq rel op dest tries = (s.podRelease (rel.getD 0)).dispatchAll (some false) acq (tries.any (·.sc))
      ((s.podRelease (rel.getD 0)).rmwParts u (tries.any (·.sc)) dest ((tries.map (·.access)).map fun x => (x, op x.lane))) := by
    rw [← (s.podRelease (rel.getD 0)).access_of_passes u tries
      (fun ls sc t => t.dispatchAll (some false) acq sc (t.rmwParts u sc dest (ls.map fun x => (x, op x.lane)))) hne
      fun t ht => (hall t ht).1]
    simp only [State.rmw, hwait, hwatch, Bool.false_eq_true, if_false, Option.orElse]
    cases rel with
    | none => rfl
    | some scope => exact congrArg (s.after · _) (if_pos (hrel scope rfl))
  refine ⟨_, rfl, ?_⟩
  rw [hrmw]
  refine State.dispatchAll_dispatched _ (some false) acq _ _ (s.podRelease_issuing _ hi) (State.rmwParts_ne_nil _ u _ dest ?_)
  exact mt List.map_eq_nil_iff.1 (mt List.map_eq_nil_iff.1 hne)

/-- A read-modify-write that releases nothing, behind its operand check. -/
theorem State.checked_rmw_rmws (s : State) {ok : Bool} (u : Bool) (op : Nat → Rmw) (dest : Option (Nat × Nat))
    (tries : List Try) (hi : s.issuing = true) (hok : ok = true) (h : s.rmwReady op tries = true) :
    Rmws s (s.checked ok (s.rmw u false none op dest tries)) u false op dest tries := by
  rw [s.checked_ok _ _ hok]
  exact s.rmw_rmws u false none op dest tries hi (fun _ h => nomatch h) h

/-- A global atomic that may issue, behind its operand checks (R271 to R274). -/
theorem State.atomic_rmws (s : State) (u : Bool) (d a scope ord : Nat) (w ok hostToo : Bool) (op : Nat → Rmw)
    (hi : s.issuing = true) (hok : ok = true) (hd : (if w then s.v2Ok d else s.vOk d) = true) (ha : s.vOk a = true)
    (hset : 2 ≤ ord → s.settled scope = true) (h : s.rmwReady op (s.atomicTries u hostToo w a) = true) :
    Rmws (if 2 ≤ ord then s.podRelease scope else s) (s.atomic u d a scope ord w ok hostToo op) u (ord % 2 == 1) op
      (some (d, if w then 2 else 1)) (s.atomicTries u hostToo w a) := by
  have hrel : ∀ sc ∈ (if 2 ≤ ord then some scope else none), s.settled sc = true := by
    intro sc hsc
    split at hsc
    · next h2 => exact Option.mem_some_iff.1 hsc ▸ hset h2
    · cases hsc
  have hp : s.podRelease ((if 2 ≤ ord then some scope else none).getD 0) = if 2 ≤ ord then s.podRelease scope else s := by
    split <;> rfl
  rw [State.atomic, s.checked_ok _ _ (by rw [hok, hd, ha]; rfl), ← hp]
  exact s.rmw_rmws u _ _ op _ _ hi hrel h

/-- The operand of a lane: its register, or its pair (R272). -/
theorem State.operand_eq (s : State) (d : Nat) (w : Bool) :
    s.operand d w = fun l => if w then s.A2 d l else BitVec.ofNat 64 (s.A d l).toNat := by
  funext l
  cases w
  · exact (BitVec.ofNat_toNat 64 (s.A d l)).symm
  · rfl

/-- What `atcas` compares with and writes (R271, R272). -/
theorem State.casOp_eq (s : State) (d : Nat) (w : Bool) :
    (fun l => if w then Rmw.cas 8 (s.A2 d l) (s.A2 (d + 2) l) else .cas 4 ((s.A d l).setWidth 64) ((s.A (d + 1) l).setWidth 64)) =
      fun l => .cas (atBytes w) (s.operand d w l) (if w then s.A2 (d + 2) l else BitVec.ofNat 64 (s.A (d + 1) l).toNat) := by
  funext l
  cases w
  · exact congrArg (Rmw.cas 4 _) (BitVec.ofNat_toNat 64 (s.A (d + 1) l)).symm
  · rfl

/-! ## The obligations -/

/-- Settles O21: every word is one atomic with an operation of its own for each lane; each operation by the bytes that it writes,
the signed minimum and maximum by the one value or the other that they pick. -/
theorem atomics : Obligations.Atomics := by
  unfold Obligations.Atomics
  refine ⟨fun s c u w d a sc o v hi hd ha hset => ?words, fun old v c w _ hl => ?values⟩
  case words =>
    intro n acq p x dest
    have hx : x = s.operand d.toNat w := (s.operand_eq d.toNat w).symm
    clear_value x
    subst hx
    have word (ok hostToo : Bool) (op : Nat → Rmw) (hok : ok = true) :=
      s.atomic_rmws u d.toNat a.toNat sc.toNat o.toNat w ok hostToo op hi hok ((Bool.ite_eq_true_distrib ..).mpr hd) ha hset
    refine ⟨?add, ?minmax, ?logic, ?xchg, ?cas⟩
    case add =>
      rintro op rfl hv
      refine word _ (v == 0) _ ?_
      rcases hv with rfl | ⟨rfl, rfl⟩ <;> rfl
    case minmax =>
      rintro op rfl
      exact word true false _ rfl
    case logic =>
      rintro op rfl hv
      exact word (v != 3) false _ (bne_iff_ne.2 hv)
    case xchg =>
      rintro op rfl
      exact word true true _ rfl
    case cas =>
      rintro op hop hok
      obtain rfl := hop.trans (s.casOp_eq d.toNat w).symm
      exact word _ true _ ((Bool.ite_eq_true_distrib ..).mpr hok)
  case values =>
    intro x y
    refine ⟨Rmw.write_add w v old, Rmw.write_minU w v old hl, Rmw.write_maxU w v old hl, ?_, ?_,
      congrArg some (leBytes_logic w v old (· &&& ·) fun _ _ => Nat.and_mod_two_pow),
      congrArg some (leBytes_logic w v old (· ||| ·) fun _ _ => Nat.or_mod_two_pow),
      congrArg some (leBytes_logic w v old (· ^^^ ·) fun _ _ => Nat.xor_mod_two_pow), Rmw.write_xchg w v old,
      Rmw.write_cas w v old c, ?_⟩
    · rintro z hz
      obtain rfl := Option.some.inj hz
      exact intOf_minmax w v old min fun a b => min_choice a b
    · rintro z hz
      obtain rfl := Option.some.inj hz
      exact intOf_minmax w v old max fun a b => max_choice a b
    · simp [Rmw.value, x]

/-- Settles O22: each word is one read-modify-write behind its operand check, at the Pavilion addresses of its lanes. -/
theorem bankOperations : Obligations.BankOperations := by
  unfold Obligations.BankOperations
  intro s c u d a t hi ha w n x dOk
  have hx : x = s.operand d.toNat w := (s.operand_eq d.toNat w).symm
  clear_value x
  subst hx
  have word {p q : Bool} (op : Nat → Rmw) (dest : Option (Nat × Nat)) (tries : List Try) (hp : p = true) (hq : q = true) :=
    s.checked_rmw_rmws (ok := p && q && s.vOk a.toNat) u op dest tries hi (by rw [hp, hq, ha]; rfl)
  refine ⟨?add, ?fx, ?fxread, ?app⟩
  case add =>
    rintro op rfl ht hd
    exact word _ none _ (decide_eq_true ht) hd
  case fx =>
    rintro op rfl ht hd
    exact word _ none _ (decide_eq_true ht) hd
  case fxread =>
    rintro op rfl ht hd
    exact word _ (some (d.toNat, 4)) _ (decide_eq_true ht) hd
  case app =>
    rintro op rfl ht hd
    exact word _ (some (d.toNat, 1)) _ (decide_eq_true ht) hd

end Sys2Proof.Machine
end

section
/-! SUPPORT and PROOF. Engine words (O24): bank streams, copies, tile copies and context images. -/

set_option Elab.async false

namespace Sys2Proof.Machine

/-! ## Fields of a scalar -/

theorem bits_63_32 (x : DWord) : bits x.toNat 63 32 = x.toNat / 2 ^ 32 :=
  Nat.mod_eq_of_lt (by have := x.isLt; omega)

theorem bits_from_zero (x hi : Nat) : bits x hi 0 = x % 2 ^ (hi + 1) := by
  rw [bits, pow_zero, Nat.div_one, Nat.sub_zero]

/-- A scalar below 2^32 has no upper half. -/
theorem bits_63_32_eq_zero {x : DWord} (h : x.toNat < 2 ^ 32) : bits x.toNat 63 32 = 0 := by
  rw [bits_63_32, Nat.div_eq_of_lt h]

/-! ## An engine word that may issue -/

/-- An engine operation all of whose checks have passed is dispatched for its executing lanes (R206, R281, R286). -/
theorem State.checked_engine_dispatches (s : State) {ok f : Bool} {faults : List Try} (held : Option Nat) (kind : FlightKind)
    (hi : s.issuing = true) (hr : s.engineReady f = true) (hw : kind.writes = false) (hok : ok = true) (hf : faults = []) :
    Dispatches s (s.checked ok (s.engine f faults held kind)) (some f) s.issue.exec held false false kind := by
  simp only [State.engineReady, Bool.and_eq_true, bne_iff_ne, Option.isNone_iff_eq_none] at hr
  obtain ⟨he, hwait⟩ := hr
  refine ⟨_, s.checked_ok _ _ hok, ?_⟩
  have hengine : s.engine f faults held kind = s.dispatch (some f) s.issue.exec held false false kind := by
    rw [State.engine, hwait, State.after, if_neg he, hf]
    exact congrArg (State.dispatch · _ _ _ _ _ _) s.noteMalformed_zero
  rw [hengine]
  exact s.dispatch_dispatched (some f) _ held false false kind hi hw

/-- A check that passes met no malformed entry (R426). -/
theorem State.tryGlobal_wellFormed {s : State} {want : Want} {n l : Nat} {va : DWord}
    (h : (s.tryGlobal want n l va).fault = none) : (s.tryGlobal want n l va).malformed = false := by
  obtain ⟨pa, sc, he⟩ := s.tryGlobal_of_passes want n l va h
  rw [he]
  rfl

/-- A lane copy all of whose checks pass is one engine operation, with a piece for each lane (R285, R286). -/
theorem cpyL_dispatches (s : State) (c u f n : Bool) (e a b : BitVec 6) (z : BitVec 2) (hi : s.issuing = true)
    (hr : s.engineReady f = true) (hok : (decide (z.toNat < 3) && (if n then s.v2Ok e.toNat else s.vOk e.toNat) &&
      s.vOk a.toNat && s.vOk b.toNat) = true) :
    let size := 4 * 2 ^ z.toNat
    let ls := s.doers u
    let src := ls.map fun l => s.tryGlobal .read size l (s.globalVa a.toNat 0 l)
    let dst := ls.map fun l => s.tryGlobal .write size l (s.globalVa b.toNat 0 l)
    let ctr := if n then s.A2 e.toNat (lowest s.issue.exec) else 0
    ctr.toNat % 16 = 0 → (∀ t ∈ src ++ dst, t.fault = none) →
    Dispatches s (exec (.cpyL c u e z a b f n) s) (some f) s.issue.exec
      (s.heldUntil (ctrSpan ctr :: dst.map fun x => (false, x.access.va.toNat, size))) false false
      (.copy ((src.zip dst).map fun p => (p.1.access.loc, p.2.access.loc, size)) ls (some e.toNat) ctr none) := by
  intro size ls src dst ctr hctr hpass
  simp only [State.engineReady, Bool.and_eq_true, bne_iff_ne, Option.isNone_iff_eq_none] at hr
  obtain ⟨he, hwait⟩ := hr
  have hfaults : (src ++ dst ++ if ctr.toNat % 16 ≠ 0 then [misalignedAt s ctr] else []).filterMap (·.fault) = [] := by
    rw [if_neg (not_not_intro hctr), List.append_nil]
    exact List.filterMap_eq_nil_iff.2 hpass
  have hwell : (src ++ dst).filter (·.malformed) = [] := by
    refine List.filter_eq_nil_iff.2 fun t ht => ?_
    have hf := hpass t ht
    rw [Bool.not_eq_true]
    rcases List.mem_append.1 ht with h | h
    all_goals
      obtain ⟨l, -, rfl⟩ := List.mem_map.1 h
      exact State.tryGlobal_wellFormed hf
  refine ⟨_, s.checked_ok _ _ hok, ?_⟩
  rw [hwait, State.after, if_neg he, if_neg (not_not_intro hfaults), hwell, List.length_nil, s.noteMalformed_zero]
  exact s.dispatch_dispatched (some f) _ _ false false _ hi rfl

/-- A context image that owes no register is stored by one engine operation (R288). -/
theorem stkCtx_dispatches (s : State) (c u : Bool) (d r b : BitVec 7) (hi : s.issuing = true) (he : s.engineReady (b == 1) = true)
    (hr : r.toNat < 64) (hb : b.toNat < 2) (hd : s.vOk d.toNat = true) (h64 : (s.issue.src.rs r.toNat).toNat % 64 = 0)
    (howes : s.owesAny = false) :
    let va := s.issue.src.rs r.toNat
    let bytes := s.imaged.image s.issue.slot s.curTeam.origin.lseq true
    (s.tryRange .write va.toNat bytes.length).2 = [] →
    Dispatches s (exec (.stkCtx c u d r b) s) (some (b == 1)) s.issue.exec (s.heldUntil [(false, va.toNat, bytes.length)])
      false false (.image (s.tryRange .write va.toNat bytes.length).1 bytes d.toNat) := by
  intro va bytes hrange
  have hgo : ¬(s.issue.exec ≠ 0 ∧ (!s.issue.ahead) = true ∧ s.owesAny = true) := by
    rw [howes]
    exact fun h => Bool.false_ne_true h.2.2
  rw [show exec (.stkCtx c u d r b) s = execStkCtx c u d r b s from rfl, execStkCtx, if_neg hgo]
  refine s.checked_engine_dispatches _ _ hi he rfl (by rw [decide_eq_true hr, decide_eq_true hb, hd]; rfl) ?_
  rw [if_neg (not_not_intro h64)]
  exact hrange

/-- Settles O24: each word is one engine operation whose checks have all passed, with its fields read from its scalars. -/
theorem engineWords : Obligations.EngineWords := by
  unfold Obligations.EngineWords
  refine ⟨fun s c u f d a t hi hr ha h4 hd => ?streams, fun s c u f n out e a b d r z w hi hr => ⟨?lanes, ?tile, ?image⟩⟩
  case streams =>
    intro r n dst src size hn hctr
    have hlen : n = bits (r 1).toNat 63 32 := (bits_63_32 (r 1)).symm
    clear_value n
    subst hlen
    refine ⟨fun ht hwin h2 hsrc hdst hrange => ?axpy, fun ht hwin hto h0 h2 hsrc hdst => ?red⟩
    case axpy =>
      refine s.checked_engine_dispatches _ _ hi hr rfl ?_ ?_
      · simp only [Bool.and_eq_true, decide_eq_true_eq, beq_iff_eq]
        exact ⟨⟨⟨⟨⟨⟨ha, h4⟩, hd⟩, ht⟩, hn⟩, hwin⟩, bits_63_32_eq_zero h2⟩
      · rw [if_neg (not_not_intro hsrc), if_neg (not_not_intro hdst), if_neg (not_not_intro hctr)]
        exact hrange
    case red =>
      refine s.checked_engine_dispatches _ _ hi hr rfl ?_ ?_
      · simp only [Bool.and_eq_true, decide_eq_true_eq, beq_iff_eq]
        exact ⟨⟨⟨⟨⟨⟨⟨⟨ha, h4⟩, hd⟩, ht⟩, hn⟩, bits_63_32_eq_zero h0⟩, hwin⟩, hto⟩, h2⟩
      · rw [if_neg (not_not_intro hsrc), if_neg (not_not_intro hdst), if_neg (not_not_intro hctr)]
        rfl
  case lanes =>
    intro size ls src dst ctr hz hd ha hb hctr hpass
    refine cpyL_dispatches s c u f n e a b z hi hr ?_ hctr hpass
    simp only [Bool.and_eq_true, decide_eq_true_eq, Bool.ite_eq_true_distrib]
    exact ⟨⟨⟨hz, hd⟩, ha⟩, hb⟩
  case tile =>
    intro q pitch so rows rb chunks tries ha h4 hd h2 hrows hrows' hrb hrb' hrb16 h0 hpitch hso h3 hspan hpass
    have hp : pitch = bits (q 1) 63 32 := (bits_63_32 _).symm
    have hs : so = bits (q 1) 31 0 := (bits_from_zero (q 1) 31).symm
    have hb : rb = bits (q 2) 15 0 := (bits_from_zero (q 2) 15).symm
    have hr' : rows = bits (q 2) 31 16 := rfl
    clear_value pitch so rb rows
    subst hp hs hb hr'
    refine s.checked_engine_dispatches _ _ hi hr rfl ?_ ?_
    · simp only [Bool.and_eq_true, decide_eq_true_eq, beq_iff_eq]
      exact ⟨⟨⟨⟨⟨⟨⟨⟨ha, h4⟩, hd⟩, bits_63_32_eq_zero h2⟩, hrows⟩, hrows'⟩, hrb⟩, hrb'⟩, hrb16⟩
    · have hmis : ([q 0, bits (q 1) 63 32, bits (q 1) 31 0, q 3].filterMap fun x =>
          if x % 16 ≠ 0 then some (misalignedAt s (BitVec.ofNat 64 (q 0))) else none) = [] := by
        simp [h0, hpitch, hso, h3]
      have hfail : (tries.map (·.1)).filter (fun t => t.fault.isSome) = [] := by
        refine List.filter_eq_nil_iff.2 fun t ht => ?_
        obtain ⟨y, hy, rfl⟩ := List.mem_map.1 ht
        rw [hpass y hy]
        exact Bool.false_ne_true
      refine (if_pos hmis).trans ?_
      rw [if_neg (Nat.not_lt.2 hspan)]
      exact hfail
  case image =>
    intro va bytes ha hd h64 howes hrange
    cases f
    · exact stkCtx_dispatches s c u d r 0 hi hr ha (by decide) hd h64 howes hrange
    · exact stkCtx_dispatches s c u d r 1 hi hr ha (by decide) hd h64 howes hrange

end Sys2Proof.Machine
end

section
/-! SUPPORT and PROOF. System words (O32). -/

set_option Elab.async false

namespace Sys2Proof.Machine

theorem State.onCore_onlyCore (s : State) (f : Core → Core) : OnlyCore s (s.onCore f) f := ⟨rfl, fun _ => rfl⟩

/-- `watch` sets its comparator, or resets it (R356, R357). -/
theorem watch_onlyCore (s : State) (c u : Bool) (n e k : BitVec 2) (a : BitVec 7) (he : s.issue.exec ≠ 0) (hk : k ≠ 3)
    (hke : ¬(k = 2 ∧ e = 1)) (ha : a.toNat < 64) (h4 : a.toNat % 4 = 0)
    (hc : s.cur.regs.cctl.getLsbD (4 + n.toNat) = false) :
    let r := fun j => s.issue.src.rs (a.toNat + j)
    let w : Comparator := if e = 0 then Comparator.reset else ⟨e, k, r 0, r 1, r 2, r 3, s.tenant, s.issue.slot, s.clk⟩
    ∃ t, exec (.watch c u n e k a) s = .next t ∧ OnlyCore s t (fun c => { c with watch := c.watch.set n.toNat w }) := by
  intro r w
  refine ⟨_, s.checked_ok _ _ ?ok, ?_⟩
  case ok =>
    simp only [Bool.and_eq_true, decide_eq_true_eq, beq_iff_eq, bne_iff_ne, Bool.not_eq_true', Bool.and_eq_false_imp,
      beq_eq_false_iff_ne]
    exact ⟨⟨⟨⟨hk, fun h2 h1 => hke ⟨h2, h1⟩⟩, ha⟩, h4⟩, hc⟩
  rw [if_neg he]
  exact s.onCore_onlyCore _

/-- `clock` reads its clock once it waits for nothing (R358). -/
theorem clock_writesS (s : State) (c u x m : Bool) (d : BitVec 7) (hi : s.issuing = true) (hd : d.toNat < 64)
    (hm : m = true → s.unfinished = []) :
    WritesS s (exec (.clock c u d x m) s) d.toNat (BitVec.ofNat 64 (if x then s.clk / 15 else s.clk)) := by
  have hgo : ¬(m = true ∧ s.issue.exec ≠ 0 ∧ s.unfinished ≠ []) := fun h => h.2.2 (hm h.1)
  rw [show exec (.clock c u d x m) s = execClock c u d x m s from rfl, execClock, if_neg hgo,
    s.checked_ok _ _ (decide_eq_true hd)]
  exact s.putS_writesS _ _ hi hd

/-- `pmark` counts its marker, and sends a trace record where tracing is on (R359). -/
theorem pmark_counts (s : State) (c : Bool) (i : BitVec 22) (he : s.issue.exec ≠ 0) :
    ∃ t p, exec (.pmark c i) s = .next t ∧ OnlyCore s p (fun c => { c with regs :=
        { c.regs with counters := c.regs.counters.modify 5 (· + 1) } }) ∧
      t = { p with out := if s.cur.regs.cctl.getLsbD 2 then s.out ++ [.trace s.issue.core s.issue.slot s.issue.pc i.toNat
        s.curTeam.origin.lseq s.curTeam.origin.cpc s.clk] else s.out } := by
  refine ⟨_, _, rfl, s.onCore_onlyCore _, ?_⟩
  rw [if_neg he]
  split <;> rfl

/-- `hold` opens its window, closes the windows that it meets, or is refused, and says which (R360). -/
theorem hold_holds (s : State) (c u : Bool) (d a : BitVec 7) (hi : s.issuing = true) (he : s.issue.exec ≠ 0)
    (ha : a.toNat < 64) (h4 : a.toNat % 4 = 0) (hd : s.vOk d.toNat = true) :
    let r := fun j => s.issue.src.rs (a.toNat + j)
    bits (r 2).toNat 62 20 = 0 →
    let len := (r 2).toNat % 2 ^ 20
    let w : HoldWin := ⟨s.grp.team, (r 0).toNat, (r 1).toNat, bit (r 2).toNat 63, len⟩
    let code := if s.cur.regs.cctl.getLsbD 1 = false then 1 else if len = 0 then 3
      else if 4 ≤ s.cur.holds.length then 2 else 0
    let holds := if code = 0 then s.cur.holds ++ [w]
      else if code = 3 then s.cur.holds.filter fun h =>
        !(h.team == w.team && h.pav == w.pav && overlap h.base h.len w.base w.len)
      else s.cur.holds
    ∃ p t, exec (.hold c u d a) s = .next t ∧ OnlyCore s p (fun c => { c with holds := holds }) ∧
      Vectors p t d.toNat 1 s.issue.exec (fun _ _ => BitVec.ofNat 32 (2 ^ 31 + code)) 0 := by
  intro r h62 len w code holds
  have hok : (decide (a.toNat < 64) && a.toNat % 4 == 0 && s.vOk d.toNat && bits (r 2).toNat 62 20 == 0) = true := by
    simp only [Bool.and_eq_true, decide_eq_true_eq, beq_iff_eq]
    exact ⟨⟨⟨ha, h4⟩, hd⟩, h62⟩
  have hcode : (if (!s.cur.regs.cctl.getLsbD 1) = true then 1 else if len = 0 then 3
      else if 4 ≤ s.cur.holds.length then 2 else 0) = code := by
    simp only [Bool.not_eq_true', code]
  have hholds : (if code = 3 then s.cur.holds.filter fun h =>
      !(h.team == w.team && h.pav == w.pav && overlap h.base h.len w.base w.len)
      else if code = 0 then s.cur.holds ++ [w] else s.cur.holds) = holds := by
    by_cases h0 : code = 0
    · simp [holds, h0]
    · simp [holds, h0]
  have hexec : exec (.hold c u d a) s = .next ((s.onCore fun c => { c with holds := holds }).putV false d.toNat
      fun _ => BitVec.ofNat 32 (2 ^ 31 + code)) := by
    rw [← hholds, ← hcode]
    exact (s.checked_ok _ _ hok).trans (congrArg Host.Outcome.next (if_neg he))
  exact ⟨_, _, hexec, s.onCore_onlyCore _, State.putV_vectors _ false d.toNat _ (s.issuing_onCore _ (fun _ => rfl) hi) hd⟩

/-- `cap` writes the version and the length of the record that it finds (R361, R399). -/
theorem cap_vectors (s : State) (c u x : Bool) (d b : BitVec 7) (hi : s.issuing = true) (hd : s.v2Ok d.toNat = true)
    (hb : s.bOk b.toNat x = true) : ∃ t, exec (.cap c u d b x) s = .next t ∧
      Vectors s t d.toNat 2 s.issue.exec (fun j l =>
        (capFind 64 s.host.info s.host.capHead.toNat (s.B b.toNat x (s.from u l)).toNat).elim 0 fun v =>
          if j = 0 then BitVec.ofNat 32 (2 ^ 31 + v.1) else BitVec.ofNat 32 v.2) 0 := by
  have hlen : d.toNat + 2 ≤ s.issue.src.v.length := by
    simp only [State.v2Ok, Bool.and_eq_true, decide_eq_true_eq] at hd
    exact hd.2
  exact ⟨_, s.checked_ok _ _ (by rw [hd, hb]; rfl), s.putVs_vectors false d.toNat 2 (fun j l =>
    (capFind 64 s.host.info s.host.capHead.toNat (s.B b.toNat x (s.from u l)).toNat).elim 0 fun v =>
      if j = 0 then BitVec.ofNat 32 (2 ^ 31 + v.1) else BitVec.ofNat 32 v.2) hi hlen⟩

/-- `sleep` holds its group back (R362). -/
theorem sleep_onlyGroup (s : State) (c u : Bool) (z : BitVec 15) (he : s.issue.exec ≠ 0) (hz : z ≠ 0) :
    ∃ t, exec (.sleep c u z) s = .next t ∧
      OnlyGroup s t (fun g => { g with sleepUntil := some (s.clk + z.toNat + 1), heldPc := s.issue.pc }) :=
  ⟨_, congrArg Host.Outcome.next (if_neg (not_or_intro he hz)), s.onGrp_onlyGroup _⟩

/-- `trywait` answers at once where its flag reads zero or its count is 0, and otherwise waits (R289). -/
theorem trywait_answers (s : State) (c u : Bool) (p : BitVec 3) (f : BitVec 4) (y : BitVec 12) (hi : s.issuing = true)
    (he : s.issue.exec ≠ 0) (hf : f.toNat < 12) :
    (s.issue.flags.getD f.toNat 0 = 0 ∨ y = 0 →
      WritesP s (exec (.trywait c u p f y) s) false p.toNat fun _ => s.issue.flags.getD f.toNat 0 == 0) ∧
    (¬(s.issue.flags.getD f.toNat 0 = 0 ∨ y = 0) → ∃ t, exec (.trywait c u p f y) s = .next t ∧
      OnlyGroup s t (fun g => { g with
        tryUntil := some (f.toNat, p.toNat, s.issue.exec, s.clk + y.toNat), heldPc := s.issue.pc })) := by
  rw [show exec (.trywait c u p f y) s = execTrywait c u p f y s from rfl, execTrywait,
    s.checked_ok _ _ (decide_eq_true hf), if_neg he]
  simp only [beq_iff_eq]
  constructor
  · intro h
    rw [if_pos h]
    exact s.putP_writesP false p.toNat _ _ hi p.isLt fun _ => rfl
  · intro h
    rw [if_neg h]
    exact ⟨_, rfl, s.onGrp_onlyGroup _⟩

/-- `fire.set` sets the words of the firing mask that its lanes stand for (R318). -/
theorem fireSet_sets (s : State) (c u : Bool) (g : BitVec 2) (a : BitVec 7) (hi : s.issuing = true) (ha : s.vOk a.toNat = true) :
    ∃ t, exec (.fireSet c u g a) s = .next t ∧ OnlyGroup s t (fun x => { x with fire := t.grp.fire }) ∧
      ∀ j, j < 128 → t.grp.fire.getD j 0 = if j / 32 = g.toNat ∧ s.issue.exec.getLsbD (j % 32) then
        s.A a.toNat (s.from u (j % 32)) else s.grp.fire.getD j 0 := by
  obtain ⟨w, hw, hs, -⟩ := s.issuing_elim hi
  have hfire : s.grp.fire.length = 128 := by
    obtain rfl := s.grp_eq w hw
    exact ((Group.shaped_iff _).1 hs).2.2.2.2.2.1
  obtain ⟨hg, -⟩ := s.issuing_grp hi
  refine ⟨_, s.checked_ok _ _ ha, ⟨?_, fun _ => rfl⟩, fun j hj => ?_⟩
  · rw [s.grp_onGrp _ _ hg]
    exact s.onGrp_congr _ _ _ hg rfl
  · rw [s.grp_onGrp _ _ hg]
    have hj' : j < s.grp.fire.length := hfire ▸ hj
    simp [List.getD_eq_getElem?_getD, hj']

/-- `budget.rd` reads the bucket, the charges or the refill rate (R320, R401). -/
theorem budgetRd_writesS (s : State) (c u : Bool) (d : BitVec 7) (sel : BitVec 8) (hi : s.issuing = true) (hd : d.toNat < 64)
    (hsel : sel.toNat < 4) : WritesS s (exec (.budgetRd c u d sel) s) d.toNat
      (BitVec.ofNat 64 ([s.issue.bucket, s.issue.charged.1, s.issue.charged.2,
        min 65536 (s.cur.regs.brefill.toNat % 2 ^ 17)].getD sel.toNat 0)) := by
  rw [show exec (.budgetRd c u d sel) s = execBudgetRd c u d sel s from rfl, execBudgetRd,
    s.checked_ok _ _ (by rw [decide_eq_true hd, decide_eq_true hsel]; rfl)]
  generalize sel.toNat = j at hsel
  interval_cases j <;> exact s.putS_writesS _ _ hi hd

/-- Settles O32: each word by what it makes of the core, the group or the register that it names. -/
theorem systemWords : Obligations.SystemWords := by
  unfold Obligations.SystemWords
  intro s c u m x d a b n e k g i z p f y sel hi he r
  refine ⟨fun hk hke ha h4 hc => watch_onlyCore s c u n e k a he hk hke ha h4 hc,
    fun hd hm => clock_writesS s c u x m d hi hd hm, pmark_counts s c i he,
    fun ha h4 hd h62 => hold_holds s c u d a hi he ha h4 hd h62, fun hd hb => ?cap, sleep_onlyGroup s c u z he,
    fun hf => ?trywait, fireSet_sets s c u g a hi, budgetRd_writesS s c u d sel hi⟩
  case cap =>
    obtain ⟨t, ht, hv⟩ := cap_vectors s c u x d b hi hd hb
    refine ⟨t, ht, hv.congr fun j l _ => ?_⟩
    generalize capFind _ _ _ _ = found
    cases found <;> rfl
  case trywait =>
    obtain ⟨answers, waits⟩ := trywait_answers s c u p f y hi he hf
    refine ⟨fun h0 => ?zero, fun hne hy => ?late, fun hne hy => waits (not_or_intro hne hy)⟩
    case zero =>
      have h := answers (.inl h0)
      rwa [beq_iff_eq.2 h0] at h
    case late =>
      have h := answers (.inr hy)
      rwa [beq_eq_false_iff_ne.2 hne] at h

end Sys2Proof.Machine
end

section
/-! SUPPORT and PROOF. The accumulator words (O34; R305 to R308). -/

namespace Sys2Proof.Machine

/-! ## Stores that may issue, on either flag -/

/-- A store that may issue is dispatched on its flag, with no comparator asked (R170, R206, R266). -/
theorem State.storeOn_of_ready (s : State) (u f : Bool) (n : Nat) (data : Nat → List Byte) (tries : List Try)
    (h : s.storeReady f n tries = true) :
    s.storeOn u f n data tries = s.dispatchAll (some f) false (tries.any (·.sc))
      (s.storeParts u (tries.any (·.sc)) ((tries.map (·.access)).map fun x => (x, data x.lane))) := by
  simp only [State.storeReady, Bool.and_eq_true, Option.isNone_iff_eq_none] at h
  obtain ⟨hwait, hpass⟩ := h
  have hall := hpass
  simp only [State.allPass, Bool.and_eq_true, List.all_eq_true] at hall
  have hwatch : ∀ t ∈ tries, s.watchers true t.access n (data t.access.lane) (s.sample [] t.access n) = [] := fun t ht =>
    (s.unseen_spec true t.access n (hall.2 t ht).2 _ _).2
  rw [State.storeOn, hwait, State.after, s.sampled_of_allPass true n tries hpass]
  exact s.access_of_allPass u true (fun _ => n) tries _ _ hpass hwatch

/-- A store that may issue, on its flag (R206, R263, R266). -/
theorem State.storeOn_stores (s : State) (u f : Bool) (n : Nat) (data : Nat → List Byte) (tries : List Try)
    (hi : s.issuing = true) (h : s.storeReady f n tries = true) :
    Machine.Stores s (.next (s.storeOn u f n data tries)) u f data tries := by
  have hne : tries ≠ [] := by
    simp only [State.storeReady, Bool.and_eq_true] at h
    exact State.ne_nil_of_allPass h.2
  refine ⟨_, rfl, ?_⟩
  rw [s.storeOn_of_ready u f n data tries h]
  refine s.dispatchAll_dispatched (some f) false _ _ hi (s.storeParts_ne_nil u _ _ ?_)
  exact mt List.map_eq_nil_iff.1 (mt List.map_eq_nil_iff.1 hne)

/-! ## What the words wait for -/

/-- An access that need not wait waits for no flag (R206). -/
theorem State.memWait_of_accessWait {s : State} {fs : Option Bool} {n : Nat} {tries : List Try}
    (h : s.accessWait fs n tries = none) : s.memWait fs = none := by
  cases hw : s.memWait fs with
  | none => rfl
  | some w => rw [State.accessWait, hw] at h; cases h

/-- A word behind two waits that do not hold. -/
theorem State.after_leastWait (s : State) {v w : Option Stall} (t : State) (hv : v = none) (hw : w = none) :
    s.after (leastWait v w) t = t := by
  rw [hv, hw]
  rfl

/-! ## `acc.ld` and `acc.st` -/

/-- `acc.ld` that may issue: the load is dispatched, and the tile goes to the team (R166, R306). -/
theorem accLd_loads (s : State) (c sp f : Bool) (t : BitVec 4) (a : BitVec 7) (g n : BitVec 2) (hi : s.issuing = true)
    (hok : (n != 3 && g.toNat + accGroups n.toNat ≤ 4 && s.vOk a.toNat) = true) (ht : s.tileWait t.toNat = none) :
    let len := 256 * accGroups n.toNat
    let tries := s.accTries sp .read a.toNat len
    s.loadReady (some f) len tries = true → ∃ q r, exec (.accLd c t sp a g n f) s = .next r ∧
      Machine.Loads s (.next q) false (some f) false (.tile t.toNat (64 * g.toNat) len) tries ∧
      OnlyCore q r (·.modTile t.toNat fun b => { b with owner := some s.grp.team }) := by
  intro len tries hready
  let q := s.load false len false (some f) (.tile t.toNat (64 * g.toNat) len) tries
  have hloads : Machine.Loads s (.next q) false (some f) false (.tile t.toNat (64 * g.toNat) len) tries :=
    s.load_loads false false len _ _ tries hi hready
  have hlonger : q.cur.flight.length ≠ s.cur.flight.length := by
    have hne : tries ≠ [] := by
      simp only [State.loadReady, Bool.and_eq_true] at hready
      exact State.ne_nil_of_allPass hready.2
    have hparts := s.loadParts_ne_nil false (tries.any (·.sc)) (.tile t.toNat (64 * g.toNat) len)
      (ls := tries.map (·.access)) (mt List.map_eq_nil_iff.1 hne)
    obtain ⟨_, hq, dispatched⟩ := hloads
    obtain rfl := Host.Outcome.next.inj hq
    have := List.length_pos_iff.2 hparts
    rw [dispatched.flight, List.length_append, State.newFlights, List.length_mapIdx]
    omega
  have hwait : s.memWait (some f) = none := by
    simp only [State.loadReady, Bool.and_eq_true, Option.isNone_iff_eq_none] at hready
    exact State.memWait_of_accessWait hready.1.1
  refine ⟨q, _, (s.checked_ok _ _ hok).trans (congrArg Host.Outcome.next ?_), hloads, q.onCore_onlyCore _⟩
  exact (s.after_leastWait _ hwait ht).trans (if_neg hlonger)

/-- `acc.st` that may issue (R306). -/
theorem accSt_stores (s : State) (c sp f : Bool) (t : BitVec 4) (a : BitVec 7) (g n : BitVec 2) (hi : s.issuing = true)
    (hok : (n != 3 && g.toNat + accGroups n.toNat ≤ 4 && s.vOk a.toNat) = true) (ht : s.tileWait t.toNat = none) :
    let len := 256 * accGroups n.toNat
    let tries := s.accTries sp .write a.toNat len
    s.storeReady f len tries = true → Machine.Stores s (exec (.accSt c t sp a g n f) s) false f
      (fun l => (s.cur.tile t.toNat).rowBytes l (64 * g.toNat) len) tries := by
  intro len tries hready
  have hwait : s.memWait (some f) = none := by
    simp only [State.storeReady, Bool.and_eq_true, Option.isNone_iff_eq_none] at hready
    exact State.memWait_of_accessWait hready.1
  have hexec := (s.checked_ok _ _ hok).trans (congrArg Host.Outcome.next (s.after_leastWait
    (s.storeOn false f len (fun l => (s.cur.tile t.toNat).rowBytes l (64 * g.toNat) len) tries) hwait ht))
  rw [show exec (.accSt c t sp a g n f) s = _ from hexec]
  exact s.storeOn_stores false f len _ tries hi hready

/-! ## The tiles of a word of one tile or two -/

/-- The tiles of a word: the one that it names, and with P the next. -/
def accTiles (t : BitVec 4) (p : Bool) : List Nat := if p then [t.toNat, t.toNat + 1] else [t.toNat]

/-- The pair of `acc.zero` and `acc.strows` ends within the 16 tiles (R307, R308). -/
theorem accTiles_ok {t : BitVec 4} {p : Bool} (h : p = true → t ≠ 15) : (!(p && t == 15)) = true := by
  cases p with
  | false => rfl
  | true => simpa using h rfl

/-- `acc.zero` with an executing lane and tiles that nothing holds (R308). -/
theorem accZero_onlyCore (s : State) (c p : Bool) (t : BitVec 4) (he : s.issue.exec ≠ 0) (ht : s.tileWait t.toNat = none)
    (hp : p = true → t ≠ 15 ∧ s.tileWait (t.toNat + 1) = none) :
    ∃ r, exec (.accZero c t p) s = .next r ∧ OnlyCore s r (fun c => (accTiles t p).foldl
      (fun c t => c.modTile t fun b => { b.zeroRows s.issue.exec with owner := some s.grp.team }) c) := by
  have hwait : ((accTiles t p).map s.tileWait).foldl (fun w x => w.orElse fun _ => x) none = none := by
    cases p with
    | false => simp [accTiles, ht]
    | true => simp [accTiles, ht, (hp rfl).2]
  refine ⟨_, (s.checked_ok _ _ (accTiles_ok fun h => (hp h).1)).trans (congrArg Host.Outcome.next ?_),
    s.onCore_onlyCore _⟩
  rw [if_neg he]
  exact congrArg (s.after · _) hwait

/-! ## `acc.strows` -/

/-- The stores of elements of a lane's row, each at its place (R307). -/
def State.elemStores (s : State) (l : Nat) (xs : List (DWord × Word)) : List (LaneAccess × List Byte) :=
  xs.map fun x => ((s.tryGlobal .write 4 l x.1).access, leBytes 4 x.2.toNat)

/-- A lane whose elements' places all pass, and that no comparator compares, stores each of them (R307). -/
theorem Walk.rowStores_writesTo (l : Nat) (xs : List (DWord × Word)) (r : Walk) (hu : r.st.unwatched l)
    (h : ∀ x ∈ xs, ∃ pa, WritesTo r.st l 4 x.1 pa) :
    ∃ sc, r.rowStores l xs = { r with stores := r.stores ++ r.st.elemStores l xs, sc := sc } := by
  induction xs generalizing r with
  | nil => exact ⟨r.sc, by simp [Walk.rowStores, State.elemStores]⟩
  | cons x xs ih =>
    obtain ⟨pa, hx⟩ := h x List.mem_cons_self
    obtain ⟨_, htry⟩ := Lies.try_eq hx
    let next : Walk := { r with
      sc := r.sc || (r.st.tryGlobal .write 4 l x.1).sc
      stores := r.stores ++ [(LaneAccess.at_ l x.1 pa, leBytes 4 x.2.toNat)] }
    obtain ⟨sc, hrest⟩ := ih next hu fun y hy => h y (List.mem_cons_of_mem x hy)
    have hfirst : r.rowStores l (x :: xs) = next.rowStores l xs := by
      rw [Walk.rowStores]
      exact r.write_lies l 4 pa x.1 (leBytes 4 x.2.toNat) _ (leBytes_length 4 _) hx hu
    have hplace : (r.st.tryGlobal .write 4 l x.1).access = LaneAccess.at_ l x.1 pa := by rw [htry]; rfl
    refine ⟨sc, hfirst.trans (hrest.trans ?_)⟩
    have hcons : r.st.elemStores l (x :: xs) =
        (LaneAccess.at_ l x.1 pa, leBytes 4 x.2.toNat) :: r.st.elemStores l xs := by
      rw [← hplace]
      rfl
    rw [hcons, ← List.append_cons]

/-- The lanes of a word, each with its elements, one after another (R307). -/
theorem Walk.foldl_rowStores (elems : Nat → List (DWord × Word)) (ls : List Nat) (r : Walk)
    (h : ∀ l ∈ ls, r.st.unwatched l ∧ ∀ x ∈ elems l, ∃ pa, WritesTo r.st l 4 x.1 pa) :
    ∃ sc, ls.foldl (fun r l => r.rowStores l (elems l)) r =
      { r with stores := r.stores ++ ls.flatMap fun l => r.st.elemStores l (elems l), sc := sc } := by
  induction ls generalizing r with
  | nil => exact ⟨r.sc, by simp⟩
  | cons l ls ih =>
    obtain ⟨hu, hw⟩ := h l List.mem_cons_self
    obtain ⟨sc, hfirst⟩ := r.rowStores_writesTo l (elems l) hu hw
    obtain ⟨sc', hrest⟩ := ih { r with stores := r.stores ++ r.st.elemStores l (elems l), sc := sc }
      fun k hk => h k (List.mem_cons_of_mem l hk)
    refine ⟨sc', ?_⟩
    rw [List.foldl_cons, hfirst, hrest]
    simp

/-- A word whose lanes store `ws` and have met no fault: it is dispatched where it stores anything (R206, R307). -/
theorem Walk.finishStores_of_clean (r : Walk) (f : Bool) (hf : r.faults = []) (hm : r.malformed = 0)
    (hc : r.st.crowdedBy (r.stores.map fun x => (x.1.loc, x.2.length)) = false) :
    r.finishStores f = if r.stores = [] then r.st
      else r.st.dispatchAll (some f) false r.sc (r.st.storeParts false r.sc r.stores) := by
  rw [Walk.finishStores, hf, hm, State.noteMalformed_zero, State.raiseLanes_nil]
  simp only [hc, Bool.false_eq_true, if_false]

/-- `acc.strows` of elements that all reach their places: it is the end of a word that stores them (R99, R307). -/
theorem accStrows_eq (s : State) (c p f : Bool) (t : BitVec 4) (a : BitVec 7) (he : s.issue.exec ≠ 0)
    (ht : s.tileWait t.toNat = none) (hp : p = true → t ≠ 15 ∧ s.tileWait (t.toNat + 1) = none) (ha : a.toNat < 64)
    (ha2 : a.toNat % 2 = 0) (hw : s.memWait (some f) = none) :
    let out := s.issue.src.rs a.toNat
    let pitch := (s.issue.src.rs (a.toNat + 1)).toNat % 2 ^ 32
    let elems := fun l => s.taggedElems (accTiles t p) out.toNat pitch l
    let ws := (lanesOf s.issue.exec).flatMap fun l => s.elemStores l (elems l)
    out.toNat % 4 = 0 → pitch % 4 = 0 →
    (∀ l, s.issue.exec.getLsbD l = true → s.unwatched l ∧ ∀ x ∈ elems l, ∃ pa, WritesTo s l 4 x.1 pa) →
    ∃ sc, exec (.accStrows c t p a f) s = .next (Walk.finishStores { Walk.start s false with stores := ws, sc := sc } f) := by
  intro out pitch elems ws hout hpitch helems
  have hok : (!(p && t == 15) && decide (a.toNat < 64) && a.toNat % 2 == 0) = true := by
    rw [accTiles_ok fun h => (hp h).1]
    simp [ha, ha2]
  have hwait : ((accTiles t p).map s.tileWait).foldl leastWait (s.memWait (some f)) = none := by
    cases p with
    | false => simp [accTiles, ht, hw, leastWait]
    | true => simp [accTiles, ht, hw, (hp rfl).2, leastWait]
  obtain ⟨sc, hwalk⟩ := (Walk.start s false).foldl_rowStores elems (lanesOf s.issue.exec) fun l hl =>
    helems l ((mem_lanesOf _ _).1 hl)
  refine ⟨sc, (s.checked_ok _ _ hok).trans (congrArg Host.Outcome.next ?_)⟩
  rw [if_neg he, if_neg (not_or_intro (not_not_intro hout) (not_not_intro hpitch))]
  refine (congrArg (s.after · _) hwait).trans ?_
  exact congrArg (Walk.finishStores · f) hwalk

/-- Settles O34: each word passes its checks and its waits; then it changes its tiles, or is one load or store of its lanes'
accesses, or the walk of the lanes through their elements. -/
theorem accumulatorWords : Obligations.AccumulatorWords := by
  unfold Obligations.AccumulatorWords
  intro s c sp p f t a g n hi he ht hlt len own
  refine ⟨fun hp => ⟨accZero_onlyCore s c p t he ht hp, ?strows⟩, fun hn hg ha => ?columns⟩
  case strows =>
    intro out pitch elems ha ha2 hout hpitch hw helems ws hcrowd
    obtain ⟨sc, hexec⟩ := accStrows_eq s c p f t a he ht hp ha ha2 hw hout hpitch helems
    have hlen : ∀ w ∈ ws, w.2.length = 4 := fun w hmem => by
      obtain ⟨l, -, hx⟩ := List.mem_flatMap.1 hmem
      obtain ⟨x, -, rfl⟩ := List.mem_map.1 hx
      exact leBytes_length 4 _
    have hroom : s.crowdedBy (ws.map fun w => (w.1.loc, w.2.length)) = false := by
      rw [List.map_congr_left fun w hmem => by rw [hlen w hmem]]
      exact hcrowd
    have hfinish := Walk.finishStores_of_clean { Walk.start s false with stores := ws, sc := sc } f rfl rfl hroom
    refine ⟨fun hnone => ?_, fun hsome => ⟨sc, _, hexec.trans (congrArg Host.Outcome.next (hfinish.trans (if_neg hsome))),
      s.dispatchAll_dispatched (some f) false sc _ hi (s.storeParts_ne_nil false sc ws hsome)⟩⟩
    exact hexec.trans (congrArg Host.Outcome.next (hfinish.trans (if_pos hnone)))
  case columns =>
    have hok : (n != 3 && decide (g.toNat + accGroups n.toNat ≤ 4) && s.vOk a.toNat) = true := by
      rw [ha]
      simpa [hg] using hn
    exact ⟨accLd_loads s c sp f t a g n hi hok ht, accSt_stores s c sp f t a g n hi hok ht⟩

end Sys2Proof.Machine
end

section
/-! SUPPORT and PROOF. `mma` (O33; R296 to R304): what the operations of its quarters make of the core, and what the word
makes of its group and its tiles. -/

namespace Sys2Proof.Machine

/-! ## Operations that enter the core -/

/-- The core being issued after a change of it. -/
theorem State.cur_onCore (s : State) (f : Core → Core) (hk : s.issue.core < s.cores.length) : (s.onCore f).cur = f s.cur :=
  s.core_modCore _ f hk

/-- Operations of the kinds `ks` have entered the core being issued behind `s`. Of the residency `ent` the heat and the count
of passes alone may differ, and where the word does not count (R92), nothing of the table does; of the rest of the core the
rechecks, the prefetched lines and the counters may. -/
structure Entered (s t : State) (ent : Nat) (counts : Bool) (ks : List FlightKind) : Prop where
  flight : ∃ fs, t.cur.flight = s.cur.flight ++ fs ∧ fs.map (·.kind) = ks
  core : t.cur = { s.cur with
    flight := t.cur.flight, res := t.cur.res, rechecks := t.cur.rechecks, pref := t.cur.pref,
    regs := { s.cur.regs with counters := t.cur.regs.counters } }
  frame : t = { s.onCore (fun _ => t.cur) with nextId := t.nextId }
  table : counts = false → t.cur.res = s.cur.res
  entry : ∃ heat passes, t.cur.entry ent = { s.cur.entry ent with heat := heat, passes := passes }

namespace Entered

variable {s t u : State} {ent : Nat} {counts : Bool} {ks ls : List FlightKind}

theorem refl (s : State) (ent : Nat) (counts : Bool) : Entered s s ent counts [] := by
  have hsame : s.onCore (fun _ => s.cur) = s := (s.onCore_congr (fun _ => s.cur) id rfl).trans (s.onCore_id id fun _ => rfl)
  exact ⟨⟨[], by simp, rfl⟩, rfl, by rw [hsame], fun _ => rfl, _, _, rfl⟩

theorem issue_eq (h : Entered s t ent counts ks) : t.issue = s.issue := by rw [h.frame]; rfl

theorem mem_eq (h : Entered s t ent counts ks) : t.mem = s.mem := by rw [h.frame]; rfl

theorem core_lt (h : Entered s t ent counts ks) (hk : s.issue.core < s.cores.length) :
    t.issue.core < t.cores.length := by
  rw [h.frame]
  simpa [State.onCore, State.modCore] using hk

theorem groups_eq (h : Entered s t ent counts ks) : t.cur.groups = s.cur.groups := by rw [h.core]

theorem grp_eq (h : Entered s t ent counts ks) : t.grp = s.grp := by
  have hgroup : t.cur.group t.issue.slot = s.cur.group s.issue.slot := by
    rw [Core.group, Core.group, h.groups_eq, h.issue_eq]
  exact congrArg (·.getD Group.blank) hgroup

theorem trans (h : Entered s t ent counts ks) (h' : Entered t u ent counts ls) : Entered s u ent counts (ks ++ ls) := by
  obtain ⟨fs, hfs, hks⟩ := h.flight
  obtain ⟨gs, hgs, hls⟩ := h'.flight
  obtain ⟨heat, passes, he⟩ := h.entry
  obtain ⟨heat', passes', he'⟩ := h'.entry
  refine ⟨⟨fs ++ gs, by rw [hgs, hfs, List.append_assoc], by rw [List.map_append, hks, hls]⟩, ?_, ?_,
    fun hc => (h'.table hc).trans (h.table hc), heat', passes', by rw [he', he]⟩
  · refine h'.core.trans ?_
    rw [h.core]
  · have hfirst := congrArg (fun v : State => { v.onCore (fun _ => u.cur) with nextId := u.nextId }) h.frame
    refine h'.frame.trans (hfirst.trans ?_)
    exact congrArg (fun v : State => { v with nextId := u.nextId }) (s.modCore_modCore _ _ _)

/-- Steps each of which enters its operations. -/
theorem foldl {α : Type} {f : State → α → State} {k : α → List FlightKind}
    (hf : ∀ t ks a, Entered s t ent counts ks → Entered t (f t a) ent counts (k a)) (l : List α)
    (h : Entered s t ent counts ks) : Entered s (l.foldl f t) ent counts (ks ++ l.flatMap k) := by
  induction l generalizing t ks with
  | nil => simpa using h
  | cons a l ih => simpa using ih (h.trans (hf t ks a h))

end Entered

/-- One operation of a word enters (R161). -/
theorem State.dispatchPart_entered (s : State) (word : Nat) (mask : Word) (kind : FlightKind) (ent : Nat) (counts : Bool)
    (hk : s.issue.core < s.cores.length) : Entered s (s.dispatchPart word mask kind) ent counts [kind] := by
  obtain ⟨r, p, n, he⟩ := State.enters_eq (some false) word false false [(mask, none, kind)] s hk
  let f := s.newFlight word (some false) false false s.nextId (mask, none, kind)
  let enter := fun (c : Core) => { c with
    flight := c.flight ++ [f], rechecks := r, pref := p, regs := { c.regs with counters := n } }
  have hpart : s.dispatchPart word mask kind = { s.onCore enter with nextId := s.nextId + 1 } := he
  have hcur : (s.dispatchPart word mask kind).cur = enter s.cur := by
    rw [hpart]
    exact s.cur_onCore enter hk
  refine ⟨⟨[f], by rw [hcur], rfl⟩, by rw [hcur], ?_, fun _ => by rw [hcur], _, _, by rw [hcur]; rfl⟩
  rw [hcur, hpart, s.onCore_congr enter (fun _ => enter s.cur) rfl]

/-- A row-split pass is counted in its residency's heat (R92). -/
theorem State.heatPass_entered (s : State) (ent : Nat) (fired : List Nat) (hk : s.issue.core < s.cores.length) :
    Entered s (s.onCore (·.modEntry ent (·.heatPass fired))) ent true [] := by
  have hcur := s.cur_onCore (·.modEntry ent (·.heatPass fired)) hk
  refine ⟨⟨[], by rw [hcur]; simp [Core.modEntry], rfl⟩, by rw [hcur]; rfl, ?_, fun h => (Bool.noConfusion h), ?_⟩
  · rw [hcur, s.onCore_congr (·.modEntry ent (·.heatPass fired)) (fun _ => _) rfl]
  · rw [hcur]
    by_cases hent : ent < s.cur.res.length
    · rw [Core.entry_modEntry _ _ _ hent, ResEntry.heatPass]
      dsimp only
      split
      · exact ⟨_, _, rfl⟩
      · exact ⟨_, _, rfl⟩
    · refine ⟨(s.cur.entry ent).heat, (s.cur.entry ent).passes, ?_⟩
      simp [Core.entry, Core.modEntry, List.getD_eq_getElem?_getD, hent]

/-! ## The operations of a quarter -/

section Quarters

variable (s : State) (ent tile kb nb : Nat) (z split : Bool) (q : List (Nat × List Word))

/-- The pass of a quarter, with the columns of the array and the rows that they take (R300, R304). -/
def State.passKind : FlightKind :=
  let e := s.cur.entry ent
  .pass ent tile kb q z split (if split then (s.firedRows e).filterMap fun r => (e.columnOf r).map (·, r)
    else (List.range 256).map fun c => (c, if e.split then e.rowMap.getD c 0 else nb * 256 + c))

/-- The requests of a quarter: in row-split mode one to each stack that holds a fired cold row (R95, R97). -/
def State.grottoKinds : List FlightKind :=
  let e := s.cur.entry ent
  if split then (e.byStack (s.firedCold e)).map fun x => .grotto ent (tile + 1) kb x.1 q x.2 e.watched none else []

/-- The operations of a quarter: its pass, and then its requests. -/
def State.quarterKinds : List FlightKind := s.passKind ent tile kb nb z split q :: s.grottoKinds ent tile kb split q

variable {s ent} {t : State} {counts : Bool} {ks : List FlightKind}

/-- The operations of a quarter depend on nothing that operations which have entered change. -/
theorem Entered.quarterKinds_eq (h : Entered s t ent counts ks) :
    t.quarterKinds ent tile kb nb z split q = s.quarterKinds ent tile kb nb z split q := by
  obtain ⟨heat, passes, he⟩ := h.entry
  simp only [State.quarterKinds, State.passKind, State.grottoKinds, State.firedCold, State.firedRows, he, h.grp_eq]
  rfl

variable (s ent)

/-- A quarter is issued: its operations enter, and in row-split mode its pass is counted (R92, R95, R97, R300). -/
theorem State.issueQuarter_entered (word : Nat) (hk : s.issue.core < s.cores.length) :
    Entered s (s.issueQuarter word ent tile kb nb z split q) ent split (s.quarterKinds ent tile kb nb z split q) := by
  have hpass := s.dispatchPart_entered word (blockMask q) (s.passKind ent tile kb nb z split q) ent split hk
  cases split with
  | false => exact hpass
  | true =>
    let e := s.cur.entry ent
    let t := s.dispatchPart word (blockMask q) (s.passKind ent tile kb nb z true q)
    let request := fun (x : Nat × List (Nat × Nat)) => FlightKind.grotto ent (tile + 1) kb x.1 q x.2 e.watched none
    have hgrottos := hpass.foldl (f := fun t x => t.dispatchPart word (blockMask q) (request x)) (k := fun x => [request x])
      (fun t _ x ht => t.dispatchPart_entered word _ _ ent true (ht.core_lt hk)) (e.byStack (t.firedCold e))
    have hkinds : (e.byStack (t.firedCold e)).flatMap (fun x => [request x]) = s.grottoKinds ent tile kb true q := by
      have hcold : t.firedCold e = s.firedCold e := by
        rw [State.firedCold, State.firedCold, State.firedRows, State.firedRows, hpass.grp_eq]
      rw [hcold, ← List.map_eq_flatMap]
      rfl
    have hheat := hgrottos.trans (State.heatPass_entered _ ent
      (((e.byStack (t.firedCold e)).foldl (fun t x => t.dispatchPart word (blockMask q) (request x)) t).firedRows e)
      (hgrottos.core_lt hk))
    rw [hkinds, List.append_nil] at hheat
    exact hheat

/-- The quarters of a word are issued one after another. -/
theorem State.issueQuarters_entered (word : Nat) (qs : List (List (Nat × List Word))) (hk : s.issue.core < s.cores.length) :
    Entered s (qs.foldl (fun t q => t.issueQuarter word ent tile kb nb z split q) s) ent split
      (qs.flatMap (s.quarterKinds ent tile kb nb z split)) :=
  (Entered.refl s ent split).foldl (fun t _ q h => by
    rw [← h.quarterKinds_eq tile kb nb z split q]
    exact t.issueQuarter_entered ent tile kb nb z split q word (h.core_lt hk)) qs

end Quarters

/-! ## Passes and requests among the operations of a word -/

/-- Whether an operation is a pass of the array (R300). -/
def FlightKind.isPass : FlightKind → Bool
  | .pass .. => true
  | _ => false

/-- Whether an operation is a request for cold rows (R95). -/
def FlightKind.isGrotto : FlightKind → Bool
  | .grotto .. => true
  | _ => false

section Kinds

variable (s : State) (ent tile kb nb : Nat) (z split : Bool)

theorem State.isPass_of_mem_grottoKinds {q : List (Nat × List Word)} {k : FlightKind}
    (h : k ∈ s.grottoKinds ent tile kb split q) : k.isPass = false ∧ k.isGrotto = true := by
  cases split with
  | false => cases h
  | true =>
    obtain ⟨x, -, rfl⟩ := List.mem_map.1 h
    exact ⟨rfl, rfl⟩

theorem State.filter_isPass_quarterKinds (q : List (Nat × List Word)) :
    (s.quarterKinds ent tile kb nb z split q).filter (·.isPass) = [s.passKind ent tile kb nb z split q] := by
  have hnone : (s.grottoKinds ent tile kb split q).filter (·.isPass) = [] := List.filter_eq_nil_iff.2 fun k hk => by
    simp [(s.isPass_of_mem_grottoKinds ent tile kb split hk).1]
  rw [State.quarterKinds, List.filter_cons_of_pos (by rfl), hnone]

theorem State.filter_isGrotto_quarterKinds (q : List (Nat × List Word)) :
    (s.quarterKinds ent tile kb nb z split q).filter (·.isGrotto) = s.grottoKinds ent tile kb split q := by
  rw [State.quarterKinds, List.filter_cons_of_neg (by exact Bool.false_ne_true)]
  exact List.filter_eq_self.2 fun k hk => (s.isPass_of_mem_grottoKinds ent tile kb split hk).2

/-- The passes of a word are one of each quarter (R300). -/
theorem State.filter_isPass_quarters (qs : List (List (Nat × List Word))) :
    (qs.flatMap (s.quarterKinds ent tile kb nb z split)).filter (·.isPass) = qs.map (s.passKind ent tile kb nb z split) := by
  rw [List.filter_flatMap, List.map_eq_flatMap]
  simp only [s.filter_isPass_quarterKinds]

/-- The requests of a word are those of its quarters, in row-split mode (R95). -/
theorem State.filter_isGrotto_quarters (qs : List (List (Nat × List Word))) :
    (qs.flatMap (s.quarterKinds ent tile kb nb z split)).filter (·.isGrotto) =
      if split then qs.flatMap (s.grottoKinds ent tile kb true) else [] := by
  rw [List.filter_flatMap]
  simp only [s.filter_isGrotto_quarterKinds]
  cases split with
  | true => rfl
  | false => exact List.flatMap_eq_nil_iff.2 fun _ _ => rfl

end Kinds

/-! ## What the word makes of its tiles and its group -/

/-- The tile of a word, and in row-split mode the next, go to a team (R295, R304). -/
def Core.takeTiles (c : Core) (tile : Nat) (split : Bool) (team : Nat) : Core :=
  let own := fun (a : Tile) => { a with owner := some team }
  if split then (c.modTile tile own).modTile (tile + 1) own else c.modTile tile own

theorem Core.tile_takeTiles (c : Core) (tile : Nat) (split : Bool) (team : Nat) (h : tile < c.tiles.length) :
    (c.takeTiles tile split team).tile tile = { c.tile tile with owner := some team } := by
  cases split <;> simp [Core.takeTiles, Core.tile, Core.modTile, List.getD_eq_getElem?_getD, h]

theorem Core.takeTiles_frame (c : Core) (tile : Nat) (split : Bool) (team : Nat) :
    c.takeTiles tile split team = { c with tiles := (c.takeTiles tile split team).tiles } := by
  cases split <;> rfl

/-- The group being issued has its 12 flags (R206). -/
theorem State.issuing_flags (s : State) (hi : s.issuing = true) : s.grp.flags.length = 12 := by
  obtain ⟨g, hg, hs, -⟩ := s.issuing_elim hi
  obtain rfl := s.grp_eq g hg
  obtain ⟨-, -, -, -, hflags, -, -⟩ := (Group.shaped_iff _).1 hs
  exact hflags

/-- The group behind the word: its latches, what it has been charged, and its flag (R206, R301, R303). -/
def Group.afterMma (g : Group) (flag : Option Nat) (reuse : Bool) (bs : List (Nat × List Word)) (costs : List Nat) : Group :=
  { g.latchAfter reuse bs with
    charged := g.charged + costs.sum
    lastCharge := costs.getLastD 0
    flags := flag.elim g.flags fun i => g.flags.modify i (· + 1) }

theorem Group.flags_afterMma (g : Group) (flag : Option Nat) (reuse : Bool) (bs : List (Nat × List Word)) (costs : List Nat)
    (i : Nat) (hi : i < g.flags.length) :
    (g.afterMma flag reuse bs costs).flags.getD i 0 = g.flags.getD i 0 + if flag = some i then 1 else 0 := by
  cases flag with
  | none => simp [Group.afterMma]
  | some j =>
    by_cases h : j = i
    · subst h
      simp [Group.afterMma, List.getD_eq_getElem?_getD, hi]
    · simp [Group.afterMma, List.getD_eq_getElem?_getD, h]

/-- Every pass of the word is issued: the operations of its quarters have entered, its tiles are the team's, and the bucket
and the group are charged (R300, R303). -/
theorem State.mmaIssue_entered (s : State) (ent tile kb nb : Nat) (reuse z split : Bool) (bs : List (Nat × List Word))
    (hi : s.issuing = true) :
    let n := s.mmaIssue ent tile kb nb reuse z split bs
    let qs := ((List.range 4).map fun q => bs.filter (·.1 / 8 == q)).filter (· != [])
    let costs := qs.map fun q => charge (q.map (·.2))
    ∃ t, Entered s t ent split (qs.flatMap (s.quarterKinds ent tile kb nb z split)) ∧ n.mem = s.mem ∧
      n.grp = s.grp.afterMma (s.flag (some false)) reuse bs costs ∧ ∃ gs,
      n.cur = { t.cur.takeTiles tile split s.grp.team with groups := gs, bucket := s.cur.bucket - costs.sum } := by
  intro n qs costs
  obtain ⟨hg, -⟩ := s.issuing_grp hi
  have hk := State.core_lt_of_group s _ _ _ hg
  let t := qs.foldl (fun t q => t.issueQuarter s.nextId ent tile kb nb z split q) s
  have entered : Entered s t ent split (qs.flatMap (s.quarterKinds ent tile kb nb z split)) :=
    s.issueQuarters_entered ent tile kb nb z split s.nextId qs hk
  let after := fun (g : Group) => g.afterMma (s.flag (some false)) reuse bs costs
  let pay := fun (c : Core) => { c with bucket := c.bucket - costs.sum }
  let u := (t.onCore (·.takeTiles tile split t.grp.team)).onCore pay
  have hn : n = u.onGrp after := rfl
  have hu : u.cur = { t.cur.takeTiles tile split s.grp.team with bucket := s.cur.bucket - costs.sum } := by
    have htk := entered.core_lt hk
    have htiles := t.cur_onCore (·.takeTiles tile split t.grp.team) htk
    have hpay := (t.onCore (·.takeTiles tile split t.grp.team)).cur_onCore pay
      (by simpa [State.onCore, State.modCore] using htk)
    refine hpay.trans ?_
    rw [htiles, entered.grp_eq, Core.takeTiles_frame, entered.core]
  have hslot : (u.core u.issue.core).group u.issue.slot = some s.grp := by
    have hgroups : u.cur.groups = s.cur.groups := by rw [hu, Core.takeTiles_frame, ← entered.groups_eq]
    have hissue : u.issue = s.issue := entered.issue_eq
    change u.cur.group u.issue.slot = _
    rw [Core.group, hgroups, hissue]
    exact hg
  have hcur : n.cur = u.cur.modGroup u.issue.slot after := u.core_modCore _ _ (State.core_lt_of_group u _ _ _ hslot)
  refine ⟨t, entered, entered.mem_eq, ?_, (u.cur.modGroup u.issue.slot after).groups, ?_⟩
  · rw [hn, State.grp_onGrp u after _ hslot, State.grp_eq u _ hslot]
  · rw [hcur, hu]
    rfl

/-! ## The word -/

/-- An `mma` whose checks pass and that need not wait issues every pass (R299, R300). -/
theorem mma_eq (s : State) (c r z : Bool) (t : BitVec 4) (a : BitVec 7) (h : BitVec 6) (m : BitVec 3)
    (he : s.issue.exec ≠ 0) (hm : m.toNat < 2) (ha : s.vOk a.toNat = true) :
    let d := s.issue.src.rs h.toNat
    let ent := descEntry d
    let e := s.cur.entry ent
    let split := m == 1
    let bs := (lanesOf s.issue.exec).map fun l => (l, (s.blockOf a.toNat (logicalK e.bfmt e.sp) r l).getD [])
    let qs := ((List.range 4).map fun q => bs.filter (·.1 / 8 == q)).filter (· != [])
    let cost := (qs.map fun q => charge (q.map (·.2))).sum
    s.cur.names d s.tenant = true → descReserved d = false → descKblk d < e.kblk → descNblk d < e.nblk →
    (split = true → t ≠ 15 ∧ e.split = true ∧ (s.firedCold e).length ≤ 256) → e.fault true = none →
    (∀ q, q < 4 → s.quarterCause a.toNat r true e q = none) → s.mmaWait e ent t.toNat split cost = none →
    exec (.mma c t a h r z m) s = .next (s.mmaIssue ent t.toNat (descKblk d) (descNblk d) r z split bs) := by
  intro d ent e split bs qs cost hn hr hkb hnb hsplit hfault hquarters hwait
  have hlive : s.cur.live d = true := Core.live_of_names hn
  have hmode : (!split || (t != 15 && (!s.cur.live d || (e.split && decide ((s.firedCold e).length ≤ 256))))) = true := by
    cases hs : split with
    | false => rfl
    | true =>
      obtain ⟨ht, hes, hcold⟩ := hsplit hs
      simpa [hes, hcold] using ht
  have hok : (decide (m.toNat < 2) && s.vOk a.toNat && !descReserved d &&
      (!s.cur.live d || (decide (descKblk d < e.kblk) && decide (descNblk d < e.nblk))) &&
      (!split || (t != 15 && (!s.cur.live d || (e.split && decide ((s.firedCold e).length ≤ 256)))))) = true := by
    rw [hmode, ha, hr]
    simp [hm, hkb, hnb]
  have hcauses : (List.range 4).filterMap (fun q =>
      (s.quarterCause a.toNat r (s.cur.live d) e q).map fun c => (q, c)) = [] := by
    refine List.filterMap_eq_nil_iff.2 fun q hq => ?_
    rw [hlive, hquarters q (List.mem_range.1 hq), Option.map_none]
  have hknown : e.fault (s.cur.names d s.tenant) = none := by rw [hn, hfault]
  refine (s.checked_ok _ _ hok).trans (congrArg Host.Outcome.next ((if_neg he).trans ?_))
  refine (if_neg (not_not_intro (List.append_eq_nil_iff.2 ⟨?lanes, ?word⟩))).trans (congrArg (s.after · _) hwait)
  case lanes => exact congrArg (List.flatMap _ ·) hcauses
  case word => rw [hknown]

/-- Settles O33: the word issues every pass; what its quarters' operations make of the core, and what the word then makes of its
tiles, its bucket and its group, is read off. -/
theorem matrixMultiply : Obligations.MatrixMultiply := by
  unfold Obligations.MatrixMultiply
  intro s c r z t a h m hissuing he hm ha _ d ent e split bs qs cost hn hr hkb hnb hsplit hfault hquarters hwait
  obtain ⟨p, entered, hmem, hgrp, gs, hcur⟩ := s.mmaIssue_entered ent t.toNat (descKblk d) (descNblk d) r z split bs
    hissuing
  obtain ⟨fs, hflight, hkinds⟩ := entered.flight
  refine ⟨_, mma_eq s c r z t a h m he hm ha hn hr hkb hnb hsplit hfault hquarters hwait, ?_⟩
  generalize s.mmaIssue ent t.toNat (descKblk d) (descNblk d) r z split bs = n at hmem hgrp hcur
  have hnew : n.cur.flight = s.cur.flight ++ fs := by rw [hcur, Core.takeTiles_frame, ← hflight]
  have hdrop : n.cur.flight.drop s.cur.flight.length = fs := by rw [hnew, List.drop_left]
  refine ⟨fun a => congrArg (·.read a) hmem, by rw [hgrp]; rfl, by rw [hgrp]; rfl, by rw [hcur], by rw [hgrp]; rfl, ?passes,
    ?requests, fun i hi => ?flags, by rw [hnew, List.take_left], fun ht => ?owned, fun hs => ?residencies⟩
  case passes =>
    have hpasses := s.filter_isPass_quarters ent t.toNat (descKblk d) (descNblk d) z split qs
    rw [← hkinds, List.filter_map] at hpasses
    rw [hdrop]
    exact hpasses
  case requests =>
    have hrequests := s.filter_isGrotto_quarters ent t.toNat (descKblk d) (descNblk d) z split qs
    rw [← hkinds, List.filter_map] at hrequests
    rw [hdrop]
    exact hrequests
  case flags =>
    rw [hgrp]
    exact s.grp.flags_afterMma _ _ _ _ i (s.issuing_flags hissuing ▸ hi)
  case owned =>
    have htiles : p.cur.tiles = s.cur.tiles := by rw [entered.core]
    have htile : n.cur.tile t.toNat = { s.cur.tile t.toNat with owner := some s.grp.team } := by
      have htaken := p.cur.tile_takeTiles t.toNat split s.grp.team (htiles ▸ ht)
      rw [Core.tile, Core.tile, htiles] at htaken
      rw [hcur]
      exact htaken
    rw [htile]
    exact ⟨rfl, rfl⟩
  case residencies =>
    rw [hcur, Core.takeTiles_frame]
    exact entered.table hs

end Sys2Proof.Machine
end
